-- ==== Sys2Proof/Word.lean ====
section
/-! DEFINITION. The words of the device and the small data types that the commands carry: who sends a request, which
core an instruction runs on, the operand groups of the Spaner formats (R448), and what arrives on the port and the
pins. Nothing here computes. -/

namespace Sys2Proof

/-- One byte. -/
abbrev Byte := BitVec 8
/-- A 32-bit register of the register space (R14). -/
abbrev W32 := BitVec 32
/-- A 64-bit general register of a Spaner core (R419). -/
abbrev W64 := BitVec 64
/-- Sparse data by number: strictly rising keys, and no entry equal to the default of its key. -/
abbrev SMap (α : Type) := List (Nat × α)

/-- The agents that can address a request to the device: a partner session slot (R137), the I3C sideband (R949), or a
peer rank (R786). -/
inductive Who where
  | sess (k : Fin 8)
  | i3c
  | peer (rank : Nat)
deriving DecidableEq, Repr

/-- A request: who sent it and the SEQ of the message that carries it (R170); SEQ is 0 where none applies. -/
structure Req where
  who : Who
  seq : Nat
deriving DecidableEq, Repr

/-- A Spaner core: its Spire's physical index (R6) and its number in the Spire (R426). -/
structure CoreRef where
  spire : Fin 64
  core  : Fin 16
deriving DecidableEq, Repr

/-- The guard of an instruction: predicate PNUM, negated when PNEG is 1 (R454). -/
structure Guard where
  neg : Bool
  num : Fin 8
deriving DecidableEq, Repr

/-- A general register number g0–g31. -/
abbrev Reg := Fin 32
/-- A descriptor register number d0–d15. -/
abbrev DReg := Fin 16
/-- A predicate number p0–p7. -/
abbrev PReg := Fin 8

/-- The compare conditions of cmp, cmpi and bcc (FUNC 0x00–0x05). -/
inductive Cond where
  | eq | ne | lt | ge | ltu | geu
deriving DecidableEq, Repr

/-- The conditions of fcmp (FUNC 0x00–0x03). -/
inductive FCond where
  | eq | lt | le | un
deriving DecidableEq, Repr

/-- Access sizes of the M and D formats: 1, 2, 4 or 8 bytes (R448). -/
inductive ASize where
  | b | h | w | d
deriving DecidableEq, Repr

/-- SPACE of the M format: core data memory, device address, or the descriptor section (dld only). -/
inductive Space where
  | data | dev | desc
deriving DecidableEq, Repr

/-- SCOPE of engine issues and fences (R474, R484). -/
inductive Scope where
  | spire | dev | sys
deriving DecidableEq, Repr

/-- The E format's operands: descriptor register, counter offset register, virtual counter, increment, scope. -/
structure EOp where
  a     : DReg
  b     : Reg
  vc    : BitVec 16
  inc   : BitVec 8
  scope : Scope
  vcreg : Bool
deriving DecidableEq, Repr

/-- The S format's operands: virtual counter or lane group, its offset register, and the value (g[C] or IMMV). -/
structure SOp where
  vc    : BitVec 16
  b     : Reg
  vcreg : Bool
  c     : Reg
  imm   : Bool
  immv  : BitVec 19
deriving DecidableEq, Repr

/-- The identity key that the SMD generates at manufacture (R909): the secret seeds of SP 800-208's key generation and randomiser, and the
public seed. -/
structure IdKey where
  sk   : BitVec 256 := 0
  prf  : BitVec 256 := 0
  seed : BitVec 256 := 0
deriving DecidableEq, Repr

/-- What the part holds from manufacture on (R5, R907, R909, R950): the Spire enables, the stack size grade, the base MAC address, the
identity key, and the root and public seed of the vendor key. No command changes them. -/
structure Fuses where
  spires     : BitVec 64
  stackGib   : Nat
  stackHigh  : Nat
  mac        : BitVec 48
  id         : IdKey := {}
  vendorRoot : BitVec 256 := 0
  vendorSeed : BitVec 256 := 0
deriving DecidableEq, Repr

/-- What the ROM's flash discovery finds (R100). -/
structure FlashProbe where
  found : Bool
  quad  : Bool
deriving DecidableEq, Repr

/-- What one pass of the power manager reads (R62, R67, R68): package power in W, and per quadrant the hottest junction temperature in
°C. -/
structure PowerSample where
  pkgW : Nat
  tj0 : Int
  tj1 : Int
  tj2 : Int
  tj3 : Int
deriving DecidableEq, Repr

/-- A DDR5 channel's signal lands (R41): data, check bits, and the signals that JESD79-5 names, by their place in its list. -/
inductive DdrSignal where
  | dq (n : Fin 64)
  | cb (n : Fin 16)
  | resetN
  | command (n : Nat)
  | strobe (n : Nat)
deriving DecidableEq, Repr

/-- A differential pair's half. -/
inductive Half where
  | p | n
deriving DecidableEq, Repr

/-- The sideband and clock signals of R43. -/
inductive SideSignal where
  | refclk (h : Half)
  | ethRefclk (h : Half)
  | synceRclk (h : Half)
  | memRefclkW (h : Half)
  | memRefclkE (h : Half)
  | hbmRefclkNorth (h : Half)
  | hbmRefclkSouth (h : Half)
  | devResetN
  | pwrGood
  | thermTripN
  | alertN
  | i3cScl
  | i3cSda
  | i3cAddr (n : Fin 2)
  | avsClk
  | avsMdata
  | avsSdata
  | spiSck
  | spiCsN
  | spiIo (n : Fin 4)
  | tck
  | tms
  | tdi
  | trstN
  | tdo
deriving DecidableEq, Repr

/-- A signal land (R41–R43): what boundary scan covers (R45). -/
inductive Signal where
  | ethTx (lane : Fin 8) (h : Half)
  | ethRx (lane : Fin 8) (h : Half)
  | ddr (chan : Fin 16) (s : DdrSignal)
  | side (s : SideSignal)
deriving DecidableEq, Repr

/-- One scan of the boundary register: the levels that the board holds on the signal lands, and what is shifted in on TDI for their cells
(R45; log entry 116). -/
structure BoundaryScan where
  levels : List (Signal × Bool) := []
  tdi : List (Signal × Bool) := []
deriving DecidableEq, Repr

/-- The stable states of the IEEE 1149.1 TAP controller, in one of which a TAP command leaves it (R45, R933; log entry 116). -/
inductive TapState where
  | testLogicReset
  | runTestIdle
  | shiftDr
  | pauseDr
  | shiftIr
  | pauseIr
deriving DecidableEq, Repr

/-- The address that a controller on the I3C lands uses: the dynamic one it has assigned, or a static one in I2C fallback (R44). -/
inductive I3cDest where
  | dynamic
  | static (a : Nat)
deriving DecidableEq, Repr

/-- The glacier-tier population modes (R249). -/
inductive GlacierMode where
  | m | s | d
deriving DecidableEq, Repr

/-- A DDR5 channel's DIMM population as training finds it (R249). -/
structure DimmPop where
  mrdimm  : Bool
  gib     : Nat
  rank    : Nat
  mts     : Nat
  count   : Nat
  /-- The channel's DIMMs are alike. -/
  uniform : Bool
deriving DecidableEq, Repr

/-- What memory training reports (R104, R106): which stacks and channels trained, and what each channel holds. -/
structure Training where
  stackOk : BitVec 8
  chanOk  : BitVec 16
  dimms  : List DimmPop
deriving DecidableEq, Repr

/-- A transmit rate that congestion notification governs: a session's logical port or a queue pair (R149). -/
inductive RateTarget where
  | lport (s : Fin 8)
  | qp (n : Fin 4096)
deriving DecidableEq, Repr

/-- What a received frame carries (R139, R142). -/
inductive FrameKind where
  | ptp
  | pfc
  | roce (qpn : Nat)
  | udp (dport : Nat)
  | other
deriving DecidableEq, Repr

/-- Where a frame comes from or goes to: IP address and version, UDP port, the MAC address of the next hop, and the VLAN identifier, 0 for
untagged (R139, R169, R786, R958). -/
structure NetAddr where
  v6   : Bool := false
  ip   : Nat := 0
  port : Nat := 0
  mac  : Nat := 0
  vlan : Nat := 0
deriving DecidableEq, Repr

/-- What a protected frame carries after its addresses (R152, R925): the SecTAG's association number, the low 32 bits of its packet number
and its SCI (the transmitter's MAC address, then GEN), the encrypted data and the check value. -/
structure MacsecTag where
  an   : BitVec 2
  pn   : BitVec 32
  sci  : BitVec 64
  data : List Byte
  icv  : List Byte
deriving DecidableEq, Repr

/-- A frame received on sub-port `sub`: its length, addressing, congestion mark and MACsec tag, where it comes from, and, for UDP, the
datagram's bytes. Of a protected frame, all but the length and the MAC addresses lies in the encrypted data, and the fields here say
nothing. -/
structure Frame where
  sub    : Fin 8
  len    : Nat
  dstMac : BitVec 48
  vlan   : BitVec 12
  kind   : FrameKind
  ce     : Bool
  macsec : Option MacsecTag
  src    : NetAddr
  bytes  : List Byte
deriving DecidableEq, Repr

/-- Where an uncorrectable error lies: in memory that a task reads, in a dirty Dome cache line (by an address in it), or in both copies
of a task's journal record (R879, R881, R882). -/
inductive UeSite where
  | read (addr key asn : Nat)
  | dirty (addr : Nat)
  | journal (key asn : Nat)
deriving DecidableEq, Repr

/-- What a patrol scrub finds in a line (R274, R275). -/
inductive ScrubResult where
  | clean
  | corrected
  | uncorrectable
deriving DecidableEq, Repr

/-- How PTP messages travel (R156). -/
inductive PtpTransport where
  | udp4
  | udp6
  | ethernet
deriving DecidableEq, Repr

/-- One Sync exchange of the delay request-response mechanism (R156–R158): the sub-port and the transport it runs over, its PTP domain, the PTP times at
which the master sent Sync and saw Delay_Req, the ticks at which the device saw Sync and sent Delay_Req, and the frequency error of the
tick against the master in parts per 10^9. -/
structure PtpSample where
  sub      : Fin 8
  transport : PtpTransport
  /-- domainNumber of its messages. -/
  domain   : BitVec 8
  /-- The time in Sync itself (one-step). -/
  origin   : Nat
  /-- The time in Follow_Up, where Sync is two-step. -/
  followUp : Option Nat
  syncSeen : Nat
  reqSent  : Nat
  reqSeen  : Nat
  ppb      : Int
deriving DecidableEq, Repr

end Sys2Proof
end

