-- ==== Sys2Proof/Syntax.lean ====
section
/-! DEFINITION. The commands of the device, one constructor per row of spec/opcode_table.json. A row that names a
Spaner instruction carries the core that runs it, its guard and its operands; a row that names a message carries the
request and the message's payload bytes; a row that names a register write carries the request, the register's index
where it has several, and the value; a row that names an event carries what the event brings from outside. The
Spaner instructions stand first, the other rows follow in the table's order. -/

namespace Sys2Proof

inductive Instr where
  /-- GATHER (R371): A GATHER request delivers one output row per list position in list order. -/
  | gather (k : CoreRef) (g : Guard) (e : EOp)
  /-- GATHER_REDUCE (R363): A GATHER_REDUCE request returns one reduced row per segment by fixed trees. -/
  | gatherReduce (k : CoreRef) (g : Guard) (e : EOp)
  /-- GATHER_AMAX (R373): A GATHER_AMAX request gathers rows and writes their amax to a tensor-scale register. -/
  | gatherAmax (k : CoreRef) (g : Guard) (e : EOp)
  /-- SCATTER (R375): A SCATTER request writes source rows into the table, last position standing. -/
  | scatter (k : CoreRef) (g : Guard) (e : EOp)
  /-- SCATTER_ADD (R376): A SCATTER_ADD request adds the folded source rows into the stored rows. -/
  | scatterAdd (k : CoreRef) (g : Guard) (e : EOp)
  /-- PREFETCH_BATCH (R380): A PREFETCH_BATCH request installs directory and row lines in the Dome cache. -/
  | prefetchBatch (k : CoreRef) (g : Guard) (e : EOp)
  /-- END (R488): The end instruction executes and waits for every operation of the item. -/
  | endI (k : CoreRef) (g : Guard)
  /-- ADD (R452): Integer add of two registers. -/
  | add (k : CoreRef) (g : Guard) (a : Reg) (b : Reg) (c : Reg)
  /-- SUB (R452): Integer subtract of two registers. -/
  | sub (k : CoreRef) (g : Guard) (a : Reg) (b : Reg) (c : Reg)
  /-- AND (R452): Bitwise and of two registers. -/
  | and (k : CoreRef) (g : Guard) (a : Reg) (b : Reg) (c : Reg)
  /-- OR (R452): Bitwise or of two registers. -/
  | or (k : CoreRef) (g : Guard) (a : Reg) (b : Reg) (c : Reg)
  /-- XOR (R452): Bitwise xor of two registers. -/
  | xor (k : CoreRef) (g : Guard) (a : Reg) (b : Reg) (c : Reg)
  /-- SHL (R452): Shift left by a register amount. -/
  | shl (k : CoreRef) (g : Guard) (a : Reg) (b : Reg) (c : Reg)
  /-- SHR (R452): Logical shift right by a register amount. -/
  | shr (k : CoreRef) (g : Guard) (a : Reg) (b : Reg) (c : Reg)
  /-- SRA (R452): Arithmetic shift right by a register amount. -/
  | sra (k : CoreRef) (g : Guard) (a : Reg) (b : Reg) (c : Reg)
  /-- MUL (R452): Low 64 bits of a product. -/
  | mul (k : CoreRef) (g : Guard) (a : Reg) (b : Reg) (c : Reg)
  /-- MULHU (R452): High 64 bits of an unsigned product. -/
  | mulhu (k : CoreRef) (g : Guard) (a : Reg) (b : Reg) (c : Reg)
  /-- MULH (R452): High 64 bits of a signed product. -/
  | mulh (k : CoreRef) (g : Guard) (a : Reg) (b : Reg) (c : Reg)
  /-- DIVU (R452): Unsigned quotient, all ones on division by zero. -/
  | divu (k : CoreRef) (g : Guard) (a : Reg) (b : Reg) (c : Reg)
  /-- REMU (R452): Unsigned remainder. -/
  | remu (k : CoreRef) (g : Guard) (a : Reg) (b : Reg) (c : Reg)
  /-- DIV (R452): Signed quotient rounded toward zero. -/
  | div (k : CoreRef) (g : Guard) (a : Reg) (b : Reg) (c : Reg)
  /-- REM (R452): Signed remainder with the sign of B. -/
  | rem (k : CoreRef) (g : Guard) (a : Reg) (b : Reg) (c : Reg)
  /-- MINU (R452): Unsigned minimum. -/
  | minu (k : CoreRef) (g : Guard) (a : Reg) (b : Reg) (c : Reg)
  /-- MAXU (R452): Unsigned maximum. -/
  | maxu (k : CoreRef) (g : Guard) (a : Reg) (b : Reg) (c : Reg)
  /-- MIN (R452): Signed minimum. -/
  | min (k : CoreRef) (g : Guard) (a : Reg) (b : Reg) (c : Reg)
  /-- MAX (R452): Signed maximum. -/
  | max (k : CoreRef) (g : Guard) (a : Reg) (b : Reg) (c : Reg)
  /-- POPC (R452): Count of 1 bits. -/
  | popc (k : CoreRef) (g : Guard) (a : Reg) (b : Reg)
  /-- CLZ (R452): Count of leading zeros. -/
  | clz (k : CoreRef) (g : Guard) (a : Reg) (b : Reg)
  /-- ADDI (R451): Add a sign-extended immediate. -/
  | addi (k : CoreRef) (g : Guard) (a : Reg) (b : Reg) (imm : W32)
  /-- ANDI (R451): And with an immediate. -/
  | andi (k : CoreRef) (g : Guard) (a : Reg) (b : Reg) (imm : W32)
  /-- ORI (R451): Or with an immediate. -/
  | ori (k : CoreRef) (g : Guard) (a : Reg) (b : Reg) (imm : W32)
  /-- XORI (R451): Xor with an immediate. -/
  | xori (k : CoreRef) (g : Guard) (a : Reg) (b : Reg) (imm : W32)
  /-- SHLI (R451): Shift left by an immediate. -/
  | shli (k : CoreRef) (g : Guard) (a : Reg) (b : Reg) (imm : W32)
  /-- SHRI (R451): Logical shift right by an immediate. -/
  | shri (k : CoreRef) (g : Guard) (a : Reg) (b : Reg) (imm : W32)
  /-- SRAI (R451): Arithmetic shift right by an immediate. -/
  | srai (k : CoreRef) (g : Guard) (a : Reg) (b : Reg) (imm : W32)
  /-- MULI (R451): Multiply by an immediate. -/
  | muli (k : CoreRef) (g : Guard) (a : Reg) (b : Reg) (imm : W32)
  /-- LI (R451): Load a sign-extended immediate. -/
  | li (k : CoreRef) (g : Guard) (a : Reg) (imm : W32)
  /-- LIH (R451): Place an immediate in the high word above B's low word. -/
  | lih (k : CoreRef) (g : Guard) (a : Reg) (b : Reg) (imm : W32)
  /-- CMP (R448): Compare two registers and set a predicate. -/
  | cmp (k : CoreRef) (g : Guard) (cd : Cond) (p : PReg) (b : Reg) (c : Reg)
  /-- CMPI (R448): Compare a register with an immediate and set a predicate. -/
  | cmpi (k : CoreRef) (g : Guard) (cd : Cond) (p : PReg) (b : Reg) (imm : W32)
  /-- PAND (R448): Predicate and. -/
  | pand (k : CoreRef) (g : Guard) (p : PReg) (b : PReg) (c : PReg)
  /-- POR (R448): Predicate or. -/
  | por (k : CoreRef) (g : Guard) (p : PReg) (b : PReg) (c : PReg)
  /-- PXOR (R448): Predicate xor. -/
  | pxor (k : CoreRef) (g : Guard) (p : PReg) (b : PReg) (c : PReg)
  /-- PANDN (R448): Predicate and-not. -/
  | pandn (k : CoreRef) (g : Guard) (p : PReg) (b : PReg) (c : PReg)
  /-- FADD (R457): Floating-point add. -/
  | fadd (k : CoreRef) (g : Guard) (bf : Bool) (a : Reg) (b : Reg) (c : Reg)
  /-- FSUB (R457): Floating-point subtract. -/
  | fsub (k : CoreRef) (g : Guard) (bf : Bool) (a : Reg) (b : Reg) (c : Reg)
  /-- FMUL (R457): Floating-point multiply. -/
  | fmul (k : CoreRef) (g : Guard) (bf : Bool) (a : Reg) (b : Reg) (c : Reg)
  /-- FDIV (R457): Floating-point divide. -/
  | fdiv (k : CoreRef) (g : Guard) (bf : Bool) (a : Reg) (b : Reg) (c : Reg)
  /-- FSQRT (R457): Floating-point square root. -/
  | fsqrt (k : CoreRef) (g : Guard) (bf : Bool) (a : Reg) (b : Reg)
  /-- FMIN (R457): Floating-point minimum as R362 states. -/
  | fmin (k : CoreRef) (g : Guard) (bf : Bool) (a : Reg) (b : Reg) (c : Reg)
  /-- FMAX (R457): Floating-point maximum as R362 states. -/
  | fmax (k : CoreRef) (g : Guard) (bf : Bool) (a : Reg) (b : Reg) (c : Reg)
  /-- FFMA (R457): Fused multiply-add with one rounding. -/
  | ffma (k : CoreRef) (g : Guard) (bf : Bool) (a : Reg) (b : Reg) (c : Reg)
  /-- FABS (R457): Clear the sign. -/
  | fabs (k : CoreRef) (g : Guard) (bf : Bool) (a : Reg) (b : Reg)
  /-- FNEG (R457): Invert the sign. -/
  | fneg (k : CoreRef) (g : Guard) (bf : Bool) (a : Reg) (b : Reg)
  /-- FCVT_S_L (R457): Signed 64-bit integer to FP32. -/
  | fcvtSL (k : CoreRef) (g : Guard) (a : Reg) (b : Reg)
  /-- FCVT_L_S (R460): FP32 to signed 64-bit integer, saturating. -/
  | fcvtLS (k : CoreRef) (g : Guard) (a : Reg) (b : Reg)
  /-- FCVT_BF_S (R458): FP32 to BF16 rounded to nearest even. -/
  | fcvtBfS (k : CoreRef) (g : Guard) (a : Reg) (b : Reg)
  /-- FCVT_S_BF (R457): BF16 to FP32 exactly. -/
  | fcvtSBf (k : CoreRef) (g : Guard) (a : Reg) (b : Reg)
  /-- FCMP (R461): Floating-point compare setting a predicate. -/
  | fcmp (k : CoreRef) (g : Guard) (cd : FCond) (p : PReg) (b : Reg) (c : Reg)
  /-- LD (R465): Load 1-8 bytes from data memory, Spire store or tier. -/
  | ld (k : CoreRef) (g : Guard) (sz : ASize) (sign : Bool) (sp : Space) (a : Reg) (b : Reg) (off : W32)
  /-- ST (R462): Store 1-8 bytes to data memory, Spire store or tier. -/
  | st (k : CoreRef) (g : Guard) (sz : ASize) (sp : Space) (b : Reg) (c : Reg) (off : W32)
  /-- B (R470): Unconditional branch. -/
  | b (k : CoreRef) (g : Guard) (imm : W32)
  /-- BCC (R470): Conditional branch on a comparison of two registers. -/
  | bcc (k : CoreRef) (g : Guard) (cd : Cond) (b : Reg) (c : Reg) (imm : W32)
  /-- JAL (R470): Jump and link. -/
  | jal (k : CoreRef) (g : Guard) (a : Reg) (imm : W32)
  /-- JR (R470): Jump to a register plus offset. -/
  | jr (k : CoreRef) (g : Guard) (b : Reg) (imm : W32)
  /-- DSET (R466): Write bytes of a register into a descriptor register. -/
  | dset (k : CoreRef) (g : Guard) (sz : ASize) (d : DReg) (b : Reg) (byte : BitVec 6)
  /-- DGET (R466): Read bytes of a descriptor register into a general register. -/
  | dget (k : CoreRef) (g : Guard) (sz : ASize) (a : Reg) (d : DReg) (byte : BitVec 6)
  /-- DCLR (R466): Clear a descriptor register. -/
  | dclr (k : CoreRef) (g : Guard) (d : DReg)
  /-- DMOV (R466): Copy one descriptor register to another. -/
  | dmov (k : CoreRef) (g : Guard) (d : DReg) (e : DReg)
  /-- DLD (R464): Load 64 bytes into a descriptor register, including from the descriptor section. -/
  | dld (k : CoreRef) (g : Guard) (sp : Space) (d : DReg) (b : Reg) (off : W32)
  /-- DST (R462): Store a descriptor register's 64 bytes. -/
  | dst (k : CoreRef) (g : Guard) (sp : Space) (d : DReg) (b : Reg) (off : W32)
  /-- MMA_D (R508): Issue a matrix multiply whose headerless tiles default to DENSE. -/
  | mmaD (k : CoreRef) (g : Guard) (e : EOp)
  /-- MMA_S (R508): Issue a matrix multiply whose headerless tiles default to S24. -/
  | mmaS (k : CoreRef) (g : Guard) (e : EOp)
  /-- SPCMP (R534): Encode dense weight panels into ZERO, S24 or DENSE tiles, optionally under a fixed mask. -/
  | spcmp (k : CoreRef) (g : Guard) (e : EOp)
  /-- SEGRED (R551): Aggregate-unit segmented reduction of rows by a RED code. -/
  | segred (k : CoreRef) (g : Guard) (e : EOp)
  /-- COMBINE (R553): Aggregate-unit combination of NSEG partials by the pairwise tree. -/
  | combine (k : CoreRef) (g : Guard) (e : EOp)
  /-- EWISE_COPY (R556): Element-wise copy converted to DFMT. -/
  | ewiseCopy (k : CoreRef) (g : Guard) (e : EOp)
  /-- EWISE_ADD (R556): Element-wise add. -/
  | ewiseAdd (k : CoreRef) (g : Guard) (e : EOp)
  /-- EWISE_SUB (R556): Element-wise subtract. -/
  | ewiseSub (k : CoreRef) (g : Guard) (e : EOp)
  /-- EWISE_MUL (R556): Element-wise multiply. -/
  | ewiseMul (k : CoreRef) (g : Guard) (e : EOp)
  /-- EWISE_DIV (R556): Element-wise divide. -/
  | ewiseDiv (k : CoreRef) (g : Guard) (e : EOp)
  /-- EWISE_MIN (R556): Element-wise minimum. -/
  | ewiseMin (k : CoreRef) (g : Guard) (e : EOp)
  /-- EWISE_MAX (R556): Element-wise maximum. -/
  | ewiseMax (k : CoreRef) (g : Guard) (e : EOp)
  /-- EWISE_FMA (R556): Element-wise A × SCALAR + B with one rounding. -/
  | ewiseFma (k : CoreRef) (g : Guard) (e : EOp)
  /-- EWISE_SCALE (R556): Element-wise A × SCALAR. -/
  | ewiseScale (k : CoreRef) (g : Guard) (e : EOp)
  /-- EWISE_RELU (R556): Element-wise max(A, +0). -/
  | ewiseRelu (k : CoreRef) (g : Guard) (e : EOp)
  /-- EWISE_GELU (R557): Element-wise GELU by the fixed algorithm. -/
  | ewiseGelu (k : CoreRef) (g : Guard) (e : EOp)
  /-- EWISE_SILU (R557): Element-wise SiLU. -/
  | ewiseSilu (k : CoreRef) (g : Guard) (e : EOp)
  /-- EWISE_SIGMOID (R557): Element-wise sigmoid. -/
  | ewiseSigmoid (k : CoreRef) (g : Guard) (e : EOp)
  /-- EWISE_TANH (R557): Element-wise tanh. -/
  | ewiseTanh (k : CoreRef) (g : Guard) (e : EOp)
  /-- EWISE_EXP (R557): Element-wise exponential. -/
  | ewiseExp (k : CoreRef) (g : Guard) (e : EOp)
  /-- EWISE_LOG (R557): Element-wise logarithm. -/
  | ewiseLog (k : CoreRef) (g : Guard) (e : EOp)
  /-- EWISE_RSQRT (R557): Element-wise reciprocal square root. -/
  | ewiseRsqrt (k : CoreRef) (g : Guard) (e : EOp)
  /-- EWISE_ABS (R556): Element-wise absolute value. -/
  | ewiseAbs (k : CoreRef) (g : Guard) (e : EOp)
  /-- EWISE_OR (R556): Element-wise logical or giving 1.0 or +0. -/
  | ewiseOr (k : CoreRef) (g : Guard) (e : EOp)
  /-- EWISE_AND (R556): Element-wise logical and giving 1.0 or +0. -/
  | ewiseAnd (k : CoreRef) (g : Guard) (e : EOp)
  /-- SM_BLOCK (R559): Streaming-softmax weights of a score block with updated row state. -/
  | smBlock (k : CoreRef) (g : Guard) (e : EOp)
  /-- SM_RESCALE (R561): Rescale the output accumulator and add the new partial. -/
  | smRescale (k : CoreRef) (g : Guard) (e : EOp)
  /-- SM_FINAL (R562): Normalise the output by the compensated running sum. -/
  | smFinal (k : CoreRef) (g : Guard) (e : EOp)
  /-- SM_MERGE (R563): Merge two partial softmax results of consecutive key ranges. -/
  | smMerge (k : CoreRef) (g : Guard) (e : EOp)
  /-- SEG_SOFTMAX (R565): Softmax over the rows of each segment, per column. -/
  | segSoftmax (k : CoreRef) (g : Guard) (e : EOp)
  /-- OPTSTEP (R623): Fused optimiser step updating BF16 weights and narrow moments. -/
  | optstep (k : CoreRef) (g : Guard) (e : EOp)
  /-- SCAN (R588): qscan SCAN reads a tensor and derives its tensor or group scales. -/
  | scan (k : CoreRef) (g : Guard) (e : EOp)
  /-- DERIVE (R587): qscan DERIVE turns an amax held in a register into a scale. -/
  | derive (k : CoreRef) (g : Guard) (e : EOp)
  /-- QSCAN_LOAD (R587): qscan LOAD copies a scale record into a register. -/
  | qscanLoad (k : CoreRef) (g : Guard) (e : EOp)
  /-- QSCAN_STORE (R587): qscan STORE copies a register into a scale record. -/
  | qscanStore (k : CoreRef) (g : Guard) (e : EOp)
  /-- QCONV (R598): Convert a tensor to a narrow format under its scale, counting underflows and saturations. -/
  | qconv (k : CoreRef) (g : Guard) (e : EOp)
  /-- STRM_ARM (R656): Arm a stream, which waits for its buffer, or take the short path. -/
  | strmArm (k : CoreRef) (g : Guard) (e : EOp)
  /-- STRM_REARM (R658): Re-arm a persistent stream with new tier-side fields, pending until the pass ends. -/
  | strmRearm (k : CoreRef) (g : Guard) (e : EOp)
  /-- STRM_ADV (R647): Hand over the consumer's next slot for refilling or draining. -/
  | strmAdv (k : CoreRef) (g : Guard) (e : EOp)
  /-- STRM_CLOSE (R656): Close a stream once its transfers are done. -/
  | strmClose (k : CoreRef) (g : Guard) (e : EOp)
  /-- SIG (R478): Add a value to a counter when the instruction retires. -/
  | sig (k : CoreRef) (g : Guard) (o : SOp)
  /-- WAIT_GE (R479): Hold until a counter reaches a value. -/
  | waitGe (k : CoreRef) (g : Guard) (o : SOp)
  /-- WAIT_C (R760): Hold until a counter reaches a value, then subtract it (T7 convention). -/
  | waitC (k : CoreRef) (g : Guard) (o : SOp)
  /-- ARRIVE (R744): Raise one lane of a lane group by 1. -/
  | arrive (k : CoreRef) (g : Guard) (o : SOp)
  /-- WAIT_B (R745): Hold until the least lane of a group reaches a value. -/
  | waitB (k : CoreRef) (g : Guard) (o : SOp)
  /-- CREAD (R482): Read a counter's present value into a register. -/
  | cread (k : CoreRef) (g : Guard) (a : Reg) (o : SOp)
  /-- FENCE_SPIRE (R484): Retire when earlier stores are visible to the whole Spire. -/
  | fenceSpire (k : CoreRef) (g : Guard)
  /-- FENCE_DEV (R484): Retire when earlier stores are visible device-wide. -/
  | fenceDev (k : CoreRef) (g : Guard)
  /-- FENCE_SYS (R484): Retire when earlier stores are visible device-wide and ordered before later outbound messages. -/
  | fenceSys (k : CoreRef) (g : Guard)
  /-- SPAWN (R485): Copy a descriptor register to the dispatcher as a new work item of the task. -/
  | spawn (k : CoreRef) (g : Guard) (d : DReg)
  /-- CSRR (R489): Read a special register. -/
  | csrr (k : CoreRef) (g : Guard) (a : Reg) (sel : BitVec 12)
  /-- CSRW (R489): Write a writable special register. -/
  | csrw (k : CoreRef) (g : Guard) (b : Reg) (sel : BitVec 12)
  /-- TRACE (R490): Write one entry to the context's program trace ring. -/
  | trace (k : CoreRef) (g : Guard) (b : Reg) (tag : BitVec 16)
  /-- VAUX_RISE (R89): VAUX comes up: the tick counter starts at 0, fuses are sensed and the I3C static address straps are sampled. -/
  | vauxRise (straps : BitVec 2)
  /-- VAUX_LOSS (R89): VAUX is removed: the tick counter, THERM_TRIP_N latch and lifetime counts not yet written to MRAM are lost. -/
  | vauxLoss
  /-- PWR_GOOD_RISE (R81): The rise of PWR_GOOD causes a cold reset and releases a latched thermal trip. -/
  | pwrGoodRise
  /-- PWR_GOOD_FALL (R55): A fall of PWR_GOOD while running is a loss of supply power and the device stops at once. -/
  | pwrGoodFall
  /-- DEV_RESET_N_FALL (R82): DEV_RESET_N goes low with PWR_GOOD high, starting a warm reset unless the pulse is shorter than 1 µs. -/
  | devResetNFall (short : Bool)
  /-- DEV_RESET_N_LONG_HOLD (R83): DEV_RESET_N is still low 20 ms after its fall and the warm reset in progress becomes a cold reset. -/
  | devResetNLongHold
  /-- DEV_RESET_N_RISE (R104): Release of DEV_RESET_N starts the ROM and the boot sequence. -/
  | devResetNRise (probe : FlashProbe)
  /-- REFCLK_LOSS (R47): Loss of REFCLK switches the timebase to the SMD oscillator and reports the event to the avalanche filter. -/
  | refclkLoss
  /-- POWER_MANAGER_PASS (R62): Every 100,000 ticks the power manager adjusts the common and per-quadrant VCORE setpoints and throttle gaps. -/
  | powerManagerPass (smp : PowerSample)
  /-- FAST_GUARD_TRIP (R63): A quadrant's current estimate exceeds 400 A and the fast guard gaps its array issue. -/
  | fastGuardTrip (q : Fin 4) (amps : Nat) (gap : Nat)
  /-- FAST_GUARD_RELEASE (R63): A quadrant's current estimate falls below 380 A and the fast guard releases its gap. -/
  | fastGuardRelease (q : Fin 4) (amps : Nat)
  /-- JUNCTION_OVER_LIMIT (R70): A junction temperature crosses 95 °C, changing the causes of ALERT_N. -/
  | junctionOverLimit (unit : Nat) (hot : Bool)
  /-- THERMAL_TRIP (R72): A sensor reaches 110 °C and the device halts every self-timed island, silences Ethernet and enters HALTED. -/
  | thermalTrip (unit : Nat) (vddqGood : Bool)
  /-- IMAGE_STAGING_COMPLETE (R101): The firmware image has been staged in the Dome cache used as SRAM. -/
  | imageStagingComplete
  /-- TRAINING_TIMEOUT (R108): The firmware fails to reach TRAINING within 200 ms of starting and the device enters RECOVERY. -/
  | trainingTimeout
  /-- WATCHDOG_EXPIRY (R84): The SMD firmware watchdog sees no service for 1 s and causes a warm reset. -/
  | watchdogExpiry
  /-- MEMORY_TRAINING_COMPLETE (R104): Training of all stacks and channels ends and the glacier-tier mode is determined. -/
  | memoryTrainingComplete (tr : Training)
  /-- ENUMERATION_COMPLETE (R104): Spires, Dome slices, row engines and the port are enumerated and fused-off units recorded absent. -/
  | enumerationComplete
  /-- BOOT_READY (R104): INVALIDATE_ALL of the Dome cache completes, caching is enabled and STATE becomes READY. -/
  | bootReady
  /-- JOURNAL_SCAN_COMPLETE (R215): The warm-boot journal scan ends, finishing commits recorded in MRAM and rerunning the other journaled tasks. -/
  | journalScanComplete
  /-- DEV_CTL_RESET_WARM (R84): A write of 0x5 to DEV_CTL.RESET requests a warm reset. -/
  | devCtlResetWarm (r : Req) (v : W32)
  /-- DEV_CTL_RESET_COLD (R81): A write of 0xA to DEV_CTL.RESET requests a cold reset. -/
  | devCtlResetCold (r : Req) (v : W32)
  /-- DEV_CTL_RUN_SET (R97): Setting DEV_CTL.RUN runs the enable check and, if allowed, starts acceptance with STATE RUN. -/
  | devCtlRunSet (r : Req) (v : W32)
  /-- DEV_CTL_RUN_CLEAR (R97): Clearing DEV_CTL.RUN stops acceptance at once while accepted tasks run on. -/
  | devCtlRunClear (r : Req) (v : W32)
  /-- DEV_CTL_MAINT_SET (R98): Setting DEV_CTL.MAINT moves the device from READY to MAINTENANCE when no task is uncommitted. -/
  | devCtlMaintSet (r : Req) (v : W32)
  /-- DEV_CTL_MAINT_CLEAR (R98): Clearing DEV_CTL.MAINT returns the device from MAINTENANCE to READY. -/
  | devCtlMaintClear (r : Req) (v : W32)
  /-- CTX_CTL_EN_SET (R117): Setting CTX_CTL.EN while EN is 0 runs the enable check for the context. -/
  | ctxCtlEnSet (r : Req) (c : Fin 16) (v : W32)
  /-- CTX_CTL_EN_CLEAR (R99): Writing 0 to CTX_CTL.EN stops acceptance for the context while its accepted tasks run on. -/
  | ctxCtlEnClear (r : Req) (c : Fin 16) (v : W32)
  /-- CTX_CTL_RESET (R92): Writing 1 to CTX_CTL.RESET with EN 0 requests a context reset and sets RESET_PENDING. -/
  | ctxCtlReset (r : Req) (c : Fin 16) (v : W32)
  /-- CTX_CTL_MODE_WRITE (R117): A write of CTX_CTL.EXACT, REALTIME or T7SYNC, refused with BUSY while EN is 1. -/
  | ctxCtlModeWrite (r : Req) (c : Fin 16) (v : W32)
  /-- CONTEXT_RESET_PERFORM (R93): Once every accepted task of the context has committed, the pending context reset is performed. -/
  | contextResetPerform (c : Fin 16)
  /-- SPIRE_RESET (R94): Firmware resets a drained Spire, clearing its stores and engines but keeping its sync unit in service. -/
  | spireReset (sp : Fin 64)
  /-- REGISTER_WRITE (R196): A write of a register that has no row of its own, subject to its access code and refusal rules. -/
  | registerWrite (r : Req) (addr : Nat) (v : W32)
  /-- PORT_MODE_WRITE (R131): A write of PORT_CFG.SPLIT or LANE100 runs the PORT_MODE check and retrains every affected sub-port. -/
  | portModeWrite (r : Req) (v : W32)
  /-- SUBPORT_LINK_UP (R162): A sub-port completes training and carries traffic. -/
  | subportLinkUp (p : Fin 8)
  /-- LANE_FAILURE (R130): A lane in use loses FEC lock or exceeds the uncorrectable-codeword limit in a 100 ms window. -/
  | laneFailure (l : Fin 8)
  /-- FRAME_RECEIVE (R139): An Ethernet frame arrives and is verified and matched to a logical port. -/
  | frameReceive (f : Frame)
  /-- PFC_PAUSE_RECEIVE (R145): A received PFC pause for an enabled priority is honoured within 1,000 ticks. -/
  | pfcPauseReceive (p : Fin 8) (prio : Fin 8) (ticks : Nat)
  /-- ECN_RATE_CUT (R149): A congestion echo or CNP cuts the logical port's or queue pair's rate by one eighth. -/
  | ecnRateCut (tgt : RateTarget)
  /-- ECN_RATE_RECOVERY (R150): After 50,000 ticks without notification the rate rises by 1/64 of the sub-port rate. -/
  | ecnRateRecovery (tgt : RateTarget)
  /-- MACSEC_REKEY (R154): A packet number reaching 2^62 makes the device derive the next key and change association number. -/
  | macsecRekey (p : Fin 8)
  /-- PTP_SYNC_RECEIVE (R158): A PTP Sync exchange disciplines the tick frequency and updates the servo error. -/
  | ptpSyncReceive (smp : PtpSample)
  /-- PTP_LOCK_ACQUIRE (R159): The servo error stays within ±20 ticks for 16 Sync intervals and PTP is locked. -/
  | ptpLockAcquire
  /-- PTP_LOCK_LOSS (R159): Four missed Sync intervals, or a servo error beyond ±100 ticks, unlock PTP. -/
  | ptpLockLoss (missed : Bool)
  /-- SYNCE_LOCK_CHANGE (R160): ETH_REFCLK enters or leaves ±4.6 ppm of the recovered clock, changing SyncE lock. -/
  | synceLockChange (lock : Bool)
  /-- DWP_DATAGRAM_RECEIVE (R179): A DWP datagram arrives and is authenticated, acknowledged and queued for in-order processing. -/
  | dwpDatagramReceive (w : Who) (dg : List Byte)
  /-- HELLO (R174): A partner HELLO is checked against the slot's key and answered by the device HELLO or a NAK. -/
  | hello (w : Who) (src : NetAddr) (p : List Byte)
  /-- PROVE (R924): The partner's transcript tag is checked and, if good, a session is opened. -/
  | prove (w : Who) (src : NetAddr) (p : List Byte)
  /-- WRITE (R190): A DWP WRITE stores data inside a writable window of the named context. -/
  | write (r : Req) (p : List Byte)
  /-- READ (R191): A DWP READ returns data from a readable window in READ_DATA messages. -/
  | read (r : Req) (p : List Byte)
  /-- LOAD_PROGRAM (R415): A LOAD_PROGRAM message adds image bytes and, with LAST, checks and installs the program. -/
  | loadProgram (r : Req) (p : List Byte)
  /-- SUBMIT (R202): A SUBMIT passes the admission checks in order and is journaled, or is answered by NAK or a repeated ACCEPT. -/
  | submit (r : Req) (p : List Byte)
  /-- JOURNAL_WRITE_COMPLETE (R203): Both journal writes of an admitted task complete and the task is accepted. -/
  | journalWriteComplete (key : Fin 16) (asn : Nat)
  /-- HELD_SUBMIT_ADMIT (R207): A SUBMIT held for a full journal is processed once a journal record is freed. -/
  | heldSubmitAdmit (k : Fin 8)
  /-- GET_RESULT (R218): GET_RESULT returns the slot header and clipped data of a committed ASN, or NOT_READY or NO_RESULT. -/
  | getResult (r : Req) (p : List Byte)
  /-- RELEASE (R220): RELEASE frees all of a range of committed ASNs or none, zeroing COMMIT_SEQ of freed slots. -/
  | release (r : Req) (p : List Byte)
  /-- CANCEL (R222): CANCEL marks an uncommitted task's journal record cancelled and stops its items so it commits ABORTED_BY_PARTNER. -/
  | cancel (r : Req) (p : List Byte)
  /-- SIGNAL (R811): A SIGNAL message adds VALUE to a counter of the named context after earlier messages take effect. -/
  | signal (r : Req) (p : List Byte)
  /-- START_AT (R814): A START_AT is checked and scheduled to add to a counter at an agreed PTP time. -/
  | startAt (r : Req) (p : List Byte)
  /-- TIMED_START_FIRE (R813): The tick counter reaches a pending START_AT's tick and the addition is made. -/
  | timedStartFire (n : Nat)
  /-- CONTROL_RD (R941): CONTROL_RD reads 1-256 consecutive registers and returns them in READ_DATA. -/
  | controlRd (r : Req) (p : List Byte)
  /-- CONTROL_WR (R942): CONTROL_WR writes registers in order as one uninterrupted sequence, stopping at the first refusal. -/
  | controlWr (r : Req) (p : List Byte)
  /-- TELEMETRY (R170): A partner TELEMETRY message sets or stops the period and sets of periodic reports. -/
  | telemetry (r : Req) (p : List Byte)
  /-- TELEMETRY_REPORT (R170): Each telemetry period the device sends the selected register sets. -/
  | telemetryReport (k : Fin 8)
  /-- FIRMWARE (R198): A FIRMWARE message from an owner-key session writes image bytes in order. -/
  | firmware (r : Req) (p : List Byte)
  /-- ACK (R186): An ACK message updates acknowledged and done sequence numbers and the selective map. -/
  | ack (w : Who) (p : List Byte)
  /-- ACK_TIMER_EXPIRY (R184): 2,000 ticks after a sequenced message without a header carrying the new ACK, an ACK message is sent. -/
  | ackTimerExpiry (w : Who)
  /-- RETRANSMIT_TIMEOUT (R187): A message's retransmission timeout expires; it is resent and its timeout doubled. -/
  | retransmitTimeout (w : Who) (seq : Nat)
  /-- TASK_COMMIT (R214): Once every earlier ASN of its queue has committed, a complete task is committed to its slot in order. -/
  | taskCommit (key : Fin 16) (asn : Nat)
  /-- JOURNAL_MIRROR_COMPLETE (R204): Every live journal record has been copied to the new mirror channel and admission resumes. -/
  | journalMirrorComplete
  /-- RDMA_WRITE (R228): An RDMA WRITE checked by R_Key writes data and is acknowledged once visible. -/
  | rdmaWrite (q : Fin 4096) (psn : BitVec 24) (rkey : W32) (addr : Nat) (data : List Byte)
  /-- RDMA_READ (R226): An RDMA READ checked by R_Key returns data from a window with RRD. -/
  | rdmaRead (q : Fin 4096) (psn : BitVec 24) (rkey : W32) (addr : Nat) (len : Nat)
  /-- SEND (R227): An RDMA SEND carries one DWP message, treated as if it arrived by UDP on the queue pair's session. -/
  | send (q : Fin 4096) (psn : BitVec 24) (dg : List Byte)
  /-- REGION_VALIDATE (R242): Setting a region's VALID checks it, cleans the near-tier Dome lines and applies the mapping. -/
  | regionValidate (r : Req) (n : Fin 16) (v : W32)
  /-- REGION_INVALIDATE (R243): Clearing a region's VALID cleans and invalidates near-tier Dome lines before the mapping is removed. -/
  | regionInvalidate (r : Req) (n : Fin 16) (v : W32)
  /-- WINDOW_WRITE (R266): A write of a window register is checked if it leaves the window valid, and takes effect or is refused. -/
  | windowWrite (r : Req) (c : Fin 16) (n : Fin 64) (w : Fin 4) (v : W32)
  /-- HBM_REFRESH (R271): A near-tier per-bank refresh is due and holds its bank. -/
  | hbmRefresh (stack : Fin 8) (bank : Nat)
  /-- HBM_PHY_RETRAIN (R272): A stack's periodic PHY retraining is due, with at most one stack at a time. -/
  | hbmPhyRetrain (stack : Fin 8)
  /-- PATROL_SCRUB (R274): A patrol scrub reads a line of a tier to check it. -/
  | patrolScrub (a : Nat) (r : ScrubResult)
  /-- GLACIER_REFRESH (R271): A glacier same-bank refresh is due and holds its bank. -/
  | glacierRefresh (chan : Fin 16) (bank : Nat)
  /-- DQS_OSCILLATOR_TRACKING (R271): Every 16 ms a glacier channel's DQS oscillator tracking runs. -/
  | dqsOscillatorTracking (chan : Fin 16)
  /-- GLACIER_RETRAIN (R272): A glacier channel's full read and write retraining is due, one channel at a time. -/
  | glacierRetrain (chan : Fin 16)
  /-- DOME_ACCESS (R281): A read or write reaches its Dome cache slice and hits, merges or misses with allocation. -/
  | domeAccess (id : Nat) (addr : Nat) (len : Nat) (data : Option (List Byte))
  /-- DOME_FILL_COMPLETE (R310): Fill data returns from the tier and is installed and passed to the requester. -/
  | domeFillComplete (line : Nat)
  /-- DOME_SEED_WRITE (R290): A write of DOME_SEEDk loads slice k's LFSR at once. -/
  | domeSeedWrite (r : Req) (n : Fin 32) (v : W32)
  /-- DOME_WAYMASK_WRITE (R291): A write of DOME_WAYMASK removes ways from allocation and starts their clean and power-down walk. -/
  | domeWaymaskWrite (r : Req) (v : W32)
  /-- WAY_POWER_DOWN_COMPLETE (R293): Every way being powered down is off and WAY_BUSY clears. -/
  | wayPowerDownComplete
  /-- DOME_DISABLE (R297): Writing 0 to DOME_CTL.EN starts cleaning every dirty line before bypass. -/
  | domeDisable (r : Req) (v : W32)
  /-- DOME_BYPASS_ENTER (R297): The clean completes and the cache enters bypass with BYPASS 1. -/
  | domeBypassEnter
  /-- DOME_ENABLE (R301): Writing 1 to DOME_CTL.EN runs the STALE_CACHE check and re-enables caching. -/
  | domeEnable (r : Req) (v : W32)
  /-- CLEAN (R303): Maintenance CLEAN writes back dirty lines of a range, leaving them valid. -/
  | clean (r : Req) (v : W32)
  /-- INVALIDATE (R306): Maintenance INVALIDATE discards lines of a range without write-back. -/
  | invalidate (r : Req) (v : W32)
  /-- CLEAN_INVALIDATE (R303): Maintenance CLEAN_INVALIDATE writes back and discards lines of a range. -/
  | cleanInvalidate (r : Req) (v : W32)
  /-- INVALIDATE_ALL (R305): Maintenance INVALIDATE_ALL, only in bypass, discards every line of every enabled way. -/
  | invalidateAll (r : Req) (v : W32)
  /-- MAINTENANCE_COMPLETE (R308): All write-backs of a maintenance operation reach the tier and MNT_BUSY clears. -/
  | maintenanceComplete
  /-- DOME_CNT_CLR (R318): DOME_CTL.CNT_CLR sets every DOME counter to 0. -/
  | domeCntClr (r : Req) (v : W32)
  /-- SPLITTER_ACCEPT (R777): The request splitter accepts a request, chooses its table version and routes each index. -/
  | splitterAccept (id : Nat)
  /-- UNIT_REQUEST_START (R340): A row-engine unit takes a request, checks its table descriptor and serves its indices. -/
  | unitRequestStart (id : Nat) (u : Fin 24)
  /-- UNIT_PARTIAL_COMBINE (R365): The aggregate unit combines a segment's unit partials in unit order and divides for MEAN. -/
  | unitPartialCombine (id : Nat) (seg : Nat)
  /-- REPLICA_WRITE (R356): After the previous copy reaches its slice, the next stack's replica of a hot row is written. -/
  | replicaWrite (id : Nat)
  /-- SKETCH_FLUSH (R385): A unit's sketch combining buffer fills or its request ends and increments are added to memory. -/
  | sketchFlush (id : Nat) (u : Fin 24)
  /-- RE_CNT_CLR (R393): RE_CTL.CNT_CLR sets every counter of one unit to 0. -/
  | reCntClr (r : Req) (u : Fin 24)
  /-- RE_GLB_CNT_CLR (R963): RE_GLB_CTL.CNT_CLR sets RE_DROP_RANGE and RE_DROP_MISSING to 0. -/
  | reGlbCntClr (r : Req)
  /-- ISSUE_ACCEPT (R399): A unit with queue room accepts a held issue round-robin and the core resumes. -/
  | issueAccept (k : CoreRef)
  /-- OPERATION_START (R400): A unit starts its next queued operation in accepted order. -/
  | operationStart (sp : Fin 64) (u : Fin 4)
  /-- OPERATION_COMPLETE (R474): An engine or stream operation completes, its writes become visible at SCOPE and its increment is made. -/
  | operationComplete (id : Nat)
  /-- TILE_LOAD_COMPLETE (R512): The loader finishes filling a weight latch with the next tile. -/
  | tileLoadComplete (sp : Fin 64)
  /-- TILE_APPLY (R520): The array applies a loaded tile to each activation row, step by step in K order. -/
  | tileApply (sp : Fin 64)
  /-- NEXT_SLOT_FILL (R694): The dispatcher fills an empty next slot with an eligible item, fragment or join. -/
  | nextSlotFill (k : CoreRef)
  /-- ITEM_START (R429): The core moves its next item into the running slot, checks its PC and sets its start registers. -/
  | itemStart (k : CoreRef)
  /-- ITEM_END (R432): The end instruction retires once every issued operation has completed. -/
  | itemEnd (k : CoreRef)
  /-- LOAD_COMPLETE (R420): A load's value arrives and instructions waiting on its register may proceed. -/
  | loadComplete (k : CoreRef)
  /-- TASK_RETRY (R868): After a stop, the task is restored and expanded again from its journal record. -/
  | taskRetry (key : Fin 16) (asn : Nat)
  /-- BUFFER_GRANT (R652): A freed buffer lets the lowest-identifier waiting arm be granted its whole buffer. -/
  | bufferGrant (n : Fin 16384)
  /-- SLOT_FILL_COMPLETE (R646): An inbound slot becomes full and visible, making the arm's increment. -/
  | slotFillComplete (n : Fin 16384)
  /-- SLOT_DRAIN_COMPLETE (R646): An outbound slot has been drained and the increment is made. -/
  | slotDrainComplete (n : Fin 16384)
  /-- GRANULE_COMPLETE (R645): A linear-mode granule of a pass lands. -/
  | granuleComplete (n : Fin 16384)
  /-- REQUEST_PASS_START (R968): A row-engine request waiting on a persistent GATHER stream starts its pass after the earlier one ends. -/
  | requestPassStart (n : Fin 16384)
  /-- STRM_CNT_CLR (R684): STRM_CTL.CNT_CLR sets every STRM counter to 0. -/
  | strmCntClr (r : Req)
  /-- WAIT_RETIRE (R751): An addition satisfies a held wait, which is woken in registration order and retires. -/
  | waitRetire (k : CoreRef)
  /-- SPAWN_ACCEPT (R689): A spawned record enters the ready lists when an entry is free, after its record check. -/
  | spawnAccept (k : CoreRef)
  /-- STALL_LIMIT_EXPIRY (R764): A wait or hold exceeds SYNC_STALL_LIMIT and its task ends with FAILED_SYNC_STALL. -/
  | stallLimitExpiry (k : CoreRef)
  /-- SYNC_CNT_CLR (R767): SYNC_CTL.CNT_CLR sets every SYNC counter to 0. -/
  | syncCntClr (r : Req)
  /-- TASK_EXPAND (R688): The dispatcher reads a task's item array into the ready lists when entries and shadow space allow. -/
  | taskExpand (key : Fin 16) (asn : Nat)
  /-- DISP_DRAIN (R716): DISP_DRAIN OP drain sets a Spire draining and withdraws its next-slot items. -/
  | dispDrain (r : Req) (v : W32)
  /-- DISP_RETURN (R720): DISP_DRAIN OP return puts a drained Spire back in service. -/
  | dispReturn (r : Req) (v : W32)
  /-- DISP_CNT_CLR (R726): DISP_CTL.CNT_CLR sets every DISP counter to 0. -/
  | dispCntClr (r : Req)
  /-- DISP_TRACE_CFG_WRITE (R730): A write of DISP_TRACE_CFG sets the ring and clears its count and drops. -/
  | dispTraceCfgWrite (r : Req) (v : W32)
  /-- CTX_PTRACE_CFG_WRITE (R493): A write of CTX_PTRACE_CFG sets the program trace ring and clears CNT and DROP. -/
  | ctxPtraceCfgWrite (r : Req) (c : Fin 16) (v : W32)
  /-- SWITCH (R776): Table SWITCH copies a version record and makes it the newest version. -/
  | switch (r : Req) (c : Fin 16) (t : Fin 4096)
  /-- RETIRE (R775): Table RETIRE leaves the table with no newest version. -/
  | retire (r : Req) (c : Fin 16) (t : Fin 4096)
  /-- QUERY (R773): Table QUERY loads the table's status, newest and oldest generations. -/
  | query (r : Req) (c : Fin 16) (t : Fin 4096)
  /-- RECLAIM (R778): Table RECLAIM marks a distributed version for reclamation. -/
  | reclaim (r : Req) (c : Fin 16) (t : Fin 4096)
  /-- VERSION_RECLAIM (R778): A version no longer newest and no longer pinned or in use is reclaimed. -/
  | versionReclaim (t : Fin 4096) (gen : Nat)
  /-- FORM (R786): PEER_CTL.FORM reads the address table and opens sessions with every rank. -/
  | form (r : Req)
  /-- PEER_FORMATION_COMPLETE (R788): Every rank's exchange completes and the peer group is formed. -/
  | peerFormationComplete (mixed : Bool)
  /-- PEER_FORMATION_TIMEOUT (R788): A rank not completing its exchange within 10 s fails formation. -/
  | peerFormationTimeout
  /-- DISSOLVE (R790): PEER_CTL.DISSOLVE closes every peer session and discards incomplete rounds. -/
  | dissolve (r : Req)
  /-- EXCHANGE_LOOKUP (R798): An EXCHANGE LOOKUP arm routes indices to owners and local replicas. -/
  | exchangeLookup (n : Fin 16384)
  /-- EXCHANGE_UPDATE_ADD (R801): An EXCHANGE UPDATE_ADD arm folds source rows and sends one part to every owner. -/
  | exchangeUpdateAdd (n : Fin 16384)
  /-- EXCHANGE_UPDATE_SET (R801): An EXCHANGE UPDATE_SET arm takes the last row per index and sends one part to every owner. -/
  | exchangeUpdateSet (n : Fin 16384)
  /-- EXCHANGE_SIGNAL (R810): An EXCHANGE SIGNAL arm sends a SIGNAL to a peer. -/
  | exchangeSignal (n : Fin 16384)
  /-- LOOKUP_PART (R799): An owner serves a received LOOKUP part from its live version and replies. -/
  | lookupPart (r : Req) (p : List Byte)
  /-- LOOKUP_REPLY (R800): Returned rows are written at every list position that named them. -/
  | lookupReply (r : Req) (p : List Byte)
  /-- UPDATE_PART (R802): An owner receives an update part of a round and holds it. -/
  | updatePart (r : Req) (p : List Byte)
  /-- UPDATE_ROUND_APPLY (R804): With every rank's LAST held, the owner combines and applies the round and sends REFRESH and UPDATE_DONE. -/
  | updateRoundApply (t : Fin 4096) (gen batch : Nat)
  /-- REFRESH (R805): A REFRESH part's hot rows are written into every present replica. -/
  | refresh (r : Req) (p : List Byte)
  /-- UPDATE_DONE (R806): An UPDATE_DONE from an owner is processed; with all of them the UPDATE arm completes. -/
  | updateDone (r : Req) (p : List Byte)
  /-- REPLAY_START (R849): DET_RPL_CMD START begins feeding replay records, or reports GAP. -/
  | replayStart (r : Req)
  /-- REPLAY_STOP (R857): DET_RPL_CMD STOP feeds no further records. -/
  | replayStop (r : Req)
  /-- REPLAY_RECORD_FEED (R851): The next replay record is processed as if its event had come from its key or peer. -/
  | replayRecordFeed
  /-- DET_SIGN_GO (R855): DET_SIGN_CMD.GO starts signing a batch root over consecutive results. -/
  | detSignGo (r : Req) (v : W32)
  /-- BATCH_ROOT_SIGN_COMPLETE (R856): The signed batch-root record is written and DET_SIGN_STATUS reports the result. -/
  | batchRootSignComplete
  /-- DET_CNT_CLR (R857): DET_CTL.CNT_CLR sets DET_TDC to 0. -/
  | detCntClr (r : Req) (v : W32)
  /-- QNT_CNT_CLR (R630): QNT_CTL.CNT_CLR sets every QNT counter to 0. -/
  | qntCntClr (r : Req) (v : W32)
  /-- SPS_CNT_CLR (R963): SPS_CTL.CNT_CLR sets SPS_FALLBACK to 0. -/
  | spsCntClr (r : Req)
  /-- SPIRE_ENG_CNT_CLR (R566): SPIRE_ENG_CTL.CNT_CLR sets a Spire's engine counters to 0. -/
  | spireEngCntClr (r : Req) (sp : Fin 64)
  /-- TRANSFER_PARITY_ERROR (R861): A receiver finds bad parity on a transfer and has it replayed. -/
  | transferParityError (link receiver : Nat) (n : Fin 9) (owners : List (Nat × Nat)) (waiters : List Nat)
  /-- STATE_PARITY_ERROR (R866): A parity error in stored unique state is found on read and its task is stopped and retried. -/
  | stateParityError (u key asn : Nat)
  /-- CORRECTED_ERROR (R878): A memory or copy error corrected by its code is delivered corrected and counted. -/
  | correctedError (unit : Option Nat) (a : Nat)
  /-- UNCORRECTABLE_ERROR (R879): An uncorrectable error in data a task reads ends it with FAILED_DATA_LOST or retries it. -/
  | uncorrectableError (e : UeSite)
  /-- RECORD_CLOSE (R891): 1,000,000 ticks after opening, a record's OPEN clears and its fields become final. -/
  | recordClose (seq : Nat)
  /-- ERR_ACK (R893): A write of ERR_ACK advances ERR_RD, marking records read. -/
  | errAck (r : Req) (v : W32)
  /-- SPIRE_TEST (R894): ERR_TEST OP 0b01 starts the online test of a drained or failed Spire. -/
  | spireTest (r : Req) (v : W32)
  /-- FULL_TEST (R896): ERR_TEST OP 0b10 starts the full self-test in MAINTENANCE. -/
  | fullTest (r : Req) (v : W32)
  /-- SELF_TEST_COMPLETE (R894): A self-test ends; passing units return and failing units leave service. -/
  | selfTestComplete (fails : List Nat) (n : Nat)
  /-- AUTOTEST_TIMER (R897): Every AUTOTEST minutes firmware drains and tests the next Spire. -/
  | autotestTimer
  /-- ERR_CNT_CLR (R902): ERR_CTL.CNT_CLR sets every ERR counter to 0. -/
  | errCntClr (r : Req)
  /-- LIFETIME_ACCUMULATE (R899): Each second the SMD adds that second's lifetime counts. -/
  | lifetimeAccumulate
  /-- LIFETIME_MRAM_WRITE (R899): Every 10 s the SMD writes the lifetime counts to MRAM. -/
  | lifetimeMramWrite
  /-- INSTALL (R918): Key INSTALL unwraps and stores a partner key and resets its queue state. -/
  | install (r : Req) (slot : Fin 16) (owner : Bool) (wrapped : List Byte)
  /-- ERASE (R917): Key ERASE removes a partner key unless it is the last owner key. -/
  | erase (r : Req) (slot : Fin 16)
  /-- ERASE_ALL (R920): Key ERASE_ALL over I3C erases every slot, closes sessions and releases results. -/
  | eraseAll (r : Req)
  /-- ATTESTATION_GO (R930): SEC_ATT_CMD.GO asks the SMD to write and sign an attestation record. -/
  | attestationGo (r : Req) (v : W32)
  /-- ATTESTATION_COMPLETE (R931): The attestation record is written and SEC_ATT_STATUS reports the result. -/
  | attestationComplete
  /-- EXTEST (R933): Loading TAP EXTEST performs a cold reset. -/
  | extest (x : BoundaryScan) (park : TapState)
  /-- IDCODE (R934): TAP IDCODE reads 0x1900_9A6B. -/
  | idcode (park : TapState)
  /-- SAMPLE_PRELOAD (R932): TAP SAMPLE/PRELOAD samples the boundary cells without effect. -/
  | samplePreload (x : BoundaryScan) (park : TapState)
  /-- CLAMP (R933): Loading TAP CLAMP performs a cold reset. -/
  | clamp (park : TapState)
  /-- HIGHZ (R933): Loading TAP HIGHZ performs a cold reset. -/
  | highz (park : TapState)
  /-- EXTEST_PULSE (R933): Loading TAP EXTEST_PULSE performs a cold reset. -/
  | extestPulse (x : BoundaryScan) (park : TapState)
  /-- EXTEST_TRAIN (R933): Loading TAP EXTEST_TRAIN performs a cold reset. -/
  | extestTrain (x : BoundaryScan) (park : TapState)
  /-- BYPASS (R932): TAP BYPASS, also taken by every unlisted code, has no effect. -/
  | bypass (park : TapState)
  /-- TEST_LOGIC_RESET (R933): The TAP enters Test-Logic-Reset, ending the reset held by a cold-reset instruction. -/
  | testLogicReset
  /-- I3C_REGISTER_READ (R948): An I3C private write of REG then read returns one permitted register. -/
  | i3cRegisterRead (dest : I3cDest) (wr : List Byte)
  /-- I3C_REGISTER_WRITE (R948): An I3C private write of REG and data writes one permitted register. -/
  | i3cRegisterWrite (dest : I3cDest) (wr : List Byte)
  /-- SAMPLED_PAIR_READ (R943): A read of a sampled pair's _LO register samples the whole 64-bit value for its requester. -/
  | sampledPairRead (w : Who) (addr : Nat)
  /-- CREATE (R960): Queue-pair CREATE validates and installs a queue-pair record. -/
  | create (r : Req) (idx : W32) (b : List Byte)
  /-- DESTROY (R961): Queue-pair DESTROY makes the queue pair invalid at once. -/
  | destroy (r : Req) (idx : W32)
  /-- QP_QUERY (R962): Queue-pair QUERY loads the record and status for the querying session. -/
  | qpQuery (r : Req) (idx : W32)
  /-- PORT_CNT_CLR (R956): PORT_CTL.CNT_CLR sets every PORT counter to 0. -/
  | portCntClr (r : Req)
  /-- REFCLK_RESTORE (R954): REFCLK returns after a loss and the tick leaves holdover on the SMD oscillator, clearing TIME_STATUS.HOLDOVER. -/
  | refclkRestore
  /-- PFC_PAUSE_EXPIRY (R151): The pause time of a received PFC pause runs out and transmission on that priority resumes. -/
  | pfcPauseExpiry (p : Fin 8) (prio : Fin 8)
  /-- LOCAL_ACK_TIMEOUT (R962): A queue pair's local ACK timeout expires, and once RETRY attempts are spent the queue pair enters the error state of QP_STATUS. -/
  | localAckTimeout (q : Fin 4096)
  /-- ILLEGAL_INSTRUCTION (R496): The core meets a word with an opcode, function or other value the manual does not define, or fetches at a PC outside the code section, and raises an illegal-instruction fault. -/
  | illegalInstruction (k : CoreRef)
  /-- REGION_CHANGE_COMPLETE (R243): The clean and invalidate of near-tier Dome lines caused by a region's VALID change ends, the new mapping takes effect and the write is acknowledged. -/
  | regionChangeComplete (n : Fin 16)
  /-- WARM_ENTRY_COMPLETE (R105): The warm-entry steps end with the Dome cache cleaned and both tiers in self-refresh, and the warm boot begins. -/
  | warmEntryComplete
deriving DecidableEq, Repr

end Sys2Proof
end

