-- ==== Sys2Proof/WellFormed.lean ====
section
/-! DEFINITION. Which commands are well formed: for a command that is a Spaner instruction, that the manual defines an
encoding with these operands (R448, R451, R453, R455, R465, R471). Every other command is well formed as it stands:
the device answers malformed messages itself. -/

namespace Sys2Proof

/-- R455: the guard p0 with PNEG = 1 is reserved. -/
def Guard.wf (g : Guard) : Bool := !(g.neg && g.num == 0)

/-- The bytes of an access size. -/
def ASize.bytes : ASize → Nat
  | .b => 1 | .h => 2 | .w => 4 | .d => 8

/-- R449: with VCREG = 0, field B is reserved. -/
def EOp.wf (e : EOp) : Bool := e.vcreg || e.b == 0

/-- The S format: B is reserved with VCREG = 0, C with IMM = 1, and IMMV with IMM = 0. -/
def SOp.wf (o : SOp) : Bool := (o.vcreg || o.b == 0) && (if o.imm then o.c == 0 else o.immv == 0)

/-- A branch immediate is a multiple of 8 (R471). -/
def immAligned (v : W32) : Bool := v.toNat % 8 == 0

/-- The guard of a Spaner instruction; none for every other command. -/
def Instr.guard? : Instr → Option Guard
  | .add _ g _ _ _ => some g
  | .sub _ g _ _ _ => some g
  | .and _ g _ _ _ => some g
  | .or _ g _ _ _ => some g
  | .xor _ g _ _ _ => some g
  | .shl _ g _ _ _ => some g
  | .shr _ g _ _ _ => some g
  | .sra _ g _ _ _ => some g
  | .mul _ g _ _ _ => some g
  | .mulhu _ g _ _ _ => some g
  | .mulh _ g _ _ _ => some g
  | .divu _ g _ _ _ => some g
  | .remu _ g _ _ _ => some g
  | .div _ g _ _ _ => some g
  | .rem _ g _ _ _ => some g
  | .minu _ g _ _ _ => some g
  | .maxu _ g _ _ _ => some g
  | .min _ g _ _ _ => some g
  | .max _ g _ _ _ => some g
  | .popc _ g _ _ => some g
  | .clz _ g _ _ => some g
  | .addi _ g _ _ _ => some g
  | .andi _ g _ _ _ => some g
  | .ori _ g _ _ _ => some g
  | .xori _ g _ _ _ => some g
  | .shli _ g _ _ _ => some g
  | .shri _ g _ _ _ => some g
  | .srai _ g _ _ _ => some g
  | .muli _ g _ _ _ => some g
  | .lih _ g _ _ _ => some g
  | .li _ g _ _ => some g
  | .cmp _ g _ _ _ _ => some g
  | .cmpi _ g _ _ _ _ => some g
  | .pand _ g _ _ _ => some g
  | .por _ g _ _ _ => some g
  | .pxor _ g _ _ _ => some g
  | .pandn _ g _ _ _ => some g
  | .fadd _ g _ _ _ _ => some g
  | .fsub _ g _ _ _ _ => some g
  | .fmul _ g _ _ _ _ => some g
  | .fdiv _ g _ _ _ _ => some g
  | .fmin _ g _ _ _ _ => some g
  | .fmax _ g _ _ _ _ => some g
  | .ffma _ g _ _ _ _ => some g
  | .fsqrt _ g _ _ _ => some g
  | .fabs _ g _ _ _ => some g
  | .fneg _ g _ _ _ => some g
  | .fcvtSL _ g _ _ => some g
  | .fcvtLS _ g _ _ => some g
  | .fcvtBfS _ g _ _ => some g
  | .fcvtSBf _ g _ _ => some g
  | .fcmp _ g _ _ _ _ => some g
  | .ld _ g _ _ _ _ _ _ => some g
  | .st _ g _ _ _ _ _ => some g
  | .b _ g _ => some g
  | .bcc _ g _ _ _ _ => some g
  | .jal _ g _ _ => some g
  | .jr _ g _ _ => some g
  | .dset _ g _ _ _ _ => some g
  | .dget _ g _ _ _ _ => some g
  | .dclr _ g _ => some g
  | .dmov _ g _ _ => some g
  | .dld _ g _ _ _ _ => some g
  | .dst _ g _ _ _ _ => some g
  | .mmaD _ g _ => some g
  | .mmaS _ g _ => some g
  | .spcmp _ g _ => some g
  | .segred _ g _ => some g
  | .combine _ g _ => some g
  | .smBlock _ g _ => some g
  | .smRescale _ g _ => some g
  | .smFinal _ g _ => some g
  | .smMerge _ g _ => some g
  | .segSoftmax _ g _ => some g
  | .ewiseCopy _ g _ => some g
  | .ewiseAdd _ g _ => some g
  | .ewiseSub _ g _ => some g
  | .ewiseMul _ g _ => some g
  | .ewiseDiv _ g _ => some g
  | .ewiseMin _ g _ => some g
  | .ewiseMax _ g _ => some g
  | .ewiseFma _ g _ => some g
  | .ewiseScale _ g _ => some g
  | .ewiseRelu _ g _ => some g
  | .ewiseGelu _ g _ => some g
  | .ewiseSilu _ g _ => some g
  | .ewiseSigmoid _ g _ => some g
  | .ewiseTanh _ g _ => some g
  | .ewiseExp _ g _ => some g
  | .ewiseLog _ g _ => some g
  | .ewiseRsqrt _ g _ => some g
  | .ewiseAbs _ g _ => some g
  | .ewiseOr _ g _ => some g
  | .ewiseAnd _ g _ => some g
  | .optstep _ g _ => some g
  | .scan _ g _ => some g
  | .derive _ g _ => some g
  | .qscanLoad _ g _ => some g
  | .qscanStore _ g _ => some g
  | .qconv _ g _ => some g
  | .gather _ g _ => some g
  | .gatherReduce _ g _ => some g
  | .gatherAmax _ g _ => some g
  | .scatter _ g _ => some g
  | .scatterAdd _ g _ => some g
  | .prefetchBatch _ g _ => some g
  | .strmArm _ g _ => some g
  | .strmRearm _ g _ => some g
  | .strmAdv _ g _ => some g
  | .strmClose _ g _ => some g
  | .sig _ g _ => some g
  | .waitGe _ g _ => some g
  | .waitC _ g _ => some g
  | .arrive _ g _ => some g
  | .waitB _ g _ => some g
  | .cread _ g _ _ => some g
  | .fenceSpire _ g => some g
  | .fenceDev _ g => some g
  | .fenceSys _ g => some g
  | .endI _ g => some g
  | .spawn _ g _ => some g
  | .csrr _ g _ _ => some g
  | .csrw _ g _ _ => some g
  | .trace _ g _ _ => some g
  | _ => none

/-- The core a Spaner instruction runs on; none for every other command. -/
def Instr.core? : Instr → Option CoreRef
  | .add k _ _ _ _ => some k
  | .sub k _ _ _ _ => some k
  | .and k _ _ _ _ => some k
  | .or k _ _ _ _ => some k
  | .xor k _ _ _ _ => some k
  | .shl k _ _ _ _ => some k
  | .shr k _ _ _ _ => some k
  | .sra k _ _ _ _ => some k
  | .mul k _ _ _ _ => some k
  | .mulhu k _ _ _ _ => some k
  | .mulh k _ _ _ _ => some k
  | .divu k _ _ _ _ => some k
  | .remu k _ _ _ _ => some k
  | .div k _ _ _ _ => some k
  | .rem k _ _ _ _ => some k
  | .minu k _ _ _ _ => some k
  | .maxu k _ _ _ _ => some k
  | .min k _ _ _ _ => some k
  | .max k _ _ _ _ => some k
  | .popc k _ _ _ => some k
  | .clz k _ _ _ => some k
  | .addi k _ _ _ _ => some k
  | .andi k _ _ _ _ => some k
  | .ori k _ _ _ _ => some k
  | .xori k _ _ _ _ => some k
  | .shli k _ _ _ _ => some k
  | .shri k _ _ _ _ => some k
  | .srai k _ _ _ _ => some k
  | .muli k _ _ _ _ => some k
  | .lih k _ _ _ _ => some k
  | .li k _ _ _ => some k
  | .cmp k _ _ _ _ _ => some k
  | .cmpi k _ _ _ _ _ => some k
  | .pand k _ _ _ _ => some k
  | .por k _ _ _ _ => some k
  | .pxor k _ _ _ _ => some k
  | .pandn k _ _ _ _ => some k
  | .fadd k _ _ _ _ _ => some k
  | .fsub k _ _ _ _ _ => some k
  | .fmul k _ _ _ _ _ => some k
  | .fdiv k _ _ _ _ _ => some k
  | .fmin k _ _ _ _ _ => some k
  | .fmax k _ _ _ _ _ => some k
  | .ffma k _ _ _ _ _ => some k
  | .fsqrt k _ _ _ _ => some k
  | .fabs k _ _ _ _ => some k
  | .fneg k _ _ _ _ => some k
  | .fcvtSL k _ _ _ => some k
  | .fcvtLS k _ _ _ => some k
  | .fcvtBfS k _ _ _ => some k
  | .fcvtSBf k _ _ _ => some k
  | .fcmp k _ _ _ _ _ => some k
  | .ld k _ _ _ _ _ _ _ => some k
  | .st k _ _ _ _ _ _ => some k
  | .b k _ _ => some k
  | .bcc k _ _ _ _ _ => some k
  | .jal k _ _ _ => some k
  | .jr k _ _ _ => some k
  | .dset k _ _ _ _ _ => some k
  | .dget k _ _ _ _ _ => some k
  | .dclr k _ _ => some k
  | .dmov k _ _ _ => some k
  | .dld k _ _ _ _ _ => some k
  | .dst k _ _ _ _ _ => some k
  | .mmaD k _ _ => some k
  | .mmaS k _ _ => some k
  | .spcmp k _ _ => some k
  | .segred k _ _ => some k
  | .combine k _ _ => some k
  | .smBlock k _ _ => some k
  | .smRescale k _ _ => some k
  | .smFinal k _ _ => some k
  | .smMerge k _ _ => some k
  | .segSoftmax k _ _ => some k
  | .ewiseCopy k _ _ => some k
  | .ewiseAdd k _ _ => some k
  | .ewiseSub k _ _ => some k
  | .ewiseMul k _ _ => some k
  | .ewiseDiv k _ _ => some k
  | .ewiseMin k _ _ => some k
  | .ewiseMax k _ _ => some k
  | .ewiseFma k _ _ => some k
  | .ewiseScale k _ _ => some k
  | .ewiseRelu k _ _ => some k
  | .ewiseGelu k _ _ => some k
  | .ewiseSilu k _ _ => some k
  | .ewiseSigmoid k _ _ => some k
  | .ewiseTanh k _ _ => some k
  | .ewiseExp k _ _ => some k
  | .ewiseLog k _ _ => some k
  | .ewiseRsqrt k _ _ => some k
  | .ewiseAbs k _ _ => some k
  | .ewiseOr k _ _ => some k
  | .ewiseAnd k _ _ => some k
  | .optstep k _ _ => some k
  | .scan k _ _ => some k
  | .derive k _ _ => some k
  | .qscanLoad k _ _ => some k
  | .qscanStore k _ _ => some k
  | .qconv k _ _ => some k
  | .gather k _ _ => some k
  | .gatherReduce k _ _ => some k
  | .gatherAmax k _ _ => some k
  | .scatter k _ _ => some k
  | .scatterAdd k _ _ => some k
  | .prefetchBatch k _ _ => some k
  | .strmArm k _ _ => some k
  | .strmRearm k _ _ => some k
  | .strmAdv k _ _ => some k
  | .strmClose k _ _ => some k
  | .sig k _ _ => some k
  | .waitGe k _ _ => some k
  | .waitC k _ _ => some k
  | .arrive k _ _ => some k
  | .waitB k _ _ => some k
  | .cread k _ _ _ => some k
  | .fenceSpire k _ => some k
  | .fenceDev k _ => some k
  | .fenceSys k _ => some k
  | .endI k _ => some k
  | .spawn k _ _ => some k
  | .csrr k _ _ _ => some k
  | .csrw k _ _ _ => some k
  | .trace k _ _ _ => some k
  | _ => none

/-- The operand checks of the encoding, beside the guard's (R448). -/
def Instr.operandsWf : Instr → Bool
  | .shli _ _ _ _ imm => decide (imm.toNat < 64)
  | .shri _ _ _ _ imm => decide (imm.toNat < 64)
  | .srai _ _ _ _ imm => decide (imm.toNat < 64)
  | .b _ _ imm => immAligned imm
  | .bcc _ _ _ _ _ imm => immAligned imm
  | .jal _ _ _ imm => immAligned imm
  | .ld _ _ sz sign sp _ _ _ => (sz != .d || !sign) && sp != .desc
  | .st _ _ _ sp _ _ _ => sp != .desc
  | .dst _ _ sp _ _ _ => sp != .desc
  | .dset _ _ sz _ _ byte => byte.toNat % sz.bytes == 0
  | .dget _ _ sz _ _ byte => byte.toNat % sz.bytes == 0
  | .mmaD _ _ e => e.wf
  | .mmaS _ _ e => e.wf
  | .spcmp _ _ e => e.wf
  | .segred _ _ e => e.wf
  | .combine _ _ e => e.wf
  | .smBlock _ _ e => e.wf
  | .smRescale _ _ e => e.wf
  | .smFinal _ _ e => e.wf
  | .smMerge _ _ e => e.wf
  | .segSoftmax _ _ e => e.wf
  | .ewiseCopy _ _ e => e.wf
  | .ewiseAdd _ _ e => e.wf
  | .ewiseSub _ _ e => e.wf
  | .ewiseMul _ _ e => e.wf
  | .ewiseDiv _ _ e => e.wf
  | .ewiseMin _ _ e => e.wf
  | .ewiseMax _ _ e => e.wf
  | .ewiseFma _ _ e => e.wf
  | .ewiseScale _ _ e => e.wf
  | .ewiseRelu _ _ e => e.wf
  | .ewiseGelu _ _ e => e.wf
  | .ewiseSilu _ _ e => e.wf
  | .ewiseSigmoid _ _ e => e.wf
  | .ewiseTanh _ _ e => e.wf
  | .ewiseExp _ _ e => e.wf
  | .ewiseLog _ _ e => e.wf
  | .ewiseRsqrt _ _ e => e.wf
  | .ewiseAbs _ _ e => e.wf
  | .ewiseOr _ _ e => e.wf
  | .ewiseAnd _ _ e => e.wf
  | .optstep _ _ e => e.wf
  | .scan _ _ e => e.wf
  | .derive _ _ e => e.wf
  | .qscanLoad _ _ e => e.wf
  | .qscanStore _ _ e => e.wf
  | .qconv _ _ e => e.wf
  | .gather _ _ e => e.wf
  | .gatherReduce _ _ e => e.wf
  | .gatherAmax _ _ e => e.wf
  | .scatter _ _ e => e.wf
  | .scatterAdd _ _ e => e.wf
  | .prefetchBatch _ _ e => e.wf
  | .strmArm _ _ e => e.wf
  | .strmRearm _ _ e => e.wf
  | .strmAdv _ _ e => e.wf
  | .strmClose _ _ e => e.wf
  | .sig _ _ o => o.wf
  | .waitGe _ _ o => o.wf
  | .waitC _ _ o => o.wf
  | .arrive _ _ o => o.wf
  | .waitB _ _ o => o.wf
  | .cread _ _ _ o => o.wf && !o.imm && o.c == 0
  | _ => true

/-- A command is well formed. -/
def Instr.wf (i : Instr) : Bool :=
  (match i.guard? with | some g => g.wf | none => true) && i.operandsWf

end Sys2Proof
end

