-- ==== Sys2Proof/Decode.lean ====
section
/-! DEFINITION. The Spaner instruction word (chapter "The Spaner instruction set"): decodeSpaner, total on every 64-bit
number, rejecting every reserved encoding; encodeSpaner, written from the same tables; and decodeTableWord, which is
none because no row of the opcode table gives bits. -/

namespace Sys2Proof

/-- The field of n bits from bit lo upwards. -/
def fld (w lo n : Nat) : Nat := w / 2 ^ lo % 2 ^ n

/-- A flag as a number. -/
def bit (b : Bool) : Nat := if b then 1 else 0

/-- A general register number. -/
def regOf (n : Nat) : Reg := Fin.ofNat 32 n
/-- A descriptor register number. -/
def dregOf (n : Nat) : DReg := Fin.ofNat 16 n
/-- A predicate number. -/
def pregOf (n : Nat) : PReg := Fin.ofNat 8 n

/-- The compare condition of a FUNC value. -/
def condOf : Nat → Option Cond
  | 0 => some .eq | 1 => some .ne | 2 => some .lt | 3 => some .ge | 4 => some .ltu | 5 => some .geu | _ => none
/-- The FUNC value of a compare condition. -/
def Cond.code : Cond → Nat
  | .eq => 0 | .ne => 1 | .lt => 2 | .ge => 3 | .ltu => 4 | .geu => 5
/-- The fcmp condition of a FUNC value. -/
def fcondOf : Nat → Option FCond
  | 0 => some .eq | 1 => some .lt | 2 => some .le | 3 => some .un | _ => none
/-- The FUNC value of an fcmp condition. -/
def FCond.code : FCond → Nat
  | .eq => 0 | .lt => 1 | .le => 2 | .un => 3
/-- The access size of a SIZE value. -/
def sizeOf? : Nat → ASize
  | 0 => .b | 1 => .h | 2 => .w | _ => .d
/-- The SIZE value of an access size. -/
def ASize.code : ASize → Nat
  | .b => 0 | .h => 1 | .w => 2 | .d => 3
/-- The space of a SPACE value. -/
def spaceOf : Nat → Option Space
  | 0 => some .data | 1 => some .dev | 2 => some .desc | _ => none
/-- The SPACE value of a space. -/
def Space.code : Space → Nat
  | .data => 0 | .dev => 1 | .desc => 2
/-- The scope of a SCOPE value. -/
def scopeOf : Nat → Option Scope
  | 0 => some .spire | 1 => some .dev | 2 => some .sys | _ => none
/-- The SCOPE value of a scope. -/
def Scope.code : Scope → Nat
  | .spire => 0 | .dev => 1 | .sys => 2

/-- The E format's operands out of fields A, B, C and bits [36:8] (R448, R449). -/
def eopOf (a b c x : Nat) : Option EOp :=
  if a < 16 && c == 0 && fld x 8 2 == 0 && (fld x 10 1 == 1 || b == 0) then
    (scopeOf (fld x 11 2)).map fun sc =>
      { a := dregOf a, b := regOf b, vc := BitVec.ofNat 16 (fld x 21 16), inc := BitVec.ofNat 8 (fld x 13 8),
        scope := sc, vcreg := fld x 10 1 == 1 }
  else none

/-- The S format's operands out of fields B, C and bits [36:0]. -/
def sopOf (b c x : Nat) : Option SOp :=
  let vr := fld x 20 1 == 1
  let im := fld x 19 1 == 1
  if (vr || b == 0) && (if im then c == 0 else fld x 0 19 == 0) then
    some { vc := BitVec.ofNat 16 (fld x 21 16), b := regOf b, vcreg := vr, c := regOf c, imm := im,
           immv := BitVec.ofNat 19 (fld x 0 19) }
  else none

/-- OPC 0x01, the integer register functions (format R; bits [28:0] reserved). -/
def decIntR (k : CoreRef) (g : Guard) (a b c x : Nat) : Option Instr :=
  if fld x 0 29 ≠ 0 then none else
  match fld x 29 8 with
  | 0 => some (.add k g (regOf a) (regOf b) (regOf c))
  | 1 => some (.sub k g (regOf a) (regOf b) (regOf c))
  | 2 => some (.and k g (regOf a) (regOf b) (regOf c))
  | 3 => some (.or k g (regOf a) (regOf b) (regOf c))
  | 4 => some (.xor k g (regOf a) (regOf b) (regOf c))
  | 5 => some (.shl k g (regOf a) (regOf b) (regOf c))
  | 6 => some (.shr k g (regOf a) (regOf b) (regOf c))
  | 7 => some (.sra k g (regOf a) (regOf b) (regOf c))
  | 8 => some (.mul k g (regOf a) (regOf b) (regOf c))
  | 9 => some (.mulhu k g (regOf a) (regOf b) (regOf c))
  | 10 => some (.mulh k g (regOf a) (regOf b) (regOf c))
  | 11 => some (.divu k g (regOf a) (regOf b) (regOf c))
  | 12 => some (.remu k g (regOf a) (regOf b) (regOf c))
  | 13 => some (.div k g (regOf a) (regOf b) (regOf c))
  | 14 => some (.rem k g (regOf a) (regOf b) (regOf c))
  | 15 => some (.minu k g (regOf a) (regOf b) (regOf c))
  | 16 => some (.maxu k g (regOf a) (regOf b) (regOf c))
  | 17 => some (.min k g (regOf a) (regOf b) (regOf c))
  | 18 => some (.max k g (regOf a) (regOf b) (regOf c))
  | 19 => if c = 0 then some (.popc k g (regOf a) (regOf b)) else none
  | 20 => if c = 0 then some (.clz k g (regOf a) (regOf b)) else none
  | _ => none

/-- OPC 0x02, the integer immediate functions (format I; field C reserved; R451). -/
def decIntI (k : CoreRef) (g : Guard) (a b c x : Nat) : Option Instr :=
  let imm := BitVec.ofNat 32 (fld x 0 32)
  if c ≠ 0 then none else
  match fld x 32 5 with
  | 0 => some (.addi k g (regOf a) (regOf b) imm)
  | 1 => some (.andi k g (regOf a) (regOf b) imm)
  | 2 => some (.ori k g (regOf a) (regOf b) imm)
  | 3 => some (.xori k g (regOf a) (regOf b) imm)
  | 4 => if fld x 0 32 < 64 then some (.shli k g (regOf a) (regOf b) imm) else none
  | 5 => if fld x 0 32 < 64 then some (.shri k g (regOf a) (regOf b) imm) else none
  | 6 => if fld x 0 32 < 64 then some (.srai k g (regOf a) (regOf b) imm) else none
  | 7 => some (.muli k g (regOf a) (regOf b) imm)
  | 8 => if b = 0 then some (.li k g (regOf a) imm) else none
  | 9 => some (.lih k g (regOf a) (regOf b) imm)
  | _ => none

/-- OPC 0x05, predicate logic: B and C name predicates (R448). -/
def decPred (k : CoreRef) (g : Guard) (a b c x : Nat) : Option Instr :=
  if fld x 0 29 ≠ 0 || 8 ≤ a || 8 ≤ b || 8 ≤ c then none else
  match fld x 29 8 with
  | 0 => some (.pand k g (pregOf a) (pregOf b) (pregOf c))
  | 1 => some (.por k g (pregOf a) (pregOf b) (pregOf c))
  | 2 => some (.pxor k g (pregOf a) (pregOf b) (pregOf c))
  | 3 => some (.pandn k g (pregOf a) (pregOf b) (pregOf c))
  | _ => none

/-- OPC 0x10, the floating-point functions (format R with BF). -/
def decFp (k : CoreRef) (g : Guard) (a b c x : Nat) : Option Instr :=
  let bf := fld x 28 1 == 1
  if fld x 0 28 ≠ 0 then none else
  match fld x 29 8 with
  | 0 => some (.fadd k g bf (regOf a) (regOf b) (regOf c))
  | 1 => some (.fsub k g bf (regOf a) (regOf b) (regOf c))
  | 2 => some (.fmul k g bf (regOf a) (regOf b) (regOf c))
  | 3 => some (.fdiv k g bf (regOf a) (regOf b) (regOf c))
  | 5 => some (.fmin k g bf (regOf a) (regOf b) (regOf c))
  | 6 => some (.fmax k g bf (regOf a) (regOf b) (regOf c))
  | 7 => some (.ffma k g bf (regOf a) (regOf b) (regOf c))
  | 4 => if c = 0 then some (.fsqrt k g bf (regOf a) (regOf b)) else none
  | 8 => if c = 0 then some (.fabs k g bf (regOf a) (regOf b)) else none
  | 9 => if c = 0 then some (.fneg k g bf (regOf a) (regOf b)) else none
  | 16 => if c = 0 && !bf then some (.fcvtSL k g (regOf a) (regOf b)) else none
  | 17 => if c = 0 && !bf then some (.fcvtLS k g (regOf a) (regOf b)) else none
  | 18 => if c = 0 && !bf then some (.fcvtBfS k g (regOf a) (regOf b)) else none
  | 19 => if c = 0 && !bf then some (.fcvtSBf k g (regOf a) (regOf b)) else none
  | _ => none

/-- OPC 0x20 and 0x21, ld and st (format M; R465). -/
def decMem (k : CoreRef) (g : Guard) (store : Bool) (a b c x : Nat) : Option Instr :=
  let sz := sizeOf? (fld x 35 2)
  let sign := fld x 34 1 == 1
  let off := BitVec.ofNat 32 (fld x 0 32)
  match spaceOf (fld x 32 2) with
  | none => none
  | some .desc => none
  | some sp =>
    if store then
      if a = 0 && !sign then some (.st k g sz sp (regOf b) (regOf c) off) else none
    else
      if c = 0 && (sz != .d || !sign) then some (.ld k g sz sign sp (regOf a) (regOf b) off) else none

/-- OPC 0x44 and 0x45, dld and dst (format M with SIZE 0b00 and SIGN 0; the descriptor section for dld only). -/
def decDMem (k : CoreRef) (g : Guard) (store : Bool) (a b c x : Nat) : Option Instr :=
  let off := BitVec.ofNat 32 (fld x 0 32)
  if 16 ≤ a || c ≠ 0 || fld x 34 3 ≠ 0 then none else
  match spaceOf (fld x 32 2) with
  | none => none
  | some sp =>
    if store then (if sp == .desc then none else some (.dst k g sp (dregOf a) (regOf b) off))
    else some (.dld k g sp (dregOf a) (regOf b) off)

/-- OPC 0x30–0x33, the branches (format I; R471). -/
def decBranch (k : CoreRef) (g : Guard) (opc a b c x : Nat) : Option Instr :=
  let imm := BitVec.ofNat 32 (fld x 0 32)
  let f := fld x 32 5
  if opc = 0x30 then
    if a = 0 && b = 0 && c = 0 && f = 0 && immAligned imm then some (.b k g imm) else none
  else if opc = 0x31 then
    if a = 0 && immAligned imm then (condOf f).map fun cd => .bcc k g cd (regOf b) (regOf c) imm else none
  else if opc = 0x32 then
    if b = 0 && c = 0 && f = 0 && immAligned imm then some (.jal k g (regOf a) imm) else none
  else
    if a = 0 && c = 0 && f = 0 then some (.jr k g (regOf b) imm) else none

/-- OPC 0x40–0x43, dset, dget, dclr and dmov (format D). -/
def decDesc (k : CoreRef) (g : Guard) (opc a b c x : Nat) : Option Instr :=
  let sz := sizeOf? (fld x 35 2)
  let byte := fld x 29 6
  if c ≠ 0 || fld x 0 29 ≠ 0 then none else
  if opc = 0x40 then
    if a < 16 && byte % sz.bytes == 0 then some (.dset k g sz (dregOf a) (regOf b) (BitVec.ofNat 6 byte)) else none
  else if opc = 0x41 then
    if b < 16 && byte % sz.bytes == 0 then some (.dget k g sz (regOf a) (dregOf b) (BitVec.ofNat 6 byte)) else none
  else if fld x 29 8 ≠ 0 then none
  else if opc = 0x42 then
    if a < 16 && b = 0 then some (.dclr k g (dregOf a)) else none
  else
    if a < 16 && b < 16 then some (.dmov k g (dregOf a) (dregOf b)) else none

/-- The agg operation that OP and FUNC of the issued descriptor name (OPC 0x54). -/
def aggRow (k : CoreRef) (g : Guard) (op func : Nat) (e : EOp) : Option Instr :=
  match op with
  | 1 => some (.segred k g e)
  | 2 => some (.combine k g e)
  | 16 => some (.smBlock k g e)
  | 17 => some (.smRescale k g e)
  | 18 => some (.smFinal k g e)
  | 19 => some (.smMerge k g e)
  | 20 => some (.segSoftmax k g e)
  | 3 =>
    match func with
    | 0 => some (.ewiseCopy k g e)
    | 1 => some (.ewiseAdd k g e)
    | 2 => some (.ewiseSub k g e)
    | 3 => some (.ewiseMul k g e)
    | 4 => some (.ewiseDiv k g e)
    | 5 => some (.ewiseMin k g e)
    | 6 => some (.ewiseMax k g e)
    | 7 => some (.ewiseFma k g e)
    | 8 => some (.ewiseScale k g e)
    | 9 => some (.ewiseRelu k g e)
    | 10 => some (.ewiseGelu k g e)
    | 11 => some (.ewiseSilu k g e)
    | 12 => some (.ewiseSigmoid k g e)
    | 13 => some (.ewiseTanh k g e)
    | 14 => some (.ewiseExp k g e)
    | 15 => some (.ewiseLog k g e)
    | 16 => some (.ewiseRsqrt k g e)
    | 17 => some (.ewiseAbs k g e)
    | 18 => some (.ewiseOr k g e)
    | 19 => some (.ewiseAnd k g e)
    | _ => none
  | _ => none

/-- The engine issue that OPC, FUNC and the issued descriptor's first two bytes name (R450, R473). -/
def decEngine (k : CoreRef) (g : Guard) (b0 b1 opc func : Nat) (e : EOp) : Option Instr :=
  if opc = 0x5D then
    match func with
    | 0 => some (.strmArm k g e)
    | 1 => some (.strmRearm k g e)
    | 2 => some (.strmAdv k g e)
    | 3 => some (.strmClose k g e)
    | _ => none
  else if func ≠ 0 then none
  else match opc with
  | 0x50 => some (.mmaD k g e)
  | 0x51 => some (.mmaS k g e)
  | 0x52 => some (.spcmp k g e)
  | 0x54 => aggRow k g b0 b1 e
  | 0x55 => some (.optstep k g e)
  | 0x58 =>
    match b0 with
    | 0 => some (.scan k g e)
    | 1 => some (.derive k g e)
    | 2 => some (.qscanLoad k g e)
    | 3 => some (.qscanStore k g e)
    | _ => none
  | 0x59 => some (.qconv k g e)
  | 0x5C =>
    match b0 with
    | 1 => some (.gather k g e)
    | 2 => some (.gatherReduce k g e)
    | 3 => some (.gatherAmax k g e)
    | 4 => some (.scatter k g e)
    | 5 => some (.scatterAdd k g e)
    | 6 => some (.prefetchBatch k g e)
    | _ => none
  | _ => none

/-- OPC 0x60–0x65, the sync instructions (format S). -/
def decSync (k : CoreRef) (g : Guard) (opc a b c x : Nat) : Option Instr :=
  match sopOf b c x with
  | none => none
  | some o =>
    if opc = 0x65 then
      if !o.imm && c = 0 then some (.cread k g (regOf a) o) else none
    else if a ≠ 0 then none
    else match opc with
    | 0x60 => some (.sig k g o)
    | 0x61 => some (.waitGe k g o)
    | 0x62 => some (.waitC k g o)
    | 0x63 => some (.arrive k g o)
    | 0x64 => some (.waitB k g o)
    | _ => none

/-- OPC 0x68–0x79: fences, spawn, end, csr and trace (formats F, W and Y). -/
def decSystem (k : CoreRef) (g : Guard) (opc a b c x : Nat) : Option Instr :=
  match opc with
  | 0x68 =>
    if a = 0 && b = 0 && c = 0 && fld x 2 35 = 0 then
      match fld x 0 2 with
      | 0 => some (.fenceSpire k g)
      | 1 => some (.fenceDev k g)
      | 2 => some (.fenceSys k g)
      | _ => none
    else none
  | 0x70 => if a < 16 && b = 0 && c = 0 && x = 0 then some (.spawn k g (dregOf a)) else none
  | 0x71 => if a = 0 && b = 0 && c = 0 && x = 0 then some (.endI k g) else none
  | 0x78 =>
    if c = 0 && fld x 12 22 = 0 then
      match fld x 34 3 with
      | 0 => if b = 0 then some (.csrr k g (regOf a) (BitVec.ofNat 12 (fld x 0 12))) else none
      | 1 => if a = 0 then some (.csrw k g (regOf b) (BitVec.ofNat 12 (fld x 0 12))) else none
      | _ => none
    else none
  | 0x79 =>
    if a = 0 && c = 0 && fld x 16 21 = 0 then some (.trace k g (regOf b) (BitVec.ofNat 16 (fld x 0 16))) else none
  | _ => none

/-- One Spaner instruction word, fetched by core k; b0 and b1 are the first two bytes of the descriptor register that
field A names, which say which operation an engine issue hands over. none for every reserved encoding (R494.1). -/
def decodeSpaner (k : CoreRef) (b0 b1 w : Nat) : Option Instr :=
  let opc := fld w 56 8
  let a := fld w 51 5
  let b := fld w 46 5
  let c := fld w 41 5
  let g : Guard := { neg := fld w 40 1 == 1, num := Fin.ofNat 8 (fld w 37 3) }
  let x := fld w 0 37
  if !g.wf then none
  else if opc = 0x01 then decIntR k g a b c x
  else if opc = 0x02 then decIntI k g a b c x
  else if opc = 0x03 then
    if 8 ≤ a || fld x 0 29 ≠ 0 then none
    else (condOf (fld x 29 8)).map fun cd => .cmp k g cd (pregOf a) (regOf b) (regOf c)
  else if opc = 0x04 then
    if 8 ≤ a || c ≠ 0 then none
    else (condOf (fld x 32 5)).map fun cd => .cmpi k g cd (pregOf a) (regOf b) (BitVec.ofNat 32 (fld x 0 32))
  else if opc = 0x05 then decPred k g a b c x
  else if opc = 0x10 then decFp k g a b c x
  else if opc = 0x11 then
    if 8 ≤ a || fld x 0 29 ≠ 0 then none
    else (fcondOf (fld x 29 8)).map fun cd => .fcmp k g cd (pregOf a) (regOf b) (regOf c)
  else if opc = 0x20 then decMem k g false a b c x
  else if opc = 0x21 then decMem k g true a b c x
  else if 0x30 ≤ opc && opc ≤ 0x33 then decBranch k g opc a b c x
  else if 0x40 ≤ opc && opc ≤ 0x43 then decDesc k g opc a b c x
  else if opc = 0x44 then decDMem k g false a b c x
  else if opc = 0x45 then decDMem k g true a b c x
  else if 0x50 ≤ opc && opc ≤ 0x5D then
    match eopOf a b c x with
    | some e => decEngine k g b0 b1 opc (fld x 0 8) e
    | none => none
  else if 0x60 ≤ opc && opc ≤ 0x65 then decSync k g opc a b c x
  else decSystem k g opc a b c x

/-- An E-format word whose fields are all defined, with its guard and operands: an engine issue, whichever operation
its descriptor names. -/
def engineWord? (w : Nat) : Option (Guard × EOp) :=
  let opc := fld w 56 8
  let g : Guard := { neg := fld w 40 1 == 1, num := Fin.ofNat 8 (fld w 37 3) }
  let x := fld w 0 37
  if g.wf && (opc == 0x54 || opc == 0x58 || opc == 0x5C) && fld x 0 8 == 0 then
    (eopOf (fld w 51 5) (fld w 46 5) (fld w 41 5) x).map fun e => (g, e)
  else none

/-- The fields common to every instruction. -/
def wordOf (opc a b c : Nat) (g : Guard) (x : Nat) : Nat :=
  opc * 2 ^ 56 + a * 2 ^ 51 + b * 2 ^ 46 + c * 2 ^ 41 + bit g.neg * 2 ^ 40 + g.num.val * 2 ^ 37 + x

/-- Bits [36:0] of the M format. -/
def mBits (sz : Nat) (sign : Bool) (sp : Space) (off : W32) : Nat :=
  sz * 2 ^ 35 + bit sign * 2 ^ 34 + sp.code * 2 ^ 32 + off.toNat

/-- Bits [36:0] of the E format with FUNC f. -/
def eBits (e : EOp) (f : Nat) : Nat :=
  e.vc.toNat * 2 ^ 21 + e.inc.toNat * 2 ^ 13 + e.scope.code * 2 ^ 11 + bit e.vcreg * 2 ^ 10 + f

/-- Bits [36:0] of the S format. -/
def sBits (o : SOp) : Nat :=
  o.vc.toNat * 2 ^ 21 + bit o.vcreg * 2 ^ 20 + bit o.imm * 2 ^ 19 + o.immv.toNat

/-- The word of a well-formed Spaner instruction, from the encoding tables; 0 for every other command. -/
def encodeSpaner : Instr → Nat
  | .add _ g a b c => wordOf 0x01 a b c g (0 * 2 ^ 29)
  | .sub _ g a b c => wordOf 0x01 a b c g (1 * 2 ^ 29)
  | .and _ g a b c => wordOf 0x01 a b c g (2 * 2 ^ 29)
  | .or _ g a b c => wordOf 0x01 a b c g (3 * 2 ^ 29)
  | .xor _ g a b c => wordOf 0x01 a b c g (4 * 2 ^ 29)
  | .shl _ g a b c => wordOf 0x01 a b c g (5 * 2 ^ 29)
  | .shr _ g a b c => wordOf 0x01 a b c g (6 * 2 ^ 29)
  | .sra _ g a b c => wordOf 0x01 a b c g (7 * 2 ^ 29)
  | .mul _ g a b c => wordOf 0x01 a b c g (8 * 2 ^ 29)
  | .mulhu _ g a b c => wordOf 0x01 a b c g (9 * 2 ^ 29)
  | .mulh _ g a b c => wordOf 0x01 a b c g (10 * 2 ^ 29)
  | .divu _ g a b c => wordOf 0x01 a b c g (11 * 2 ^ 29)
  | .remu _ g a b c => wordOf 0x01 a b c g (12 * 2 ^ 29)
  | .div _ g a b c => wordOf 0x01 a b c g (13 * 2 ^ 29)
  | .rem _ g a b c => wordOf 0x01 a b c g (14 * 2 ^ 29)
  | .minu _ g a b c => wordOf 0x01 a b c g (15 * 2 ^ 29)
  | .maxu _ g a b c => wordOf 0x01 a b c g (16 * 2 ^ 29)
  | .min _ g a b c => wordOf 0x01 a b c g (17 * 2 ^ 29)
  | .max _ g a b c => wordOf 0x01 a b c g (18 * 2 ^ 29)
  | .popc _ g a b => wordOf 0x01 a b 0 g (19 * 2 ^ 29)
  | .clz _ g a b => wordOf 0x01 a b 0 g (20 * 2 ^ 29)
  | .addi _ g a b imm => wordOf 0x02 a b 0 g (0 * 2 ^ 32 + imm.toNat)
  | .andi _ g a b imm => wordOf 0x02 a b 0 g (1 * 2 ^ 32 + imm.toNat)
  | .ori _ g a b imm => wordOf 0x02 a b 0 g (2 * 2 ^ 32 + imm.toNat)
  | .xori _ g a b imm => wordOf 0x02 a b 0 g (3 * 2 ^ 32 + imm.toNat)
  | .shli _ g a b imm => wordOf 0x02 a b 0 g (4 * 2 ^ 32 + imm.toNat)
  | .shri _ g a b imm => wordOf 0x02 a b 0 g (5 * 2 ^ 32 + imm.toNat)
  | .srai _ g a b imm => wordOf 0x02 a b 0 g (6 * 2 ^ 32 + imm.toNat)
  | .muli _ g a b imm => wordOf 0x02 a b 0 g (7 * 2 ^ 32 + imm.toNat)
  | .li _ g a imm => wordOf 0x02 a 0 0 g (8 * 2 ^ 32 + imm.toNat)
  | .lih _ g a b imm => wordOf 0x02 a b 0 g (9 * 2 ^ 32 + imm.toNat)
  | .cmp _ g cd p b c => wordOf 0x03 p b c g (cd.code * 2 ^ 29)
  | .cmpi _ g cd p b imm => wordOf 0x04 p b 0 g (cd.code * 2 ^ 32 + imm.toNat)
  | .pand _ g p b c => wordOf 0x05 p b c g (0 * 2 ^ 29)
  | .por _ g p b c => wordOf 0x05 p b c g (1 * 2 ^ 29)
  | .pxor _ g p b c => wordOf 0x05 p b c g (2 * 2 ^ 29)
  | .pandn _ g p b c => wordOf 0x05 p b c g (3 * 2 ^ 29)
  | .fadd _ g bf a b c => wordOf 0x10 a b c g (0 * 2 ^ 29 + bit bf * 2 ^ 28)
  | .fsub _ g bf a b c => wordOf 0x10 a b c g (1 * 2 ^ 29 + bit bf * 2 ^ 28)
  | .fmul _ g bf a b c => wordOf 0x10 a b c g (2 * 2 ^ 29 + bit bf * 2 ^ 28)
  | .fdiv _ g bf a b c => wordOf 0x10 a b c g (3 * 2 ^ 29 + bit bf * 2 ^ 28)
  | .fmin _ g bf a b c => wordOf 0x10 a b c g (5 * 2 ^ 29 + bit bf * 2 ^ 28)
  | .fmax _ g bf a b c => wordOf 0x10 a b c g (6 * 2 ^ 29 + bit bf * 2 ^ 28)
  | .ffma _ g bf a b c => wordOf 0x10 a b c g (7 * 2 ^ 29 + bit bf * 2 ^ 28)
  | .fsqrt _ g bf a b => wordOf 0x10 a b 0 g (4 * 2 ^ 29 + bit bf * 2 ^ 28)
  | .fabs _ g bf a b => wordOf 0x10 a b 0 g (8 * 2 ^ 29 + bit bf * 2 ^ 28)
  | .fneg _ g bf a b => wordOf 0x10 a b 0 g (9 * 2 ^ 29 + bit bf * 2 ^ 28)
  | .fcvtSL _ g a b => wordOf 0x10 a b 0 g (16 * 2 ^ 29)
  | .fcvtLS _ g a b => wordOf 0x10 a b 0 g (17 * 2 ^ 29)
  | .fcvtBfS _ g a b => wordOf 0x10 a b 0 g (18 * 2 ^ 29)
  | .fcvtSBf _ g a b => wordOf 0x10 a b 0 g (19 * 2 ^ 29)
  | .fcmp _ g cd p b c => wordOf 0x11 p b c g (cd.code * 2 ^ 29)
  | .ld _ g sz sign sp a b off => wordOf 0x20 a b 0 g (mBits sz.code sign sp off)
  | .st _ g sz sp b c off => wordOf 0x21 0 b c g (mBits sz.code false sp off)
  | .b _ g imm => wordOf 0x30 0 0 0 g imm.toNat
  | .bcc _ g cd b c imm => wordOf 0x31 0 b c g (cd.code * 2 ^ 32 + imm.toNat)
  | .jal _ g a imm => wordOf 0x32 a 0 0 g imm.toNat
  | .jr _ g b imm => wordOf 0x33 0 b 0 g imm.toNat
  | .dset _ g sz d b byte => wordOf 0x40 d b 0 g (sz.code * 2 ^ 35 + byte.toNat * 2 ^ 29)
  | .dget _ g sz a d byte => wordOf 0x41 a d 0 g (sz.code * 2 ^ 35 + byte.toNat * 2 ^ 29)
  | .dclr _ g d => wordOf 0x42 d 0 0 g 0
  | .dmov _ g d e => wordOf 0x43 d e 0 g 0
  | .dld _ g sp d b off => wordOf 0x44 d b 0 g (mBits 0 false sp off)
  | .dst _ g sp d b off => wordOf 0x45 d b 0 g (mBits 0 false sp off)
  | .mmaD _ g e => wordOf 0x50 e.a e.b 0 g (eBits e 0)
  | .mmaS _ g e => wordOf 0x51 e.a e.b 0 g (eBits e 0)
  | .spcmp _ g e => wordOf 0x52 e.a e.b 0 g (eBits e 0)
  | .segred _ g e => wordOf 0x54 e.a e.b 0 g (eBits e 0)
  | .combine _ g e => wordOf 0x54 e.a e.b 0 g (eBits e 0)
  | .smBlock _ g e => wordOf 0x54 e.a e.b 0 g (eBits e 0)
  | .smRescale _ g e => wordOf 0x54 e.a e.b 0 g (eBits e 0)
  | .smFinal _ g e => wordOf 0x54 e.a e.b 0 g (eBits e 0)
  | .smMerge _ g e => wordOf 0x54 e.a e.b 0 g (eBits e 0)
  | .segSoftmax _ g e => wordOf 0x54 e.a e.b 0 g (eBits e 0)
  | .ewiseCopy _ g e => wordOf 0x54 e.a e.b 0 g (eBits e 0)
  | .ewiseAdd _ g e => wordOf 0x54 e.a e.b 0 g (eBits e 0)
  | .ewiseSub _ g e => wordOf 0x54 e.a e.b 0 g (eBits e 0)
  | .ewiseMul _ g e => wordOf 0x54 e.a e.b 0 g (eBits e 0)
  | .ewiseDiv _ g e => wordOf 0x54 e.a e.b 0 g (eBits e 0)
  | .ewiseMin _ g e => wordOf 0x54 e.a e.b 0 g (eBits e 0)
  | .ewiseMax _ g e => wordOf 0x54 e.a e.b 0 g (eBits e 0)
  | .ewiseFma _ g e => wordOf 0x54 e.a e.b 0 g (eBits e 0)
  | .ewiseScale _ g e => wordOf 0x54 e.a e.b 0 g (eBits e 0)
  | .ewiseRelu _ g e => wordOf 0x54 e.a e.b 0 g (eBits e 0)
  | .ewiseGelu _ g e => wordOf 0x54 e.a e.b 0 g (eBits e 0)
  | .ewiseSilu _ g e => wordOf 0x54 e.a e.b 0 g (eBits e 0)
  | .ewiseSigmoid _ g e => wordOf 0x54 e.a e.b 0 g (eBits e 0)
  | .ewiseTanh _ g e => wordOf 0x54 e.a e.b 0 g (eBits e 0)
  | .ewiseExp _ g e => wordOf 0x54 e.a e.b 0 g (eBits e 0)
  | .ewiseLog _ g e => wordOf 0x54 e.a e.b 0 g (eBits e 0)
  | .ewiseRsqrt _ g e => wordOf 0x54 e.a e.b 0 g (eBits e 0)
  | .ewiseAbs _ g e => wordOf 0x54 e.a e.b 0 g (eBits e 0)
  | .ewiseOr _ g e => wordOf 0x54 e.a e.b 0 g (eBits e 0)
  | .ewiseAnd _ g e => wordOf 0x54 e.a e.b 0 g (eBits e 0)
  | .optstep _ g e => wordOf 0x55 e.a e.b 0 g (eBits e 0)
  | .scan _ g e => wordOf 0x58 e.a e.b 0 g (eBits e 0)
  | .derive _ g e => wordOf 0x58 e.a e.b 0 g (eBits e 0)
  | .qscanLoad _ g e => wordOf 0x58 e.a e.b 0 g (eBits e 0)
  | .qscanStore _ g e => wordOf 0x58 e.a e.b 0 g (eBits e 0)
  | .qconv _ g e => wordOf 0x59 e.a e.b 0 g (eBits e 0)
  | .gather _ g e => wordOf 0x5C e.a e.b 0 g (eBits e 0)
  | .gatherReduce _ g e => wordOf 0x5C e.a e.b 0 g (eBits e 0)
  | .gatherAmax _ g e => wordOf 0x5C e.a e.b 0 g (eBits e 0)
  | .scatter _ g e => wordOf 0x5C e.a e.b 0 g (eBits e 0)
  | .scatterAdd _ g e => wordOf 0x5C e.a e.b 0 g (eBits e 0)
  | .prefetchBatch _ g e => wordOf 0x5C e.a e.b 0 g (eBits e 0)
  | .strmArm _ g e => wordOf 0x5D e.a e.b 0 g (eBits e 0)
  | .strmRearm _ g e => wordOf 0x5D e.a e.b 0 g (eBits e 1)
  | .strmAdv _ g e => wordOf 0x5D e.a e.b 0 g (eBits e 2)
  | .strmClose _ g e => wordOf 0x5D e.a e.b 0 g (eBits e 3)
  | .sig _ g o => wordOf 0x60 0 o.b o.c g (sBits o)
  | .waitGe _ g o => wordOf 0x61 0 o.b o.c g (sBits o)
  | .waitC _ g o => wordOf 0x62 0 o.b o.c g (sBits o)
  | .arrive _ g o => wordOf 0x63 0 o.b o.c g (sBits o)
  | .waitB _ g o => wordOf 0x64 0 o.b o.c g (sBits o)
  | .cread _ g a o => wordOf 0x65 a o.b 0 g (sBits o)
  | .fenceSpire _ g => wordOf 0x68 0 0 0 g 0
  | .fenceDev _ g => wordOf 0x68 0 0 0 g 1
  | .fenceSys _ g => wordOf 0x68 0 0 0 g 2
  | .spawn _ g d => wordOf 0x70 d 0 0 g 0
  | .endI _ g => wordOf 0x71 0 0 0 g 0
  | .csrr _ g a sel => wordOf 0x78 a 0 0 g sel.toNat
  | .csrw _ g b sel => wordOf 0x78 0 b 0 g (2 ^ 34 + sel.toNat)
  | .trace _ g b tag => wordOf 0x79 0 b 0 g tag.toNat
  | _ => 0

/-- The first two descriptor bytes that select an engine issue's row: OP and FUNC of agg, MODE of qscan, OP of gather.
Every other instruction takes any. -/
def rowSelected (b0 b1 : Nat) : Instr → Bool
  | .segred _ _ _ => b0 == 1
  | .combine _ _ _ => b0 == 2
  | .smBlock _ _ _ => b0 == 16
  | .smRescale _ _ _ => b0 == 17
  | .smFinal _ _ _ => b0 == 18
  | .smMerge _ _ _ => b0 == 19
  | .segSoftmax _ _ _ => b0 == 20
  | .ewiseCopy _ _ _ => b0 == 3 && b1 == 0
  | .ewiseAdd _ _ _ => b0 == 3 && b1 == 1
  | .ewiseSub _ _ _ => b0 == 3 && b1 == 2
  | .ewiseMul _ _ _ => b0 == 3 && b1 == 3
  | .ewiseDiv _ _ _ => b0 == 3 && b1 == 4
  | .ewiseMin _ _ _ => b0 == 3 && b1 == 5
  | .ewiseMax _ _ _ => b0 == 3 && b1 == 6
  | .ewiseFma _ _ _ => b0 == 3 && b1 == 7
  | .ewiseScale _ _ _ => b0 == 3 && b1 == 8
  | .ewiseRelu _ _ _ => b0 == 3 && b1 == 9
  | .ewiseGelu _ _ _ => b0 == 3 && b1 == 10
  | .ewiseSilu _ _ _ => b0 == 3 && b1 == 11
  | .ewiseSigmoid _ _ _ => b0 == 3 && b1 == 12
  | .ewiseTanh _ _ _ => b0 == 3 && b1 == 13
  | .ewiseExp _ _ _ => b0 == 3 && b1 == 14
  | .ewiseLog _ _ _ => b0 == 3 && b1 == 15
  | .ewiseRsqrt _ _ _ => b0 == 3 && b1 == 16
  | .ewiseAbs _ _ _ => b0 == 3 && b1 == 17
  | .ewiseOr _ _ _ => b0 == 3 && b1 == 18
  | .ewiseAnd _ _ _ => b0 == 3 && b1 == 19
  | .scan _ _ _ => b0 == 0
  | .derive _ _ _ => b0 == 1
  | .qscanLoad _ _ _ => b0 == 2
  | .qscanStore _ _ _ => b0 == 3
  | .gather _ _ _ => b0 == 1
  | .gatherReduce _ _ _ => b0 == 2
  | .gatherAmax _ _ _ => b0 == 3
  | .scatter _ _ _ => b0 == 4
  | .scatterAdd _ _ _ => b0 == 5
  | .prefetchBatch _ _ _ => b0 == 6
  | _ => true

/-- No row of spec/opcode_table.json gives bits, so no word spells a command. -/
def decodeTableWord (_nbits _w : Nat) : Option Instr := none

end Sys2Proof
end

