-- ==== Sys2Proof/Machine/Bytes.lean ====
section
/-! DEFINITION. Bytes and bit fields: little-endian numbers (R12), slices of a structure, fields of a 32-bit register
(R13), and two's complement. -/

namespace Sys2Proof.Machine

/-- The number that bytes hold, least significant first (R12). -/
def leNat : List Byte → Nat
  | [] => 0
  | b :: t => b.toNat + 256 * leNat t

/-- The n bytes of a number, least significant first; higher bits are dropped. -/
def natLe : Nat → Nat → List Byte
  | 0, _ => []
  | n + 1, v => BitVec.ofNat 8 v :: natLe n (v / 256)

/-- The n bytes of a number, most significant first. -/
def natBe (n v : Nat) : List Byte := (natLe n v).reverse

/-- The n bytes from offset off; missing bytes are not supplied. -/
def slice (l : List Byte) (off n : Nat) : List Byte := (l.drop off).take n

/-- The little-endian number of n bytes at offset off. -/
def getLe (l : List Byte) (off n : Nat) : Nat := leNat (slice l off n)

/-- Every byte of n bytes at offset off is 0. -/
def zeroAt (l : List Byte) (off n : Nat) : Bool := (slice l off n).all (· == 0)

/-- n bytes of 0. -/
def zeros (n : Nat) : List Byte := List.replicate n 0

/-- A structure with the bytes at offset off replaced. -/
def putBytes (l : List Byte) (off : Nat) (v : List Byte) : List Byte :=
  l.take off ++ v ++ l.drop (off + v.length)

/-- The field of n bits from bit lo of a number. -/
def nbits (w lo n : Nat) : Nat := w / 2 ^ lo % 2 ^ n

/-- Field [lo + n - 1 : lo] of a register. -/
def rfld (w : W32) (lo n : Nat) : Nat := nbits w.toNat lo n

/-- One bit of a register. -/
def rbit (w : W32) (i : Nat) : Bool := w.getLsbD i

/-- A register with field [lo + n - 1 : lo] replaced. -/
def rput (w : W32) (lo n v : Nat) : W32 :=
  BitVec.ofNat 32 (w.toNat - nbits w.toNat lo n * 2 ^ lo + v % 2 ^ n * 2 ^ lo)

/-- A register with one bit replaced. -/
def rputBit (w : W32) (i : Nat) (b : Bool) : W32 := rput w i 1 (if b then 1 else 0)

/-- Bit i of a number. -/
def nbit (w i : Nat) : Bool := w.testBit i

/-- A number with bit i set or cleared. -/
def nsetBit (w i : Nat) (b : Bool) : Nat :=
  if b then w ||| 2 ^ i else if w.testBit i then w - 2 ^ i else w

/-- The signed value of the low n bits of a number (two's complement). -/
def sext (n v : Nat) : Int :=
  let u := v % 2 ^ n
  if 2 * u < 2 ^ n then (u : Int) else (u : Int) - (2 : Int) ^ n

/-- The low n bits of an integer, two's complement. -/
def wrapInt (n : Nat) (v : Int) : Nat := (v % (2 : Int) ^ n).toNat

/-- The number of 1 bits among the low n. -/
def popCount : Nat → Nat → Nat
  | 0, _ => 0
  | n + 1, v => (if v.testBit n then 1 else 0) + popCount n v

/-- The numbers below n whose bit is set, rising. -/
def bitsSet (n v : Nat) : List Nat := (List.range n).filter fun i => v.testBit i

/-- Adding with saturation at 2^n - 1. -/
def satAdd (n a b : Nat) : Nat := min (a + b) (2 ^ n - 1)

/-- Replace the element at position i. -/
def lset {α : Type} (l : List α) (i : Nat) (v : α) : List α := l.set i v

/-- a divided by b, rounded up. -/
def ceilDiv (a b : Nat) : Nat := (a + b - 1) / b

/-- The intersection of [a, a + n) and [b, b + m) is not empty. -/
def overlaps (a n b m : Nat) : Bool := decide (0 < n) && decide (0 < m) && decide (a < b + m) && decide (b < a + n)

/-- [a, a + n) lies inside [b, b + m). -/
def inside (a n b m : Nat) : Bool := decide (b ≤ a) && decide (a + n ≤ b + m)

/-- An element before the first one of a greater or equal key. -/
def insertKey {α : Type} (f : α → Nat) (a : α) : List α → List α
  | [] => [a]
  | b :: t => if f a ≤ f b then a :: b :: t else b :: insertKey f a t

/-- A list by rising keys; equal keys keep their order. -/
def sortKey {α : Type} (f : α → Nat) (l : List α) : List α := l.foldr (insertKey f) []

end Sys2Proof.Machine
end

