-- ==== Sys2Proof/Machine/Crypto.lean ====
section
/-! DEFINITION. The algorithms of "Trust and identity": SHAKE256 (NIST FIPS 202) and KMAC256 (NIST SP 800-185), on bytes,
with Keccak-f[1600] on 25 lanes of 64 bits. -/

namespace Sys2Proof.Machine

/-- One step of the shift register behind rc(t) (FIPS 202, algorithm 5): eight bits, with R[0] the lowest. -/
def rcStep (r : Nat) : Nat := if 128 ≤ r then (2 * r) ^^^ 0x171 else 2 * r

/-- The register after t steps from 1. -/
def rcReg : Nat → Nat
  | 0 => 1
  | t + 1 => rcStep (rcReg t)

/-- The constant of round i (FIPS 202, algorithm 6): bit 2^j - 1 is rc(j + 7 i). -/
def roundConst (i : Nat) : W64 :=
  BitVec.ofNat 64 (((List.range 7).map fun j => if (rcReg (j + 7 * i)).testBit 0 then 2 ^ (2 ^ j - 1) else 0).sum)

/-- The walk of the rho step (FIPS 202, algorithm 2) from (x, y), t steps gone: lane and offset of each step. -/
def rhoWalk : Nat → Nat → Nat → Nat → List (Nat × Nat)
  | 0, _, _, _ => []
  | n + 1, t, x, y => (x + 5 * y, (t + 1) * (t + 2) / 2 % 64) :: rhoWalk n (t + 1) y ((2 * x + 3 * y) % 5)

/-- The lane offsets of rho, by lane x + 5 y; lane 0 does not rotate. -/
def rhoOffset (l : Nat) : Nat :=
  match (rhoWalk 24 0 1 0).find? fun e => e.1 == l with
  | some e => e.2
  | none => 0

/-- The offsets of the 25 lanes. -/
def rhoOffsets : List Nat := (List.range 25).map rhoOffset

/-- Lane (x, y) of a state, with both coordinates modulo 5. -/
def laneAt (a : List W64) (x y : Nat) : W64 := a.getD (x % 5 + 5 * (y % 5)) 0

/-- A state from its lanes. -/
def lanes (f : Nat → Nat → W64) : List W64 := (List.range 25).map fun i => f (i % 5) (i / 5)

/-- The parity of a column of lanes. -/
def parity (a : List W64) (x : Nat) : W64 := (List.range 5).foldl (fun w y => w ^^^ laneAt a x y) 0

/-- theta (FIPS 202, algorithm 1). -/
def theta (a : List W64) : List W64 :=
  let c := (List.range 5).map (parity a)
  lanes fun x y => laneAt a x y ^^^ laneAt c (x + 4) 0 ^^^ (laneAt c (x + 1) 0).rotateLeft 1

/-- rho and pi (FIPS 202, algorithms 2 and 3): lane (x, y) comes from (x + 3 y, x), rotated by its offset. -/
def rhoPi (a : List W64) : List W64 :=
  lanes fun x y => (laneAt a (x + 3 * y) x).rotateLeft (rhoOffsets.getD ((x + 3 * y) % 5 + 5 * x) 0)

/-- chi (FIPS 202, algorithm 4). -/
def chi (a : List W64) : List W64 := lanes fun x y => laneAt a x y ^^^ (~~~ laneAt a (x + 1) y &&& laneAt a (x + 2) y)

/-- A round, with iota's constant on lane 0. -/
def keccakRound (a : List W64) (rc : W64) : List W64 := List.zipWith (· ^^^ ·) (chi (rhoPi (theta a))) (rc :: List.replicate 24 0)

/-- The round constants in order. -/
def keccakRC : List W64 := (List.range 24).map roundConst

/-- Keccak-f[1600]. -/
def keccakF (a : List W64) : List W64 := keccakRC.foldl keccakRound a

/-- Lanes of 8 bytes. -/
def toLanes : Nat → List Byte → List W64
  | 0, _ => []
  | n + 1, l => BitVec.ofNat 64 (leNat (l.take 8)) :: toLanes n (l.drop 8)

/-- Absorb blocks of 136 bytes; fuel bounds the number of blocks. -/
def absorb : Nat → List W64 → List Byte → List W64
  | 0, a, _ => a
  | n + 1, a, l =>
    if l.isEmpty then a
    else absorb n (keccakF (List.zipWith (· ^^^ ·) a (toLanes 25 (l.take 136 ++ zeros 64)))) (l.drop 136)

/-- Squeeze n blocks of 136 bytes. -/
def squeeze : Nat → List W64 → List Byte
  | 0, _ => []
  | n + 1, a => ((a.flatMap fun w => natLe 8 w.toNat).take 136) ++ squeeze n (keccakF a)

/-- The Keccak sponge of rate 136 bytes with domain-separation byte ds. -/
def sponge (ds : Byte) (msg : List Byte) (outBytes : Nat) : List Byte :=
  let padLen := 136 - msg.length % 136
  let pad := if padLen = 1 then [ds ||| 0x80] else ds :: zeros (padLen - 2) ++ [0x80]
  let m := msg ++ pad
  (squeeze (ceilDiv outBytes 136) (absorb (m.length / 136) (List.replicate 25 0) m)).take outBytes

/-- SHAKE256 with an output of outBytes bytes. -/
def shake256 (msg : List Byte) (outBytes : Nat) : List Byte := sponge 0x1F msg outBytes

/-- The fewest bytes, at least one, that hold a number. -/
def byteLen : Nat → Nat → Nat
  | 0, _ => 1
  | n + 1, v => if v < 256 then 1 else 1 + byteLen n (v / 256)

/-- left_encode of SP 800-185. -/
def leftEncode (v : Nat) : List Byte :=
  let n := byteLen 16 v
  BitVec.ofNat 8 n :: natBe n v

/-- right_encode of SP 800-185. -/
def rightEncode (v : Nat) : List Byte :=
  let n := byteLen 16 v
  natBe n v ++ [BitVec.ofNat 8 n]

/-- encode_string of SP 800-185. -/
def encodeString (s : List Byte) : List Byte := leftEncode (8 * s.length) ++ s

/-- bytepad to a multiple of 136 bytes (SP 800-185). -/
def bytepad136 (s : List Byte) : List Byte :=
  let m := leftEncode 136 ++ s
  m ++ zeros ((136 - m.length % 136) % 136)

/-- ASCII bytes. -/
def ascii (s : String) : List Byte := s.toList.map fun c => BitVec.ofNat 8 c.toNat

/-- KMAC256(K, X, L, S) of SP 800-185 with an output of outBytes bytes. -/
def kmac256 (k x : List Byte) (outBytes : Nat) (s : String) : List Byte :=
  sponge 0x04
    (bytepad136 (encodeString (ascii "KMAC") ++ encodeString (ascii s)) ++ bytepad136 (encodeString k) ++ x
      ++ rightEncode (8 * outBytes))
    outBytes

end Sys2Proof.Machine
end

