-- ==== Sys2Proof/Machine/Gcm.lean ====
section
/-! DEFINITION. AES-256 (FIPS 197) and GCM (NIST SP 800-38D) with a 96-bit initialization vector, on bytes: the cipher of R152. -/

namespace Sys2Proof.Machine

/-- A byte times x in AES's field. -/
def gfDouble (a : Byte) : Byte := if a.msb then (a <<< 1) ^^^ 0x1B else a <<< 1

/-- The product of two bytes in AES's field, over the low n bits of the second. -/
def gfMul (a : Byte) : Nat → Byte → Byte
  | 0, _ => 0
  | n + 1, b => (if b.getLsbD 0 then a else 0) ^^^ gfDouble (gfMul a n (b >>> 1))

/-- The n-fold square of a byte in AES's field times what the steps before gathered: a^(2^(n+1) - 2) from n = 7 is the inverse of a. -/
def gfInv (a : Byte) : Nat → Byte
  | 0 => 1
  | n + 1 => let q := gfMul a 8 (gfInv a n)
             gfMul q 8 q

/-- The substitution of a byte. -/
def aesSub (a : Byte) : Byte :=
  let v := gfInv a 7
  v ^^^ v.rotateLeft 1 ^^^ v.rotateLeft 2 ^^^ v.rotateLeft 3 ^^^ v.rotateLeft 4 ^^^ 0x63

/-- The bytes of a block after the rows have shifted: byte r of column c comes from column c + r. -/
def aesShift (b : List Byte) : List Byte := (List.range 16).map fun i => b.getD ((i + 4 * (i % 4)) % 16) 0

/-- A block after its columns have mixed. -/
def aesMix (b : List Byte) : List Byte :=
  (List.range 16).map fun i =>
    let at' := fun k => b.getD (i / 4 * 4 + (i + k) % 4) 0
    gfDouble (at' 0 ^^^ at' 1) ^^^ at' 1 ^^^ at' 2 ^^^ at' 3

/-- Exclusive or of two blocks. -/
def xorBlock (a b : List Byte) : List Byte := List.zipWith (· ^^^ ·) a b

/-- The next 16 bytes of the key schedule from the 32 before them: round i, where an even round starts with the rotated last word and a
round constant. -/
def aesNextKey (i : Nat) (p q : List Byte) : List Byte :=
  let w := q.drop 12
  let t := if i % 2 = 0 then xorBlock ((w.drop 1 ++ w.take 1).map aesSub) [(1 : Byte) <<< (i / 2 - 1), 0, 0, 0] else w.map aesSub
  let a := xorBlock (p.take 4) t
  let b := xorBlock ((p.drop 4).take 4) a
  let c := xorBlock ((p.drop 8).take 4) b
  a ++ b ++ c ++ xorBlock (p.drop 12) c

/-- The round keys that follow two. -/
def aesKeysFrom : Nat → Nat → List Byte → List Byte → List (List Byte)
  | 0, _, _, _ => []
  | n + 1, i, p, q => let r := aesNextKey i p q
                      r :: aesKeysFrom n (i + 1) q r

/-- The 15 round keys of a 32-byte key. -/
def aesKeys (key : List Byte) : List (List Byte) := key.take 16 :: key.drop 16 :: aesKeysFrom 13 2 (key.take 16) (key.drop 16)

/-- A block under round keys: the last round mixes no columns. -/
def aesRounds : List (List Byte) → List Byte → List Byte
  | [], b => b
  | [k], b => xorBlock (aesShift (b.map aesSub)) k
  | k :: t, b => aesRounds t (xorBlock (aesMix (aesShift (b.map aesSub))) k)

/-- AES-256 of a block. -/
def aes256 (keys : List (List Byte)) (b : List Byte) : List Byte := aesRounds (keys.drop 1) (xorBlock b (keys.headD []))

/-- The product in GCM's field, bit 0 leftmost: n bits of x still to come, from the left. -/
def ghashMul (x : BitVec 128) : Nat → BitVec 128 → BitVec 128 → BitVec 128
  | 0, z, _ => z
  | n + 1, z, v =>
    ghashMul x n (if x.getLsbD n then z ^^^ v else z) (if v.getLsbD 0 then (v >>> 1) ^^^ (0xE1#128 <<< 120) else v >>> 1)

/-- GHASH over blocks. -/
def ghash (h : BitVec 128) : BitVec 128 → List (List Byte) → BitVec 128
  | y, [] => y
  | y, b :: t => ghash h (ghashMul (y ^^^ BitVec.ofNat 128 (leNat b.reverse)) 128 0 h) t

/-- A string cut into blocks of 16 bytes, the last filled with zeros. -/
def blocks16 : Nat → List Byte → List (List Byte)
  | 0, _ => []
  | n + 1, l => if l.isEmpty then [] else (l ++ zeros 15).take 16 :: blocks16 n (l.drop 16)

/-- GCM's keystream on data: block i of it is the cipher of the counter i. -/
def gcmStream (keys : List (List Byte)) (iv : List Byte) : Nat → Nat → List Byte → List Byte
  | 0, _, _ => []
  | n + 1, i, l => if l.isEmpty then []
                   else xorBlock (l.take 16) (aes256 keys (iv ++ natBe 4 i)) ++ gcmStream keys iv n (i + 1) (l.drop 16)

/-- Data encrypted, or decrypted. -/
def gcmCrypt (key iv data : List Byte) : List Byte := gcmStream (aesKeys key) iv (data.length + 1) 2 data

/-- The check value over associated data and encrypted data. -/
def gcmTag (key iv aad data : List Byte) : List Byte :=
  let keys := aesKeys key
  let h := BitVec.ofNat 128 (leNat (aes256 keys (zeros 16)).reverse)
  let s := ghash h 0 (blocks16 (aad.length + 1) aad ++ blocks16 (data.length + 1) data ++ [natBe 8 (8 * aad.length) ++ natBe 8 (8 * data.length)])
  xorBlock (natBe 16 s.toNat) (aes256 keys (iv ++ natBe 4 1))

end Sys2Proof.Machine
end

