-- ==== Sys2Proof/Config.lean ====
section
/-! DEFINITION. What an implementation fixes and the free values: constants with no body, so nothing can be proved of a
value of theirs. Each is named in a log entry. -/

namespace Sys2Proof

/-- A byte the manual leaves without a value, by a draw number and a place: the contents after a region change (R244),
a failed task's outputs (R213), a tested unit's memories (R895), memory after a loss. Log entry 7. -/
opaque Config.freeByte : Nat → Nat → Byte
/-- A number the manual leaves to the device (an epoch, a nonce byte, a pseudo-random start), by a draw number. Log
entry 8. -/
opaque Config.freeNat : Nat → Nat
/-- Whether the core detects a tiny result before rounding (IEEE 754 leaves the choice open; R461). Log entry 9. -/
opaque Config.tinyBefore : Bool
/-- Whether ffma of zero times infinity plus a quiet NaN sets NV (IEEE 754 leaves the choice open; R461). Log entry 9. -/
opaque Config.fmaNanInvalid : Bool
/-- The fixed algorithms of R557 on FP32 bits: the firmware's major and minor version (major × 65,536 + minor), function code (chapter
"Dense, sparse and aggregate engines", EWISE functions), operands A and B. It says by how many places the firmware version's result differs from the nearest FP32 number; where the
manual states no result, it is the result. Log entry 10. -/
opaque Config.transcend : Nat → Nat → Nat → Nat → Nat
/-- The bytes of a frame that the device sends from its EtherType on, before and after MACsec's tag is put in, by what the model holds of
the frame: the manual gives the device no IP address and not every field of the headers. Log entry 33. -/
opaque Config.frameBytes : List Nat → List Byte → List Byte
/-- By how many messages the receive space of a session exceeds the 1,024 of credit that it must hold (R147, R183). Log entry 12. -/
opaque Config.recvRoom : Nat
/-- The length of a task's result data, of what decides it (log entry 8). -/
opaque Config.resultLen : List Byte → Nat
/-- A value that the manual does not state for ordinary operands, by the case's number and an operand: 1 an infinity
converted to E4M3 by the aggregate unit; 2 which NaN code of E5M2 the aggregate unit writes; 3 the tensor scale of the
weights of an operation whose tiles are all ZERO; 4 the zero point of 0 divided by 0; 6 the fields of the snapshot entry of a request that holds for log space, by field. Log entry 16. -/
opaque Config.unstated : Nat → Nat → Nat
/-- How many command and clock lands and how many strobe lands a DDR5 channel has: the manual names the standard alone (R41, R45). Log
entry 116. -/
opaque Config.ddrCommands : Nat
opaque Config.ddrStrobes : Nat
/-- The level on a signal land that a boundary scan's operand does not give, by draw and land (R45). Log entry 116. -/
opaque Config.padLevel : Nat → Signal → Bool
/-- The FMT of a peer's LOOKUP arm as its owner knows it, by the peer's rank and the part's XID: 0 BF16, 1 FP32, modulo 2 (R797). Log
entry 16. -/
opaque Config.armFmt : Nat → Nat → Nat
/-- Bytes of the shadow pool that a write-log entry of a row of n elements takes (R827). Log entry 29. -/
opaque Config.logBytes : Nat → Nat
/-- Whether the MRAM write that a reservation of signature indices needs fails (R915), by draw. Log entry 69. -/
opaque Config.mramFails : Nat → Bool
/-- The operation whose descriptor the enable check takes the 64 bytes at an offset of an image's descriptor section for: 1 a
stream, 2 qscan, 3 spcmp, 4 qconv, 5 mma, anything else none of these. The section carries no types (R416). Log entry 17. -/
opaque Config.descKind : List Byte → Nat → Nat

end Sys2Proof
end

