-- ==== Sys2Proof/Machine/State.lean ====
section
/-! DEFINITION. The state of the device, as plain data, and State.reset. Registers of the register space stand in one map
(regs); everything else the manual gives the device stands in the groups below. Every field's default is its value at
State.reset; a log entry names each default the manual does not give. -/

namespace Sys2Proof.Machine

/-- Why a run stops. No meaning of this model raises one: the manual gives every command an effect. -/
inductive Fault where
  /-- Raised by no meaning; kept because the interface asks for a closed type of faults. Safe. -/
  | unused
deriving DecidableEq, Repr

/-- Why a command has no meaning. -/
inductive Refusal where
  /-- Raised by an arm of exec whose command has no meaning yet; the argument is the row's mnemonic. Safe. -/
  | notModelled (mnemonic : String)
deriving DecidableEq, Repr

/-- A range of bytes whose present contents the manual leaves open, and the draw that supplies them (log entry 7). -/
structure Scramble where
  lo : Nat
  hi : Nat
  draw : Nat
deriving DecidableEq, Repr

/-- A byte memory: listed bytes at rising addresses, none of them 0; an unlisted byte is 0 (log entry 3). Inside the
ranges of scr, the most recent first, a byte is what is listed combined with a free byte. -/
structure Mem where
  cells : List Host.Cell := []
  scr : List Scramble := []
deriving DecidableEq, Repr

/-- Pins, supplies and reset inputs (R43, R53–R55, R70–R77, R933). -/
structure Pins where
  vaux : Bool := true
  pwrGood : Bool := true
  resetN : Bool := false
  straps : BitVec 2 := 0
  /-- THERM_TRIP_N asserted, latched until VAUX or PWR_GOOD cycles (R73). -/
  thermTrip : Bool := false
  /-- PWR_GOOD has fallen since the trip (R73). -/
  tripFell : Bool := false
  /-- The Ethernet transmitters are out of electrical idle (R162, R163). -/
  ethTx : Bool := false
  /-- DDRnn_RESET_N is driven high (R77). -/
  ddrResetN : Bool := false
  /-- The tiers are in self-refresh (R87, R72). -/
  nearSelfRefresh : Bool := false
  glacierSelfRefresh : Bool := false
  /-- Units whose junction exceeds 95 °C (R70). -/
  overLimit : List Nat := []
  /-- The TAP's instruction (R932), the state of its controller (R45), and whether a cold-reset instruction holds the device in RESET
  (R933). -/
  tapIr : Nat := 0x01
  tap : TapState := .testLogicReset
  tapHold : Bool := false
  /-- The boundary register (R45, R932): the cell of each signal land after the last update, which EXTEST drives, and the shift stage. -/
  boundary : List (Signal × Bool) := []
  shift : List (Signal × Bool) := []
deriving DecidableEq, Repr

/-- The power manager (R62) and the fast guards (R63). Voltages in mV. -/
structure Power where
  common : Nat := 720
  commonGap : Nat := 0
  setpoint : SMap Nat := []
  hotGap : SMap Nat := []
  guardGap : SMap Nat := []
  /-- AVSBus voltage writes, newest last: rail select and mV (R59). -/
  avs : List (Nat × Nat) := []
deriving DecidableEq, Repr

/-- The boot sequence (R104, R105), firmware update (R111, R112) and what a warm reset saved (R107). -/
structure Boot where
  /-- The present boot started cold (R85). -/
  cold : Bool := true
  /-- The warm-entry steps run (R87). -/
  warmEntry : Bool := false
  /-- DEV_RESET_N held the device since a warm reset's fall (R83). -/
  warmByPin : Bool := false
  trained : Bool := false
  enumerated : Bool := false
  scanned : Bool := false
  flashFound : Bool := false
  flashQuad : Bool := false
  /-- Tick at which the firmware started (R108). -/
  fwStart : Nat := 0
  savedRun : Bool := false
  savedEn : Nat := 0
  /-- A trip preceded the present PWR_GOOD cycle (LAST_RESET 0x8). -/
  tripped : Bool := false
  /-- BODY_DIGEST of the running image (R930). -/
  fwDigest : List Byte := []
  /-- A firmware update in progress: its session, the next OFFSET and the first 4 KiB held back (R198). -/
  updOwner : Option (Fin 8) := none
  updNext : Nat := 0
  updHead : List Byte := []
  /-- Glacier-tier population matches a mode (R249); the trained DIMMs and present units. -/
  popOk : Bool := true
  dimms : List DimmPop := []
deriving DecidableEq, Repr

/-- What a sub-port has seen of a partner's secure channel (R927): the key slot, the partner's MAC address, GEN, the highest packet number
and those of its replay window. -/
structure RxChannel where
  key : Nat
  mac : Nat
  gen : Nat := 0
  top : Nat := 0
  seen : List Nat := []
deriving DecidableEq, Repr

/-- MACsec state of one sub-port: its secure channel (R152, R154, R926) and its partners'. -/
structure Macsec where
  txGen : Nat := 0
  txPn : Nat := 0
  rx : List RxChannel := []
deriving DecidableEq, Repr

/-- A message on the wire, newest last in State.tx: DWP messages with their header fields and tag (R170), and the other
frames the device sends. -/
inductive OutMsg where
  | dwp (dest : Nat) (typ : Nat) (flags : Nat) (session : Nat) (seq : Nat) (ack : Nat) (credit : Nat)
        (payload : List Byte) (tag : List Byte)
  | roceAck (qp psn : Nat)
  | roceReadResponse (qp psn : Nat) (data : List Byte)
  | roceError (qp psn : Nat)
  | roceSequence (qp psn : Nat)
  | cnp (qp : Nat)
  | ptpDelayReq (sub : Nat) (transport : PtpTransport) (domain : BitVec 8)
  | pfc (sub : Nat) (prio : Nat) (xoff : Bool)
  | i3c (data : List Byte)
  | tdo (value : Nat)
  | scan (cells : List (Signal × Bool))
deriving DecidableEq, Repr

/-- What MACsec makes of a frame that the device sends (R152, R925): the SecTAG's association number, packet number and SCI, the encrypted
data and the check value. -/
structure OutTag where
  an : Nat
  pn : Nat
  sci : Nat
  data : List Byte
  icv : List Byte
deriving DecidableEq, Repr

/-- A frame that the device sends: the sub-port, its priority where it has one, the device's MAC address, the destination (with its next
hop, VLAN and UDP port), the UDP source port, whether ECT(0) is set (R169), the MACsec tag, and what it carries. -/
structure OutFrame where
  sub : Nat
  prio : Option Nat
  srcMac : Nat
  dst : NetAddr
  srcPort : Nat
  ect0 : Bool
  tag : Option OutTag := none
  msg : OutMsg
deriving DecidableEq, Repr

/-- The Ethernet port beside its registers (chapter "The Ethernet port"). -/
structure Port where
  /-- Lane sets of degraded sub-ports: sub-port to a bit mask of the lanes it runs on (R132); P0 of RECOVERY stands at 8. -/
  lanes : SMap Nat := []
  /-- Sub-ports in training (R131, R162). -/
  training : SMap Bool := []
  macsec : SMap Macsec := []
  /-- Ends of received pauses, by 8 × sub-port + priority (R145, R151). -/
  pauses : SMap Nat := []
  /-- Pauses the device has sent and not lifted, by 8 × sub-port + priority (R147). -/
  xoff : SMap Bool := []
  /-- Frames that wait for a received pause to end, oldest first (R145, R151). -/
  held : List OutFrame := []
  /-- Every frame that has left the port, oldest first. -/
  wire : List OutFrame := []
  /-- Transmit-rate cuts: target to the rate as a fraction of the sub-port rate; absent is the full rate (R149). -/
  rate : SMap Rat := []
  lastCut : SMap Nat := []
  lastNote : SMap Nat := []
  lastCnp : SMap Nat := []
  /-- Received datagrams not yet handed to their session: slot, source, bytes (R139). -/
  rx : List (Nat × NetAddr × List Byte) := []
  refclkLost : Bool := false
deriving DecidableEq, Repr

/-- The PTP servo (R158, R159). -/
structure Ptp where
  seen : Bool := false
  offset : BitVec 64 := 0
  err : Int := 0
  good : Nat := 0
  missed : Nat := 0
deriving DecidableEq, Repr

/-- A sequenced message: SEQ, TYPE and payload (R170); bad is the NAK reason that R173 gives it, or 0. -/
structure Msg where
  seq : Nat
  typ : Nat
  payload : List Byte
  bad : Nat := 0
  /-- Place in the order in which the device received messages, across all sessions (R119): one that counts from 1, once every message
  before it in its session has been received. -/
  arrival : Nat := 0
deriving DecidableEq, Repr

/-- A sequenced message the device sends, until it is acknowledged (R186, R187). -/
structure TxMsg where
  seq : Nat
  typ : Nat
  payload : List Byte
  /-- Tick of the last transmission; none while credit does not let it go (R181). -/
  sent : Option Nat := none
  /-- Present timeout in ticks, and timeouts since ACK last rose (R187). -/
  timeout : Nat := 0
  timeouts : Nat := 0
  /-- Tick of the last retransmission (R186). -/
  resent : Option Nat := none
  /-- SEQ of the message it answers (R185), or 0. -/
  ans : Nat := 0
deriving DecidableEq, Repr

/-- One end of a DWP session: with a partner slot, or with a peer rank (R787). -/
structure Session where
  isOpen : Bool := false
  key : Nat := 0
  epoch : Nat := 0
  ks : List Byte := []
  /-- Source address and port of the session's HELLO (R169). -/
  src : NetAddr := {}
  /-- The transcript T of the HELLO exchange in progress (R922). -/
  transcript : Option (List Byte) := none
  /-- Where the HELLO of that exchange came from. -/
  helloSrc : NetAddr := {}
  rxAck : Nat := 0
  rxBuf : List Msg := []
  rxDone : Nat := 0
  rxLimit : Nat := 0
  ackDue : Option Nat := none
  txNext : Nat := 1
  txLimit : Nat := 0
  txBuf : List TxMsg := []
  /-- The next header carries CE_ECHO (R148). -/
  ceEcho : Bool := false
  telPeriod : Nat := 0
  telSet : Nat := 0
  telDue : Nat := 0
  /-- A SUBMIT waits for a free journal record (R207). -/
  held : Bool := false
  /-- The queue-pair window as this session's latest QUERY left it: QP_W0–W15, QP_STATUS (R962). -/
  qpView : List Nat := []
  /-- Sampled pairs by the _LO register's address (R943). -/
  samples : SMap Nat := []
deriving DecidableEq, Repr

/-- A partner key slot of the SMD (R916) with its partner queue (R199, R88) and MACsec generation records (R926). -/
structure KeySlot where
  present : Bool := false
  owner : Bool := false
  key : List Byte := []
  lastIssued : Nat := 0
  lastCommitted : Nat := 0
  tokenAccepted : Nat := 0
  tokenCommitted : Nat := 0
  /-- Accepted ASNs not released (R219–R221). -/
  unreleased : List Nat := []
  /-- The result area was cleared since the last cold boot (R212). -/
  cleared : Bool := false
  /-- Highest GEN taken by sub-port, and recorded from a partner, by sub-port + 8 × the partner's MAC address (R926, R927). -/
  genTx : SMap Nat := []
  genRx : SMap Nat := []
  /-- Sub-ports with no GEN left under a key of the slot, until a new key is installed (R929). -/
  mute : List Nat := []
deriving DecidableEq, Repr

/-- A buffer entry of SUBMIT. -/
structure Buf where
  addr : Nat
  len : Nat
  kind : Nat
deriving DecidableEq, Repr

/-- One entry of an exact-mode task's write log (R825): the key (item, fragment, request), the table version's
descriptor, the row's index, whether it adds, the FP32 values, and once the commit has recorded them the row's address and its new encoded
bytes (R829); no bytes stand for a row that takes none. -/
structure LogEntry where
  item : Nat
  frag : Nat
  req : Nat
  desc : List Byte
  unit : Nat
  row : Nat
  add : Bool
  vals : List Nat
  new : Option (Nat × List Byte) := none
deriving DecidableEq, Repr

/-- A saved granule of an IN_PLACE buffer (R874), and the channels that hold its two copies (R875). -/
structure Shadow where
  addr : Nat
  bytes : List Byte
  copies : List Nat := []
deriving DecidableEq, Repr

/-- An accepted, uncommitted task: its journal record (R203, R704, R821, R831, R870) and its progress. -/
structure Task where
  key : Nat
  asn : Nat
  token : Nat
  ctx : Nat
  prio : Nat
  flags : Nat
  entry : Nat
  itemSrc : Nat
  itemCount : Nat
  bufs : List Buf
  deadline : Nat
  resultMax : Nat
  tick : Nat
  payload : List Byte
  /-- EXACT, REALTIME and T7SYNC at acceptance (special register MODE). -/
  mode : Nat
  /-- The session that submitted it and the SEQ that the ACCEPT answers (R203). -/
  sess : Nat
  seq : Nat
  /-- The shape descriptor (R832): LSPIRES, GROUP, calving threshold and fragment size. -/
  lspires : Nat := 0
  group : Nat := 1
  calve : Nat := 65536
  fragment : Nat := 4096
  /-- Both journal writes are complete and ACCEPT was sent. -/
  accepted : Bool := false
  /-- A CANCEL was processed (R222). -/
  cancelled : Bool := false
  /-- The status and DETAIL that a fault or a cancellation gave it (R495). -/
  status : Option (Nat × Nat) := none
  /-- Array items expanded so far (R688), and spawned records accepted (R690). -/
  expanded : Nat := 0
  spawned : Nat := 0
  /-- Its last item has ended, or it was stopped for good (R693, R435). -/
  ended : Bool := false
  /-- A retry is due (R868), and the retries made (R867). -/
  retryDue : Bool := false
  retries : Nat := 0
  /-- The write log of an exact-mode task, in the order written (R825). -/
  log : List LogEntry := []
  /-- Bytes of the shadow pool that the log holds (R827). -/
  logSpace : Nat := 0
  shadows : List Shadow := []
  /-- Shadow space is reserved (R876), in bytes, and the wait for it has been counted. -/
  reserved : Nat := 0
  waited : Bool := false
  /-- A deadline was missed (R677). -/
  late : Bool := false
  /-- Physical counters a T7SYNC task changed, with the virtual identifier and the value at the first change (R762). -/
  t7 : List (Nat × Nat × Nat) := []
  /-- Digests of the input and in-out buffers as accepted (R847), and the installed program's digest. -/
  inDigests : List (List Byte) := []
  /-- Step 4 of its commit is done, and steps 5–7 are still due (R214, R872): the bytes of its slot header but COMMIT_SEQ. -/
  head : Option (List Byte) := none
deriving DecidableEq, Repr

/-- A work item on its way to or on a core (R686, R426): frag is the value of FRAG, and entry the ready-list entry of a
fragment or join (0 where the item came from no calving entry). -/
structure Item where
  key : Nat
  asn : Nat
  ctx : Nat
  prio : Nat
  num : Nat
  frag : Nat
  degree : Nat
  words : List Byte
  entry : Nat := 0
  /-- The number of its placement, by which items of one list keep their order (R717). -/
  ord : Nat := 0
deriving DecidableEq, Repr

/-- An entry of the ready lists (R692). kind 0 is an item, 1 a calving entry, 2 a join item. -/
structure Entry where
  id : Nat
  kind : Nat := 0
  key : Nat
  asn : Nat
  ctx : Nat
  prio : Nat
  num : Nat
  degree : Nat
  words : List Byte
  /-- A calving entry's fragments, the next one never placed, those withdrawn, and how many have ended (R709–R711). -/
  frags : Nat := 0
  nextFrag : Nat := 0
  back : List Nat := []
  ended : Nat := 0
deriving DecidableEq, Repr

/-- The dispatcher's counts of R694 and R695: placements in the present block, per-priority placements and shares, and
the context each priority served last. -/
structure Qos where
  placed : Nat := 0
  got : SMap Nat := []
  share : SMap Nat := []
  last : SMap Nat := []
deriving DecidableEq, Repr

/-- A wait registered at a counter's home, or held because list and pool are full (R748–R750): kind 1 wait.ge, 2 wait.c,
3 wait.b; phys and lanes name the counter or the lane group. -/
structure Waiter where
  core : Nat
  key : Nat
  asn : Nat
  ctx : Nat
  kind : Nat
  vc : Nat
  phys : Nat
  lanes : Nat
  target : Nat
  since : Nat
  pooled : Bool := false
  woken : Bool := false
deriving DecidableEq, Repr

/-- An operation a core handed to a unit (R397): the opcode and FUNC of its instruction, the descriptor as copied, the
counter and increment, SCOPE, the key of R826, and the PC and word for a record. -/
structure Op where
  id : Nat
  core : Nat
  key : Nat
  asn : Nat
  ctx : Nat
  item : Nat
  frag : Nat
  n : Nat
  opc : Nat
  func : Nat
  desc : List Byte
  vc : Nat
  phys : Nat
  inc : Nat
  scope : Nat
  pc : Nat
  word : Nat
  started : Bool := false
  /-- Tick at which it began to wait for a slot (R682). -/
  since : Nat := 0
deriving DecidableEq, Repr

/-- What a load in flight will write (R420). -/
structure PendLoad where
  /-- It writes a descriptor register, not a general one. -/
  desc : Bool
  num : Nat
  val : Nat
deriving DecidableEq, Repr

/-- Why a core holds at its present instruction (R398, R479, R487, R432). -/
inductive Hold where
  | issue
  | wait
  | spawn
  | ending
deriving DecidableEq, Repr

/-- A Spaner core (R442, R434, R479). -/
structure Core where
  run : Option Item := none
  next : Option Item := none
  pc : Nat := 0
  g : SMap W64 := []
  p : Nat := 0
  d : SMap (BitVec 512) := []
  fpflags : Nat := 0
  hold : Option Hold := none
  /-- Tick at which the hold began (R764). -/
  since : Nat := 0
  pend : List PendLoad := []
  /-- Row-engine requests the running item has issued (R826). -/
  reqs : Nat := 0
  /-- First operation number the running item can have issued; its operations are those of this core from there on
  (R432). -/
  opBase : Nat := 0
  /-- The task whose bytes the data memory may hold (R427): key and ASN. -/
  owner : Nat × Nat := (0, 0)
  /-- The held spawn has found no free entry, and is counted in DISP_SPAWN_HELD (R731). -/
  counted : Bool := false
deriving DecidableEq, Repr

/-- A loaded program (R413): the image that LOAD_PROGRAM delivered, from which the device keeps the checked header and the digest (log entry
152). What cores and units read of it stands in the glacier area (R412). -/
structure Program where
  image : List Byte := []
deriving DecidableEq, Repr

/-- A line that a core's instruction cache holds (R417): the line's number in its program image and the context, as 16 × line + context,
and its bytes. -/
structure ICLine where
  tag : Nat
  bytes : List Byte
deriving DecidableEq, Repr

/-- A line held in the Dome cache (R277): its tag, whether it is dirty, when it became dirty (R284), and which of its bytes have an
uncorrectable error, a bit each (R282, R881). -/
structure Line where
  tag : Nat
  dirty : Bool
  stamp : Nat
  bad : Nat := 0
deriving DecidableEq, Repr

/-- A fill in flight (R310): the line, the way chosen for it, the writes and readers that wait for it, whether it raced a
maintenance operation, and the line it evicts, held in the victim buffer. -/
structure Fill where
  line : Nat
  way : Nat
  writes : List (Nat × List Byte)
  readers : List (Nat × Nat × Nat)
  raced : Bool
  victim : Option Nat
deriving DecidableEq, Repr

/-- A maintenance operation in progress (R303): its operation and its byte range. -/
structure Mnt where
  op : Nat
  lo : Nat
  hi : Nat
deriving DecidableEq, Repr

/-- The Dome cache beside its registers. The bytes that an access sees stand in State.mem; under holds, for each dirty line, the bytes of
the tier beneath it. -/
structure Dome where
  lines : SMap Line := []
  under : SMap (List Byte) := []
  /-- In bypass, the bytes of the lines that stayed valid (R299). -/
  stale : SMap (List Byte) := []
  /-- After bypass, for each clean line whose bytes are older than the tier's (R299), the bytes of the tier. -/
  fresh : SMap (List Byte) := []
  stamps : Nat := 0
  fills : List Fill := []
  mnt : Option Mnt := none
  /-- EN was cleared and the clean before bypass runs (R297). -/
  disabling : Bool := false
  /-- The slices are run as plain SRAM (R101): the image staged so far. -/
  stage : Option (List Byte) := none
  /-- Data returned to requesters of DOME_ACCESS: identifier and bytes, newest last. -/
  served : List (Nat × List Byte) := []
deriving DecidableEq, Repr

/-- A region change that waits for its clean and invalidate (R243): region, the MEM_RGN_A value, and who asked. -/
structure RgnChange where
  n : Nat
  value : W32
  req : Req
deriving DecidableEq, Repr

/-- A queue pair (R958): its record, its present PSNs, and whether it is in the error state. -/
structure Qp where
  words : List Byte
  sess : Nat
  ctx : Nat
  sq : Nat
  rq : Nat
  err : Bool := false
  retries : Nat := 0
deriving DecidableEq, Repr

/-- A record of the avalanche filter (R888–R893): the header's fields, the body, and the cluster it belongs to. -/
structure ErrRec where
  first : Nat
  originTick : Nat
  last : Nat
  seq : Nat
  rootSeq : Nat
  echo : Nat
  origin : Nat
  reporter : Nat
  cls : Nat
  isOpen : Bool
  root : Bool
  persist : Bool
  status : Nat
  detail : Nat
  ctx : Nat
  key : Nat
  asn : Nat
  addr : Nat
  body : List Byte
  cluster : Nat
  /-- The cluster's root once it is fixed (R891). -/
  fixed : Option Nat := none
deriving DecidableEq, Repr

/-- A stream context that is not IDLE (R656): the descriptor as armed or re-armed, the arm or re-arm of the present pass,
and its progress. state is 1 WAITING, 2 ACTIVE, 3 PARKED. -/
structure Strm where
  desc : List Byte
  arm : Op
  /-- The core that armed it, and the bytes of the buffer it reserves (R642, R658). -/
  home : Nat
  held : Nat
  state : Nat := 1
  /-- The waiting arm has started (R653). -/
  joined : Bool := false
  /-- A pass is in progress, passes started, and the tick the present one started (R676). -/
  passOn : Bool := false
  passNo : Nat := 0
  start : Nat := 0
  /-- Rows of the present pass moved, and its slots or granules moved. -/
  row : Nat := 0
  moved : Nat := 0
  /-- Slots filled or drained, and outbound slots handed over, over the stream's life (R644, R647). -/
  filled : Nat := 0
  handed : Nat := 0
  /-- Slots filled or drained before the present pass. -/
  first : Nat := 0
  /-- Inbound slots each Spire has freed over the stream's life (R667, R668), and the bytes that its weight loader has read of its next
  one (R515). -/
  freed : SMap Nat := []
  readAt : SMap Nat := []
  rearm : Option Op := none
  close : Option Op := none
  advs : List Op := []
  /-- Row-engine requests that name it, the one of the present pass first (R968). -/
  reqs : List Nat := []
  used : Bool := false
  /-- The arm of the present pass has not yet completed (R657). -/
  armOpen : Bool := true
  /-- Its Spires that have left service during its life: they have freed every slot (R669). -/
  gone : List Nat := []
deriving DecidableEq, Repr

/-- A partial of a segment from one unit (R364): its FP32 values and the number of valid indices it covers. -/
structure Partial where
  seg : Nat
  unit : Nat
  count : Nat
  vals : List Nat
deriving DecidableEq, Repr

/-- A valid index on its way (R327, R330): list position, unit, index, and whether a replica serves it. -/
structure Route where
  pos : Nat
  unit : Nat
  idx : Nat
  hot : Bool
  done : Bool := false
deriving DecidableEq, Repr

/-- A row copy still to be written (R356): the stack, the address and the encoded bytes. -/
structure Copy where
  stack : Nat
  addr : Nat
  bytes : List Byte
deriving DecidableEq, Repr

/-- A row-engine request that its stream unit has accepted (R330–R386). -/
structure RowReq where
  op : Op
  /-- Its pass has started, and the splitter has accepted it (R777). -/
  passOn : Bool := false
  accepted : Bool := false
  /-- The table version it uses: descriptor and generation. -/
  tdesc : List Byte := []
  gen : Nat := 0
  offs : List Nat := []
  weights : List Nat := []
  routes : List Route := []
  dropped : List Nat := []
  parts : List Partial := []
  /-- FP32 rows by list position: gathered rows, or source rows of a scatter. -/
  vals : SMap (List Nat) := []
  /-- Encoded output rows by list position or segment. -/
  rows : SMap (List Byte) := []
  amax : Nat := 0
  copies : List Copy := []
  /-- Access-sketch increments in the units' combining buffers: unit and index (R385). -/
  sketch : List (Nat × Nat) := []
  /-- Units whose increments of this request are discarded (R386). -/
  sketchOff : List Nat := []
  /-- The number of the first segment offset that breaks R336, which the splitter has not reached yet (R338). -/
  badOff : Option Nat := none
deriving DecidableEq, Repr

/-- A weight tile in a latch (R505, R512), or a ZERO tile on its way past. k0 is its first K, t its number in the operation.
-/
structure Tile where
  cls : Nat
  fmt : Nat
  kl : Nat
  ref : Nat
  gscale : Bool
  body : List Byte
  k0 : Nat
  t : Nat
deriving DecidableEq, Repr

/-- An exact sum of products (R520, R523): its finite part in units of 2^-266, and the specials met. -/
structure ExSum where
  v : Int := 0
  pinf : Bool := false
  ninf : Bool := false
  nan : Bool := false
deriving DecidableEq, Repr

/-- The array's progress in one mma (R512–R525): the loader's position and N-block, tiles loaded and not yet applied, and the
accumulators (FP32 codes or integers) and column sums of the N-block being applied. -/
structure ArrRun where
  /-- Bytes of the weight area read, and the bytes of the next tile read from slots. -/
  pos : Nat := 0
  buf : List Byte := []
  kLoad : Nat := 0
  nLoad : Nat := 0
  tiles : List Tile := []
  loaded : Nat := 0
  nApply : Nat := 0
  kApply : Nat := 0
  acc : List Int := []
  cols : List Int := []
  /-- Exact sums of groups not yet complete, and the rows that have such a group (R521). -/
  part : List ExSum := []
  opened : List Bool := []
  /-- The first non-ZERO tile (R610): whether it has GSCALE, and its SCALE_REF. -/
  wref : Option (Bool × Nat) := none
  /-- A ZERO tile had GSCALE (R610). -/
  zref : Bool := false
  /-- The activation area and format as the operation found them at its start (R503, R582). -/
  act : Nat := 0
  afmt : Nat := 0
  started : Bool := false
  /-- Tick of the last tile load (R682). -/
  since : Nat := 0
deriving DecidableEq, Repr

/-- A tensor-scale register (R579). pbuf is the promotion buffer of the qconv that last promoted its tensor (R503, R603). -/
structure Scale where
  value : Nat := 0
  qdiv : Nat := 0
  tag : Nat := 0
  zp : Nat := 0
  pbuf : Nat := 0
deriving DecidableEq, Repr

/-- A table version (R772, R778): its generation, its 128-byte record, and whether RECLAIM has named it. -/
structure Version where
  gen : Nat
  bytes : List Byte
  marked : Bool := false
deriving DecidableEq, Repr

/-- A table that belongs to a context (R775): its live versions, oldest first, and whether the last is the newest. -/
structure Table where
  owner : Nat
  newest : Bool := true
  versions : List Version := []
deriving DecidableEq, Repr

/-- An open batch (R780, R781): its context and number, the task that opened it, and the generation pinned per table. -/
structure Batch where
  ctx : Nat
  num : Nat
  key : Nat
  asn : Nat
  pins : List (Nat × Nat)
deriving DecidableEq, Repr

/-- An EXCHANGE arm in progress at the requester (R798–R806): the table version's record, the global index of each list
position (none where dropped), rows by position, ranks whose reply or DONE is due, and messages of a part received. -/
structure Exch where
  op : Op
  kind : Nat
  table : Nat
  batch : Nat
  gen : Nat
  record : List Byte
  idx : List (Option Nat) := []
  rows : SMap (List Byte) := []
  due : List Nat := []
  started : Bool := false
deriving DecidableEq, Repr

/-- One rank's part of an update round, as far as it has arrived (R802). -/
structure UPart where
  rank : Nat
  xid : Nat
  /-- SEQ of the message that came last (R844). -/
  seq : Nat := 0
  last : Bool := false
  entries : List (Nat × List Nat) := []
deriving DecidableEq, Repr

/-- An update round that an owner holds (R802): parts in the order in which they were processed. -/
structure Round where
  table : Nat
  gen : Nat
  batch : Nat
  set : Bool
  parts : List UPart := []
  /-- Indices already updated in the round, with EAGER (R807). -/
  touched : List Nat := []
  /-- Hot rows changed, by global index: the FP32 values before encoding (R804). -/
  hot : SMap (List Nat) := []
  /-- An uncorrectable error has been met in applying it (R817). -/
  lost : Bool := false
deriving DecidableEq, Repr

/-- A peer's look-up that this device serves as an owner: the rank, the part's XID, and the version (R778, R799). -/
structure PeerLookup where
  rank : Nat
  xid : Nat
  table : Nat
  gen : Nat
deriving DecidableEq, Repr

/-- A round that has been applied (R808): what its REFRESH held, and whether its application met an uncorrectable error. -/
structure Applied where
  table : Nat
  gen : Nat
  batch : Nat
  hot : SMap (List Nat)
  lost : Bool
deriving DecidableEq, Repr

/-- A pending START_AT (R813): the tick of its addition, and the counter and value. -/
structure TStart where
  tick : Nat
  ctx : Nat
  vc : Nat
  value : Nat
deriving DecidableEq, Repr

/-- A START_AT with FANOUT that waits for the other ranks (R815): who sent it, ranks due, and refusals. -/
structure Fanout where
  req : Req
  due : List (Nat × Nat)
  refused : List (Nat × Nat) := []
deriving DecidableEq, Repr

/-- A formation in progress (R786, R788): the request that set FORM and whether a CONTROL_WR carried it, the writes of that
message still to come, the tick at which it began, and each rank's firmware version. -/
structure Formation where
  req : Req
  /-- The partner key of that request (R952). -/
  key : Option Nat := none
  msg : Bool := false
  rest : List (Nat × W32) := []
  since : Nat := 0
  fw : SMap (Nat × Nat) := []
deriving DecidableEq, Repr

/-- A replay record (R844). -/
structure RplRec where
  rseq : Nat
  /-- Its place in the ring (R846). -/
  off : Nat := 0
  tick : Nat
  kind : Nat
  full : Bool
  key : Nat
  ctx : Nat
  ref : Nat
  digest : List Byte
  body : List Byte
deriving DecidableEq, Repr

/-- Replay beside its registers (R846, R849–R853): the ring with the place of its next record, the next record to feed, the last one, and
for each replayed SUBMIT the key and new ASN with the recorded ASN. -/
structure Replay where
  ring : List RplRec := []
  place : Nat := 0
  next : Nat := 0
  stop : Nat := 0
  asns : List (Nat × Nat × Nat) := []
deriving DecidableEq, Repr

/-- A batch-root signing in progress (R855). -/
structure SignJob where
  key : Nat
  ctx : Nat
  asn : Nat
  count : Nat
  dst : Nat
  index : Nat
deriving DecidableEq, Repr

/-- An attestation in progress (R930). -/
structure AttJob where
  dst : Nat
  nonce : List Byte
  index : Nat
deriving DecidableEq, Repr

/-- The SMD's MRAM and signing state beside the key slots (R898, R912): NEXT_RESV, the block of signature
indices it holds (the next one and the end), the lifetime sets as written to MRAM and the counts not yet written, by 65,536 × SET + INDEX. -/
structure Smd where
  nextResv : Nat := 0
  block : Option (Nat × Nat) := none
  sign : Option SignJob := none
  att : Option AttJob := none
  life : SMap Nat := []
  lifeNew : SMap Nat := []
  /-- Counts since the last second's pass (R899). -/
  lifeSec : SMap Nat := []
deriving DecidableEq, Repr

/-- The journal channels (R204, R205): the pair in use, a mirror being copied, and no further mirror. -/
structure Journal where
  a : Nat := 3
  b : Nat := 12
  mirroring : Bool := false
  /-- The new mirror is the first of the pair. -/
  newIsA : Bool := false
  single : Bool := false
  lost : Bool := false
deriving DecidableEq, Repr

/-- A self-test that runs (R894, R896); out tells that the Spire had left service before. -/
inductive SelfTest where
  | spire (n : Nat) (auto out : Bool)
  | full
deriving DecidableEq, Repr


/-- The whole device. -/
structure State where
  /-- The commands that wait, first in, first out. -/
  pending : List Instr := []
  /-- The tick counter (R18, R89). -/
  tick : Nat := 0
  /-- The register space: registers that differ from their Reset value. -/
  regs : SMap W32 := []
  pins : Pins := {}
  fuses : Fuses := { spires := 0xFFFFFFFFFFFFFFFF, stackGib := 64, stackHigh := 16, mac := 0 }
  power : Power := {}
  boot : Boot := {}
  port : Port := {}
  ptp : Ptp := {}
  /-- Session slots 0–7, and peer rank r at 16 + r. -/
  sess : SMap Session := []
  /-- Sampled pairs of the I3C interface (R943). -/
  i3cSamples : SMap Nat := []
  keys : SMap KeySlot := []
  qps : SMap (Option Qp) := []
  /-- Accepted or admitted, uncommitted tasks, oldest first. -/
  tasks : List Task := []
  /-- Cores by 16 × Spire + core. -/
  cores : SMap Core := []
  /-- The near tier, the glacier tier and the Spire stores, by device address. -/
  mem : Mem := {}
  /-- Core data memories: core number × 32,768 + offset. -/
  dmem : Mem := {}
  flash : Mem := {}
  progs : SMap Program := []
  /-- Lines that the cores' instruction caches hold (R417), by 256 × core + 4 × set + way. -/
  icache : SMap ICLine := []
  /-- LOAD_PROGRAM bytes received so far, by 16 × session + context (R194). -/
  loads : SMap (List Byte) := []
  dome : Dome := {}
  rgnChange : Option RgnChange := none
  /-- Messages received so far in their order (R119). -/
  arrivals : Nat := 0
  /-- What the device has sent, oldest first: messages and RoCEv2 packets as it hands them to the port, and what leaves by I3C and TDO.
  Port.wire has the frames. -/
  tx : List OutMsg := []
  /-- Draws made of free values (log entries 7 and 8). -/
  draws : Nat := 0
  /-- Records of the avalanche filter, oldest first, at most 4,096 (R892). -/
  errs : List ErrRec := []
  /-- The number of Spires active when each context was last enabled (R833). -/
  enSpires : SMap Nat := []
  /-- Contexts left disabled by R107 or R886, whose accepted tasks wait (R99): a bit per context. -/
  ctxHeld : Nat := 0
  /-- Units out of service until the next cold boot (R257, R270, R884): bits 0–15 channels, 16–23 stacks. -/
  outOfService : Nat := 0
  /-- Physical sync counters, 512 × Spire + n (R733). -/
  ctrs : SMap Nat := []
  /-- Contexts whose counters a switch has still to clear: a bit per context (R756). -/
  clrDue : Nat := 0
  /-- Registered waits, in the order they registered, and waits held because list and pool are full (R748–R750). -/
  waiters : List Waiter := []
  poolHeld : List Waiter := []
  /-- The ready lists as one list; the list of a context and priority is its sublist in order (R692). -/
  ready : List Entry := []
  entrySeq : Nat := 1
  qos : Qos := {}
  /-- Operations that units hold, in the order they were accepted (R400). -/
  ops : List Op := []
  opSeq : Nat := 1
  /-- The core each unit served last, by 4 × Spire + unit (R399). -/
  served : SMap Nat := []
  streams : SMap Strm := []
  reqs : List RowReq := []
  /-- Array progress by operation. -/
  arr : SMap ArrRun := []
  /-- Tensor-scale registers, 16 bytes each at 16 × (256 × Spire + n), and group-scale entries, a byte each at 65,536 × Spire + n (R578). -/
  scales : Mem := {}
  gscales : Mem := {}
  tables : SMap Table := []
  /-- The highest GEN installed per table since the last cold boot (R774). -/
  genHigh : SMap Nat := []
  batches : List Batch := []
  exch : List Exch := []
  rounds : List Round := []
  /-- Look-ups of peers whose parts have begun and not come to their LAST message (R778). -/
  lookups : List PeerLookup := []
  /-- Rounds applied, oldest first, at most 1,024 of each table (R808). -/
  applied : List Applied := []
  form : Option Formation := none
  starts : List TStart := []
  fanouts : List Fanout := []
  replay : Replay := {}
  smd : Smd := {}
  journal : Journal := {}
  tests : List SelfTest := []
  /-- Ticks of task stops by Spire, and of uncorrectable errors by stack or channel unit number (R883). -/
  stops : List (Nat × Nat) := []
  /-- By line of 128 bytes, the tier's bytes that no read corrects, a bit each (R880, R881). -/
  badBytes : SMap Nat := []
  /-- The Spire that the automatic test takes next (R897). -/
  autoNext : Nat := 0
  /-- Firmware has begun to drain that Spire for its test. -/
  autoDrain : Bool := false
deriving DecidableEq, Repr

/-- The device just after a cold reset, with VAUX and the main rails up and DEV_RESET_N low: STATE is RESET, every
register holds its Reset value, memory lists nothing, and no command waits. -/
def State.reset : State := {}

end Sys2Proof.Machine
end

