-- ==== Sys2Proof/Machine/Ops.lean ====
section
/-! DEFINITION. The named operations over the state's data: sparse maps, byte memories with ranges of free bytes, and the
outcome of a command. -/

namespace Sys2Proof.Machine

/-- What a command answers. -/
abbrev Out := Host.Outcome State Fault Refusal

section Maps
variable {α : Type}

/-- The entry of key k; d where the map lists none. -/
def SMap.get (m : SMap α) (d : α) (k : Nat) : α :=
  match m.find? (fun e => e.1 == k) with
  | some e => e.2
  | none => d

/-- The listed entry of key k. -/
def SMap.find (m : SMap α) (k : Nat) : Option α := (m.find? (fun e => e.1 == k)).map (·.2)

/-- The map without key k. -/
def SMap.erase (m : SMap α) (k : Nat) : SMap α := m.filter (fun e => e.1 != k)

/-- Insert before the first greater key. -/
def SMap.insertAt (k : Nat) (v : α) : SMap α → SMap α
  | [] => [(k, v)]
  | e :: t => if k < e.1 then (k, v) :: e :: t else e :: SMap.insertAt k v t

/-- The map with key k at v. -/
def SMap.put (m : SMap α) (k : Nat) (v : α) : SMap α := SMap.insertAt k v (SMap.erase m k)

/-- The map with key k at v, where unlisted keys read d: writing d removes the entry. -/
def SMap.set [DecidableEq α] (m : SMap α) (d : α) (k : Nat) (v : α) : SMap α :=
  if v = d then SMap.erase m k else SMap.put m k v

/-- Keys rise strictly and no entry equals its key's default. -/
def SMap.wf [DecidableEq α] (d : Nat → α) (m : SMap α) : Bool :=
  decide (m.Pairwise fun a b => a.1 < b.1) && m.all fun e => decide (e.2 ≠ d e.1)

end Maps

/-- The free byte that covers address a, where one of the ranges does: the most recent range holding a. -/
def maskOf : List Scramble → Nat → Byte
  | [], _ => 0
  | r :: t, a => if r.lo ≤ a ∧ a < r.hi then Config.freeByte r.draw a else maskOf t a

/-- The byte at address a. -/
def Mem.read (m : Mem) (a : Nat) : Byte := SMap.get m.cells 0 a ^^^ maskOf m.scr a

/-- The memory with the byte at address a replaced. -/
def Mem.write (m : Mem) (a : Nat) (v : Byte) : Mem :=
  { m with cells := SMap.set m.cells 0 a (v ^^^ maskOf m.scr a) }

/-- The n bytes from address a. -/
def Mem.readN (m : Mem) (a : Nat) : Nat → List Byte
  | 0 => []
  | n + 1 => Mem.read m a :: Mem.readN m (a + 1) n

/-- The memory with bytes written from address a upwards. -/
def Mem.writeN (m : Mem) (a : Nat) : List Byte → Mem
  | [] => m
  | b :: t => Mem.writeN (Mem.write m a b) (a + 1) t

/-- Bytes lo to hi - 1 lose their contents: free bytes of a new draw stand there. -/
def Mem.scramble (m : Mem) (lo hi draw : Nat) : Mem :=
  { cells := m.cells.filter fun e => !(decide (lo ≤ e.1) && decide (e.1 < hi)),
    scr := { lo := lo, hi := hi, draw := draw } :: m.scr }

/-- Bytes lo to hi - 1 read 0. -/
def Mem.clearRange (m : Mem) (lo hi : Nat) : Mem :=
  let cells := m.cells.filter fun e => !(decide (lo ≤ e.1) && decide (e.1 < hi))
  { cells := cells,
    scr := m.scr.flatMap fun r =>
      (if r.lo < min r.hi lo then [{ r with hi := min r.hi lo }] else [])
        ++ (if max r.lo hi < r.hi then [{ r with lo := max r.lo hi }] else []) }

/-- The canonical form of a byte memory. -/
def Mem.wf (m : Mem) : Bool := SMap.wf (fun _ => (0 : Byte)) m.cells

end Sys2Proof.Machine
end

