-- ==== Sys2Proof/Machine/RegMap.lean ====
section
/-! DEFINITION. The register map (chapter "Register map", R938, and the register tables of every chapter): the address of
each register, its Reset value, and which of its bits software may write (RW) or clear by writing 1 (W1C). Bits that are
neither are RO, WO or RSV (R15). -/

namespace Sys2Proof.Machine

/-- A register's Reset value and its writable bits. -/
structure RegInfo where
  reset : Nat := 0
  rw : Nat := 0
  w1c : Nat := 0
deriving DecidableEq, Repr

/-- A register with no bit that a plain write changes (RO, or WO with an action of its own). -/
def roReg (reset : Nat := 0) : Option RegInfo := some { reset := reset }
/-- A register with RW bits. -/
def rwReg (mask : Nat) (reset : Nat := 0) : Option RegInfo := some { reset := reset, rw := mask }
/-- All 32 bits. -/
def all32 : Nat := 0xFFFFFFFF

/-! Addresses used by name. -/
/-- DEV_ID -/
def aDevId : Nat := 0x000
/-- DEV_GRADE -/
def aDevGrade : Nat := 0x004
/-- DEV_FW_LO -/
def aDevFwLo : Nat := 0x010
/-- DEV_FW_HI -/
def aDevFwHi : Nat := 0x014
/-- DEV_COLD_EPOCH -/
def aDevColdEpoch : Nat := 0x018
/-- DEV_CTL (R113) -/
def aDevCtl : Nat := 0x020
/-- DEV_STATUS (R114) -/
def aDevStatus : Nat := 0x024
/-- DEV_REFUSE_LAST (R952) -/
def aDevRefuseLast : Nat := 0x028
/-- DEV_REFUSE_COUNT (R952) -/
def aDevRefuseCount : Nat := 0x02C
/-- PWR_LIMIT (R65) -/
def aPwrLimit : Nat := 0x100
/-- PWR_STATUS (R67) -/
def aPwrStatus : Nat := 0x104
/-- PWR_CTL (R66) -/
def aPwrCtl : Nat := 0x108
/-- PACE_Qq (R68) -/
def aPace (q : Nat) : Nat := 0x110 + 4 * q
/-- PORT_CFG (R164) -/
def aPortCfg : Nat := 0x10000
/-- PORT_STATUS (R165) -/
def aPortStatus : Nat := 0x10004
/-- PORT_MACSEC_KSESS (R956) -/
def aKsess : Nat := 0x10008
/-- PORT_CTL (R956) -/
def aPortCtl : Nat := 0x1000C
/-- PORT_MACSEC_DROP (R956) -/
def aMacsecDrop : Nat := 0x10010
/-- PORT_RX_UNMATCHED (R956) -/
def aRxUnmatched : Nat := 0x10014
/-- QP_IDX (R958) -/
def aQpIdx : Nat := 0x10100
/-- QP_STATUS (R962) -/
def aQpStatus : Nat := 0x10148
/-- A register of session slot k's SESS block. -/
def aSess (k off : Nat) : Nat := 0x20000 + 0x1000 * k + off
/-- SESS_CFG (R231) -/
def aSessCfg (k : Nat) : Nat := aSess k 0x000
/-- SESS_CTXMASK (R947) -/
def aSessMask (k : Nat) : Nat := aSess k 0x004
/-- SESS_DWP (R231) -/
def aSessDwp (k : Nat) : Nat := aSess k 0x008
/-- SESS_RSLOT (R231) -/
def aSessRslot (k : Nat) : Nat := aSess k 0x018
/-- SESS_LPORT (R166) -/
def aSessLport (k : Nat) : Nat := aSess k 0x040
/-- SESS_QOS (R167) -/
def aSessQos (k : Nat) : Nat := aSess k 0x044
/-- A peer register (R820), by its offset within the peer registers. -/
def aPeer (off : Nat) : Nat := 0x28000 + off
/-- A register of context c's CTX block. -/
def aCtx (c off : Nat) : Nat := 0x30000 + 0x1000 * c + off
/-- CTX_CTL (R115) -/
def aCtxCtl (c : Nat) : Nat := aCtx c 0x000
/-- CTX_STATUS (R116) -/
def aCtxStatus (c : Nat) : Nat := aCtx c 0x004
/-- DOME_CTL (R318) -/
def aDomeCtl : Nat := 0x40000
/-- DOME_STATUS (R319) -/
def aDomeStatus : Nat := 0x40004
/-- DOME_WAYMASK (R320) -/
def aDomeWaymask : Nat := 0x40008
/-- DOME_SEEDk (R322) -/
def aDomeSeed (k : Nat) : Nat := 0x40100 + 4 * k
/-- DOME counter i: HIT, MISS, WB, VICTIM_HIT, RACE, PF_FILL, PF_DROP (R323) -/
def aDomeCnt (i : Nat) : Nat := 0x40200 + 4 * i
/-- MEM_RGN_A of region n (R245); B at +4, C at +8 -/
def aRgn (n : Nat) : Nat := 0x50000 + 0x10 * n
/-- MEM_NEAR (R269) -/
def aMemNear : Nat := 0x50200
/-- MEM_GLACIER (R269) -/
def aMemGlacier : Nat := 0x50204
/-- MEM_GLACIER_CAP (R269) -/
def aMemCap : Nat := 0x50208
/-- MEM_FAIL (R269) -/
def aMemFail : Nat := 0x5020C
/-- MEM_GRSV (R269) -/
def aMemGrsv : Nat := 0x50210
/-- WIN_BASE_LO of window w of context c (R268); BASE_HI, LEN, CTL follow -/
def aWin (c w : Nat) : Nat := 0x58000 + 0x400 * c + 0x10 * w
/-- A register of row-engine unit u (R393) -/
def aRe (u off : Nat) : Nat := 0x60000 + 0x800 * u + off
/-- RE_GLB_CTL (R963) -/
def aReGlb : Nat := 0x6C000
/-- RE_DROP_RANGE (R963) -/
def aDropRange : Nat := 0x6C004
/-- RE_DROP_MISSING (R963) -/
def aDropMissing : Nat := 0x6C008
/-- A register of Spire s (R440, R566) -/
def aSpire (s off : Nat) : Nat := 0x80000 + 0x1000 * s + off
/-- A SYNC register (R767) -/
def aSync (off : Nat) : Nat := 0xC0000 + off
/-- A DISP register (R726) -/
def aDisp (off : Nat) : Nat := 0xD0000 + off
/-- A STRM register (R683) -/
def aStrm (off : Nat) : Nat := 0xE0000 + off
/-- QNT_CTL (R630) -/
def aQntCtl : Nat := 0xF0000
/-- QNT_SAT (R963); UFLOW, FLAT, PROMO, TERN_RSV, UPD_LOST follow -/
def aQnt (i : Nat) : Nat := 0xF0010 + 4 * i
/-- A DET register (R857) -/
def aDet (off : Nat) : Nat := 0xF0000 + off
/-- SPS_CTL and SPS_FALLBACK (R963) -/
def aSps (i : Nat) : Nat := 0xF0200 + 4 * i
/-- An ERR register (R902) -/
def aErr (off : Nat) : Nat := 0x100000 + off
/-- A LIFE register (R905) -/
def aLife (off : Nat) : Nat := 0x110000 + off
/-- A SEC register (R937) -/
def aSec (off : Nat) : Nat := 0x120000 + off
/-- A TIME register (R954) -/
def aTime (off : Nat) : Nat := 0x130000 + off

/-- The DEV block (R950–R952, R65–R68, R113, R114). -/
def devInfo (o : Nat) : Option RegInfo :=
  if o = 0x000 then roReg 0x900900A1
  else if o = 0x020 then rwReg 0x3
  else if o = 0x100 then rwReg 0xFFFF 0x05DC
  else if o = 0x108 then rwReg 0xFFFF 0x906E
  else if (0x004 ≤ o ∧ o ≤ 0x018) ∨ (0x024 ≤ o ∧ o ≤ 0x034) ∨ o = 0x104 ∨ (0x110 ≤ o ∧ o ≤ 0x11C) then roReg
  else none

/-- The PORT block (R164, R165, R956, R958). QP_IDX to QP_CMD are written only by a queue-pair command. -/
def portInfo (o : Nat) : Option RegInfo :=
  if o = 0x000 then rwReg 0xFFFFFF7B
  else if o = 0x004 then some { w1c := 0xFF00 }
  else if o = 0x008 then rwReg 0x77777777
  else if o = 0x00C ∨ o = 0x010 ∨ o = 0x014 ∨ (0x100 ≤ o ∧ o ≤ 0x148) then roReg
  else none

/-- One session slot's SESS block (R231, R947, R166, R167). -/
def sessInfo (o : Nat) : Option RegInfo :=
  if o = 0x000 then rwReg 0xF1
  else if o = 0x004 then rwReg 0xFFFF 0xFFFF
  else if o = 0x008 then rwReg all32 0x20400032
  else if o = 0x010 then rwReg 0xFFFFF000
  else if o = 0x014 then rwReg 0xFFFF
  else if o = 0x018 then rwReg all32 0x01000040
  else if o = 0x020 ∨ o = 0x024 then roReg
  else if o = 0x040 then rwReg all32 0x5A500000
  else if o = 0x044 then rwReg 0xFF07 0x2003
  else none

/-- The peer registers (R820). -/
def peerInfo (o : Nat) : Option RegInfo :=
  if o = 0x00 ∨ o = 0x14 then roReg
  else if o = 0x04 then rwReg 0xFFFFFF00 0x00008000
  else if o = 0x08 then rwReg all32 0x5A510000
  else if o = 0x0C then rwReg 0xFFFFFFE0
  else if o = 0x10 then rwReg 0xFFFF
  else none

/-- One context's CTX block (R115, R116, R410, R636, R732, R858, R493, R771, R819, R770). -/
def ctxInfo (o : Nat) : Option RegInfo :=
  if o = 0x000 then rwReg 0x1D
  else if o = 0x004 then roReg
  else if o = 0x010 then rwReg 0x3F1F
  else if o = 0x014 then rwReg 0x1FF00FF
  else if o = 0x018 ∨ o = 0x01C then rwReg all32 all32
  else if o = 0x020 then rwReg 0x807F
  else if o = 0x030 then rwReg 0xFFFFF000
  else if o = 0x034 then rwReg 0xFFFF
  else if o = 0x038 then rwReg 0x1F
  else if o = 0x03C ∨ o = 0x040 then roReg
  else if o = 0x080 then rwReg 0xFFFFFFC0
  else if o = 0x084 then rwReg 0xFFFF
  else if o = 0x088 then rwReg all32
  else if 0x08C ≤ o ∧ o ≤ 0x098 then roReg
  else if 0x100 ≤ o ∧ o < 0x200 then (if o % 8 = 0 then rwReg 0xC000FFFF else rwReg 0xFFFF7FFF)
  else none

/-- The DOME block (R318–R323). EN has no Reset value of its own: the boot sets it on reaching READY. -/
def domeInfo (o : Nat) : Option RegInfo :=
  if o = 0x000 then rwReg 0x1
  else if o = 0x004 then roReg 0xFFFF0000
  else if o = 0x008 then rwReg 0xFFFE 0xFFFF
  else if o = 0x010 then rwReg 0xFFFFFF80
  else if o = 0x014 then rwReg 0xFFFF
  else if o = 0x018 then rwReg all32
  else if o = 0x01C then rwReg 0xFF
  else if o = 0x020 then roReg
  else if 0x100 ≤ o ∧ o < 0x180 then rwReg all32 (1 + (o - 0x100) / 4)
  else if 0x200 ≤ o ∧ o ≤ 0x218 then roReg
  else none

/-- The MEM block (R245–R247, R268, R269). -/
def memInfo (o : Nat) : Option RegInfo :=
  if o < 0x100 then
    (if o % 16 = 0 then rwReg 0xF8FF0000
     else if o % 16 = 4 then rwReg 0x01FF03FF
     else if o % 16 = 8 then rwReg 0x3F
     else none)
  else if o = 0x200 ∨ o = 0x208 then roReg
  else if o = 0x204 then roReg 0x03C00000
  else if o = 0x20C then some { w1c := 0xFFFFFF }
  else if o = 0x210 then rwReg 0xFFFF 128
  else if 0x8000 ≤ o ∧ o < 0xC000 then
    (if o % 16 = 0 then rwReg 0xFFFFF000
     else if o % 16 = 4 then rwReg 0xFFFF
     else if o % 16 = 8 then rwReg all32
     else rwReg 0x1F)
  else none

/-- The RE blocks (R393–R395, R963): 24 units, then the device-wide registers. -/
def reInfo (o : Nat) : Option RegInfo :=
  if o < 0xC000 then
    (let p := o % 0x800
     if p = 0 ∨ p = 4 ∨ (0x100 ≤ p ∧ p ≤ 0x118) then roReg else none)
  else if o ≤ 0xC008 then roReg
  else none

/-- One SPIRE block (R440, R566). -/
def spireInfo (o : Nat) : Option RegInfo :=
  if o = 0x000 ∨ o = 0x0F0 ∨ (0x100 ≤ o ∧ o ≤ 0x11C) then roReg else none

/-- The SYNC block (R767–R769): registers, counters, the snapshot header and its 16 entries of eight words. -/
def syncInfo (o : Nat) : Option RegInfo :=
  if o = 0x000 ∨ o = 0x00C ∨ o = 0x010 ∨ (0x100 ≤ o ∧ o ≤ 0x110) ∨ (0x3F0 ≤ o ∧ o ≤ 0x3F8) ∨ (0x400 ≤ o ∧ o < 0x600)
    then roReg
  else if o = 0x004 then rwReg all32 100000
  else if o = 0x008 then rwReg 0x7FFF
  else none

/-- The DISP block (R726–R731). -/
def dispInfo (o : Nat) : Option RegInfo :=
  if o = 0x000 ∨ o = 0x010 ∨ o = 0x05C ∨ (0x100 ≤ o ∧ o ≤ 0x118) then roReg
  else if o = 0x004 then roReg 262144
  else if o = 0x008 then rwReg all32 65536
  else if o = 0x00C then rwReg 0x1FFFFF 4096
  else if 0x020 ≤ o ∧ o ≤ 0x03C then rwReg 0xFF 16
  else if o = 0x050 then rwReg 0xFFFFF000
  else if o = 0x054 then rwReg 0xFFFF
  else if o = 0x058 then rwReg 0xF01F
  else if o = 0x060 then rwReg 0xFFE 0xFFE
  else none

/-- The STRM block (R683–R685). -/
def strmInfo (o : Nat) : Option RegInfo :=
  if o ≤ 0x01C then rwReg 0xFF 16
  else if o = 0x020 ∨ o = 0x024 ∨ (0x100 ≤ o ∧ o ≤ 0x110) then roReg
  else none

/-- The QNT and DET block (R630, R963, R857). -/
def qntInfo (o : Nat) : Option RegInfo :=
  if o = 0x000 then rwReg 0xFFF 64
  else if 0x010 ≤ o ∧ o ≤ 0x024 then roReg
  else if o = 0x100 then rwReg 0x6
  else if o = 0x108 then rwReg 0xFFFF 64
  else if o = 0x120 ∨ o = 0x124 ∨ o = 0x140 ∨ o = 0x144 then rwReg all32
  else if o = 0x148 then rwReg 0x1FFFF 1
  else if o = 0x14C then rwReg 0xFFFFFFC0
  else if o = 0x150 then rwReg 0xFFFF
  else if o = 0x104 ∨ (0x110 ≤ o ∧ o ≤ 0x11C) ∨ (0x128 ≤ o ∧ o ≤ 0x134) ∨ o = 0x154 ∨ o = 0x158 ∨ o = 0x200 ∨ o = 0x204
    then roReg
  else none

/-- The ERR block (R902–R904). -/
def errInfo (o : Nat) : Option RegInfo :=
  if o = 0x004 then rwReg 0xFFFF000F 3
  else if o ≤ 0x01C ∨ (0x100 ≤ o ∧ o ≤ 0x11C) ∨ (0x400 ≤ o ∧ o < 0x800) then roReg
  else none

/-- The LIFE block (R905). -/
def lifeInfo (o : Nat) : Option RegInfo :=
  if o = 0 then rwReg 0xF000FFFF else if o = 4 ∨ o = 8 then roReg else none

/-- The SEC block (R937). -/
def secInfo (o : Nat) : Option RegInfo :=
  if o = 0x000 ∨ (0x010 ≤ o ∧ o ≤ 0x030) ∨ (0x068 ≤ o ∧ o ≤ 0x074) then roReg
  else if 0x040 ≤ o ∧ o ≤ 0x05C then rwReg all32
  else if o = 0x060 then rwReg 0xFFFFFFC0
  else if o = 0x064 then rwReg 0xFFFF
  else none

/-- The TIME block (R954). -/
def timeInfo (o : Nat) : Option RegInfo :=
  if o = 0x000 then rwReg 0xFF
  else if o = 0x004 ∨ o = 0x008 ∨ (0x010 ≤ o ∧ o ≤ 0x01C) then roReg
  else none

/-- The register at an address of the register space; none where the address holds no register (R938, R940). -/
def regInfo (a : Nat) : Option RegInfo :=
  if a % 4 ≠ 0 then none
  else if a < 0x10000 then devInfo a
  else if a < 0x20000 then portInfo (a - 0x10000)
  else if a < 0x28000 then sessInfo ((a - 0x20000) % 0x1000)
  else if a < 0x30000 then peerInfo (a - 0x28000)
  else if a < 0x40000 then ctxInfo ((a - 0x30000) % 0x1000)
  else if a < 0x50000 then domeInfo (a - 0x40000)
  else if a < 0x60000 then memInfo (a - 0x50000)
  else if a < 0x80000 then reInfo (a - 0x60000)
  else if a < 0xC0000 then spireInfo ((a - 0x80000) % 0x1000)
  else if a < 0xD0000 then syncInfo (a - 0xC0000)
  else if a < 0xE0000 then dispInfo (a - 0xD0000)
  else if a < 0xF0000 then strmInfo (a - 0xE0000)
  else if a < 0x100000 then qntInfo (a - 0xF0000)
  else if a < 0x110000 then errInfo (a - 0x100000)
  else if a < 0x120000 then lifeInfo (a - 0x110000)
  else if a < 0x130000 then secInfo (a - 0x120000)
  else if a < 0x140000 then timeInfo (a - 0x130000)
  else none

/-- A register's Reset value (R17); 0 where the manual gives none (log entry 2). -/
def regReset (a : Nat) : W32 :=
  match regInfo a with
  | some i => BitVec.ofNat 32 i.reset
  | none => 0

end Sys2Proof.Machine
end

