-- ==== Sys2Proof/Machine/Regs.lean ====
section
/-! DEFINITION. Reading and writing the state's parts by name: registers and their fields, counters that saturate,
sessions, key slots and cores, and draws of free values. -/

namespace Sys2Proof.Machine

/-- The register at an address, as it is held. -/
def State.reg (s : State) (a : Nat) : W32 := SMap.get s.regs (regReset a) a

/-- The state with the register at an address replaced. -/
def State.setReg (s : State) (a : Nat) (v : W32) : State := { s with regs := SMap.set s.regs (regReset a) a v }

/-- Field [lo + n - 1 : lo] of a register. -/
def State.rf (s : State) (a lo n : Nat) : Nat := rfld (s.reg a) lo n

/-- One bit of a register. -/
def State.rb (s : State) (a i : Nat) : Bool := rbit (s.reg a) i

/-- The state with a register field replaced. -/
def State.setF (s : State) (a lo n v : Nat) : State := s.setReg a (rput (s.reg a) lo n v)

/-- The state with one register bit replaced. -/
def State.setB (s : State) (a i : Nat) (b : Bool) : State := s.setReg a (rputBit (s.reg a) i b)

/-- A 64-bit value held in a _LO and a _HI register. -/
def State.pair (s : State) (lo : Nat) : Nat := (s.reg lo).toNat + 2 ^ 32 * (s.reg (lo + 4)).toNat

/-- The state with a _LO and _HI pair replaced. -/
def State.setPair (s : State) (lo v : Nat) : State :=
  (s.setReg lo (BitVec.ofNat 32 v)).setReg (lo + 4) (BitVec.ofNat 32 (v / 2 ^ 32))

/-- A counter that saturates at 0xFFFF_FFFF, raised by n. -/
def State.bump (s : State) (a : Nat) (n : Nat := 1) : State :=
  s.setReg a (BitVec.ofNat 32 (satAdd 32 (s.reg a).toNat n))

/-- Every register of a list set to 0. -/
def State.clearRegs (s : State) (l : List Nat) : State := l.foldl (fun t a => t.setReg a 0) s

/-- Every register of a range of addresses back at its Reset value. -/
def State.resetRegs (s : State) (lo hi : Nat) : State :=
  { s with regs := s.regs.filter fun e => !(decide (lo ≤ e.1) && decide (e.1 < hi)) }

/-- The greatest value of the 64-bit tick counter (R18), where it stops (log entry 125). -/
def lastTick : Nat := 2 ^ 64 - 1

/-- Time passes until tick t, unless it has passed already. -/
def State.passTo (s : State) (t : Nat) : State := { s with tick := min (max s.tick t) lastTick }

/-- One draw of a free value: its number, and the state with the next one due. -/
def State.draw (s : State) : Nat × State := (s.draws, { s with draws := s.draws + 1 })

/-- The session map's key for a requester. -/
def whoIdx : Who → Nat
  | .sess k => k.val
  | .i3c => 8
  | .peer r => 16 + r

/-- A session, by its key in the session map. -/
def State.ses (s : State) (i : Nat) : Session := SMap.get s.sess {} i
/-- The state with a session replaced. -/
def State.setSes (s : State) (i : Nat) (v : Session) : State := { s with sess := SMap.set s.sess {} i v }
/-- A partner key slot. -/
def State.key (s : State) (k : Nat) : KeySlot := SMap.get s.keys {} k
/-- The state with a key slot replaced. -/
def State.setKey (s : State) (k : Nat) (v : KeySlot) : State := { s with keys := SMap.set s.keys {} k v }

/-- A core's number: 16 × Spire + core, which is also its unit number (R859). -/
def coreIdx (k : CoreRef) : Nat := 16 * k.spire.val + k.core.val
/-- A core. -/
def State.core (s : State) (k : Nat) : Core := SMap.get s.cores {} k
/-- The state with a core replaced. -/
def State.setCore (s : State) (k : Nat) (c : Core) : State := { s with cores := SMap.set s.cores {} k c }

/-- A core's general register; g0 reads 0 (R442). -/
def Core.rd (c : Core) (r : Reg) : W64 := if r = 0 then 0 else SMap.get c.g 0 r.val
/-- The core with a general register written; a write of g0 is discarded (R442). -/
def Core.wr (c : Core) (r : Reg) (v : W64) : Core := if r = 0 then c else { c with g := SMap.set c.g 0 r.val v }
/-- A core's predicate; p0 reads true (R442). -/
def Core.rp (c : Core) (p : PReg) : Bool := if p = 0 then true else c.p.testBit p.val
/-- The core with a predicate written; a write of p0 is discarded (R442). -/
def Core.wp (c : Core) (p : PReg) (b : Bool) : Core := if p = 0 then c else { c with p := nsetBit c.p p.val b }
/-- A core's descriptor register (R443). -/
def Core.rdd (c : Core) (d : DReg) : BitVec 512 := SMap.get c.d 0 d.val
/-- The core with a descriptor register written. -/
def Core.wrd (c : Core) (d : DReg) (v : BitVec 512) : Core := { c with d := SMap.set c.d 0 d.val v }

/-- DEV_STATUS.STATE values (chapter "Bring-up, firmware and the enable check"). -/
def stReset : Nat := 0
/-- BOOT -/
def stBoot : Nat := 1
/-- TRAINING -/
def stTraining : Nat := 2
/-- READY -/
def stReady : Nat := 3
/-- RUN -/
def stRun : Nat := 4
/-- MAINTENANCE -/
def stMaint : Nat := 5
/-- RECOVERY -/
def stRecovery : Nat := 6
/-- HALTED -/
def stHalted : Nat := 7

/-- DEV_STATUS.STATE. -/
def State.devState (s : State) : Nat := s.rf aDevStatus 0 4
/-- Firmware runs: from TRAINING on, and not in RECOVERY or HALTED (R951, R72). -/
def State.fwRuns (s : State) : Bool := decide (stTraining ≤ s.devState) && decide (s.devState ≤ stMaint)
/-- The units work: the boot has reached READY, and neither a reset, RECOVERY nor a thermal trip has come since (R72, R87, R101, R104,
R109; log entry 118). -/
def State.works (s : State) : Bool := decide (stReady ≤ s.devState) && decide (s.devState ≤ stMaint)
/-- The state with DEV_STATUS.STATE replaced. -/
def State.setDevState (s : State) (v : Nat) : State := s.setF aDevStatus 0 4 v

/-- CTX_CTL.EN of context c. -/
def State.ctxEn (s : State) (c : Nat) : Bool := s.rb (aCtxCtl c) 0
/-- Some context is enabled. -/
def State.anyEn (s : State) : Bool := (List.range 16).any s.ctxEn
/-- Context c has an accepted, uncommitted task (CTX_STATUS.ACTIVE). -/
def State.ctxActive (s : State) (c : Nat) : Bool := s.tasks.any fun t => t.ctx == c && t.accepted
/-- A write that rules refuse while EN is 1 is refused for context c: EN is 1, or ACTIVE is 1 after a clear, unless R107
or R886 left the context disabled (R99). -/
def State.ctxLocked (s : State) (c : Nat) : Bool := s.ctxEn c || (s.ctxActive c && !s.ctxHeld.testBit c)
/-- A write that rules refuse while any EN is 1 is refused (R99). -/
def State.anyLocked (s : State) : Bool := (List.range 16).any s.ctxLocked

/-- The firmware version running: major, minor, patch (R950). -/
def State.fwMajor (s : State) : Nat := s.rf aDevFwLo 16 16
/-- The firmware's minor version. -/
def State.fwMinor (s : State) : Nat := s.rf aDevFwLo 0 16

/-- A task by key and ASN. -/
def State.task? (s : State) (key asn : Nat) : Option Task := s.tasks.find? fun t => t.key == key && t.asn == asn
/-- The state with a task changed. -/
def State.modTask (s : State) (key asn : Nat) (f : Task → Task) : State :=
  { s with tasks := s.tasks.map fun t => if t.key == key && t.asn == asn then f t else t }

/-- A message or frame leaves the device. -/
def State.emit (s : State) (m : OutMsg) : State := { s with tx := s.tx ++ [m] }

end Sys2Proof.Machine
end

