-- ==== Sys2Proof/Machine/Macsec.lean ====
section
/-! DEFINITION. MACsec (R152–R155, R925–R929) on frames: associations, the SecTAG and check value of IEEE 802.1AE-2018 with
GCM-AES-XPN-256, packet numbers, and what the decrypted data says. -/

namespace Sys2Proof.Machine

/-- The key slot that protects sub-port p (R153, R925). -/
def State.macsecKey (s : State) (p : Nat) : Nat := s.rf (aSessCfg (s.rf aKsess (4 * p) 3)) 4 4

/-- The MACsec state of sub-port p. -/
def State.macsec (s : State) (p : Nat) : Macsec := SMap.get s.port.macsec {} p

/-- The state with sub-port p's MACsec state replaced. -/
def State.setMacsec (s : State) (p : Nat) (m : Macsec) : State :=
  { s with port := { s.port with macsec := SMap.set s.port.macsec {} p m } }

/-- Sub-port p is silent: its key slot has no GEN left for it (R929). -/
def State.muted (s : State) (p : Nat) : Bool := (s.key (s.macsecKey p)).mute.contains p

/-- An SCI (R925): a transmitter's MAC address, then its GEN, both in the standard's byte order, as the SCI of IEEE 802.1AE is
sent; R12 and R925 do not say so of the copy that the SAK is derived from (DESIGN CHOICE: log entry 161). -/
def sciOf (mac gen : Nat) : Nat := mac % 2 ^ 48 * 65536 + gen % 65536

/-- The secure association of a transmitter (R925): the SAK and the salt of a key, an SCI and a sub-port. -/
def macsecKeys (key : List Byte) (sci sub : Nat) : List Byte × List Byte :=
  let out := kmac256 key (natBe 8 sci ++ natLe 1 sub) 44 "NLT9 SAK"
  (out.take 32, out.drop 32)

/-- The SecTAG of encrypted data (IEEE 802.1AE): EtherType, control bits with AN, short length, the low half of the packet number, SCI. -/
def secTag (an pn sci len : Nat) : List Byte :=
  natBe 2 0x88E5 ++ natBe 1 (0x2C + an % 4) ++ natBe 1 (if len < 48 then len else 0) ++ natBe 4 pn ++ natBe 8 sci

/-- The initialization vector: SSCI and packet number under the salt. -/
def macsecIv (salt : List Byte) (ssci pn : Nat) : List Byte := xorBlock (natBe 4 ssci ++ natBe 8 pn) salt

/-- The check value of a frame: over the MAC addresses and the SecTAG, and the encrypted data. -/
def macsecIcv (keys : List Byte × List Byte) (ssci pn sci an dst src : Nat) (data : List Byte) : List Byte :=
  gcmTag keys.1 (macsecIv keys.2 ssci pn) (natBe 6 dst ++ natBe 6 src ++ secTag an pn sci data.length) data

/-- The whole packet number from its low half and the lowest that is acceptable (IEEE 802.1AE, extended packet numbering). -/
def fullPn (lowest : Nat) (pn : BitVec 32) : Nat :=
  (lowest / 2 ^ 32 + if lowest.testBit 31 && !pn.msb then 1 else 0) * 2 ^ 32 + pn.toNat

/-- A number of n bytes at an offset, most significant first. -/
def getBe (l : List Byte) (off n : Nat) : Nat := leNat (slice l off n).reverse

/-- What a UDP datagram carries (R139, R142, R156): PTP, RoCEv2, or data for its port. -/
def Frame.udp (f : Frame) (l : List Byte) : Frame :=
  let dport := getBe l 2 2
  let body := slice l 8 (getBe l 4 2 - 8)
  let kind : FrameKind := if dport = 319 ∨ dport = 320 then .ptp else if dport = 4791 then .roce (getBe body 5 3) else .udp dport
  { f with kind := kind, bytes := body, src := { f.src with port := getBe l 0 2 } }

/-- What follows an EtherType: IPv4 and IPv6 with UDP in one piece, or another frame. -/
def Frame.packet (f : Frame) (typ : Nat) (l : List Byte) : Frame :=
  let none' := { f with kind := .other, bytes := [] }
  if typ = 0x0800 then
    (if getBe l 9 1 = 17 ∧ getBe l 6 2 % 2 ^ 14 = 0 then
       Frame.udp { f with ce := getBe l 1 1 % 4 == 3, src := { f.src with v6 := false, ip := getBe l 12 4 } } (l.drop (getBe l 0 1 % 16 * 4))
     else none')
  else if typ = 0x86DD then
    (if getBe l 6 1 = 17 then
       Frame.udp { f with ce := getBe l 0 2 / 16 % 4 == 3, src := { f.src with v6 := true, ip := getBe l 8 16 } } (l.drop 40)
     else none')
  else if typ = 0x88F7 then { f with kind := .ptp, bytes := l.drop 2 }
  else none'

/-- The frame that decrypted data carries: EtherType first, or a VLAN tag before it (R138). -/
def Frame.inner (f : Frame) (l : List Byte) : Frame :=
  if getBe l 0 2 = 0x8100 then Frame.packet { f with vlan := BitVec.ofNat 12 (getBe l 2 2) } (getBe l 4 2) (l.drop 6)
  else Frame.packet { f with vlan := 0 } (getBe l 0 2) (l.drop 2)

end Sys2Proof.Machine
end

