-- ==== Sys2Proof/Machine/Egress.lean ====
section
/-! DEFINITION. Frames as they leave the port (R145, R147, R151–R154, R169, R787, R958): addressing, pauses, and MACsec tags. -/

namespace Sys2Proof.Machine

/-- PORT_CFG.SPLIT; in RECOVERY the device runs P0 alone (R109). -/
def State.split (s : State) : Nat := if s.devState = stRecovery then 0 else s.rf aPortCfg 0 2

/-- Sub-port p runs on 100 G lanes (R125, R127); in RECOVERY P0 does (R109). -/
def State.lane100 (s : State) (p : Nat) : Bool := s.devState == stRecovery || s.rb aPortCfg (16 + p)

/-- Lanes per sub-port of a split. -/
def subWidth (split : Nat) : Nat := 8 / 2 ^ split

/-- The rate of sub-port p's mode in Gb/s (R125, R127). -/
def State.modeRate (s : State) (p : Nat) : Nat := subWidth s.split * if s.lane100 p then 100 else 200

/-- PORT_CFG.MACSEC_EN of sub-port p; the bit of a sub-port that the split lacks is ignored (R164). -/
def State.macsecOn (s : State) (p : Nat) : Bool := p % subWidth s.split == 0 && s.rb aPortCfg (24 + p)

/-- Sub-port p carries traffic (PORT_STATUS.SUBPORT_UP). -/
def State.subUp (s : State) (p : Nat) : Bool := s.rb aPortStatus (24 + p)

/-- A session's logical port lies on a priority with PFC enabled. -/
def State.pfcOn (s : State) (k : Nat) : Bool := s.rb aPortCfg (8 + s.rf (aSessQos k) 0 3)

/-- The key of a sub-port and priority in the port's pause maps. -/
def pauseKey (sub prio : Nat) : Nat := 8 * sub + prio

/-- An address as the device's own structures give it (R12, R786, R958; log entry 137): a 16-byte IPv6 address, or an IPv4 address in
IPv4-mapped form, the next hop's MAC address and the VLAN. -/
def NetAddr.ofEntry (ip mac vlan port : Nat) : NetAddr :=
  { v6 := ip / 2 ^ 32 != 0xFFFF, ip := if ip / 2 ^ 32 = 0xFFFF then ip % 2 ^ 32 else ip, mac := mac, vlan := vlan % 4096, port := port }

/-- An entry of the peer address table (R786). -/
def peerEntry (b : List Byte) : NetAddr := NetAddr.ofEntry (getLe b 0 16) (getLe b 0x10 6) (getLe b 0x16 2) (getLe b 0x18 2)

/-- The destination of a queue pair's packets: its record (R958), and the UDP port of RoCEv2. -/
def Qp.dst (x : Qp) : NetAddr := NetAddr.ofEntry (getLe x.words 0x10 16) (getLe x.words 0x20 6) (getLe x.words 0x26 2) 4791

/-- A queue pair, where it is valid. -/
def State.qp? (s : State) (q : Nat) : Option Qp := SMap.get s.qps none q

/-- The device's MAC address of logical port k, and of the peer port as k = 8 (R137, R787). -/
def State.deviceMac (s : State) (k : Nat) : Nat := (s.fuses.mac.toNat + k) % 2 ^ 48

/-- The frame of a DWP message to a partner or a peer (R169, R787). -/
def State.dwpFrame (s : State) (i : Nat) (dst : NetAddr) (m : OutMsg) : OutFrame :=
  if i < 8 then
    { sub := s.rf (aSessLport i) 0 3, prio := some (s.rf (aSessQos i) 0 3), srcMac := s.deviceMac i, dst := dst,
      srcPort := s.rf (aSessLport i) 16 16, ect0 := true, msg := m }
  else
    { sub := s.rf (aPeer 0x04) 12 3, prio := none, srcMac := s.deviceMac 8, dst := dst, srcPort := s.rf (aPeer 0x08) 16 16,
      ect0 := true, msg := m }

/-- The frame of a queue pair's packet: its record says where it goes (R958; log entry 137). -/
def State.roceFrame (s : State) (q : Nat) (m : OutMsg) : Option OutFrame :=
  (s.qp? q).map fun x =>
    { sub := getLe x.words 3 1, prio := some (getLe x.words 2 1), srcMac := s.deviceMac x.sess, dst := x.dst,
      srcPort := getLe x.words 0x28 2, ect0 := false, msg := m }

/-- The frame that carries a message to dst, where a frame does. -/
def State.frameOf (s : State) (dst : NetAddr) (m : OutMsg) : Option OutFrame :=
  match m with
  | .dwp i .. => some (s.dwpFrame i dst m)
  | .roceAck q _ => s.roceFrame q m
  | .roceReadResponse q .. => s.roceFrame q m
  | .roceError q _ => s.roceFrame q m
  | .roceSequence q _ => s.roceFrame q m
  | .cnp q => s.roceFrame q m
  | .ptpDelayReq sub _ _ => some { sub := sub, prio := none, srcMac := s.deviceMac 0, dst := dst, srcPort := 319, ect0 := false, msg := m }
  | .pfc sub .. => some { sub := sub, prio := none, srcMac := s.deviceMac 0, dst := dst, srcPort := 0, ect0 := false, msg := m }
  | .i3c _ => none
  | .tdo _ => none
  | .scan _ => none

/-- A frame is a PFC frame. -/
def OutFrame.isPfc (f : OutFrame) : Bool := match f.msg with | .pfc .. => true | _ => false

/-- The 32-byte header (R170). -/
def dwpHeader (typ flags session seq ack credit len : Nat) : List Byte :=
  natLe 1 1 ++ natLe 1 typ ++ natLe 2 flags ++ natLe 4 session ++ natLe 8 seq ++ natLe 8 ack ++ natLe 4 credit ++ natLe 4 len

/-- What the model holds of a frame's content: the bytes of a DWP datagram, or the numbers and data of another packet. -/
def OutMsg.content : OutMsg → List Nat × List Byte
  | .dwp _ typ flags ses seq ack credit p tag => ([0], dwpHeader typ flags ses seq ack credit p.length ++ p ++ tag)
  | .roceAck q n => ([1, q, n], [])
  | .roceReadResponse q n d => ([2, q, n], d)
  | .roceError q n => ([3, q, n], [])
  | .roceSequence q n => ([4, q, n], [])
  | .cnp q => ([5, q], [])
  | .ptpDelayReq p .udp4 d => ([6, p, 0, d.toNat], [])
  | .ptpDelayReq p .udp6 d => ([6, p, 1, d.toNat], [])
  | .ptpDelayReq p .ethernet d => ([6, p, 2, d.toNat], [])
  | .pfc p q off => ([7, p, q, if off then 1 else 0], [])
  | .i3c b => ([8], b)
  | .tdo v => ([9, v], [])
  | .scan c => (10 :: c.map fun e => if e.2 then 1 else 0, [])

/-- A frame's bytes from the EtherType on, before MACsec: what the manual leaves open of them is Config.frameBytes (log entry 33). -/
def OutFrame.bytes (f : OutFrame) : List Byte :=
  let c := f.msg.content
  Config.frameBytes ([f.prio.getD 8, f.dst.ip, f.dst.port, f.dst.vlan, f.srcPort, if f.dst.v6 then 1 else 0, if f.ect0 then 1 else 0] ++ c.1) c.2

/-- The SCI of the device's own association on sub-port p (R925; log entry 136): its MAC address is that of the session whose key it
uses. -/
def State.ownSci (s : State) (p : Nat) : Nat := sciOf (s.deviceMac (s.rf aKsess (4 * p) 3)) (s.macsec p).txGen

/-- The SAK and the salt of that association, of the frames that the device sends (R153, R925). -/
def State.ownSak (s : State) (p : Nat) : List Byte × List Byte := macsecKeys (s.key (s.macsecKey p)).key (s.ownSci p) p

/-- A frame under the next packet number of its sub-port's association, with SSCI 1 (R152, R925). -/
def State.protect (s : State) (f : OutFrame) : OutTag :=
  let m := s.macsec f.sub
  let keys := s.ownSak f.sub
  let pn := m.txPn + 1
  let data := gcmCrypt keys.1 (macsecIv keys.2 1 pn) f.bytes
  { an := m.txGen % 4, pn := pn, sci := s.ownSci f.sub, data := data,
    icv := macsecIcv keys 1 pn (s.ownSci f.sub) m.txGen f.dst.mac f.srcMac data }

/-- A frame leaves the port: none from a sub-port that is down or that R929 silences, and with MACsec protected, but for PFC (R136, R152,
R929). -/
def State.leave (s : State) (f : OutFrame) : State :=
  if !s.subUp f.sub then s
  else if !s.macsecOn f.sub then { s with port := { s.port with wire := s.port.wire ++ [f] } }
  else if s.muted f.sub then s
  else if f.isPfc then { s with port := { s.port with wire := s.port.wire ++ [f] } }
  else
    let t := s.setMacsec f.sub { s.macsec f.sub with txPn := (s.macsec f.sub).txPn + 1 }
    { t with port := { t.port with wire := t.port.wire ++ [{ f with tag := some (s.protect f) }] } }

/-- A received pause holds the frame's priority. -/
def State.paused (s : State) (f : OutFrame) : Bool :=
  match f.prio with
  | some p => (SMap.find s.port.pauses (pauseKey f.sub p)).isSome
  | none => false

/-- A frame leaves, or waits for the pause of its priority to end (R145, R151). -/
def State.transmit (s : State) (f : OutFrame) : State :=
  if s.paused f then { s with port := { s.port with held := s.port.held ++ [f] } } else s.leave f

/-- The frames that no pause holds any more leave, in their order. -/
def State.release (s : State) : State :=
  (s.port.held.filter fun f => !s.paused f).foldl State.leave { s with port := { s.port with held := s.port.held.filter s.paused } }

/-- A message leaves the device in a frame to dst. -/
def State.send (s : State) (dst : NetAddr) (m : OutMsg) : State :=
  let t := s.emit m
  match t.frameOf dst m with
  | some f => t.transmit f
  | none => t

/-- A PFC frame leaves: XOFF or XON on a priority of a sub-port. -/
def State.sendPfc (s : State) (sub prio : Nat) (off : Bool) : State :=
  match s.frameOf {} (.pfc sub prio off) with
  | some f => ({ s with port := { s.port with xoff := SMap.set s.port.xoff false (pauseKey sub prio) off } } : State).leave f
  | none => s

/-- Messages of a session that are received and not yet processed. -/
def State.rxHeld (s : State) (k : Nat) : Nat := (s.ses k).rxBuf.length + (s.port.rx.filter fun e => e.1 == k).length

/-- The receive space of session k's logical port is full (R147, R183; log entry 12). -/
def State.rxFull (s : State) (k : Nat) : Bool := decide (Config.recvRoom + 1024 ≤ s.rxHeld k)

/-- The key of a session's logical port in the pause maps. -/
def State.lportKey (s : State) (k : Nat) : Nat := pauseKey (s.rf (aSessLport k) 0 3) (s.rf (aSessQos k) 0 3)

/-- A priority of a sub-port that is up and not silent is to stand at XOFF (R147, R929): an enabled logical port on it has PFC enabled, and level B holds or its receive
space is full. -/
def State.xoffDue (s : State) (key : Nat) : Bool :=
  s.subUp (key / 8) && !(s.macsecOn (key / 8) && s.muted (key / 8)) && (List.range 8).any fun k =>
    s.rb (aSessCfg k) 0 && s.pfcOn k && s.lportKey k == key && (s.rb (aDisp 0x004) 31 || s.rxFull k)

/-- XOFF or XON goes out on every priority that does not stand as it is to (R147). -/
def State.pfcSync (s : State) : State :=
  let keys := ((List.range 8).map s.lportKey ++ s.port.xoff.map (·.1)).eraseDups
  keys.foldl (fun (t : State) key =>
    if t.xoffDue key == SMap.get t.port.xoff false key then t else t.sendPfc (key / 8) (key % 8) (t.xoffDue key)) s

/-- A sub-port goes down: the pauses of either side lapse with the link, and the frames that waited are lost (R136, R163). -/
def State.subDown (s : State) (p : Nat) : State :=
  { s.setB aPortStatus (24 + p) false with
    port := { s.port with pauses := s.port.pauses.filter fun e => e.1 / 8 != p, xoff := s.port.xoff.filter fun e => e.1 / 8 != p,
                          held := s.port.held.filter fun f => f.sub != p } }

end Sys2Proof.Machine
end

