-- ==== Sys2Proof/Machine/Errors.lean ====
section
/-! DEFINITION. The avalanche filter (R888–R893): a report opens a record or merges with an open one, records that open
within 1,000,000 ticks form a cluster with one root, and a full ring overwrites its oldest record. -/

namespace Sys2Proof.Machine

/-! Record classes. -/
/-- LINK_REPLAY -/
def clsLinkReplay : Nat := 0x01
/-- LINK_EXHAUSTED -/
def clsLinkExhausted : Nat := 0x02
/-- STATE_PARITY -/
def clsStateParity : Nat := 0x03
/-- MEM_CE -/
def clsMemCe : Nat := 0x04
/-- MEM_UE -/
def clsMemUe : Nat := 0x05
/-- UNIT_OUT -/
def clsUnitOut : Nat := 0x06
/-- RETRY_EXHAUSTED -/
def clsRetryExhausted : Nat := 0x07
/-- INSTR_FAULT -/
def clsInstrFault : Nat := 0x08
/-- SYNC_STALL -/
def clsSyncStall : Nat := 0x09
/-- T7_RESIDUE -/
def clsT7Residue : Nat := 0x0A
/-- COUNTER_SAT -/
def clsCounterSat : Nat := 0x0B
/-- TIMEBASE -/
def clsTimebase : Nat := 0x0C
/-- SELF_TEST -/
def clsSelfTest : Nat := 0x0D
/-- LANE -/
def clsLane : Nat := 0x0E
/-- ROW_FAULT -/
def clsRowFault : Nat := 0x0F
/-- THERMAL -/
def clsThermal : Nat := 0x10

/-- A report to the avalanche filter (R888). found is the origin tick where it is known; the manual does not say how long any other
report is on its way (log entry 151). -/
structure ErrReport where
  cls : Nat
  origin : Nat
  reporter : Nat
  ctx : Nat := 0xFF
  key : Nat := 0xFF
  asn : Nat := 0
  addr : Nat := 0
  status : Nat := 0xFFFF
  detail : Nat := 0
  persist : Bool := false
  body : List Byte := []
  found : Option Nat := none
deriving DecidableEq, Repr

/-- Ticks that a record stays open (R889, R891). -/
def errWindow : Nat := 1000000

/-- Of two records, the one that is root: the earlier ORIGIN_TICK, then the lower SEQ (R891). -/
def rootOf (a b : ErrRec) : ErrRec :=
  if b.originTick < a.originTick ∨ (b.originTick = a.originTick ∧ b.seq < a.seq) then b else a

/-- The root of a cluster: fixed once a record closed as root, which its open records remember; otherwise chosen among the open ones
(R891). -/
def clusterRoot (rs : List ErrRec) (cl : Nat) : Option Nat :=
  match rs.filter fun r => r.cluster == cl && r.isOpen with
  | [] => none
  | h :: t => some (h.fixed.getD (t.foldl rootOf h).seq)

/-- ROOT_SEQ and the ROOT flag of every open record of a cluster follow its root. -/
def followRoot (rs : List ErrRec) (cl : Nat) : List ErrRec :=
  match clusterRoot rs cl with
  | none => rs
  | some q => rs.map fun r => if r.cluster == cl && r.isOpen then { r with rootSeq := q, root := r.seq == q } else r

/-- A record closes: its fields are final, and as root it stays the cluster's (R891). -/
def closeRec (rs : List ErrRec) (e : ErrRec) : List ErrRec :=
  followRoot (rs.map fun x =>
    if x.seq = e.seq then { x with isOpen := false }
    else if e.root && x.isOpen && x.cluster == e.cluster then { x with fixed := some (x.fixed.getD e.seq) } else x) e.cluster

/-- Every record whose 1,000,000 ticks are over at a tick has closed, in the order in which they opened (R891; log entry 110). -/
def closeDue (rs : List ErrRec) (now : Nat) : List ErrRec :=
  (rs.filter fun e => e.isOpen && decide (e.first + errWindow < now)).foldl closeRec rs

/-! Units (R859, R883, R887). -/

/-- A number that the unit table gives to a unit (R859). -/
def isUnit (u : Nat) : Bool :=
  decide (u < 0x520) || (decide (0x520 ≤ u) && decide (u < 0x530)) || (decide (0x540 ≤ u) && decide (u < 0x558))
    || (decide (0x560 ≤ u) && decide (u < 0x578)) || (decide (0x580 ≤ u) && decide (u < 0x588)) || (decide (0x590 ≤ u) && decide (u < 0x598))

/-- The Spire of a core or Spire-island unit number. -/
def unitSpire (u : Nat) : Option Nat :=
  if u < 0x400 then some (u / 16) else if u < 0x500 then some ((u - 0x400) / 4) else none

/-- The key that a unit's faults are counted under: its Spire, or itself. -/
def failKey (u : Nat) : Nat := match unitSpire u with | some sp => 0x400 + 4 * sp | none => u

/-- Faults of one key within the last 1,000,000,000 ticks. -/
def State.failCount (s : State) (u : Nat) : Nat :=
  (s.stops.filter fun e => e.2 == failKey u && decide (s.tick ≤ e.1 + 1000000000)).length

/-- ERR_POLICY.FAIL_LIMIT. -/
def State.failLimit (s : State) : Nat := s.rf (aErr 0x004) 0 4

/-- Records of a unit that never leaves service carry PERSIST once it reaches the limit (R887). -/
def State.persists (s : State) (u : Nat) : Bool :=
  ((decide (0x500 ≤ u) && decide (u < 0x530)) || [0x590, 0x591, 0x592, 0x593, 0x594, 0x596].contains u)
    && decide (s.failLimit ≤ s.failCount u)

/-- Records not yet read (R893). -/
def State.unread (s : State) : Nat := ((s.reg (aErr 0x00C)) - (s.reg (aErr 0x010))).toNat

/-- A report reaches the avalanche filter (R888–R892). -/
def State.report (s0 : State) (r : ErrReport) : State :=
  let (d, s) := s0.draw
  let now := s.tick
  let found := min now (r.found.getD (now - Config.freeNat d))
  let persist := r.persist || s.persists r.origin
  let errs := closeDue s.errs now
  match errs.find? fun e => e.isOpen && e.origin == r.origin && e.cls == r.cls with
  | some e =>
    { s with errs := followRoot (errs.map fun x =>
        if x.seq == e.seq then
          { x with echo := satAdd 32 x.echo 1, last := now, originTick := min x.originTick found, persist := x.persist || persist }
        else x) e.cluster }
  | none =>
    let seq := (s.reg (aErr 0x00C)).toNat
    let live := errs.find? fun e => e.isOpen
    let cl := (live.map (·.cluster)).getD seq
    let rec1 : ErrRec :=
      { first := now, originTick := found, last := now, seq := seq, rootSeq := seq, echo := 0, origin := r.origin,
        reporter := r.reporter, cls := r.cls, isOpen := true, root := false, persist := persist, status := r.status,
        detail := r.detail, ctx := r.ctx, key := r.key, asn := r.asn, addr := r.addr, body := r.body, cluster := cl,
        fixed := live.bind (·.fixed) }
    let full := decide (4096 ≤ errs.length)
    let lost := full && decide (4096 ≤ s.unread)
    let s1 := s.setReg (aErr 0x00C) (BitVec.ofNat 32 (seq + 1))
    let s2 := if lost then (s1.setReg (aErr 0x010) (s1.reg (aErr 0x010) + 1)).bump (aErr 0x118) else s1
    { s2 with errs := followRoot ((if full then errs.tail else errs) ++ [rec1]) cl }

/-- The 1 KiB of a record that ERR_REC shows (R893, R903). -/
def ErrRec.bytes (r : ErrRec) : List Byte :=
  natLe 8 r.first ++ natLe 8 r.originTick ++ natLe 8 r.last ++ natLe 4 r.seq ++ natLe 4 r.rootSeq ++ natLe 4 r.echo
    ++ natLe 2 r.origin ++ natLe 2 r.reporter ++ natLe 1 r.cls
    ++ natLe 1 ((if r.isOpen then 1 else 0) + (if r.root then 2 else 0) + (if r.persist then 4 else 0))
    ++ natLe 2 r.status ++ natLe 2 r.detail ++ natLe 1 r.ctx ++ natLe 1 r.key ++ natLe 8 r.asn ++ natLe 8 r.addr ++ r.body

/-- ALERT_N is asserted (R70): a junction above 95 °C, THROTTLE with AT_FLOOR, or an unread record. -/
def State.alertN (s : State) : Bool :=
  s.pins.vaux && (!s.pins.overLimit.isEmpty || (s.rb aPwrStatus 31 && s.rb aPwrStatus 30) || decide (0 < s.unread))

end Sys2Proof.Machine
end

