-- ==== Sys2Proof/Machine/Memory.lean ====
section
/-! DEFINITION. Where a device address lies (R233, R238, R255), which windows of a context cover an access (R261–R267), and
the Dome cache under every access (R277–R289): the bytes an access sees stand in State.mem, and a dirty line keeps the
tier's bytes beneath it. -/

namespace Sys2Proof.Machine

/-- First address of the glacier window (R233). -/
def glacierBase : Nat := 0x080000000000
/-- First address of the Spire stores (R233). -/
def storeBase : Nat := 0x100000000000
/-- First address past the Spire stores (R233). -/
def storeEnd : Nat := storeBase + 2 ^ 29
/-- An address in a Spire store (R233). -/
def isStore (a : Nat) : Bool := decide (storeBase ≤ a) && decide (a < storeEnd)
/-- One GiB. -/
def gib : Nat := 2 ^ 30

/-- The nth set bit of a mask, lowest first. -/
def nthSetBit (mask n : Nat) : Nat := (bitsSet 64 mask).getD n 0

/-- Where an address lies. -/
inductive Place where
  /-- In the near tier: stack and stack offset. -/
  | near (stack off : Nat)
  /-- In the glacier tier: channel and channel offset. -/
  | glacier (chan off : Nat)
  /-- In a Spire store: Spire and offset. -/
  | store (spire off : Nat)
  /-- In no valid region, beyond the glacier tier, or unmapped. -/
  | unbacked
deriving DecidableEq, Repr

/-- The place is in near-tier stack st. -/
def Place.inNear : Place → Nat → Bool
  | .near n _, st => n == st
  | _, _ => false

/-- The region of a near-tier address, where one is valid (R238). -/
def State.regionOf (s : State) (a : Nat) : Option Nat :=
  (List.range 16).find? fun n =>
    s.rb (aRgn n) 31 && decide (s.rf (aRgn n + 4) 16 9 * gib ≤ a)
      && decide (a < (s.rf (aRgn n + 4) 16 9 + s.rf (aRgn n + 4) 0 10) * gib)

/-- A near-tier address to its stack and stack offset (R238). -/
def State.placeNear (s : State) (a : Nat) : Place :=
  match s.regionOf a with
  | none => .unbacked
  | some n =>
    let off := a - s.rf (aRgn n + 4) 16 9 * gib
    let soff := s.rf (aRgn n + 8) 0 6 * gib
    if s.rb (aRgn n) 30 then .near (s.rf (aRgn n) 27 3) (soff + off)
    else
      let mask := s.rf (aRgn n) 16 8
      let k := popCount 8 mask
      let g := off / 4096
      .near (nthSetBit mask (g % k)) (soff + g / k * 4096 + off % 4096)

/-- The glacier tier's size in bytes, N × U (R254). -/
def State.glacierSize (s : State) : Nat := s.rf aMemCap 0 16 * gib

/-- A device address to its place (R233, R238, R255). -/
def State.place (s : State) (a : Nat) : Place :=
  if a < 2 ^ 39 then s.placeNear a
  else if a < glacierBase then .unbacked
  else if a < storeBase then
    let o := a - glacierBase
    if s.glacierSize ≤ o then .unbacked
    else
      let present := s.rf aMemGlacier 0 16
      let n := popCount 16 present
      let g := o / 4096
      .glacier (nthSetBit present (g % n)) (g / n * 4096 + o % 4096)
  else if a < storeEnd then
    let sp := (a - storeBase) / 2 ^ 23
    if s.fuses.spires.getLsbD sp then .store sp ((a - storeBase) % 2 ^ 23) else .unbacked
  else .unbacked

/-- The stack or channel of an address has failed since boot (R257, R267). -/
def State.lostAt (s : State) (a : Nat) : Bool :=
  match s.place a with
  | .near st _ => s.outOfService.testBit (16 + st)
  | .glacier ch _ => s.outOfService.testBit ch
  | _ => false

/-- The address reaches no memory: unbacked. -/
def State.unbackedAt (s : State) (a : Nat) : Bool := s.place a == .unbacked

/-- The 4 KiB granules that an access of n bytes at a touches, by their first address. -/
def granules (a n : Nat) : List Nat := (List.range ((a + n - 1) / 4096 + 1 - a / 4096)).map fun i => (a / 4096 + i) * 4096

/-- Permission bits of WIN_CTL (R268). -/
inductive Perm where
  | rd | wr | rrd | rwr
deriving DecidableEq, Repr

/-- The bit of a permission. -/
def Perm.bit : Perm → Nat
  | .rd => 0 | .wr => 1 | .rrd => 2 | .rwr => 3

/-- A window's base in bytes. -/
def State.winBase (s : State) (c w : Nat) : Nat :=
  (s.reg (aWin c w)).toNat / 4096 * 4096 + s.rf (aWin c w + 4) 0 16 * 2 ^ 32
/-- A window's length in bytes. -/
def State.winLen (s : State) (c w : Nat) : Nat := (s.reg (aWin c w + 8)).toNat * 4096
/-- A window is valid. -/
def State.winValid (s : State) (c w : Nat) : Bool := s.rb (aWin c w + 12) 4
/-- A window grants a permission. -/
def State.winGrants (s : State) (c w : Nat) (p : Perm) : Bool := s.rb (aWin c w + 12) p.bit
/-- A valid window of the context covers every byte of [a, a + n). -/
def State.winCovers (s : State) (c w a n : Nat) : Bool :=
  s.winValid c w && inside a n (s.winBase c w) (s.winLen c w)

/-- What the windows say of an access (R267). -/
inductive Access where
  | ok
  /-- Backed at cold boot, its stack or channel failed since. -/
  | lost
  /-- Refused; the DETAIL that names a window, or 0xFFFF. -/
  | denied (detail : Nat)
deriving DecidableEq, Repr

/-- The windows of context c for an access of n bytes at a that needs permission p (R263, R267); one that touches unbacked addresses and a
failed unit both counts as unbacked (log entry 158). -/
def State.access (s : State) (c a n : Nat) (p : Perm) : Access :=
  let cover := (List.range 64).filter fun w => s.winCovers c w a n
  match cover.find? fun w => s.winGrants c w p with
  | some w =>
    if (granules a n).any s.unbackedAt then .denied w
    else if (granules a n).any s.lostAt then .lost
    else .ok
  | none =>
    match cover with
    | [] => .denied 0xFFFF
    | w :: _ => .denied w

/-! The Dome cache. -/

/-- The address lies where the cache holds lines (R278). -/
def cacheable (a : Nat) : Bool := decide (a < 2 ^ 39) || (decide (glacierBase ≤ a) && decide (a < storeBase))

/-- Folding the line index five bits at a time (R279). -/
def foldSlice : Nat → Nat → Nat
  | 0, _ => 0
  | n + 1, l => (l % 32) ^^^ foldSlice n (l / 32)

/-- The slice of a line (R279). -/
def lineSlice (l : Nat) : Nat := foldSlice 9 l
/-- The set of a line. -/
def lineSet (l : Nat) : Nat := l / 32 % 2048
/-- The tag of a line. -/
def lineTag (l : Nat) : Nat := l / 65536
/-- The key of a way: (slice × 2,048 + set) × 16 + way. -/
def wayKey (l way : Nat) : Nat := (lineSlice l * 2048 + lineSet l) * 16 + way
/-- The line index that a way's key and tag spell: line[4:0] is the slice XOR the fold of the higher bits (R279). -/
def lineOf (key tag : Nat) : Nat :=
  let set := key / 16 % 2048
  let slice := key / 32768
  let hi := tag * 2048 + set
  hi * 32 + (slice ^^^ foldSlice 8 hi)

/-- The cache is bypassed (R298). -/
def State.bypass (s : State) : Bool := s.rb aDomeStatus 0
/-- The ways in allocation (R288, R291). -/
def State.waysOn (s : State) : Nat := s.rf aDomeWaymask 0 16

/-- The way that holds a line, where one does. -/
def State.findWay (s : State) (l : Nat) : Option Nat :=
  (List.range 16).find? fun w =>
    match SMap.find s.dome.lines (wayKey l w) with
    | some e => e.tag == lineTag l
    | none => false

/-- One step of a slice's LFSR (R286). -/
def lfsrStep (x : W32) : W32 := if x.msb then (x <<< 1) ^^^ 0x00400007 else x <<< 1

/-- A line lies in the glacier window. -/
def lineGlacier (l : Nat) : Bool := decide (glacierBase ≤ l * 128) && decide (l * 128 < storeBase)

/-- The state with what a way holds replaced. -/
def State.putLine (s : State) (k : Nat) (e : Line) : State := { s with dome := { s.dome with lines := SMap.put s.dome.lines k e } }

/-- The bytes of a tier's line that no read corrects (R880), a bit each. -/
def State.tierBad (s : State) (l : Nat) : Nat := SMap.get s.badBytes 0 l

/-- Those bytes replaced. -/
def State.setTierBad (s : State) (l m : Nat) : State := { s with badBytes := SMap.set s.badBytes 0 l m }

/-- The bytes of line l that lie in [a, a + n), a bit each. -/
def lineMask (l a n : Nat) : Nat :=
  2 ^ (min 128 (a + n - l * 128)) - 2 ^ (min (a - l * 128) (min 128 (a + n - l * 128)))

/-- A mask without the bits of another. -/
def maskOff (m x : Nat) : Nat := m - (m &&& x)

/-- The dirty line of a way is written back: its bytes, and any error in them (R881), stand in the tier (DOME_WB). -/
def State.writeBack (s : State) (k : Nat) : State :=
  match SMap.find s.dome.lines k with
  | none => s
  | some e =>
    if e.dirty then
      let t := s.setTierBad (lineOf k e.tag) e.bad
      ({ t with dome := { s.dome with
          lines := SMap.put s.dome.lines k { e with dirty := false },
          under := SMap.erase s.dome.under (lineOf k e.tag) } }).bump (aDomeCnt 2)
    else s

/-- A stale line's bytes are the tier's again (R299). -/
def State.refresh (s : State) (l : Nat) : State :=
  match SMap.find s.dome.fresh l with
  | some b => { s with mem := Mem.writeN s.mem (l * 128) b, dome := { s.dome with fresh := SMap.erase s.dome.fresh l } }
  | none => s

/-- A clean line leaves its way. -/
def State.dropLine (s : State) (k : Nat) : State :=
  match SMap.find s.dome.lines k with
  | none => s
  | some e => { s with dome := { s.dome with lines := SMap.erase s.dome.lines k } }.refresh (lineOf k e.tag)

/-- A way becomes invalid without a write-back: a dirty or stale line's bytes are the tier's again (INVALIDATE). -/
def State.discard (s : State) (k : Nat) : State :=
  match SMap.find s.dome.lines k with
  | none => s
  | some e =>
    let l := lineOf k e.tag
    match SMap.find s.dome.under l with
    | some b =>
      { s with mem := Mem.writeN s.mem (l * 128) b, dome := { s.dome with
          lines := SMap.erase s.dome.lines k, under := SMap.erase s.dome.under l } }
    | none => s.dropLine k

/-- A way becomes invalid, its line written back first when it is dirty. -/
def State.evict (s : State) (k : Nat) : State := (s.writeBack k).dropLine k

/-- A miss chooses a victim (R286–R289): the LFSR steps, DOME_MISS rises, and the chosen way. -/
def State.chooseVictim (s : State) (l : Nat) : Nat × State :=
  let a := aDomeSeed (lineSlice l)
  let x := lfsrStep (s.reg a)
  let on := bitsSet 16 s.waysOn
  (on.getD (x.toNat / 16 % on.length) 0, (s.setReg a x).bump (aDomeCnt 1))

/-- A line is installed clean in a way that has been emptied. -/
def State.install (s : State) (l way : Nat) : State :=
  s.putLine (wayKey l way) { tag := lineTag l, dirty := false, stamp := 0, bad := s.tierBad l }

/-- A miss with its fill: the victim is evicted and the line installed clean. -/
def State.allocate (s : State) (l : Nat) : State :=
  let (w, s1) := s.chooseVictim l
  (s1.evict (wayKey l w)).install l w

/-- The keys of a slice's dirty glacier lines (R284). -/
def State.dirtyGlacier (s : State) (slice : Nat) : List (Nat × Line) :=
  s.dome.lines.filter fun e => e.2.dirty && e.1 / 32768 == slice && lineGlacier (lineOf e.1 e.2.tag)

/-- The key of the line that became dirty earliest. -/
def earliest : List (Nat × Line) → Option Nat
  | [] => none
  | h :: t => some (t.foldl (fun a b => if b.2.stamp < a.2.stamp then b else a) h).1

/-- A cached line becomes dirty: the tier's bytes are kept beneath it, and the slice's cap on dirty glacier lines holds
(R284). -/
def State.dirtyLine (s : State) (l way : Nat) : State :=
  let k := wayKey l way
  match SMap.find s.dome.lines k with
  | none => s
  | some e =>
    if e.dirty then s
    else
      let d := s.dirtyGlacier (lineSlice l)
      let s1 := if lineGlacier l && decide (8192 ≤ d.length) then
          (match earliest d with | some v => s.writeBack v | none => s)
        else s
      { s1 with dome := { s1.dome with
          lines := SMap.put s1.dome.lines k { e with dirty := true, stamp := s1.dome.stamps },
          under := SMap.put s1.dome.under l ((SMap.find s1.dome.fresh l).getD (Mem.readN s1.mem (l * 128) 128)),
          fresh := SMap.erase s1.dome.fresh l,
          stamps := s1.dome.stamps + 1 } }

/-- Bytes of line l have been written: no read of them fails any more (R880). The tier's bytes under a line that the cache holds are mended
by its write-back. -/
def State.wroteLine (s : State) (a n l : Nat) : State :=
  match if s.bypass then none else s.findWay l with
  | none => s.setTierBad l (maskOff (s.tierBad l) (lineMask l a n))
  | some w =>
    let k := wayKey l w
    match SMap.find s.dome.lines k with
    | some e => s.putLine k { e with bad := maskOff e.bad (lineMask l a n) }
    | none => s

/-- The lines that [a, a + n) touches. -/
def linesOf (a n : Nat) : List Nat := (List.range ((a + n - 1) / 128 + 1 - a / 128)).map fun i => a / 128 + i

/-- Bytes stored, in a tier or in the lines that hold them: no read of them fails any more (R880). -/
def State.storeBytes (s : State) (a : Nat) (b : List Byte) : State :=
  (if b.isEmpty then [] else linesOf a b.length).foldl (fun u l => u.wroteLine a b.length l) { s with mem := Mem.writeN s.mem a b }

/-- Fills in flight for a line end, so that an access of the device itself finds it. -/
def State.settleFill (s : State) (l : Nat) : State :=
  match s.dome.fills.find? fun (f : Fill) => f.line == l with
  | none => s
  | some f =>
    let s1 := { s with dome := { s.dome with fills := s.dome.fills.filter fun g => g.line != l } }
    let s2 := if f.raced then s1.bump (aDomeCnt 4) else (s1.evict (wayKey l f.way)).install l f.way
    let s3 := if f.writes.isEmpty || f.raced then s2 else s2.dirtyLine l f.way
    let s4 := f.writes.foldl (fun (t : State) (w : Nat × List Byte) => t.storeBytes w.1 w.2) s3
    { s4 with dome := { s4.dome with
        served := s4.dome.served ++ f.readers.map fun (r : Nat × Nat × Nat) => (r.1, Mem.readN s4.mem r.2.1 r.2.2) } }

/-- A line whose eviction has begun stands in the victim buffer (R313). -/
def State.inVictim (s : State) (l : Nat) : Bool := s.dome.fills.any fun (f : Fill) => f.victim == some l

/-- A request served from the victim buffer is counted (R315). -/
def State.victimHit (s : State) (l : Nat) : State := if s.inVictim l then s.bump (aDomeCnt 3) else s

/-- One access of a line through its slice by a unit of the device (R281): a hit, or a miss that fills at once. In bypass
no line is looked up (R298). -/
def State.touch (s : State) (write : Bool) (l : Nat) : State :=
  if s.bypass then s
  else
    let s0 := s.settleFill l
    let (w, s1) := match s0.findWay l with
      | some w => (w, s0.bump (aDomeCnt 0))
      | none =>
        let (w, t) := (s0.victimHit l).chooseVictim l
        (w, (t.evict (wayKey l w)).install l w)
    if write then s1.dirtyLine l w else s1

/-- The Dome cache's bookkeeping of a read of n bytes (R281). -/
def State.touchRange (s : State) (a n : Nat) : State := if n = 0 then s else (linesOf a n).foldl (fun u l => u.touch false l) s

/-- Reading n bytes of a tier through the Dome cache (R281): the bytes, and the state after the cache's bookkeeping. -/
def State.readTier (s : State) (a n : Nat) : List Byte × State :=
  let t := s.touchRange a n
  (Mem.readN t.mem a n, t)

/-- A slice supplies good bytes of a line, whatever the tier holds (R282). -/
def State.heldGood (s : State) (l : Nat) : Bool :=
  !s.bypass && match s.findWay l with
    | some w => (match SMap.find s.dome.lines (wayKey l w) with | some e => e.bad == 0 | none => false)
    | none => false

/-- The bytes of a line whose reads fail (R282, R880): those of the cached line, or of the tier where no slice holds it. -/
def State.badIn (s : State) (l : Nat) : Nat :=
  match (if s.bypass then none else s.findWay l).bind fun w => SMap.find s.dome.lines (wayKey l w) with
  | some e => e.bad
  | none => s.tierBad l

/-- The first byte of [a, a + n) in line l whose read fails. -/
def State.badByte (s : State) (a n l : Nat) : Option Nat :=
  let m := s.badIn l &&& lineMask l a n
  if m = 0 then none else some (l * 128 + (bitsSet 128 m).headD 0)

/-- Writing bytes of a tier through the Dome cache (R281). -/
def State.writeTier (s : State) (a : Nat) (b : List Byte) : State :=
  let t := if b.isEmpty then s else (linesOf a b.length).foldl (fun u l => u.touch true l) s
  t.storeBytes a b

/-- A write of a result (R214, R262): a window of the task's context grants WR there. The manual does not say what becomes of a result
whose area lies in no such window (R232); it is not written (log entry 133). -/
def State.putResult (s : State) (c a : Nat) (b : List Byte) : State := if s.access c a b.length .wr = .ok then s.writeTier a b else s

/-- The n bytes at a device address that every agent of the device sees. -/
def State.peek (s : State) (a n : Nat) : List Byte := Mem.readN s.mem a n

/-- Every line of a list of ways written back. -/
def State.cleanAll (s : State) (ks : List Nat) : State := ks.foldl State.writeBack s

/-- Every line of a list of ways written back and made invalid. -/
def State.evictAll (s : State) (ks : List Nat) : State := ks.foldl State.evict s

/-- The keys of the cached lines whose first byte lies in [lo, hi). -/
def State.keysIn (s : State) (lo hi : Nat) : List Nat :=
  (s.dome.lines.filter fun e =>
    let a := lineOf e.1 e.2.tag * 128
    decide (lo ≤ a) && decide (a < hi)).map (·.1)

/-- The range loses its contents: free bytes of a new draw stand there. -/
def State.scramble (s : State) (lo hi : Nat) : State :=
  let (d, s1) := s.draw
  { s1 with mem := s1.mem.scramble lo hi d }

end Sys2Proof.Machine
end

