-- ==== Sys2Proof/Machine/Wire.lean ====
section
/-! DEFINITION. Sending over the Darust wire protocol: headers and tags (R170, R922), sequencing and credit (R178–R183), the
answers NAK and ACK (R184, R230), and the bookkeeping of a message that has been processed (R185). -/

namespace Sys2Proof.Machine

/-! Message types (R173's table). -/
/-- HELLO -/
def tyHello : Nat := 0x01
/-- PROVE -/
def tyProve : Nat := 0x02
/-- KEYCONFIRM -/
def tyKeyconfirm : Nat := 0x03
/-- WRITE -/
def tyWrite : Nat := 0x10
/-- READ -/
def tyRead : Nat := 0x11
/-- READ_DATA -/
def tyReadData : Nat := 0x12
/-- LOAD_PROGRAM -/
def tyLoad : Nat := 0x20
/-- SUBMIT -/
def tySubmit : Nat := 0x21
/-- ACCEPT -/
def tyAccept : Nat := 0x22
/-- RESULT -/
def tyResult : Nat := 0x23
/-- GET_RESULT -/
def tyGetResult : Nat := 0x24
/-- RELEASE -/
def tyRelease : Nat := 0x25
/-- CANCEL -/
def tyCancel : Nat := 0x26
/-- SIGNAL -/
def tySignal : Nat := 0x30
/-- EXCHANGE -/
def tyExchange : Nat := 0x31
/-- START_AT -/
def tyStartAt : Nat := 0x32
/-- CONTROL_RD -/
def tyControlRd : Nat := 0x40
/-- CONTROL_WR -/
def tyControlWr : Nat := 0x41
/-- TELEMETRY -/
def tyTelemetry : Nat := 0x42
/-- FIRMWARE -/
def tyFirmware : Nat := 0x60
/-- ACK -/
def tyAck : Nat := 0x7E
/-- NAK -/
def tyNak : Nat := 0x7F

/-- The types that a partner or peer may send as sequenced messages. -/
def seqTypes : List Nat :=
  [tyWrite, tyRead, tyLoad, tySubmit, tyGetResult, tyRelease, tyCancel, tySignal, tyExchange, tyStartAt, tyControlRd,
   tyControlWr, tyTelemetry, tyFirmware]

/-! Protocol NAK reasons (R230). -/
/-- BUSY -/
def nkBusy : Nat := 0x0100
/-- CONFLICT -/
def nkConflict : Nat := 0x0101
/-- NOT_READY -/
def nkNotReady : Nat := 0x0102
/-- NO_RESULT -/
def nkNoResult : Nat := 0x0103
/-- COMMITTED -/
def nkCommitted : Nat := 0x0104
/-- PERMISSION -/
def nkPermission : Nat := 0x0105
/-- IN_USE -/
def nkInUse : Nat := 0x0106
/-- MALFORMED -/
def nkMalformed : Nat := 0x0107
/-- STATE -/
def nkState : Nat := 0x0108
/-- AUTH -/
def nkAuth : Nat := 0x0109
/-- SLOT_BUSY -/
def nkSlotBusy : Nat := 0x010A
/-- DUPLICATE -/
def nkDuplicate : Nat := 0x010B
/-- TOO_LARGE -/
def nkTooLarge : Nat := 0x010C
/-- CONTEXT_DISABLED -/
def nkCtxDisabled : Nat := 0x010D
/-- UNSUPPORTED -/
def nkUnsupported : Nat := 0x010E

/-- The SESSION field of a session: slot bits [2:0], epoch bits [31:3] (R170); between peers the sender's rank in bits [7:0]
and the pair's epoch in bits [31:8] (R787). -/
def sessionWord (i rank epoch : Nat) : Nat := if i < 8 then i + 8 * (epoch % 2 ^ 29) else rank % 256 + 256 * (epoch % 2 ^ 24)

/-- This device's rank in its peer group (R820). -/
def State.myRank (s : State) : Nat := s.rf (aPeer 0x04) 24 8

/-- The direction byte of the device's messages on a session: 0x01 to a partner; between peers the lower rank takes 0x00
(R922, R924). -/
def State.dirOut (s : State) (i : Nat) : Byte := if 16 ≤ i ∧ s.myRank < i - 16 then 0 else 1

/-- The direction byte of messages received on a session. -/
def State.dirIn (s : State) (i : Nat) : Byte := if s.dirOut i = 0 then 1 else 0

/-- The journal holds no free record (R206). -/
def State.journalFull (s : State) : Bool := decide (262144 ≤ s.tasks.length)

/-- The ready lists stand at level A or B of their back-pressure (R699). -/
def State.pressed (s : State) : Bool := s.rb (aDisp 0x004) 30 || s.rb (aDisp 0x004) 31

/-- The limit ACK + CREDIT that the device grants a session: 1,024 beyond ACK, not raised while the ready lists press back, or the journal or
the session's receive space are full, and never lowered (R182, R183, R699; log entry 12). -/
def State.grant (s : State) (i : Nat) : State :=
  let v := s.ses i
  if s.journalFull || s.pressed || s.rxFull i then s
  else s.setSes i { v with rxLimit := max v.rxLimit (v.rxAck + 1024) }

/-- One DWP message of an open session leaves with the session's present ACK and credit, tagged under K_s (R170, R184). -/
def State.emitDwp (s : State) (i typ flags seq : Nat) (payload : List Byte) : State :=
  let s0 := s.grant i
  let v := s0.ses i
  let fl := flags + (if v.ceEcho then 1 else 0)
  let sw := sessionWord i s0.myRank v.epoch
  let h := dwpHeader typ fl sw seq v.rxAck (v.rxLimit - v.rxAck) payload.length
  let tag := kmac256 v.ks (s.dirOut i :: h ++ payload) 16 "NLT9 DWP"
  (s0.setSes i { v with ceEcho := false, ackDue := none }).send v.src
    (.dwp i typ fl sw seq v.rxAck (v.rxLimit - v.rxAck) payload tag)

/-- A message outside a session, without a tag: HELLO, PROVE and the NAKs that answer them. It carries a congestion echo that is due on
its logical port (R148). -/
def State.emitPlain (s : State) (i : Nat) (dst : NetAddr) (typ : Nat) (payload : List Byte) : State :=
  let v := s.ses i
  (s.setSes i { v with ceEcho := false }).send dst
    (.dwp i typ ((if typ = tyNak then 0 else 2) + (if v.ceEcho then 1 else 0)) 0 0 0 0 payload [])

/-- The first timeout of a message: SESS_DWP.RTO_US (R186); peers use the same reset value. -/
def State.rto (s : State) (i : Nat) : Nat := 1000 * (if i < 8 then s.rf (aSessDwp i) 0 16 else 50)

/-- Sending a sequenced message: it takes the next SEQ, is kept until acknowledged, and leaves at once where the other
side's credit lets it (R178, R181). ans is the SEQ of the message it answers, or 0. -/
def State.sendSeq (s : State) (i typ : Nat) (payload : List Byte) (ans : Nat := 0) : State :=
  let v := s.ses i
  if !v.isOpen then s
  else
    let go := decide (v.txNext ≤ v.txLimit)
    let m : TxMsg := { seq := v.txNext, typ := typ, payload := payload,
                       sent := if go then some s.tick else none, timeout := s.rto i, ans := ans }
    let s1 := s.setSes i { v with txNext := v.txNext + 1, txBuf := v.txBuf ++ [m] }
    if go then s1.emitDwp i typ 0 v.txNext payload else s1

/-- The NAK payload. -/
def nakPayload (seq typ reason value : Nat) : List Byte :=
  natLe 8 seq ++ natLe 1 typ ++ zeros 1 ++ natLe 2 reason ++ zeros 4 ++ natLe 8 value

/-- A sequenced answer to the message at the head of a session's queue (R185). -/
def State.answer (s : State) (i typ : Nat) (payload : List Byte) : State := s.sendSeq i typ payload ((s.ses i).rxDone + 1)

/-- A NAK in an open session (R230). -/
def State.nak (s : State) (i seq typ reason value : Nat) : State := s.answer i tyNak (nakPayload seq typ reason value)

/-- A NAK outside a session, in answer to HELLO or PROVE, to where it came from (R169, R230). -/
def State.nakPlain (s : State) (i : Nat) (dst : NetAddr) (typ reason : Nat) : State :=
  s.emitPlain i dst tyNak (nakPayload 0 typ reason 0)

/-- The selective map of messages received beyond ACK + 1 (ACK payload). -/
def sackMap (v : Session) : Nat :=
  v.rxBuf.foldl (fun n m => if v.rxAck + 2 ≤ m.seq ∧ m.seq < v.rxAck + 258 then n ||| 2 ^ (m.seq - v.rxAck - 2) else n) 0

/-- DONE of an ACK message: the highest SEQ up to which every message has had its effect and its answers have been sent (R185). -/
def Session.done (v : Session) : Nat :=
  v.txBuf.foldl (fun n m => if m.sent.isNone && m.ans != 0 then min n (m.ans - 1) else n) v.rxDone

/-- An ACK message (R184). -/
def State.sendAck (s : State) (i : Nat) : State :=
  let v := s.ses i
  s.emitDwp i tyAck 2 0 (natLe 8 (v.rxAck + 1) ++ natLe 32 (sackMap v) ++ natLe 8 v.done)

/-- The message that a session's processing has reached: its SEQ is one above the last one done (R179). -/
def Session.head? (v : Session) : Option Msg := v.rxBuf.find? fun m => m.seq == v.rxDone + 1

/-- The message at the head has been processed: its effect is complete and its answers are on their way (R185); with a receive space that
was full, XON may be due (R147). The next ACK or message shows the new DONE; none leaves for it alone (log entry 156). -/
def State.doneHead (s : State) (i : Nat) : State :=
  let v := s.ses i
  (s.setSes i { v with rxDone := v.rxDone + 1, rxBuf := v.rxBuf.filter fun m => m.seq != v.rxDone + 1 }).pfcSync

/-- The reason that a message R173 refuses is given at its turn: in RECOVERY every message but FIRMWARE and CONTROL_RD is refused for the
state first (R109). -/
def State.badReason (s : State) (m : Msg) : Nat :=
  if s.devState = stRecovery && m.typ != tyFirmware && m.typ != tyControlRd then nkState else m.bad

/-- A NAK from peer session i: a START_AT that this device sent on is refused there (R815). -/
def State.peerNak (s : State) (i : Nat) (p : List Byte) : State :=
  let d := (i - 16, getLe p 0 8)
  { s with fanouts := s.fanouts.map fun (f : Fanout) =>
      (if f.due.contains d then
         { f with due := f.due.filter fun x => x != d, refused := f.refused ++ [(i - 16, getLe p 0x0A 2)] }
       else f) }

/-- Messages that take effect at their turn whatever follows: those that R173 refuses, with no other effect, and a peer's NAK. -/
def State.skipBad : Nat → State → Nat → State
  | 0, s, _ => s
  | n + 1, s, i =>
    match (s.ses i).head? with
    | some m =>
      if m.bad ≠ 0 then State.skipBad n ((s.nak i m.seq m.typ (s.badReason m) 0).doneHead i) i
      else if m.typ = tyNak then State.skipBad n ((s.peerNak i m.payload).doneHead i) i
      else s
    | none => s

/-- The message at the head is done, and those behind it that need no command are too. -/
def State.finish (s : State) (i : Nat) : State :=
  let t := s.doneHead i
  State.skipBad (t.ses i).rxBuf.length t i

/-- A request is at the head of its session's queue with this type and payload (R179). -/
def State.isHead (s : State) (r : Req) (typ : Nat) (p : List Byte) : Bool :=
  let v := s.ses (whoIdx r.who)
  v.isOpen && match v.head? with
    | some m => m.seq == r.seq && m.typ == typ && m.payload == p && m.bad == 0
    | none => false

/-- A message has been taken up and its answer is still to come: a SUBMIT that is held (R207) or not yet journaled (R203), a START_AT
that other ranks process (R815), a CONTROL_WR that forms the peer group (R788). -/
def State.waits (s : State) (r : Req) : Bool :=
  (s.ses (whoIdx r.who)).held
    || s.tasks.any (fun (t : Task) => !t.accepted && t.sess == whoIdx r.who && t.seq == r.seq)
    || s.fanouts.any (fun (f : Fanout) => f.req == r)
    || (match s.form with | some f => f.msg && f.req == r | none => false)

/-! The order of the enable checks (R119). -/

/-- The types whose processing runs an enable check (R118, R124). -/
def checkTypes : List Nat := [tyLoad, tySubmit, tyStartAt, tyControlWr]

/-- A received message whose check is still to run. -/
def Msg.checks (m : Msg) : Bool := checkTypes.contains m.typ && m.bad == 0 && m.arrival != 0

/-- The session holds a SUBMIT for want of journal space, or waits for other ranks to process a START_AT. What is behind it cannot be
processed, and does not hold up other sessions (R207; log entry 135). -/
def State.blocked (s : State) (i : Nat) (v : Session) : Bool :=
  v.held || s.fanouts.any fun (f : Fanout) => whoIdx f.req.who == i

/-- The message at the head is a SUBMIT whose check has run and whose journal writes are not yet complete. -/
def State.journaling (s : State) (i n : Nat) : Bool := s.tasks.any fun (t : Task) => !t.accepted && t.sess == i && t.seq == n

/-- The arrivals of the messages whose checks are still to run, in sessions that can process them. -/
def State.checksOf (s : State) : List Nat :=
  s.sess.flatMap fun (i, v) =>
    if !v.isOpen || s.blocked i v then [] else (v.rxBuf.filter fun m => m.checks && !s.journaling i m.seq).map (·.arrival)

/-- A formation whose write no open session waits for is still to make its check (R789). -/
def State.formDue (s : State) : Bool :=
  match s.form with
  | some f => !f.msg || !(s.ses (whoIdx f.req.who)).isOpen || f.req.seq == 0
  | none => false

/-- Some received message's check is still to run. -/
def State.checksDue (s : State) : Bool := s.formDue || !s.checksOf.isEmpty

/-- A received datagram is a partner's HELLO: type 0x01 with SESSION 0. -/
def rxHello (e : Nat × NetAddr × List Byte) : Bool := decide (e.1 < 8) && getLe e.2.2 1 1 == tyHello && getLe e.2.2 4 4 == 0

/-- A message may be processed now as far as the order of checks goes (R119): it runs none, or it is the first received of those that do. -/
def State.inTurn (s : State) (r : Req) : Bool :=
  match (s.ses (whoIdx r.who)).head? with
  | some m => !m.checks || (!s.formDue && s.checksOf.all fun n => decide (m.arrival ≤ n))
  | none => true

/-- A START_AT that every other rank has processed is answered: with the lowest refusing rank's reason, or by DONE (R815). -/
def State.settleFanout (s : State) (f : Fanout) : State :=
  if !f.due.isEmpty then s
  else
    let s1 := { s with fanouts := s.fanouts.filter fun (g : Fanout) => g.req != f.req }
    let i := whoIdx f.req.who
    let s2 := match sortKey (fun (e : Nat × Nat) => e.1) f.refused with
      | e :: _ => s1.nak i f.req.seq tyStartAt e.2 e.1
      | [] => s1
    if (s2.ses i).isOpen then s2.finish i else s2

/-- Every START_AT whose ranks have all answered is answered. -/
def State.settleFanouts (s : State) : State := s.fanouts.foldl State.settleFanout s

/-- A message has been processed: it is done, unless its session has closed or its answer is still to come. -/
def State.finishMsg (s : State) (r : Req) (typ : Nat) (p : List Byte) : State :=
  (if s.isHead r typ p && !s.waits r then s.finish (whoIdx r.who) else s).settleFanouts

/-- Processing a message in its turn: f gives its effect and answers; a message that is not at the head of an open
session's queue, whose check is not due yet (R119), or that is being processed already, has no effect (log entry 4). -/
def State.onMsg (s : State) (r : Req) (typ : Nat) (p : List Byte) (f : State → State) : State :=
  if s.isHead r typ p && s.inTurn r && !s.waits r then (f s).finishMsg r typ p else s

/-- A refusal of a message. -/
def State.refuse (s : State) (r : Req) (typ reason value : Nat) : State := s.nak (whoIdx r.who) r.seq typ reason value

/-- The session's key is an owner key (R921). -/
def State.isOwner (s : State) (i : Nat) : Bool := (s.key (s.ses i).key).owner

/-- The rights of R946 for context c: an owner key, or bit c of the slot's SESS_CTXMASK; peers and I3C have none. -/
def State.mayCtx (s : State) (w : Who) (c : Nat) : Bool :=
  match w with
  | .sess k => s.isOwner k.val || s.rb (aSessMask k.val) c
  | _ => false

/-- SESS_DWP.MAXPAY of a session. -/
def State.maxPay (s : State) (i : Nat) : Nat := if i < 8 then s.rf (aSessDwp i) 16 16 else 8256

/-- A READ_DATA series: tag, then pieces of the bytes in increasing OFFSET (R191). -/
def sendPieces : Nat → State → Nat → Nat → Nat → List Byte → State
  | 0, s, _, _, _, _ => s
  | n + 1, s, i, tag, off, b =>
    let k := s.maxPay i - 8
    let s1 := s.answer i tyReadData (natLe 4 tag ++ natLe 4 off ++ b.take k)
    if b.length ≤ k then s1 else sendPieces n s1 i tag (off + k) (b.drop k)

/-- READ_DATA messages that carry the bytes of a READ or CONTROL_RD (R191). -/
def State.sendReadData (s : State) (i tag : Nat) (b : List Byte) : State := sendPieces (b.length + 1) s i tag 0 b

/-- The byte range touches a declared buffer of an accepted, uncommitted task (R192); with readOnly, only where such a
task declares it other than as input. -/
def State.inUse (s : State) (a n : Nat) (readOnly : Bool) : Bool :=
  s.tasks.any fun t => t.accepted && t.bufs.any fun b => overlaps a n b.addr b.len && !(readOnly && b.kind == 0)

/-- Waiting sequenced messages leave as far as the credit reaches (R181). -/
def State.pump (s : State) (i : Nat) : State :=
  let v := s.ses i
  let due := fun (m : TxMsg) => m.sent.isNone && decide (m.seq ≤ v.txLimit)
  let out := v.txBuf.filter due
  let s1 := s.setSes i { v with txBuf := v.txBuf.map fun m => if due m then { m with sent := some s.tick } else m }
  out.foldl (fun t m => t.emitDwp i m.typ 0 m.seq m.payload) s1

/-- A session closes: its queues go, and no accepted task is touched (R188). Answers still to come have nowhere to go; a congestion echo
stays due on the logical port (R148). -/
def State.closeSession (s : State) (i : Nat) : State :=
  let v := s.ses i
  { s.setSes i { ({} : Session) with epoch := v.epoch, samples := v.samples, ceEcho := v.ceEcho } with
    tasks := s.tasks.map fun (t : Task) => (if t.sess = i then { t with sess := 0xFFFF } else t),
    fanouts := s.fanouts.filter fun (f : Fanout) => whoIdx f.req.who != i,
    form := s.form.map fun (f : Formation) => (if whoIdx f.req.who = i then { f with req := { f.req with seq := 0 } } else f) }

end Sys2Proof.Machine
end

