-- ==== Sys2Proof/Machine/Sync.lean ====
section
/-! DEFINITION. Synchronisation counters, their translation per context, lane groups, waiters and the overflow pool (chapter
"Synchronisation", R733–R763). -/

namespace Sys2Proof.Machine

/-- What a virtual identifier names (R738): a physical counter, or a lane group by its first lane and length. -/
inductive Target where
  | ctr (phys : Nat)
  | group (base len : Nat)
deriving DecidableEq, Repr

/-- The address of CTX_CMAP_Ak of context c; B stands 4 above it (R770). -/
def aCmap (c k : Nat) : Nat := aCtx c (0x100 + 8 * k)

/-- What entry k of context c's counter map makes of identifier v (R738). -/
def State.cmapAt (s : State) (c v k : Nat) : Option Target :=
  let a := aCmap c k
  let vb := s.rf a 0 16
  let len := s.rf (a + 4) 16 16
  let pb := s.rf (a + 4) 0 15
  if !s.rb a 31 then none
  else if s.rb a 30 then (if v = vb then some (.group pb len) else none)
  else if vb ≤ v ∧ v < vb + len then some (.ctr (pb + v - vb)) else none

/-- Translation (R738): the first entry that maps the identifier. -/
def State.translate (s : State) (c v : Nat) : Option Target := (List.range 32).findSome? (s.cmapAt c v)

/-- The physical counters that the valid entries of context c name. -/
def State.mappedCtrs (s : State) (c : Nat) : List Nat :=
  (List.range 32).flatMap fun k =>
    let a := aCmap c k
    if s.rb a 31 then (List.range (s.rf (a + 4) 16 16)).map fun i => s.rf (a + 4) 0 15 + i else []

/-- A physical counter's value (R733). -/
def State.ctr (s : State) (p : Nat) : Nat := SMap.get s.ctrs 0 p

/-- The state with a physical counter at a value. -/
def State.setCtr (s : State) (p v : Nat) : State := { s with ctrs := SMap.set s.ctrs 0 p v }

/-- The least value of n lanes from a first lane, and the lowest lane that holds it (R745, R765). -/
def State.leastLane (s : State) (base : Nat) : Nat → Nat × Nat
  | 0 => (0, 0)
  | 1 => (s.ctr base, 0)
  | n + 1 =>
    let (v, l) := s.leastLane base n
    if s.ctr (base + n) < v then (s.ctr (base + n), n) else (v, l)

/-- The value that a waiter compares with its target: the counter, or the least lane (R479, R745). -/
def State.waitValue (s : State) (w : Waiter) : Nat :=
  if w.kind = 3 then (s.leastLane w.phys w.lanes).1 else s.ctr w.phys

/-- A task of a T7SYNC context changes a counter: its value at the task's first change is kept (R762). -/
def Task.noteT7 (t : Task) (vc phys value : Nat) : Task :=
  if t.mode / 4 % 2 = 1 && !(t.t7.any fun e => e.2.1 == phys) then { t with t7 := t.t7 ++ [(vc, phys, value)] } else t

/-- The home records the first change that a task makes to a counter (R762). -/
def State.noteT7 (s : State) (key asn vc phys : Nat) : State := s.modTask key asn fun t => t.noteT7 vc phys (s.ctr phys)

/-- Waking one waiter whose condition holds (R751); wait.c subtracts in the same step (R760). -/
def State.wakeOne (s : State) (w : Waiter) : State :=
  if w.woken || s.waitValue w < w.target then s
  else
    let s1 := if w.kind = 2 then (s.noteT7 w.key w.asn w.vc w.phys).setCtr w.phys (s.ctr w.phys - w.target) else s
    { s1 with waiters := s1.waiters.map fun x => if x.core == w.core then { x with woken := true } else x }

/-- A waiter waits on the counter or on a lane group that holds it. -/
def Waiter.on (w : Waiter) (phys : Nat) : Bool :=
  if w.kind = 3 then decide (w.phys ≤ phys) && decide (phys < w.phys + w.lanes) else w.phys == phys

/-- After an addition the home wakes every waiter whose condition holds, in the order they registered (R751). -/
def State.wake (s : State) (phys : Nat) : State := (s.waiters.filter fun w => w.on phys).foldl State.wakeOne s

/-- An addition at a counter's home (R734, R735, R751): saturation is counted and reported; the waiters are woken. -/
def State.addCtr (s : State) (ctx key asn vc phys n : Nat) : State :=
  if n = 0 then s
  else
    let s1 := s.noteT7 key asn vc phys
    let v := s1.ctr phys + n
    let s2 := s1.setCtr phys (min v (2 ^ 64 - 1))
    let s3 := if v < 2 ^ 64 then s2
      else
        let u := 0x403 + 4 * (phys / 512)
        (s2.bump (aSync 0x100)).report
          { cls := clsCounterSat, origin := u, reporter := u, ctx := ctx, key := key, asn := asn }
    s3.wake phys

/-- The waiter entries that stand in the list of a waiter's counter or lane group (R749). -/
def State.listUse (s : State) (w : Waiter) : Nat :=
  (s.waiters.filter fun x => !x.pooled && x.phys == w.phys && x.lanes == w.lanes).length

/-- The entries taken from a Spire's overflow pool (R749). -/
def State.poolUse (s : State) (sp : Nat) : Nat :=
  (s.waiters.filter fun x => x.pooled && x.phys / 512 == sp).length

/-- A waiter takes an entry of its list, or of its home's pool (R749); none is free where both are full. -/
def State.register (s : State) (w : Waiter) : Option State :=
  if s.listUse w < 32 then some { s with waiters := s.waiters ++ [w] }
  else
    let n := s.poolUse (w.phys / 512)
    if n < 1024 then
      let t := { s with waiters := s.waiters ++ [{ w with pooled := true }] }
      some (t.setReg (aSync 0x110) (BitVec.ofNat 32 (max (n + 1) (s.reg (aSync 0x110)).toNat)))
    else none

/-- A wait leaves those that are held for want of an entry. -/
def State.unhold (s : State) (core : Nat) : State := { s with poolHeld := s.poolHeld.filter fun w => w.core != core }

/-- A wait whose condition holds retires at once and takes no entry (R748); wait.c subtracts in the same step (R760). -/
def State.passWait (s : State) (w : Waiter) : State :=
  let t := if w.kind = 2 then (s.noteT7 w.key w.asn w.vc w.phys).setCtr w.phys (s.ctr w.phys - w.target) else s
  let c := t.core w.core
  t.setCore w.core { c with pc := c.pc + 8, hold := none }

/-- A wait held for want of an entry looks at its home again: where its condition holds it retires (R748), and otherwise it takes an entry
that is free (R750). -/
def State.admitHeld (s : State) (w : Waiter) : State :=
  if w.target ≤ s.waitValue w then (s.unhold w.core).passWait w
  else match s.register w with
    | none => s
    | some t => t.unhold w.core

/-- Entries have been freed: held waits take them, in the order in which they began to hold. -/
def State.admitPool (s : State) : State := s.poolHeld.foldl State.admitHeld s

/-- The entry of a core's waiter is freed, and its wait for one dropped (R749, R436). -/
def State.dropWaiter (s : State) (core : Nat) : State :=
  ({ s with waiters := s.waiters.filter fun w => w.core != core }.unhold core).admitPool

/-- Every counter that the context's map names is set to 0 (R755). -/
def State.clearCtxCtrs (s : State) (c : Nat) : State := (s.mappedCtrs c).foldl (fun t p => t.setCtr p 0) s

/-- A context switch clears the context's counters, except under T7SYNC (R755, R759). -/
def State.switchClear (s : State) (c : Nat) : State := if s.rb (aCtxCtl c) 2 then s else s.clearCtxCtrs c

/-- The residues of a task of a T7SYNC context: identifiers of the counters that differ from their first value (R762). -/
def State.residues (s : State) (t : Task) : List Nat := (t.t7.filter fun e => s.ctr e.2.1 != e.2.2).map (·.1)

/-- The least of a list of numbers; 0 for none. -/
def minOf : List Nat → Nat
  | [] => 0
  | [a] => a
  | a :: t => min a (minOf t)

/-- The residue check at the end of a task of a T7SYNC context (R762, R763, R771). -/
def State.residueCheck (s : State) (t : Task) : State :=
  if t.mode / 4 % 2 = 0 then s
  else
    let r := s.residues t
    let n := min r.length 0xFFFF
    let s1 := s.setReg (aCtx t.ctx 0x040) (BitVec.ofNat 32 (n * 2 ^ 16 + minOf r))
    if r.isEmpty then s1
    else (s1.bump (aSync 0x10C) r.length).report
      { cls := clsT7Residue, origin := 0x590, reporter := 0x590, ctx := t.ctx, key := t.key, asn := t.asn,
        body := natLe 2 (minOf r) ++ natLe 2 n ++ zeros 4 }

end Sys2Proof.Machine
end

