-- ==== Sys2Proof/Machine/StrmDesc.lean ====
section
/-! DEFINITION. The stream descriptor (R637), the buffer it names (R642, R643), and which Spires hold its Spire side
(R638). -/

namespace Sys2Proof.Machine

/-- TYPE: 1 LOAD, 2 STORE, 3 GATHER, 4 MULTICAST, 5 EXCHANGE. -/
def sdType (d : List Byte) : Nat := getLe d 0x00 1
/-- FLAGS. -/
def sdFlags (d : List Byte) : Nat := getLe d 0x01 1
/-- PERSIST -/
def sdPersist (d : List Byte) : Bool := nbit (sdFlags d) 0
/-- SLOTMODE -/
def sdSlot (d : List Byte) : Bool := nbit (sdFlags d) 1
/-- DL_EN -/
def sdDl (d : List Byte) : Bool := nbit (sdFlags d) 2
/-- COMPRESS -/
def sdComp (d : List Byte) : Bool := nbit (sdFlags d) 3
/-- OUT -/
def sdOut (d : List Byte) : Bool := nbit (sdFlags d) 4
/-- ID -/
def sdId (d : List Byte) : Nat := getLe d 0x02 2
/-- PRIO -/
def sdPrio (d : List Byte) : Nat := getLe d 0x04 1
/-- SLOT_LOG2 -/
def sdLog (d : List Byte) : Nat := getLe d 0x05 1
/-- CFMT -/
def sdCfmt (d : List Byte) : Nat := getLe d 0x06 1
/-- SRC -/
def sdSrc (d : List Byte) : Nat := getLe d 0x08 8
/-- DST -/
def sdDst (d : List Byte) : Nat := getLe d 0x10 8
/-- ROWS -/
def sdRows (d : List Byte) : Nat := getLe d 0x18 4
/-- ROW_BYTES -/
def sdRowBytes (d : List Byte) : Nat := getLe d 0x1C 4
/-- SRC_STRIDE as written. -/
def sdSrcStride0 (d : List Byte) : Nat := getLe d 0x20 4
/-- DST_STRIDE as written. -/
def sdDstStride0 (d : List Byte) : Nat := getLe d 0x24 4
/-- The source stride; 0 means ROW_BYTES. -/
def sdSrcStride (d : List Byte) : Nat := if sdSrcStride0 d = 0 then sdRowBytes d else sdSrcStride0 d
/-- The destination stride; 0 means ROW_BYTES. -/
def sdDstStride (d : List Byte) : Nat := if sdDstStride0 d = 0 then sdRowBytes d else sdDstStride0 d
/-- MASK -/
def sdMask (d : List Byte) : Nat := getLe d 0x28 8
/-- DL_TICKS -/
def sdDlTicks (d : List Byte) : Nat := getLe d 0x30 4

/-! MASK of an EXCHANGE descriptor (R794). -/

/-- TABLE -/
def sdTable (d : List Byte) : Nat := nbits (sdMask d) 0 12
/-- FMT: 9 FP32, 8 BF16. -/
def sdXfmt (d : List Byte) : Nat := if nbit (sdMask d) 12 then 8 else 9
/-- IDX64 -/
def sdIdx64 (d : List Byte) : Bool := nbit (sdMask d) 13
/-- KIND: 1 LOOKUP, 2 UPDATE_ADD, 3 UPDATE_SET, 4 SIGNAL. -/
def sdKind (d : List Byte) : Nat := nbits (sdMask d) 16 4
/-- BATCH -/
def sdBatch (d : List Byte) : Nat := nbits (sdMask d) 32 16

/-- An EXCHANGE stream of a kind. -/
def sdIsX (d : List Byte) (k : Nat) : Bool := sdType d == 5 && sdKind d == k
/-- An EXCHANGE stream of KIND SIGNAL, which has no Spire side (R795). -/
def sdSignal (d : List Byte) : Bool := sdIsX d 4

/-- The Spire side is the source (R638, R795). -/
def sdOutbound (d : List Byte) : Bool := sdType d == 2 || (sdType d == 3 && sdOut d) || sdIsX d 2 || sdIsX d 3
/-- The Spire-side base address. -/
def sdSpireBase (d : List Byte) : Nat := if sdOutbound d then sdSrc d else sdDst d
/-- The Spire-side stride. -/
def sdSpireStride (d : List Byte) : Nat := if sdOutbound d then sdSrcStride d else sdDstStride d
/-- The tier-side base address. -/
def sdTierBase (d : List Byte) : Nat := if sdOutbound d then sdDst d else sdSrc d
/-- The tier-side stride. -/
def sdTierStride (d : List Byte) : Nat := if sdOutbound d then sdDstStride d else sdSrcStride d

/-- The slot size. -/
def sdSlotSize (d : List Byte) : Nat := 2 ^ sdLog d
/-- Whole rows in a slot (R643), and rows in a granule (R645). -/
def sdSlotRows (d : List Byte) : Nat := sdSlotSize d / sdRowBytes d

/-- The length of the area that n rows at a stride touch. -/
def extent (n rowBytes stride : Nat) : Nat := if n = 0 then 0 else (n - 1) * stride + rowBytes

/-- An arm of type LOAD or STORE takes the short path (R671). -/
def shortPath (d : List Byte) : Bool :=
  (sdType d == 1 || sdType d == 2) && !sdSlot d && !sdPersist d && !sdComp d && !sdDl d
    && decide (sdRows d * sdRowBytes d ≤ 256)

/-- The bytes of the buffer from the Spire-side base (R642). -/
def sdBufLen (d : List Byte) : Nat :=
  if sdSignal d then 0 else if sdSlot d then 2 * sdSlotSize d else extent (sdRows d) (sdRowBytes d) (sdSpireStride d)

/-- The Spires that hold the Spire side, for a stream armed by a core (R638). -/
def sdSpires (core : Nat) (d : List Byte) : List Nat := if sdType d = 4 then bitsSet 64 (sdMask d) else [core / 16]

/-- The Spire-side address in one Spire: for MULTICAST the same place in every store (R638, R666). -/
def sdAddrIn (sp : Nat) (d : List Byte) : Nat :=
  if sdType d = 4 then storeBase + sp * 2 ^ 23 + sdDst d % 2 ^ 23 else sdSpireBase d

/-- The Spires of a live stream. -/
def Strm.spires (x : Strm) : List Nat := sdSpires x.home x.desc

/-- Physical stream of identifier n of context c, where the context owns it (R633, R634). -/
def State.physStrm (s : State) (c n : Nat) : Option Nat :=
  if n < 64 * s.rf (aCtx c 0x014) 16 9 then some (64 * s.rf (aCtx c 0x014) 0 8 + n) else none

end Sys2Proof.Machine
end

