-- ==== Sys2Proof/Machine/Tasks.lean ====
section
/-! DEFINITION. What work leaves behind on its way: the dispatch trace (R723–R725), the ready lists' back-pressure (R699),
stopping a task and ending it (R435, R436, R662, R681, R762, R780), its status (R495, R867, R871–R873), and the accesses a
task makes to the tiers (R267, R874, R879). -/

namespace Sys2Proof.Machine

/-! The dispatch trace. -/

/-- The 32-byte trace entry of a decision. -/
def traceEntry (tick asn item frag sp core ctx key reason prio : Nat) : List Byte :=
  natLe 8 tick ++ natLe 8 asn ++ natLe 4 item ++ natLe 4 frag ++ natLe 1 sp ++ natLe 1 core ++ natLe 1 ctx ++ natLe 1 key
    ++ natLe 1 reason ++ natLe 1 prio ++ zeros 2

/-- One entry of a trace ring of context c (R491, R492, R724, R725): lo, cfg and cnt are the addresses of its registers. An
entry outside the context's writable windows is dropped and counted. The CNT of a program's ring counts the entries granted, dropped ones
among them (R493); that of the dispatcher's ring counts the entries written (R730). -/
def State.ringPut (s : State) (c lo cfg cnt : Nat) (granted : Bool) (e : List Byte) : State :=
  let n := s.rf cfg 0 5
  if n = 0 then s
  else
    let base := (s.reg lo).toNat / 4096 * 4096 + s.rf (lo + 4) 0 16 * 2 ^ 32
    let a := base + 32 * ((s.reg cnt).toNat % 2 ^ n)
    let s1 := s.setReg cnt (s.reg cnt + 1)
    if s.access c a 32 .wr = .ok then s1.writeTier a e
    else (if granted then s1 else s).setF cfg 16 16 (satAdd 16 (s.rf cfg 16 16) 1)

/-- A decision of the dispatcher is traced, where its reason is enabled (R723). -/
def State.dtrace (s : State) (reason asn item frag sp core ctx key prio : Nat) : State :=
  if s.rf (aDisp 0x058) 0 5 = 0 || !s.rb (aDisp 0x060) reason then s
  else s.ringPut (s.rf (aDisp 0x058) 12 4) (aDisp 0x050) (aDisp 0x058) (aDisp 0x05C) false
    (traceEntry s.tick asn item frag sp core ctx key reason prio)

/-- FRAG as a trace entry shows it: all ones for an uncalved item, 0x8000_0000 + F for a join. -/
def traceFrag (frag : Nat) : Nat :=
  if frag = 2 ^ 64 - 1 then 2 ^ 32 - 1 else if 2 ^ 63 ≤ frag then 2 ^ 31 + frag % 2 ^ 31 else frag

/-- A decision about an item on core k (0xFFFF for none). -/
def State.traceItem (s : State) (reason : Nat) (i : Item) (k : Nat) : State :=
  s.dtrace reason i.asn i.num (traceFrag i.frag) (if k < 1024 then k / 16 else 0xFF) (if k < 1024 then k % 16 else 0xFF)
    i.ctx i.key i.prio

/-- FRAG of an entry in a trace: F for CALVE, all ones for an item. -/
def Entry.frag (e : Entry) : Nat := if e.kind = 2 then 2 ^ 63 + e.frags else 2 ^ 64 - 1

/-- A decision about a ready-list entry. -/
def State.traceEnt (s : State) (reason : Nat) (e : Entry) (frag : Nat) : State :=
  s.dtrace reason e.asn e.num frag 0xFF 0xFF e.ctx e.key e.prio

/-! Back-pressure. -/

/-- A fragment of a calving entry, which holds no entry of its own (R709). -/
def Item.isFragment (i : Item) : Bool := i.entry != 0 && decide (i.frag < 2 ^ 63)

/-- Entries in use: those of the ready lists, for items, fragment sources and joins, and those of the items and joins in next slots, which
belong to the dispatcher until they start (R434, R692; log entry 148). -/
def State.entriesUsed (s : State) : Nat :=
  s.ready.length + (s.cores.filter fun e => e.2.next.any fun i => !i.isFragment).length

/-- Free entries (R699). -/
def State.freeEntries (s : State) : Nat := 262144 - s.entriesUsed

/-- A spawn that has not been taken and finds no free entry begins to hold, and is counted once (R487, R731). -/
def State.countSpawns (s : State) : State :=
  if s.freeEntries ≠ 0 then s
  else (s.cores.filter fun e => (s.core e.1).hold == some .spawn && !(s.core e.1).counted).foldl (fun (t : State) e =>
    (t.bump (aDisp 0x118)).setCore e.1 { t.core e.1 with since := t.tick, counted := true }) s

/-- DISP_STATUS follows the free entries, and with it the spawns that hold (R731) and the back-pressure levels (R699). -/
def State.updateBp (s0 : State) : State :=
  let s := s0.countSpawns
  let free := s.freeEntries
  let s1 := s.setF (aDisp 0x004) 0 19 free
  let a := if s.rb (aDisp 0x004) 30 then decide (free < 24576) else decide (free < 16384)
  let b := if s.rb (aDisp 0x004) 31 then decide (free < 8192) else decide (free < 4096)
  let s2 := (s1.setB (aDisp 0x004) 30 a).setB (aDisp 0x004) 31 b
  if b && !s.rb (aDisp 0x004) 31 then ((s2.bump (aDisp 0x114)).dtrace 0x09 0 0 0 0xFF 0xFF 0 0 0).pfcSync
  else if !b && s.rb (aDisp 0x004) 31 then (s2.dtrace 0x0A 0 0 0 0xFF 0xFF 0 0 0).pfcSync
  else s2

/-! Spires. -/

/-- STATE of a Spire (R440). -/
def State.spireState (s : State) (sp : Nat) : Nat := s.rf (aSpire sp 0) 28 4

/-- A Spire's STATE changes through DISP_DRAIN or a failure: a DRAIN trace entry is written (R723). -/
def State.setSpireState (s : State) (sp v : Nat) : State :=
  (s.setF (aSpire sp 0) 28 4 v).dtrace 0x0B 0 v (2 ^ 32 - 1) sp 0xFF 0 0 0

/-- Some core of a Spire has a running item. -/
def State.spireBusy (s : State) (sp : Nat) : Bool :=
  s.cores.any fun e => e.1 / 16 == sp && e.2.run.isSome

/-- A stream whose Spire side lies in a Spire is not IDLE. -/
def State.spireStreams (s : State) (sp : Nat) : Bool := s.streams.any fun e => e.2.spires.contains sp

/-- A draining Spire without a running item and without a live stream is drained (R718). -/
def State.checkDrained (s : State) : State :=
  (List.range 64).foldl (fun t sp =>
    if t.spireState sp == 2 && !t.spireBusy sp && !t.spireStreams sp then t.setSpireState sp 3 else t) s

/-- Some core runs an item of a context. -/
def State.ctxRuns (s : State) (c : Nat) : Bool :=
  s.cores.any fun e => match e.2.run with | some i => i.ctx == c | none => false

/-- The clear that a switch still owes a context is made once no item of it runs (R756). -/
def State.dueClears (s : State) : State :=
  (List.range 16).foldl (fun t c =>
    if t.clrDue.testBit c && !t.ctxRuns c then { t.switchClear c with clrDue := nsetBit t.clrDue c false } else t) s

/-- Lifetime counts rise (R898, R899): INDEX i of a set. -/
def State.lifeAdd (s : State) (set i n : Nat) : State :=
  let k := 65536 * set + i
  { s with smd := { s.smd with lifeSec := SMap.set s.smd.lifeSec 0 k (SMap.get s.smd.lifeSec 0 k + n) } }

/-! Stopping and ending a task. -/

/-- An item belongs to a task. -/
def Item.of (i : Item) (key asn : Nat) : Bool := i.key == key && i.asn == asn

/-- A core leaves its task: its item, its next item, its hold and its loads in flight go where they belong to the task
(R435, R436). -/
def State.stopCore (s : State) (key asn k : Nat) : State :=
  let c := s.core k
  let s1 := match c.next with
    | some i => if i.of key asn then (s.traceItem 0x07 i k).setCore k { c with next := none } else s
    | none => s
  let c1 := s1.core k
  match c1.run with
  | some i =>
    if i.of key asn then
      (s1.setCore k { c1 with run := none, hold := none, pend := [] }).dropWaiter k
    else s1
  | none => s1

/-- The items of a task stop on every core, and those that wait are discarded (R435, R713). -/
def State.stopItems (s : State) (key asn : Nat) : State :=
  let mine := fun (e : Entry) => e.key == key && e.asn == asn
  let s1 := (s.ready.filter mine).foldl (fun t e => t.traceEnt 0x07 e (traceFrag e.frag)) s
  let s2 := { s1 with ready := s1.ready.filter fun e => !mine e }
  let s3 := (s2.cores.map (·.1)).foldl (fun t k => t.stopCore key asn k) s2
  s3.updateBp

/-- A stream returns to IDLE and its buffer is freed. -/
def State.idleStrm (s : State) (p : Nat) : State := { s with streams := SMap.erase s.streams p }

/-- An operation of the stream unit on a stream: every gather but PREFETCH_BATCH, and every strm operation. -/
def Op.onStream (o : Op) : Bool := o.opc == 0x5D || (o.opc == 0x5C && getLe o.desc 0 1 != 6)

/-- The weight stream that an mma operation names (R501): WSTREAM is bit 1 of FLAGS, and WSRC names it. -/
def Op.weightStrm? (s : State) (o : Op) : Option Nat :=
  if (o.opc == 0x50 || o.opc == 0x51) && nbit (getLe o.desc 0x04 2) 1 then s.physStrm o.ctx (getLe o.desc 0x18 2) else none

/-- What is left of a row-engine request that its task leaves (R681): copies of rows whose home copies it has written, and increments of the
combining buffers, still reach memory (R355, R385; log entry 126). -/
def RowReq.leave (q : RowReq) : Option RowReq :=
  if q.copies.isEmpty && q.sketch.isEmpty then none else some { q with accepted := false, passOn := false, routes := [] }

/-- Every tile of a dense or sparse operation has been loaded (R512): NT is the number of its N-blocks. -/
def State.tilesIn (s : State) (o : Op) : Bool :=
  match SMap.find s.arr o.id with
  | some r => decide (getLe o.desc 0x26 2 ≤ r.nLoad)
  | none => false

/-- An operation goes with its task's streams (R681): it belongs to a stream, or waits on one for weights. A short-path transfer has no
stream (R671), and an operation whose tiles are all loaded needs its stream no more; both run on (R436). -/
def State.onStopped (s : State) (mine : List Nat) (o : Op) : Bool :=
  (o.onStream && !(o.opc == 0x5D && o.func == 0 && shortPath o.desc))
    || match o.weightStrm? s with | some p => mine.contains p && !s.tilesIn o | none => false

/-- The streams of a task stop: they return to IDLE, are counted, and make no further increment; operations that could only
wait on them are abandoned (R681). -/
def State.stopStreams (s : State) (key asn : Nat) : State :=
  let mine := (s.streams.filter fun e => e.2.arm.key == key && e.2.arm.asn == asn).map (·.1)
  let gone := fun (o : Op) => o.key == key && o.asn == asn && s.onStopped mine o
  let ids := (s.ops.filter gone).map (·.id)
  let s1 := (mine.foldl State.idleStrm s).bump (aStrm 0x110) mine.length
  { s1 with
    ops := s1.ops.filter fun o => !gone o,
    arr := s1.arr.filter fun e => !ids.contains e.1,
    reqs := s1.reqs.filterMap fun (r : RowReq) => if ids.contains r.op.id then r.leave else some r,
    exch := s1.exch.filter fun (x : Exch) => !ids.contains x.op.id }

/-- A batch closes when the task that opened it ends, whether it commits or stops (R780). -/
def State.closeBatches (s : State) (key asn : Nat) : State :=
  { s with batches := s.batches.filter fun (b : Batch) => !(b.key == key && b.asn == asn) }

/-- Every stream of the task that is still PARKED is closed (R662). -/
def State.closeParked (s : State) (key asn : Nat) : State :=
  ((s.streams.filter fun e => e.2.arm.key == key && e.2.arm.asn == asn && e.2.state == 3).map (·.1)).foldl State.idleStrm s

/-- A task stops: its items and streams stop, and its batches close (R435, R681, R780). -/
def State.stopTask (s : State) (key asn : Nat) : State :=
  (((s.stopItems key asn).stopStreams key asn).closeBatches key asn).dueClears.checkDrained

/-- A task ends: the residue check is made (R762), PARKED streams and batches close, and the task may commit. -/
def State.endTask (s : State) (key asn : Nat) : State :=
  match s.task? key asn with
  | none => s
  | some t =>
    if t.ended then s
    else
      let s1 := ((s.residueCheck t).closeParked key asn).closeBatches key asn
      (s1.modTask key asn fun t => { t with ended := true }).dueClears.checkDrained

/-- Step 4 of R214 has completed for a task: MRAM records its ASN (R90). -/
def State.recorded (s : State) (t : Task) : Bool := decide (t.asn ≤ (s.key t.key).lastCommitted)

/-- A task ends with a failure status: the first fault to reach the dispatcher sets it (R495), and no fault changes it once
the task is recorded in MRAM (R872) or has stopped for a retry (R871). -/
def State.failTask (s : State) (key asn status detail : Nat) : State :=
  match s.task? key asn with
  | none => s
  | some t =>
    if s.recorded t || t.ended || t.retryDue || t.status.isSome then s
    else ((s.modTask key asn fun t => { t with status := some (status, detail) }).stopTask key asn).endTask key asn

/-- FAILED_DATA_LOST -/
def stDataLost : Nat := 0x0100
/-- FAILED_RETRY_EXHAUSTED -/
def stRetryExh : Nat := 0x0101
/-- FAILED_SPARSE_META -/
def stSparse : Nat := 0x0102
/-- FAILED_SYNC_STALL -/
def stStall : Nat := 0x0103
/-- FAILED_PERMISSION -/
def stPerm : Nat := 0x0104
/-- FAILED_ILLEGAL_INSTRUCTION -/
def stIllegal : Nat := 0x0105
/-- ABORTED_BY_PARTNER -/
def stAborted : Nat := 0x0200

/-- A fault that a retry may cure (R866–R871): the task stops and is retried, unless it has been retried twice. origin is the
unit at fault. -/
def State.retryTask (s : State) (key asn origin : Nat) : State :=
  match s.task? key asn with
  | none => s
  | some t =>
    if s.recorded t || t.ended || t.retryDue || t.status.isSome then s
    else if 2 ≤ t.retries then
      (((s.bump (aErr 0x10C)).lifeAdd 0x7 6 1).report
        { cls := clsRetryExhausted, origin := origin, reporter := origin, ctx := t.ctx, key := key, asn := asn,
          status := stRetryExh, detail := origin }).failTask key asn stRetryExh origin
    else
      let s1 := (s.lifeAdd 0x5 origin 1).modTask key asn fun t => { t with retryDue := true, retries := t.retries + 1 }
      s1.stopTask key asn

/-! Withdrawing items. -/

/-- The entry that a withdrawn item or join returns as. -/
def Item.toEntry (i : Item) : Entry :=
  { id := i.ord, kind := if 2 ^ 63 ≤ i.frag ∧ i.frag ≠ 2 ^ 64 - 1 then 2 else 0, key := i.key, asn := i.asn, ctx := i.ctx,
    prio := i.prio, num := i.num, degree := i.degree, words := i.words,
    frags := if 2 ^ 63 ≤ i.frag ∧ i.frag ≠ 2 ^ 64 - 1 then i.frag - 2 ^ 63 else 0 }

/-- An item leaves a next slot unstarted (R710, R717): a fragment returns to its item's entry, anything else to the head of
its list. -/
def State.withdraw (s : State) (k : Nat) : State :=
  let c := s.core k
  match c.next with
  | none => s
  | some i =>
    let s1 := ((s.setCore k { c with next := none }).traceItem 0x06 i k).bump (aDisp 0x110)
    if i.isFragment then
      { s1 with ready := s1.ready.map fun e => if e.id == i.entry then { e with back := insertKey id i.frag e.back } else e }
    else { s1 with ready := i.toEntry :: s1.ready }

/-- The cores of a Spire whose next slot is filled, the one filled last first: items of one list were placed in their order in it. -/
def State.nextCores (s : State) (sp : Nat) : List Nat :=
  let l := (List.range 16).filterMap fun j => (s.core (16 * sp + j)).next.map fun i => (i.ord, 16 * sp + j)
  ((sortKey (fun e => e.1) l).map (·.2)).reverse

/-- Every item in a Spire's next slots is withdrawn; items of one list keep their order (R717, R722). -/
def State.withdrawSpire (s : State) (sp : Nat) : State := ((s.nextCores sp).foldl State.withdraw s).updateBp

end Sys2Proof.Machine
end

