-- ==== Sys2Proof/Machine/Passes.lean ====
section
/-! DEFINITION. Operations as they leave their units (R400–R403), and the passes of streams: what a pass still waits for, its end, and the
hand-overs of slots (R647, R649, R656–R659, R667–R669, R968). -/

namespace Sys2Proof.Machine

/-! Operations. -/

/-- An operation by its number. -/
def State.op? (s : State) (id : Nat) : Option Op := s.ops.find? fun (o : Op) => o.id == id

/-- An operation leaves its unit. -/
def State.dropOp (s : State) (id : Nat) : State := { s with ops := s.ops.filter fun (o : Op) => o.id != id }

/-- The increment of an operation, made at its counter (R402, R476). -/
def State.increment (s : State) (o : Op) : State := s.addCtr o.ctx o.key o.asn o.vc o.phys o.inc

/-- An operation completes: its writes are visible, and its increment is made (R402, R474). -/
def State.complete (s : State) (o : Op) : State := (s.dropOp o.id).increment o

/-- A unit refuses an operation's descriptor, or finds it refused at run time (R403, R640): recorded with the PC and the word
of the instruction, and the task ends. -/
def State.unitIllegal (s : State) (o : Op) (reason : Nat := 0) : State :=
  (s.report { cls := clsInstrFault, origin := o.core, reporter := o.core, ctx := o.ctx, key := o.key, asn := o.asn,
              status := stIllegal, detail := o.core,
              body := natLe 8 o.pc ++ natLe 8 o.word ++ natLe 1 reason ++ zeros 15 }).failTask o.key o.asn stIllegal o.core

/-! Streams, exchanges and requests by number. -/

/-- A stream. -/
def State.strm? (s : State) (p : Nat) : Option Strm := SMap.find s.streams p

/-- The state with a stream replaced. -/
def State.setStrm (s : State) (p : Nat) (x : Strm) : State := { s with streams := SMap.put s.streams p x }

/-- The exchange of an arm. -/
def State.exch? (s : State) (id : Nat) : Option Exch := s.exch.find? fun (e : Exch) => e.op.id == id

/-- The state with an exchange changed. -/
def State.modExch (s : State) (id : Nat) (f : Exch → Exch) : State :=
  { s with exch := s.exch.map fun (e : Exch) => if e.op.id == id then f e else e }

/-- An exchange ends. -/
def State.dropExch (s : State) (id : Nat) : State := { s with exch := s.exch.filter fun (e : Exch) => e.op.id != id }

/-- What an exchange must have done before its pass can end, beside the rows that its stream moves (R806, R810). -/
def State.exchOver (s : State) (x : Strm) : Bool :=
  sdType x.desc != 5 || sdKind x.desc == 1
    || match s.exch? x.arm.id with | some e => e.started && e.due.isEmpty | none => true

/-- The request whose pass a GATHER stream carries or waits to carry. -/
def State.req? (s : State) (id : Nat) : Option RowReq := s.reqs.find? fun (r : RowReq) => r.op.id == id

/-- The state with a request changed. -/
def State.modReq (s : State) (id : Nat) (f : RowReq → RowReq) : State :=
  { s with reqs := s.reqs.map fun (r : RowReq) => if r.op.id == id then f r else r }

/-- Rows that a row-engine request delivers or takes: NSEG for GATHER_REDUCE, COUNT otherwise (R371, R375). -/
def reqRows (d : List Byte) : Nat := if getLe d 0 1 = 2 then getLe d 0x2C 4 else getLe d 0x28 4

/-- Rows of a stream's present pass. -/
def State.passRows (s : State) (x : Strm) : Nat :=
  if sdType x.desc = 3 then (match x.reqs with | id :: _ => ((s.req? id).map fun r => reqRows r.op.desc).getD 0 | [] => 0)
  else if sdSignal x.desc then 0
  else sdRows x.desc

/-- The Spires of a stream that still count: one that has left service counts from then on as having freed every slot, though a test return
it (R669). -/
def State.consumers (s : State) (x : Strm) : List Nat := x.spires.filter fun sp => s.spireState sp != 5 && !x.gone.contains sp

/-- Slots of a stream that a Spire has freed. -/
def Strm.freedBy (x : Strm) (sp : Nat) : Nat := SMap.get x.freed 0 sp

/-- A Spire frees its next slot. -/
def Strm.freeSlot (x : Strm) (sp : Nat) : Strm :=
  { x with freed := SMap.put x.freed sp (x.freedBy sp + 1), readAt := SMap.erase x.readAt sp }

/-- Slots that every consumer has freed (R667–R669). -/
def State.freedAll (s : State) (x : Strm) : Nat :=
  match s.consumers x with
  | [] => x.filled
  | l => (l.map x.freedBy).foldl min x.filled

/-- A pass begins (R676). -/
def Strm.begin (x : Strm) (tick : Nat) : Strm :=
  { x with state := 2, passOn := true, passNo := x.passNo + 1, start := tick, row := 0, moved := 0, first := x.filled }

/-- A task whose strm.adv still waits when its stream returns to IDLE ends (R647). -/
def State.orphanAdvs (s : State) (x : Strm) : State :=
  match x.advs with
  | [] => s
  | o :: _ => ((x.advs.foldl (fun (t : State) (a : Op) => t.dropOp a.id) s)).unitIllegal o

/-- The stream returns to IDLE, its close completing where one was pending (R656). -/
def State.strmIdle (s : State) (p : Nat) (x : Strm) : State :=
  let s1 := s.idleStrm p
  let s2 := match x.close with | some o => s1.complete o | none => s1
  (s2.orphanAdvs x).checkDrained

/-- An operation has started in its unit. -/
def State.opStarted (s : State) (id : Nat) : Bool := s.ops.any fun (o : Op) => o.id == id && o.started

/-- A request that its stream delivered in more than one slot or granule is counted (R663, R685; log entry 113). -/
def State.countSegments (s : State) (x : Strm) : State :=
  if sdType x.desc = 3 && decide (2 ≤ x.moved) then s.bump (aStrm 0x104) else s

/-- The pass of stream p ends (R649, R656, R657, R659): its arm completes, and a pending re-arm takes effect, or the next request's pass is
due (R968), or a pending close or the end of a non-persistent pass takes effect. -/
def State.passEnd (s : State) (p : Nat) : State :=
  match s.strm? p with
  | none => s
  | some x =>
    let s0 := (s.countSegments x).dropExch x.arm.id
    let s1 := if !x.armOpen then s0 else if sdSlot x.desc then s0.dropOp x.arm.id else s0.complete x.arm
    let x1 := { x with passOn := false, armOpen := false, reqs := if sdType x.desc = 3 then x.reqs.tail else x.reqs }
    match x1.rearm with
    | some o =>
      if s1.opStarted o.id then
        let x2 := { x1 with rearm := none, desc := o.desc, arm := o, armOpen := true, state := 2 }
        s1.setStrm p (if sdType o.desc = 3 then x2 else x2.begin s1.tick)
      else s1.setStrm p { x1 with state := 3 }
    | none =>
      if !x1.reqs.isEmpty && sdPersist x.desc then s1.setStrm p { x1 with state := 2 }
      else if (match x1.close with | some o => s1.opStarted o.id | none => false) || !sdPersist x.desc then s1.strmIdle p x1
      else s1.setStrm p { x1 with state := 3 }

/-- The pass of a stream is over (R649): in slot mode every slot of it freed or drained, in linear mode every row landed. -/
def State.passDone (s : State) (x : Strm) : Bool :=
  x.passOn && decide (s.passRows x ≤ x.row) && s.exchOver x
    && (!sdSlot x.desc || sdOutbound x.desc || decide (x.filled ≤ s.freedAll x))

/-- The pass ends where it is over. -/
def State.checkPass (s : State) (p : Nat) : State :=
  match s.strm? p with
  | some x => if s.passDone x then s.passEnd p else s
  | none => s

/-- A strm.adv takes effect where it can (R647): on an inbound stream its Spire's next slot is full; on an outbound one the
pass has a slot to hand over and its position is drained. -/
def State.runAdv (s : State) (p : Nat) (o : Op) : State :=
  match s.strm? p with
  | none => s
  | some x =>
    let sp := o.core / 16
    if sdOutbound x.desc then
      if x.passOn && decide (x.handed < x.first + ceilDiv (s.passRows x) (sdSlotRows x.desc))
          && decide (x.handed < x.filled + 2) then
        (s.setStrm p { x with handed := x.handed + 1, advs := x.advs.filter fun (a : Op) => a.id != o.id }).complete o
      else s
    else if x.freedBy sp < x.filled then
      (s.setStrm p { x.freeSlot sp with
                            advs := x.advs.filter fun (a : Op) => a.id != o.id }).complete o
    else s

/-- The waiting advances of a stream are looked at again, in order, and its pass ends where it is over. -/
def State.runAdvs (s : State) (p : Nat) : State :=
  match s.strm? p with
  | some x => (x.advs.foldl (fun t o => t.runAdv p o) s).checkPass p
  | none => s

end Sys2Proof.Machine
end

