-- ==== Sys2Proof/Machine/Units.lean ====
section
/-! DEFINITION. Units that leave service (R883–R887, R204, R205, R969), and a task's accesses to memory: what stops them
(R267, R879), the shadows they keep (R874), and the bytes they move through the Dome cache. -/

namespace Sys2Proof.Machine

/-- The unit number of a place (R859): a stack, a channel, or a Spire's store island. -/
def Place.unit : Place → Nat
  | .near st _ => 0x560 + st
  | .glacier ch _ => 0x568 + ch
  | .store sp _ => 0x403 + 4 * sp
  | .unbacked => 0xFFFF

/-- The offset of a place within its stack, channel or store. -/
def Place.offset : Place → Nat
  | .near _ o => o
  | .glacier _ o => o
  | .store _ o => o
  | .unbacked => 0

/-- Channels present at the last boot that have not failed since. -/
def State.healthyChans (s : State) : List Nat :=
  (List.range 16).filter fun c => s.rb aMemGlacier c && !s.outOfService.testBit c

/-- The new mirror for a failed journal channel (R204): the lowest healthy one on its I/O die, else on the other, apart from
the surviving channel. -/
def State.newMirror (s : State) (failed survivor : Nat) : Option Nat :=
  let ok := s.healthyChans.filter fun c => c != survivor && c != failed
  match ok.find? fun c => c / 8 == failed / 8 with
  | some c => some c
  | none => ok.head?

/-- A healthy channel of an I/O die for a copy of a shadow: which one, the manual leaves to the device (log entry 147). -/
def State.copyChan (s : State) (die : Nat) : List Nat × State :=
  let l := s.healthyChans.filter fun c => c / 8 == die
  let (d, s1) := s.draw
  ((l[Config.freeNat d % l.length]?).toList, s1)

/-- The channels of a new shadow's copies: one on each I/O die that has a healthy channel (R875). -/
def State.copyChans (s : State) : List Nat × State :=
  let (a, s1) := s.copyChan 0
  let (b, s2) := s1.copyChan 1
  (a ++ b, s2)

/-- A shadow as the failure of a channel leaves it (R875, R885): the copy there is gone, and the other is copied again to the same die,
where that has a healthy channel. -/
def State.recopy (s : State) (ch : Nat) (x : Shadow) : Shadow × State :=
  if !x.copies.contains ch then (x, s)
  else
    let left := x.copies.filter (· != ch)
    if left.isEmpty then ({ x with copies := [] }, s)
    else
      let (c, s1) := s.copyChan (ch / 8)
      ({ x with copies := left ++ c }, s1)

/-- The shadows of a list of tasks after the failure of a channel. -/
def State.recopyAll (ch : Nat) : List Shadow → State → List Shadow × State
  | [], s => ([], s)
  | x :: t, s =>
    let (y, s1) := s.recopy ch x
    let (l, s2) := State.recopyAll ch t s1
    (y :: l, s2)

/-- Every task's shadows after the failure of a channel. -/
def State.loseCopies (s : State) (ch : Nat) : State :=
  s.tasks.foldl (fun (u : State) t =>
    let (l, u1) := State.recopyAll ch t.shadows u
    u1.modTask t.key t.asn fun x => { x with shadows := l }) s

/-- Every shadowed granule of a task goes back to its buffer (R877); one of which no copy remains leaves its bytes free (log entry 147). -/
def State.restoreShadows (s : State) (t : Task) : State :=
  t.shadows.foldl (fun (u : State) x =>
    if x.copies.isEmpty then u.scramble x.addr (x.addr + x.bytes.length) else u.writeTier x.addr x.bytes) s

/-- One journal channel remains, or the last one to remain: SINGLE is 1, and JRNL_A and JRNL_B both name it (R205, R969). -/
def State.journalSingle (s : State) (ch : Nat) : State :=
  let s1 := { s with journal := { s.journal with single := true, mirroring := false, a := ch, b := ch } }
  ((s1.setB aMemGlacier 28 true).setF aMemGlacier 24 4 ch).setF aMemGlacier 20 4 ch

/-- Admissions whose journal writes are not complete are taken back: their SUBMITs are processed again and find no journal (R205, R969). -/
def State.unadmit (s : State) : State :=
  let s1 := (s.tasks.filter fun t => !t.accepted).foldl (fun (u : State) t =>
    let q := u.key t.key
    u.setKey t.key { q with lastIssued := q.lastIssued - 1, unreleased := q.unreleased.filter (· != t.asn),
                            tokenAccepted := (s.tasks.filter fun x => x.key == t.key && x.accepted).foldl
                              (fun n x => max n x.token) q.tokenCommitted }) s
  { s1 with tasks := s1.tasks.filter (·.accepted) }

/-- An accepted task that MRAM does not record stops and is to commit with FAILED_DATA_LOST, whatever it has reached (R969). -/
def State.loseTask (s : State) (key asn : Nat) : State :=
  match s.task? key asn with
  | none => s
  | some t =>
    if s.recorded t then s
    else ((s.modTask key asn fun t => { t with status := some (stDataLost, 0xFFFF), retryDue := false }).stopTask key asn).endTask key asn

/-- No copy of the journal remains, ch having been the last (R969, R882). -/
def State.journalGone (s : State) (ch : Nat) : State :=
  let s1 := (s.journalSingle ch).setB aMemGlacier 29 true
  let s2 := ({ s1 with journal := { s1.journal with lost := true } } : State).unadmit
  s2.tasks.foldl (fun t x => t.loseTask x.key x.asn) s2

/-- A journal channel fails beside a survivor: a new mirror is chosen and copied, or SINGLE is set (R204, R205, R969). -/
def State.journalMove (s : State) (failed survivor : Nat) (isA : Bool) : State :=
  match s.newMirror failed survivor with
  | some c =>
    { s with journal := { s.journal with
        mirroring := true, newIsA := isA,
        a := if isA then c else s.journal.a, b := if isA then s.journal.b else c } }
  | none => s.journalSingle survivor

/-- What a failed channel does to the journal. -/
def State.journalFail (s : State) (ch : Nat) : State :=
  let j := s.journal
  if j.lost || (j.a != ch && j.b != ch) then s
  else if j.single then s.journalGone ch
  else if j.mirroring then
    (if (j.newIsA && j.a == ch) || (!j.newIsA && j.b == ch) then
      s.journalMove ch (if j.newIsA then j.b else j.a) j.newIsA
    else s.journalGone ch)
  else if j.a == ch then s.journalMove ch j.b true
  else s.journalMove ch j.a false

/-- Tasks with requests on a row-engine unit stop and are retried (R885). -/
def State.retryUnit (s : State) (u origin : Nat) : State :=
  (s.reqs.filter fun (r : RowReq) => r.routes.any fun x => x.unit == u && !x.done).foldl
    (fun t r => t.retryTask r.op.key r.op.asn origin) s

/-- The replay ring's first address and its length (R846, R258). -/
def State.ringAt (s : State) : Nat × Nat :=
  (glacierBase + (s.glacierSize - s.rf aMemGrsv 0 16 * gib) + gib, s.rf (aDet 0x108) 0 16 * gib)

/-- Bytes of a record in the ring (R844). -/
def RplRec.size (r : RplRec) : Nat := 64 + ceilDiv r.body.length 64 * 64

/-- A replay record has bytes in a channel; the ring goes on at its start where it ends. -/
def State.recordIn (s : State) (ch : Nat) (r : RplRec) : Bool :=
  let (base, len) := s.ringAt
  let within := fun (a n : Nat) => (granules (base + a) n).any fun g => match s.place g with | .glacier c _ => c == ch | _ => false
  within r.off (min r.size (len - r.off)) || within 0 (r.off + r.size - len)

/-- Replay records in a failed channel are lost (R885). -/
def State.loseRecords (s : State) (ch : Nat) : State :=
  let ring := s.replay.ring.filter fun r => !s.recordIn ch r
  { s with replay := { s.replay with ring := ring } }.setPair (aDet 0x118) (match ring with | h :: _ => h.rseq | [] => s.pair (aDet 0x110))

/-- A stack (row-engine unit 0–7) or channel (8–23) leaves service (R884, R885); MEM_NEAR and MEM_GLACIER go on to show it present (log
entry 157). -/
def State.removeMem (s : State) (u : Nat) : State :=
  let bit := if u < 8 then 16 + u else u - 8
  let n := 0x560 + u
  if s.outOfService.testBit bit then s
  else
    let s1 := { s with outOfService := nsetBit s.outOfService bit true }
    let s2 := (((s1.setB aMemFail bit true).setB (aRe u 4) 30 true).lifeAdd 0x6 n 1).report
      { cls := clsUnitOut, origin := n, reporter := n }
    let s3 := s2.retryUnit u n
    if u < 8 then s3 else ((s3.loseCopies (u - 8)).loseRecords (u - 8)).journalFail (u - 8)

/-- The contexts whose counter map names a counter homed in a Spire. -/
def State.homedIn (s : State) (sp : Nat) : List Nat :=
  (List.range 16).filter fun c => (s.mappedCtrs c).any fun p => p / 512 == sp

/-- Counters of a Spire are lost with its store island (R886): each context that names one is disabled with COUNTER_MAP. -/
def State.loseCounters (s : State) (sp : Nat) : State :=
  let s1 := { s with ctrs := s.ctrs.filter fun e => e.1 / 512 != sp }
  (s.homedIn sp).foldl (fun t c =>
    let u := if t.ctxEn c || t.ctxActive c then { t with ctxHeld := nsetBit t.ctxHeld c true } else t
    (u.setB (aCtxCtl c) 0 false).setF (aCtxStatus c) 24 8 0x0A) s1

/-- The tasks with an item running in a Spire. -/
def State.tasksIn (s : State) (sp : Nat) : List (Nat × Nat) :=
  (s.cores.filter fun e => e.1 / 16 == sp).filterMap fun e => e.2.run.map fun i => (i.key, i.asn)

/-- A core's data memory no longer holds what its task wrote: the next item to start clears it (R427). -/
def State.disown (s : State) (k : Nat) : State := s.setCore k { s.core k with owner := (0, 0) }

/-- Bytes of a Spire's store, core memories and scale registers lose their contents (R885, R895). -/
def State.loseSpireMem (s : State) (sp : Nat) : State :=
  let s0 := ((s.cores.map (·.1)).filter fun k => k / 16 == sp).foldl State.disown s
  let s1 := s0.scramble (storeBase + sp * 2 ^ 23) (storeBase + (sp + 1) * 2 ^ 23)
  let (d, s2) := s1.draw
  { s2 with dmem := s2.dmem.scramble (sp * 16 * 32768) ((sp + 1) * 16 * 32768) d,
            icache := s2.icache.filter fun e => e.1 / 4096 != sp,
            scales := s2.scales.scramble (sp * 256 * 16) ((sp + 1) * 256 * 16) d,
            gscales := s2.gscales.scramble (sp * 65536) ((sp + 1) * 65536) d }

/-- A Spire leaves service (R884–R886, R722): its next-slot items are withdrawn, the tasks running in it are retried, its store is lost, and
it has freed every slot of every stream (R669). -/
def State.removeSpire (s : State) (sp origin : Nat) : State :=
  if s.spireState sp = 5 || s.spireState sp = 0 then s
  else
    let n := 0x400 + 4 * sp
    let s1 := ((s.setSpireState sp 5).withdrawSpire sp)
    let s2 := (s1.lifeAdd 0x6 n 1).report { cls := clsUnitOut, origin := n, reporter := n }
    let s3 := (s1.tasksIn sp).foldl (fun t x => t.retryTask x.1 x.2 origin) s2
    let s4 := s3.loseSpireMem sp
    let s5 := if origin = 0x403 + 4 * sp then s4.loseCounters sp else s4
    let mine := (s5.streams.filter fun e => e.2.spires.contains sp).map (·.1)
    mine.foldl State.runAdvs { s5 with streams := s5.streams.map fun e => (e.1, if mine.contains e.1 then { e.2 with gone := e.2.gone ++ [sp] } else e.2) }

/-- A fault of a unit counts towards its removal (R883): where the limit is reached, a Spire, stack or channel leaves
service. -/
def State.noteFault (s : State) (u : Nat) : State :=
  let s1 := { s with stops := (s.stops.filter fun e => decide (s.tick ≤ e.1 + 1000000000)) ++ [(s.tick, failKey u)] }
  if s1.failCount u < s1.failLimit then s1
  else match unitSpire u with
    | some sp => s1.removeSpire sp u
    | none => if 0x560 ≤ u ∧ u < 0x578 then s1.removeMem (u - 0x560) else s1

/-! A task's accesses. -/

/-- IN_PLACE of SUBMIT.FLAGS. -/
def Task.inPlace (t : Task) : Bool := nbit t.flags 0

/-- The declared buffer that covers an address; 0xFFFF for none (R879). -/
def Task.bufOf (t : Task) (a : Nat) : Nat :=
  match t.bufs.findIdx? fun b => decide (b.addr ≤ a) && decide (a < b.addr + b.len) with
  | some i => i
  | none => 0xFFFF

/-- The task itself produced the data at an address (R879): an output buffer, or a shadowed granule. -/
def Task.owns (t : Task) (a : Nat) : Bool :=
  (t.bufs.any fun b => b.kind == 1 && decide (b.addr ≤ a) && decide (a < b.addr + b.len))
    || t.shadows.any fun x => decide (x.addr ≤ a) && decide (a < x.addr + x.bytes.length)

/-- Why a task's access fails. -/
inductive Bad where
  | perm (detail : Nat)
  | data (addr : Nat)
deriving DecidableEq, Repr

/-- The first address in [a, a + n) whose unit has failed, or that no read corrects. -/
def State.firstBad (s : State) (a n : Nat) (read : Bool) : Option Nat :=
  match (granules a n).find? s.lostAt with
  | some g => some (max g a)
  | none => if read then (linesOf a n).findSome? (s.badByte a n) else none

/-- The windows and the memory under an access of n bytes by context c (R263, R267, R879); none where it may go on. -/
def State.checkAcc (s : State) (c a n : Nat) (p : Perm) : Option Bad :=
  if n = 0 then none
  else match s.access c a n p with
    | .denied d => some (.perm d)
    | .lost => some (.data ((s.firstBad a n false).getD a))
    | .ok => (s.firstBad a n (p == .rd)).map Bad.data

/-- An uncorrectable error in data that a task reads, or data in a failed unit (R267, R879): the error is counted and
reported, and the task is retried where it produced the data itself. -/
def State.dataError (s : State) (key asn a : Nat) : State :=
  match s.task? key asn with
  | none => s
  | some t =>
    let p := s.place a
    let own := t.owns a && !s.lostAt a
    let det := t.bufOf a
    let (d, s0) := s.draw
    let s1 := (((s0.bump (aErr 0x114)).lifeAdd 0x7 5 1).report
      { cls := clsMemUe, origin := p.unit, reporter := p.unit, ctx := t.ctx, key := key, asn := asn, addr := a,
        status := if own then 0xFFFF else stDataLost, detail := if own then 0 else det,
        body := natLe 8 p.offset ++ natLe 4 (Config.freeNat d) ++ zeros 4 })
    let s2 := if own then s1.retryTask key asn p.unit else s1.failTask key asn stDataLost det
    if s.lostAt a then s2 else s2.noteFault p.unit

/-- The task of a failed access ends (R267, R879). -/
def State.failAcc (s : State) (key asn : Nat) : Bad → State
  | .perm d => s.failTask key asn stPerm d
  | .data a => s.dataError key asn a

/-- The parts of buffer b that lie in the granules which [a, a + n) touches, as first addresses and ends. -/
def Buf.parts (b : Buf) (a n : Nat) : List (Nat × Nat) :=
  ((granules a n).filter fun g => overlaps g 4096 b.addr b.len).map fun g => (max g b.addr, min (g + 4096) (b.addr + b.len))

/-- One part of a granule is read as every access of a tier is (R33), and its two copies are kept in the pool (R874, R875). -/
def State.keepPart (s : State) (key asn : Nat) (g : Nat × Nat) : State :=
  let (b, s1) := s.readTier g.1 (g.2 - g.1)
  let (ch, s2) := s1.copyChans
  s2.modTask key asn fun t => { t with shadows := t.shadows ++ [{ addr := g.1, bytes := b, copies := ch }] }

/-- Before a task's first write of a granule of an in-out buffer, an IN_PLACE task keeps its contents (R874), as far as they belong to
the buffer that R877 copies them back to. -/
def State.shadow (s : State) (key asn a n : Nat) : State :=
  match s.task? key asn with
  | none => s
  | some t =>
    if !t.inPlace then s
    else
      let want := ((t.bufs.filter fun b => b.kind == 2).flatMap fun b => b.parts a n).filter fun g =>
        !t.shadows.any fun x => x.addr == g.1
      want.foldl (fun (u : State) g => u.keepPart key asn g) s

/-- The shadow pool (R875). -/
def State.shadowPool (s : State) : Nat := (s.rf aMemGrsv 0 16 - (1 + s.rf (aDet 0x108) 0 16)) * gib

/-- Space of the pool that tasks hold: reserved for shadows, and taken by write logs (R827, R876). -/
def State.shadowUsed (s : State) : Nat := (s.tasks.map fun t => t.reserved + t.logSpace).sum

/-- A write of a tier on behalf of a task, its windows checked already. -/
def State.taskWrite (s : State) (key asn a : Nat) (b : List Byte) : State :=
  if b.isEmpty then s else (s.shadow key asn a b.length).writeTier a b

/-- A Spire-store range lies within a context's banks of a Spire (R406). -/
def State.inBanks (s : State) (c sp a n : Nat) : Bool :=
  let lo := storeBase + sp * 2 ^ 23 + s.rf (aCtx c 0x010) 0 5 * 2 ^ 18
  let len := s.rf (aCtx c 0x010) 8 6 * 2 ^ 18
  decide (0 < len) && inside a n lo len

/-- A write of a Spire store. -/
def State.storeWrite (s : State) (a : Nat) (b : List Byte) : State := { s with mem := Mem.writeN s.mem a b }

/-! Tasks beside one another. -/

/-- Operations of a task, or row copies that its requests have still to write, are under way (R355, R436). -/
def State.underWay (s : State) (key asn : Nat) : Bool :=
  s.ops.any (fun o => o.key == key && o.asn == asn)
    || s.reqs.any fun (q : RowReq) => q.op.key == key && q.op.asn == asn && !q.copies.isEmpty

/-- The tasks before a task in order of acceptance. -/
def State.earlier (s : State) (key asn : Nat) : List Task := s.tasks.takeWhile fun t => !(t.key == key && t.asn == asn)

/-- Shadow space that a task needs: its in-out buffers in whole granules (R876); a task without IN_PLACE needs none. -/
def Task.shadowNeed (t : Task) : Nat :=
  if t.inPlace then ((t.bufs.filter fun b => b.kind == 2).map fun b => ceilDiv b.len 4096 * 4096).sum else 0

/-- A task has shadow space still to reserve (R876). -/
def Task.unreserved (t : Task) : Bool := decide (0 < t.shadowNeed) && t.reserved == 0

end Sys2Proof.Machine
end

