-- ==== Sys2Proof/Machine/CoreRun.lean ====
section
/-! DEFINITION. How a core runs its item: instruction fetch (R412–R414, R472, R967), the order of checks (R494), the guard
(R454), the interlock of loads in flight (R420, R444), and the faults a core raises. -/

namespace Sys2Proof.Machine

/-- A context's program. -/
def State.prog (s : State) (c : Nat) : Program := SMap.get s.progs {} c

/-- CODE_OFF of an image. -/
def Program.codeOff (p : Program) : Nat := getLe p.image 0x08 4
/-- CODE_LEN of an image. -/
def Program.codeLen (p : Program) : Nat := getLe p.image 0x0C 4
/-- DESC_OFF of an image. -/
def Program.descOff (p : Program) : Nat := getLe p.image 0x10 4
/-- DESC_LEN of an image. -/
def Program.descLen (p : Program) : Nat := getLe p.image 0x14 4
/-- NENTRY of an image. -/
def Program.nEntry (p : Program) : Nat := getLe p.image 0x06 2
/-- Entry PC n of an image. -/
def Program.entryPc (p : Program) (n : Nat) : Nat := getLe p.image (0x40 + 8 * n) 8

/-- The device address of a context's program image (R412, R258). -/
def State.imageAddr (s : State) (c : Nat) : Nat :=
  glacierBase + (s.glacierSize - s.rf aMemGrsv 0 16 * gib) + c * 2 ^ 24

/-- n image bytes at an offset cannot be read: an uncorrectable error, or a channel that has failed since boot (R967). -/
def State.imageLost (s : State) (c off n : Nat) : Bool :=
  (s.firstBad (s.imageAddr c + off) n true).isSome

/-- n image bytes at an offset are read through the Dome cache (R33, R417). -/
def State.imageRead (s : State) (c off n : Nat) : State := s.touchRange (s.imageAddr c + off) n

/-- The n bytes at an offset of a context's program image, from its place in the glacier area (R412). -/
def State.imageBytes (s : State) (c off n : Nat) : List Byte := s.peek (s.imageAddr c + off) n

/-- A context's program as its image stands in the glacier area (R412). -/
def State.storedProg (s : State) (c : Nat) : Program := { image := s.imageBytes c 0 (s.prog c).image.length }

/-- A task's read of n bytes of its program image fails: FAILED_DATA_LOST with DETAIL 0xFFFF, reported as MEM_UE (R967); an error of a channel in
service counts against it (R883). -/
def State.imageError (s : State) (key asn c off n : Nat) : State :=
  let a := (s.firstBad (s.imageAddr c + off) n true).getD (s.imageAddr c + off)
  let p := s.place a
  let (d, s0) := s.draw
  let s1 := (((s0.bump (aErr 0x114)).lifeAdd 0x7 5 1).report
    { cls := clsMemUe, origin := p.unit, reporter := p.unit, ctx := c, key := key, asn := asn, addr := a,
      status := stDataLost, detail := 0xFFFF, body := natLe 8 p.offset ++ natLe 4 (Config.freeNat d) ++ zeros 4 }).failTask
    key asn stDataLost 0xFFFF
  if s.lostAt a then s1 else s1.noteFault p.unit

/-! The instruction caches: 64 sets of four ways of 128-byte lines a core (R417); log entry 111. -/

/-- The line of a context's image that a PC lies in. -/
def State.icLine (s : State) (c pc : Nat) : Nat := ((s.prog c).codeOff + pc) / 128

/-- The places of a core's cache that may hold a line. -/
def icPlaces (n line : Nat) : List Nat := (List.range 4).map fun w => 256 * n + 4 * (line % 64) + w

/-- The bytes that a core's cache holds of a context's line. -/
def State.icHeld (s : State) (n c line : Nat) : Option (List Byte) :=
  (icPlaces n line).findSome? fun p => (SMap.find s.icache p).bind fun e => if e.tag = 16 * line + c then some e.bytes else none

/-- A core's cache holds a context's line. -/
def State.icHit (s : State) (n c line : Nat) : Bool := (s.icHeld n c line).isSome

/-- The instruction word that core n fetches at a PC of context c, where the PC lies in the code section (R414, R472): from the line its
cache holds, else from the image (R412, R417). -/
def State.fetch (s : State) (n c pc : Nat) : Option Nat :=
  let off := (s.prog c).codeOff + pc
  if pc < (s.prog c).codeLen then
    some (match s.icHeld n c (s.icLine c pc) with
      | some b => getLe b (off % 128) 8
      | none => leNat (s.imageBytes c off 8))
  else none

/-- A core's cache takes a line through the Dome cache (R417): in an empty way, else in place of a line that the manual does not name
(R418). -/
def State.icFill (s : State) (n c line : Nat) : State :=
  if s.icHit n c line then s
  else
    let s0 := s.touch false (s.imageAddr c / 128 + line)
    let e : ICLine := { tag := 16 * line + c, bytes := s0.imageBytes c (128 * line) 128 }
    match (icPlaces n line).find? fun p => (SMap.find s.icache p).isNone with
    | some p => { s0 with icache := SMap.put s.icache p e }
    | none =>
      let (d, s1) := s0.draw
      { s1 with icache := SMap.put s1.icache (256 * n + 4 * (line % 64) + Config.freeNat d % 4) e }

/-- A core fetches the word at a PC: its line is in the cache from then on (R417). -/
def State.icFetch (s : State) (n c pc : Nat) : State := s.icFill n c (s.icLine c pc)

/-- The image's bytes in one of its lines. -/
def Program.lineLen (p : Program) (line : Nat) : Nat := min 128 (p.image.length - 128 * line)

/-- The fetch of the word at a PC fails: its line is in no cache way of the core, and the image cannot be read there (R967). -/
def State.fetchLost (s : State) (n c pc : Nat) : Bool :=
  let line := s.icLine c pc
  decide (pc < (s.prog c).codeLen) && !s.icHit n c line && s.imageLost c (128 * line) ((s.prog c).lineLen line)

/-- The task of a core whose fetch fails ends (R967). -/
def State.fetchError (s : State) (i : Item) (pc : Nat) : State :=
  let line := s.icLine i.ctx pc
  s.imageError i.key i.asn i.ctx (128 * line) ((s.prog i.ctx).lineLen line)

/-- The Spire's cores run: the device is neither in reset nor halted, and the Spire serves its items (R441, R721). -/
def State.spireRuns (s : State) (sp : Nat) : Bool :=
  s.works && (s.spireState sp == 1 || s.spireState sp == 2)

/-- An illegal-instruction fault of a core (R494): recorded with the PC and the word, and the task ends. reason is an
enable-check reason or 0. -/
def State.illegal (s : State) (k : Nat) (i : Item) (pc word : Nat) (reason : Nat := 0) : State :=
  (s.report { cls := clsInstrFault, origin := k, reporter := k, ctx := i.ctx, key := i.key, asn := i.asn,
              status := stIllegal, detail := k,
              body := natLe 8 pc ++ natLe 8 word ++ natLe 1 reason ++ zeros 15 }).failTask i.key i.asn stIllegal k

/-- The illegal-instruction fault of the instruction at a core's PC. -/
def State.illegalAt (s : State) (k : Nat) (i : Item) (reason : Nat := 0) : State :=
  let pc := (s.core k).pc
  s.illegal k i pc ((s.fetch k i.ctx pc).getD 0) reason

/-- A register that a load in flight will write (R420). -/
def Core.pending (c : Core) (desc : Bool) (n : Nat) : Bool := c.pend.any fun p => p.desc == desc && p.num == n

/-- The guard holds (R454). -/
def Core.guardHolds (c : Core) (g : Guard) : Bool := (if g.num = 0 then true else c.p.testBit g.num.val) != g.neg

/-- The instruction that a core's PC names is i: the word there decodes to it. -/
def State.at? (s : State) (k : CoreRef) (c : Core) (ctx : Nat) (i : Instr) : Bool :=
  match s.fetch (coreIdx k) ctx c.pc with
  | none => false
  | some w =>
    let d := SMap.get c.d 0 (w / 2 ^ 51 % 16)
    decodeSpaner k (d.toNat % 256) (d.toNat / 256 % 256) w == some i

/-- The core retires its instruction and goes on with the next word. -/
def Core.step (c : Core) : Core := { c with pc := c.pc + 8 }

/-- A core executes the instruction i at its PC: f gives its effect where the guard holds and no register it names waits for
a load. A command that is not the instruction at the PC of a running core has no effect (log entry 4). -/
def State.fire (s : State) (i : Instr) (k : CoreRef) (g : Guard) (gs : List Reg) (ds : List DReg)
    (f : State → Nat → Core → Item → State) : Out :=
  let n := coreIdx k
  let c := s.core n
  match c.run with
  | none => .next s
  | some it =>
    if c.hold.isSome || !s.spireRuns k.spire.val then .next s
    else if s.fetchLost n it.ctx c.pc then .next (s.fetchError it c.pc)
    else if !s.at? k c it.ctx i then .next s
    else
      let t := s.icFetch n it.ctx c.pc
      if !c.guardHolds g then .next (t.setCore n c.step)
      else if (gs.any fun r => c.pending false r.val) || (ds.any fun d => c.pending true d.val) then .next t
      else .next (f t n c it)

/-- An instruction whose whole effect is on its core. -/
def State.fireCore (s : State) (i : Instr) (k : CoreRef) (g : Guard) (gs : List Reg) (ds : List DReg)
    (f : Core → Core) : Out :=
  s.fire i k g gs ds fun t n c _ => t.setCore n (f c).step

/-- The core meets a word that the manual does not define, or a PC outside the code section (R472, R494.1, R496). An
engine-issue word whose fields are all defined, but whose descriptor names no operation, is a descriptor the unit refuses
(R403); where its guard is false it retires (R454). -/
def execIllegalInstruction (k : CoreRef) (s : State) : Out :=
  let n := coreIdx k
  let c := s.core n
  match c.run with
  | none => .next s
  | some it =>
    if c.hold.isSome || !s.spireRuns k.spire.val then .next s
    else match s.fetch n it.ctx c.pc with
      | none => .next (s.illegalAt n it)
      | some w =>
        let a := w / 2 ^ 51 % 16
        let d := SMap.get c.d 0 a
        let t := s.icFetch n it.ctx c.pc
        if s.fetchLost n it.ctx c.pc then .next (s.fetchError it c.pc)
        else if (decodeSpaner k (d.toNat % 256) (d.toNat / 256 % 256) w).isSome then .next s
        else match engineWord? w with
          | some (g, _) =>
            if !c.guardHolds g then .next (t.setCore n c.step)
            else if c.pending true a then .next t
            else .next (t.illegalAt n it)
          | none => .next (t.illegalAt n it)

end Sys2Proof.Machine
end

