-- ==== Sys2Proof/Machine/Float.lean ====
section
/-! DEFINITION. Floating-point arithmetic, exact and then rounded once: values as NaN, infinity or a signed dyadic number
m × 2^e, IEEE 754 rounding to nearest with ties to even (R457–R461), and the binary32 and BF16 formats. -/

namespace Sys2Proof.Machine

/-- A floating-point value. A zero keeps its sign; a NaN remembers whether it signals. -/
inductive FVal where
  | nan (signalling : Bool)
  | inf (neg : Bool)
  | fin (neg : Bool) (m : Nat) (e : Int)
deriving DecidableEq, Repr

/-- The exceptions of one operation, in the order of FPFLAGS bits 0–4 (R461). -/
structure FFlags where
  nv : Bool := false
  dz : Bool := false
  ovf : Bool := false
  uf : Bool := false
  nx : Bool := false
deriving DecidableEq, Repr

/-- An IEEE interchange format: fraction bits and exponent bits. -/
structure FFmt where
  mb : Nat
  eb : Nat
deriving DecidableEq, Repr

/-- IEEE 754 binary32. -/
def fp32 : FFmt := { mb := 23, eb := 8 }
/-- BF16, the upper half of binary32. -/
def bf16 : FFmt := { mb := 7, eb := 8 }

/-- The exponent bias. -/
def FFmt.bias (f : FFmt) : Int := (2 : Int) ^ (f.eb - 1) - 1
/-- The exponent of the last fraction bit of subnormals. -/
def FFmt.qmin (f : FFmt) : Int := 1 - f.bias - f.mb
/-- The code of positive infinity. -/
def FFmt.infCode (f : FFmt) : Nat := (2 ^ f.eb - 1) * 2 ^ f.mb
/-- The quiet NaN of the format (R459). -/
def FFmt.qnan (f : FFmt) : Nat := f.infCode + 2 ^ (f.mb - 1)
/-- The sign bit. -/
def FFmt.signBit (f : FFmt) : Nat := 2 ^ (f.mb + f.eb)

/-- The value of a code. -/
def FFmt.decode (f : FFmt) (x : Nat) : FVal :=
  let neg := x.testBit (f.mb + f.eb)
  let ex := nbits x f.mb f.eb
  let fr := nbits x 0 f.mb
  if ex = 2 ^ f.eb - 1 then
    if fr = 0 then .inf neg else .nan (!fr.testBit (f.mb - 1))
  else if ex = 0 then .fin neg fr f.qmin
  else .fin neg (fr + 2 ^ f.mb) (f.qmin + (ex : Int) - 1)

/-- m × 2^d as a number and the remainder against half: (quotient, greater than half, exactly half, inexact). -/
def shiftRound (m : Nat) (d : Int) (sticky : Bool) : Nat × Bool × Bool × Bool :=
  if d ≤ 0 then (m * 2 ^ (-d).toNat, false, false, sticky)
  else
    let k := d.toNat
    let r := m % 2 ^ k
    let h := 2 ^ (k - 1)
    (m / 2 ^ k, decide (h < r) || (decide (h = r) && sticky), decide (h = r) && !sticky, decide (r ≠ 0) || sticky)

/-- Round to nearest, ties to even, with last-place exponent q: the rounded multiple of 2^q, and whether it is
inexact. -/
def roundAt (m : Nat) (e q : Int) (sticky : Bool) : Nat × Bool :=
  let (a, gt, tie, ix) := shiftRound m (q - e) sticky
  (if gt || (tie && a % 2 == 1) then a + 1 else a, ix)

/-- The exponent of the last place of an mb-bit fraction for m × 2^e, with no lower bound on the range. -/
def lastPlace (mb m : Nat) (e : Int) : Int := e + (Nat.log2 m : Int) - mb

/-- Round (-1)^neg × m × 2^e to the format, as IEEE 754 does: the code and the flags. sticky says that the true value
lies strictly above m × 2^e by less than 2^e. -/
def FFmt.round (f : FFmt) (neg : Bool) (m : Nat) (e : Int) (sticky : Bool) : Nat × FFlags :=
  let s := if neg then f.signBit else 0
  if m = 0 && !sticky then (s, {})
  else
    let qn := lastPlace f.mb m e
    let q := max qn f.qmin
    let (a, ix) := roundAt m e q sticky
    let code := (q - f.qmin).toNat * 2 ^ f.mb + a
    if f.infCode ≤ code then (s + f.infCode, { ovf := true, nx := true })
    else
      let tinyB := decide (qn < f.qmin)
      let tinyA := tinyB && decide ((roundAt m e qn sticky).1 * 2 ^ 0 < 2 ^ (f.mb + 1) ∨ qn + 1 < f.qmin)
      (s + code, { uf := ix && (tinyA || (tinyB && Config.tinyBefore)), nx := ix })

/-- Encode a value in a format; a NaN gives the quiet NaN. -/
def FFmt.encode (f : FFmt) : FVal → Nat × FFlags
  | .nan sg => (f.qnan, { nv := sg })
  | .inf neg => ((if neg then f.signBit else 0) + f.infCode, {})
  | .fin neg m e => f.round neg m e false

/-- An exact sum of two finite values as a signed dyadic number; an exact zero is +0 unless both are −0. -/
def addFin (n1 : Bool) (m1 : Nat) (e1 : Int) (n2 : Bool) (m2 : Nat) (e2 : Int) : FVal :=
  let e := min e1 e2
  let a := m1 * 2 ^ (e1 - e).toNat
  let b := m2 * 2 ^ (e2 - e).toNat
  if n1 = n2 then .fin n1 (a + b) e
  else if a = b then .fin false 0 e
  else if b < a then .fin n1 (a - b) e
  else .fin n2 (b - a) e

/-- Is the value a signalling NaN? -/
def FVal.isSNaN : FVal → Bool
  | .nan s => s
  | _ => false

/-- Is the value a NaN? -/
def FVal.isNaN : FVal → Bool
  | .nan _ => true
  | _ => false

/-- Exact sum, with the invalid flag. -/
def FVal.add : FVal → FVal → FVal × Bool
  | .nan a, .nan b => (.nan false, a || b)
  | .nan a, _ => (.nan false, a)
  | _, .nan b => (.nan false, b)
  | .inf a, .inf b => if a = b then (.inf a, false) else (.nan false, true)
  | .inf a, _ => (.inf a, false)
  | _, .inf b => (.inf b, false)
  | .fin n1 m1 e1, .fin n2 m2 e2 => (addFin n1 m1 e1 n2 m2 e2, false)

/-- The value with its sign inverted. -/
def FVal.neg : FVal → FVal
  | .nan s => .nan s
  | .inf n => .inf (!n)
  | .fin n m e => .fin (!n) m e

/-- Exact product, with the invalid flag. -/
def FVal.mul : FVal → FVal → FVal × Bool
  | .nan a, .nan b => (.nan false, a || b)
  | .nan a, _ => (.nan false, a)
  | _, .nan b => (.nan false, b)
  | .inf a, .inf b => (.inf (a != b), false)
  | .inf a, .fin n m _ => if m = 0 then (.nan false, true) else (.inf (a != n), false)
  | .fin n m _, .inf b => if m = 0 then (.nan false, true) else (.inf (n != b), false)
  | .fin n1 m1 e1, .fin n2 m2 e2 => (.fin (n1 != n2) (m1 * m2) (e1 + e2), false)

/-- Order of two values that are not NaN: +0 equals −0. -/
def FVal.lt : FVal → FVal → Bool
  | .inf a, .inf b => a && !b
  | .inf a, .fin .. => a
  | .fin .., .inf b => !b
  | .fin n1 m1 e1, .fin n2 m2 e2 =>
    let e := min e1 e2
    let a : Int := (if n1 then -1 else 1) * ((m1 * 2 ^ (e1 - e).toNat : Nat) : Int)
    let b : Int := (if n2 then -1 else 1) * ((m2 * 2 ^ (e2 - e).toNat : Nat) : Int)
    decide (a < b)
  | _, _ => false

/-- Is a finite value zero? -/
def FVal.isZero : FVal → Bool
  | .fin _ m _ => m == 0
  | _ => false

/-- The sign of a value. -/
def FVal.sign : FVal → Bool
  | .nan _ => false
  | .inf n => n
  | .fin n _ _ => n

/-- A result with extra invalid flag. -/
def withNv (r : Nat × FFlags) (nv : Bool) : Nat × FFlags := (r.1, { r.2 with nv := r.2.nv || nv })

/-- B + C in a format. -/
def fAdd (f : FFmt) (x y : Nat) : Nat × FFlags :=
  let r := (f.decode x).add (f.decode y)
  withNv (f.encode r.1) r.2

/-- B − C in a format. -/
def fSub (f : FFmt) (x y : Nat) : Nat × FFlags :=
  let r := (f.decode x).add (f.decode y).neg
  withNv (f.encode r.1) r.2

/-- B × C in a format. -/
def fMul (f : FFmt) (x y : Nat) : Nat × FFlags :=
  let r := (f.decode x).mul (f.decode y)
  withNv (f.encode r.1) r.2

/-- A + B × C with one rounding. -/
def fFma (f : FFmt) (a x y : Nat) : Nat × FFlags :=
  let va := f.decode a
  let p := (f.decode x).mul (f.decode y)
  let r := va.add p.1
  let quietNan := va.isNaN && !va.isSNaN
  let prodInv := p.2 && !((f.decode x).isSNaN || (f.decode y).isSNaN)
  withNv (f.encode r.1) (r.2 || (if prodInv && quietNan then Config.fmaNanInvalid else p.2))

/-- B ÷ C of two finite non-zero magnitudes, with enough bits to round once: quotient, exponent and sticky. -/
def divBits (m1 : Nat) (e1 : Int) (m2 : Nat) (e2 : Int) : Nat × Int × Bool :=
  let k := 64 + Nat.log2 m2
  let n := m1 * 2 ^ k
  (n / m2, e1 - e2 - (k : Int), decide (n % m2 ≠ 0))

/-- B ÷ C in a format. -/
def fDiv (f : FFmt) (x y : Nat) : Nat × FFlags :=
  match f.decode x, f.decode y with
  | .nan a, .nan b => (f.qnan, { nv := a || b })
  | .nan a, _ => (f.qnan, { nv := a })
  | _, .nan b => (f.qnan, { nv := b })
  | .inf _, .inf _ => (f.qnan, { nv := true })
  | .inf a, .fin n _ _ => ((if a != n then f.signBit else 0) + f.infCode, {})
  | .fin n _ _, .inf b => (if n != b then f.signBit else 0, {})
  | .fin n1 m1 e1, .fin n2 m2 e2 =>
    let s := n1 != n2
    if m2 = 0 then
      if m1 = 0 then (f.qnan, { nv := true })
      else ((if s then f.signBit else 0) + f.infCode, { dz := true })
    else
      let (q, e, st) := divBits m1 e1 m2 e2
      f.round s q e st

/-- Square root in a format. -/
def fSqrt (f : FFmt) (x : Nat) : Nat × FFlags :=
  match f.decode x with
  | .nan a => (f.qnan, { nv := a })
  | .inf n => if n then (f.qnan, { nv := true }) else (f.infCode, {})
  | .fin n m e =>
    if m = 0 then (if n then f.signBit else 0, {})
    else if n then (f.qnan, { nv := true })
    else
      let m' := if e % 2 = 0 then m else 2 * m
      let e' := if e % 2 = 0 then e else e - 1
      let k := m' * 2 ^ 64
      let r := Nat.sqrt k
      f.round false r (e' / 2 - 32) (decide (r * r ≠ k))

/-- MIN and MAX of R362: a NaN operand gives the quiet NaN, MAX(+0, −0) is +0 and MIN(+0, −0) is −0. -/
def fMinMax (f : FFmt) (isMax : Bool) (x y : Nat) : Nat × FFlags :=
  let a := f.decode x
  let b := f.decode y
  if a.isNaN || b.isNaN then (f.qnan, { nv := a.isSNaN || b.isSNaN })
  else if a.isZero && b.isZero then
    ((if (if isMax then a.sign && b.sign else a.sign || b.sign) then f.signBit else 0), {})
  else
    let pickB := if isMax then a.lt b else b.lt a
    ((f.encode (if pickB then b else a)).1, {})

/-- B with the sign cleared; a NaN gives the quiet NaN (R459). -/
def fAbs (f : FFmt) (x : Nat) : Nat × FFlags :=
  if (f.decode x).isNaN then (f.qnan, {}) else (x % f.signBit, {})

/-- B with the sign inverted; a NaN gives the quiet NaN (R459). -/
def fNeg (f : FFmt) (x : Nat) : Nat × FFlags :=
  if (f.decode x).isNaN then (f.qnan, {})
  else (x % f.signBit + (if x.testBit (f.mb + f.eb) then 0 else f.signBit), {})

/-- A signed integer in a format. -/
def fOfInt (f : FFmt) (v : Int) : Nat × FFlags := f.round (decide (v < 0)) v.natAbs 0 false

/-- A value rounded to an integer, to nearest with ties to even: the integer and whether it is inexact. -/
def roundInt (neg : Bool) (m : Nat) (e : Int) : Int × Bool :=
  let r := roundAt m e 0 false
  (if neg then -(r.1 : Int) else (r.1 : Int), r.2)

/-- FP32 to a signed 64-bit integer (R460): saturating, NaN gives 0, both with NV. -/
def fToInt64 (x : Nat) : Nat × FFlags :=
  match fp32.decode x with
  | .nan _ => (0, { nv := true })
  | .inf n => (if n then 2 ^ 63 else 2 ^ 63 - 1, { nv := true })
  | .fin n m e =>
    let (v, ix) := roundInt n m e
    if v < -(2 : Int) ^ 63 then (2 ^ 63, { nv := true })
    else if (2 : Int) ^ 63 ≤ v then (2 ^ 63 - 1, { nv := true })
    else (wrapInt 64 v, { nx := ix })

/-- One format to another, rounded once. -/
def fConvert (src dst : FFmt) (x : Nat) : Nat × FFlags := dst.encode (src.decode x)

/-- fcmp (R461): the truth of the condition and NV, set only for a signalling NaN. -/
def fCompare (cd : FCond) (x y : Nat) : Bool × FFlags :=
  let a := fp32.decode x
  let b := fp32.decode y
  let un := a.isNaN || b.isNaN
  let r := match cd with
    | .eq => !un && !a.lt b && !b.lt a
    | .lt => !un && a.lt b
    | .le => !un && !b.lt a
    | .un => un
  (r, { nv := a.isSNaN || b.isSNaN })

/-- FPFLAGS bits of a flag set. -/
def FFlags.bits (g : FFlags) : Nat :=
  (if g.nv then 1 else 0) + (if g.dz then 2 else 0) + (if g.ovf then 4 else 0) + (if g.uf then 8 else 0)
    + (if g.nx then 16 else 0)

/-- FP32 results of the units, which have no flags. -/
def addF (x y : Nat) : Nat := (fAdd fp32 x y).1
/-- FP32 difference. -/
def subF (x y : Nat) : Nat := (fSub fp32 x y).1
/-- FP32 product. -/
def mulF (x y : Nat) : Nat := (fMul fp32 x y).1
/-- FP32 quotient. -/
def divF (x y : Nat) : Nat := (fDiv fp32 x y).1
/-- FP32 a + x × y with one rounding. -/
def fmaF (a x y : Nat) : Nat := (fFma fp32 a x y).1
/-- FP32 square root. -/
def sqrtF (x : Nat) : Nat := (fSqrt fp32 x).1
/-- FP32 maximum of R362. -/
def maxF (x y : Nat) : Nat := (fMinMax fp32 true x y).1
/-- FP32 minimum of R362. -/
def minF (x y : Nat) : Nat := (fMinMax fp32 false x y).1
/-- Is an FP32 code a NaN? -/
def isNanF (x : Nat) : Bool := (fp32.decode x).isNaN
/-- Is an FP32 code zero, of either sign? -/
def isZeroF (x : Nat) : Bool := (fp32.decode x).isZero
/-- FP32 order, false on NaN. -/
def ltF (x y : Nat) : Bool := !isNanF x && !isNanF y && (fp32.decode x).lt (fp32.decode y)
/-- FP32 of an integer. -/
def intF (v : Int) : Nat := (fOfInt fp32 v).1
/-- FP32 with the sign cleared, a NaN's too (log entry 114). -/
def absF (x : Nat) : Nat := x % 2 ^ 31
/-- FP32 with the sign inverted. -/
def negF (x : Nat) : Nat := (fNeg fp32 x).1
/-- FP32 1.0. -/
def oneF : Nat := 0x3F800000
/-- The FP32 quiet NaN. -/
def nanF : Nat := 0x7FC00000
/-- FP32 positive infinity. -/
def infF : Nat := 0x7F800000
/-- FP32 negative infinity. -/
def ninfF : Nat := 0xFF800000

end Sys2Proof.Machine
end

