-- ==== Sys2Proof/Machine/CoreFp.lean ====
section
/-! DEFINITION. Floating-point instructions of a core (R445, R457–R461): FP32 in bits [31:0] or BF16 in bits [15:0], zeros
above the result, and sticky FPFLAGS. -/

namespace Sys2Proof.Machine

/-- The format that BF selects (R458). -/
def fmtOf (bf : Bool) : FFmt := if bf then bf16 else fp32
/-- An operand: bits above the format are ignored (R445). -/
def fpArg (bf : Bool) (v : W64) : Nat := v.toNat % (if bf then 2 ^ 16 else 2 ^ 32)

/-- A result goes to g[A] and its flags join FPFLAGS (R445, R461). -/
def Core.wrF (c : Core) (a : Reg) (r : Nat × FFlags) : Core :=
  { c.wr a (BitVec.ofNat 64 r.1) with fpflags := c.fpflags ||| r.2.bits }

/-- A floating-point instruction on registers A (for ffma), B and C. -/
def State.fpu (s : State) (i : Instr) (k : CoreRef) (g : Guard) (a b c : Reg) (f : W64 → W64 → W64 → Nat × FFlags) : Out :=
  s.fireCore i k g [a, b, c] [] fun r => r.wrF a (f (r.rd a) (r.rd b) (r.rd c))

/-- fadd: Sum (R457, R458). -/
def execFadd (k : CoreRef) (g : Guard) (bf : Bool) (a b c : Reg) (s : State) : Out :=
  s.fpu (.fadd k g bf a b c) k g a b c fun _ y z => fAdd (fmtOf bf) (fpArg bf y) (fpArg bf z)

/-- fsub: Difference (R457, R458). -/
def execFsub (k : CoreRef) (g : Guard) (bf : Bool) (a b c : Reg) (s : State) : Out :=
  s.fpu (.fsub k g bf a b c) k g a b c fun _ y z => fSub (fmtOf bf) (fpArg bf y) (fpArg bf z)

/-- fmul: Product (R457, R458). -/
def execFmul (k : CoreRef) (g : Guard) (bf : Bool) (a b c : Reg) (s : State) : Out :=
  s.fpu (.fmul k g bf a b c) k g a b c fun _ y z => fMul (fmtOf bf) (fpArg bf y) (fpArg bf z)

/-- fdiv: Quotient (R457, R458). -/
def execFdiv (k : CoreRef) (g : Guard) (bf : Bool) (a b c : Reg) (s : State) : Out :=
  s.fpu (.fdiv k g bf a b c) k g a b c fun _ y z => fDiv (fmtOf bf) (fpArg bf y) (fpArg bf z)

/-- fmin: Minimum as R362 states (R457, R458). -/
def execFmin (k : CoreRef) (g : Guard) (bf : Bool) (a b c : Reg) (s : State) : Out :=
  s.fpu (.fmin k g bf a b c) k g a b c fun _ y z => (fun m => fMinMax m false) (fmtOf bf) (fpArg bf y) (fpArg bf z)

/-- fmax: Maximum as R362 states (R457, R458). -/
def execFmax (k : CoreRef) (g : Guard) (bf : Bool) (a b c : Reg) (s : State) : Out :=
  s.fpu (.fmax k g bf a b c) k g a b c fun _ y z => (fun m => fMinMax m true) (fmtOf bf) (fpArg bf y) (fpArg bf z)

/-- ffma: A + B × C with one rounding (R457). -/
def execFfma (k : CoreRef) (g : Guard) (bf : Bool) (a b c : Reg) (s : State) : Out :=
  s.fpu (.ffma k g bf a b c) k g a b c fun x y z => fFma (fmtOf bf) (fpArg bf x) (fpArg bf y) (fpArg bf z)

/-- fsqrt: Square root (R457). -/
def execFsqrt (k : CoreRef) (g : Guard) (bf : Bool) (a b : Reg) (s : State) : Out :=
  s.fpu (.fsqrt k g bf a b) k g a b b fun _ y _ => fSqrt (fmtOf bf) (fpArg bf y)

/-- fabs: B with the sign cleared (R457). -/
def execFabs (k : CoreRef) (g : Guard) (bf : Bool) (a b : Reg) (s : State) : Out :=
  s.fpu (.fabs k g bf a b) k g a b b fun _ y _ => fAbs (fmtOf bf) (fpArg bf y)

/-- fneg: B with the sign inverted (R457). -/
def execFneg (k : CoreRef) (g : Guard) (bf : Bool) (a b : Reg) (s : State) : Out :=
  s.fpu (.fneg k g bf a b) k g a b b fun _ y _ => fNeg (fmtOf bf) (fpArg bf y)

/-- Signed 64-bit integer to FP32 (R457). -/
def execFcvtSL (k : CoreRef) (g : Guard) (a b : Reg) (s : State) : Out :=
  s.fpu (.fcvtSL k g a b) k g a b b fun _ y _ => fOfInt fp32 y.toInt

/-- FP32 to a signed 64-bit integer, saturating (R460). -/
def execFcvtLS (k : CoreRef) (g : Guard) (a b : Reg) (s : State) : Out :=
  s.fpu (.fcvtLS k g a b) k g a b b fun _ y _ => fToInt64 (fpArg false y)

/-- FP32 to BF16 (R458). -/
def execFcvtBfS (k : CoreRef) (g : Guard) (a b : Reg) (s : State) : Out :=
  s.fpu (.fcvtBfS k g a b) k g a b b fun _ y _ => fConvert fp32 bf16 (fpArg false y)

/-- BF16 to FP32, exactly (R457). -/
def execFcvtSBf (k : CoreRef) (g : Guard) (a b : Reg) (s : State) : Out :=
  s.fpu (.fcvtSBf k g a b) k g a b b fun _ y _ => fConvert bf16 fp32 (fpArg true y)

/-- fcmp: p[A] takes the condition between B and C; NV only for a signalling NaN (R461). -/
def execFcmp (k : CoreRef) (g : Guard) (cd : FCond) (p : PReg) (b c : Reg) (s : State) : Out :=
  s.fireCore (.fcmp k g cd p b c) k g [b, c] [] fun r =>
    let q := fCompare cd (fpArg false (r.rd b)) (fpArg false (r.rd c))
    { r.wp p q.1 with fpflags := r.fpflags ||| q.2.bits }

end Sys2Proof.Machine
end

