-- ==== Sys2Proof/Machine/Lands.lean ====
section
/-! DEFINITION. The package's lands (chapter "Package, supplies and pace"): their names and regions (R37–R43), the static I3C address
(R44), and what the device does with each signal group in each power state (R70, R71, R77). -/

namespace Sys2Proof.Machine

/-! Names and places. -/

/-- A land: row and column, each 1–96; row 1 is AA on the north edge, column 1 is on the west edge (R37–R39). -/
structure Land where
  row : Nat
  col : Nat
deriving DecidableEq, Repr

/-- The twenty letters of row names (R38). -/
def rowLetters : List Char := "ABCDEFGHJKLMNPTUVWXY".toList

/-- The name of a row (R38). -/
def rowName (row : Nat) : String :=
  String.ofList [rowLetters.getD ((row - 1) / 20) 'A', rowLetters.getD ((row - 1) % 20) 'A']

/-- The number of the row named by two letters (R38). -/
def rowNo (a b : Char) : Nat := 20 * rowLetters.idxOf a + rowLetters.idxOf b + 1

/-- The regions of R40. -/
inductive Region where
  | ddr (chan : Nat)
  | westNorth
  | ethernet
  | westMiddle
  | sideband
  | northVhbm
  | core (quadrant : Nat)
  | southVhbm
  | eastStrip
deriving DecidableEq, Repr

/-- The region of a land (R40). -/
def Land.region (l : Land) : Region :=
  let r := l.row - 1
  if l.col ≤ 16 then .ddr (r / 12)
  else if 81 ≤ l.col then .ddr (8 + r / 12)
  else if 73 ≤ l.col then .eastStrip
  else if l.col ≤ 24 then (if r < 24 then .westNorth else if r < 48 then .ethernet else if r < 72 then .westMiddle else .sideband)
  else if r < 12 then .northVhbm
  else if 84 ≤ r then .southVhbm
  else .core ((if l.col ≤ 48 then 0 else 1) + if r < 48 then 0 else 2)

/-- 0 for a pair's positive land and 1 for its negative one. -/
def halfNo : Half → Nat
  | .p => 0
  | .n => 1

/-- The land of a sideband or clock signal (R43). -/
def sideLand : SideSignal → Land
  | .refclk h => ⟨rowNo 'D' 'N', 17 + halfNo h⟩
  | .ethRefclk h => ⟨rowNo 'D' 'T', 17 + halfNo h⟩
  | .synceRclk h => ⟨rowNo 'D' 'V', 17 + halfNo h⟩
  | .memRefclkW h => ⟨rowNo 'D' 'X', 17 + halfNo h⟩
  | .memRefclkE h => ⟨rowNo 'D' 'N', 79 + halfNo h⟩
  | .hbmRefclkNorth h => ⟨rowNo 'E' 'A', 17 + halfNo h⟩
  | .hbmRefclkSouth h => ⟨rowNo 'E' 'C', 17 + halfNo h⟩
  | .devResetN => ⟨rowNo 'E' 'E', 20⟩
  | .pwrGood => ⟨rowNo 'E' 'E', 21⟩
  | .thermTripN => ⟨rowNo 'E' 'F', 20⟩
  | .alertN => ⟨rowNo 'E' 'F', 21⟩
  | .i3cScl => ⟨rowNo 'E' 'G', 20⟩
  | .i3cSda => ⟨rowNo 'E' 'G', 21⟩
  | .i3cAddr n => ⟨rowNo 'E' 'H', 20 + n.val⟩
  | .avsClk => ⟨rowNo 'E' 'J', 20⟩
  | .avsMdata => ⟨rowNo 'E' 'J', 21⟩
  | .avsSdata => ⟨rowNo 'E' 'K', 20⟩
  | .spiSck => ⟨rowNo 'E' 'L', 20⟩
  | .spiCsN => ⟨rowNo 'E' 'L', 21⟩
  | .spiIo n => ⟨if 2 ≤ n.val then rowNo 'E' 'N' else rowNo 'E' 'M', 20 + n.val % 2⟩
  | .tck => ⟨rowNo 'E' 'P', 20⟩
  | .tms => ⟨rowNo 'E' 'P', 21⟩
  | .tdi => ⟨rowNo 'E' 'T', 20⟩
  | .trstN => ⟨rowNo 'E' 'U', 20⟩
  | .tdo => ⟨rowNo 'E' 'T', 21⟩

/-- The land of a signal; the manual gives a DDR5 signal its channel's band but no land of its own (R40, R42, R43). -/
def signalLand : Signal → Option Land
  | .ethTx n h => some ⟨rowNo 'B' 'E' + 3 * n.val, 17 + halfNo h⟩
  | .ethRx n h => some ⟨rowNo 'B' 'E' + 3 * n.val, 21 + halfNo h⟩
  | .ddr _ _ => none
  | .side s => some (sideLand s)

/-- The sub-channel of a DDR5 data or check bit: 0 for A, 1 for B (R41). -/
def subChannel : DdrSignal → Option Nat
  | .dq n => some (n.val / 32)
  | .cb n => some (n.val / 8)
  | _ => none

/-- The static address in I2C fallback: 0x58 plus the straps (R44). -/
def Pins.i3cStatic (p : Pins) : Nat := 0x58 + p.straps.toNat

/-- The device answers a transfer to this address (R44, R77). -/
def State.i3cAnswers (s : State) (d : I3cDest) : Bool :=
  s.pins.vaux && match d with
    | .dynamic => true
    | .static a => a == s.pins.i3cStatic

/-! What the lands do. -/

/-- The signal groups of R77. -/
inductive LandGroup where
  | ethTx
  | ethRx
  | synceRclk
  | ddrResetN
  | ddrCommand
  | ddrData
  | i3c
  | thermTripN
  | alertN
  | avs
  | spi
  | tdo
deriving DecidableEq, Repr

/-- What a group of lands does (R77): working is the activity of a device out of reset. -/
inductive Drive where
  | notDriven
  | tolerates
  | highImpedance
  | answers
  | electricalIdle
  | low
  | high
  | dimmReset
  | dimmSelfRefresh
  | setpointsHeld
  | threeState
  | working
  /-- Each land at the level of its boundary cell, at the opposite level, or at both by turns (R45). -/
  | scanned
  | scanInverted
  | scanToggling
deriving DecidableEq, Repr

/-- The columns of R77, and the device out of reset. -/
inductive PowerState where
  | unpowered
  | vauxOnly
  | coldReset
  | warmReset
  | running
deriving DecidableEq, Repr

/-- The column that holds now. -/
def State.powerState (s : State) : PowerState :=
  if !s.pins.vaux then .unpowered
  else if !s.pins.pwrGood then .vauxOnly
  else if s.devState = stReset then (if s.boot.cold then .coldReset else .warmReset)
  else .running

/-- An open-drain output, active low: low while asserted. -/
def openDrain (asserted : Bool) : Drive := if asserted then .low else .notDriven

/-- The TAP's pads have their supply (R43, R77). -/
def State.tapPowered (s : State) : Bool := s.pins.vaux && s.pins.pwrGood

/-- The TAP holds an instruction that takes the lands from the device: EXTEST, CLAMP, HIGHZ and the two of IEEE 1149.6 (R45, R932). -/
def State.tapDrives (s : State) : Bool := s.tapPowered && [0x00, 0x04, 0x05, 0x06, 0x07].contains s.pins.tapIr

/-- What boundary scan makes of a group of output lands (R45): their cells' levels, high impedance under HIGHZ, and on the Ethernet lanes
in Run-Test/Idle the pulse or the train of IEEE 1149.6. -/
def State.scanDrive (s : State) (g : LandGroup) : Drive :=
  if s.pins.tapIr == 0x05 then .highImpedance
  else if g = .ethTx ∧ s.pins.tap = .runTestIdle then
    (if s.pins.tapIr == 0x06 then .scanInverted else if s.pins.tapIr == 0x07 then .scanToggling else .scanned)
  else .scanned

/-- The groups that boundary scan drives: the outputs of the main rails' domain but TDO. The lands on VAUX go on as R77 states (log
entry 116). -/
def LandGroup.scans : LandGroup → Bool
  | .ethTx | .synceRclk | .ddrResetN | .ddrCommand | .ddrData | .avs | .spi => true
  | .ethRx | .i3c | .thermTripN | .alertN | .tdo => false

/-- The behaviour of a signal group where boundary scan does not drive it (R70–R73, R77). In HALTED, for which R77 has no column, the lands
outside its rows for Ethernet and DDR5 do as those of a device out of reset, and the DDR5 data lands are driven only while the firmware
runs (log entry 146). -/
def State.landUse (s : State) (g : LandGroup) : Drive :=
  let p := s.powerState
  match g with
  | .ethTx => match p with
    | .unpowered | .vauxOnly => .notDriven
    | .coldReset | .warmReset => .electricalIdle
    | .running => if s.pins.ethTx then .working else .electricalIdle
  | .ethRx => if p = .running then .working else .tolerates
  | .synceRclk => if p = .running then .working else .notDriven
  | .ddrResetN => match p with
    | .unpowered | .vauxOnly => .notDriven
    | .coldReset => .low
    | .warmReset => .high
    | .running => if s.pins.ddrResetN then .high else .low
  | .ddrCommand => match p with
    | .unpowered | .vauxOnly => .notDriven
    | .coldReset => .dimmReset
    | .warmReset => .dimmSelfRefresh
    | .running =>
      if !s.pins.ddrResetN then .dimmReset else if s.pins.glacierSelfRefresh then .dimmSelfRefresh else .working
  | .ddrData => if p = .running && s.fwRuns then .working else .notDriven
  | .i3c => if p = .unpowered then .highImpedance else .answers
  | .thermTripN => openDrain (s.pins.vaux && s.pins.thermTrip)
  | .alertN => openDrain s.alertN
  | .avs => match p with
    | .warmReset => .setpointsHeld
    | .running => .working
    | _ => .notDriven
  | .spi => if p = .running then .working else .notDriven
  | .tdo => match p with
    | .unpowered | .vauxOnly => .notDriven
    | _ => if s.pins.tap = .shiftDr || s.pins.tap = .shiftIr then .working else .threeState

/-- The behaviour of a signal group (R45, R70–R73, R77). -/
def State.drive (s : State) (g : LandGroup) : Drive := if s.tapDrives && g.scans then s.scanDrive g else s.landUse g

/-! Boundary scan (R45). -/

/-- The signal lands of a DDR5 channel (R41); how many commands and strobes there are is JESD79-5's (log entry 116). -/
def ddrSignals : List DdrSignal :=
  (List.finRange 64).map .dq ++ (List.finRange 16).map .cb ++ .resetN :: (List.range Config.ddrCommands).map .command
    ++ (List.range Config.ddrStrobes).map .strobe

/-- The sideband and clock signals of R43. -/
def sideSignals : List SideSignal :=
  [Half.p, Half.n].flatMap (fun h => [.refclk h, .ethRefclk h, .synceRclk h, .memRefclkW h, .memRefclkE h, .hbmRefclkNorth h, .hbmRefclkSouth h])
    ++ [.devResetN, .pwrGood, .thermTripN, .alertN, .i3cScl, .i3cSda, .i3cAddr 0, .i3cAddr 1, .avsClk, .avsMdata, .avsSdata, .spiSck, .spiCsN]
    ++ (List.finRange 4).map .spiIo ++ [.tck, .tms, .tdi, .trstN, .tdo]

/-- Every signal land (R45): the Ethernet lanes, the DDR5 channels, and the sideband. -/
def signalLands : List Signal :=
  (List.finRange 8).flatMap (fun n => [.ethTx n .p, .ethTx n .n, .ethRx n .p, .ethRx n .n])
    ++ (List.finRange 16).flatMap (fun c => ddrSignals.map (.ddr c)) ++ sideSignals.map .side

/-- The group of R77 of a land that the device can drive. -/
def signalGroup : Signal → Option LandGroup
  | .ethTx _ _ => some .ethTx
  | .ethRx _ _ => none
  | .ddr _ .resetN => some .ddrResetN
  | .ddr _ (.command _) => some .ddrCommand
  | .ddr _ _ => some .ddrData
  | .side (.synceRclk _) => some .synceRclk
  | .side .thermTripN => some .thermTripN
  | .side .alertN => some .alertN
  | .side .avsClk => some .avs
  | .side .avsMdata => some .avs
  | .side .spiSck => some .spi
  | .side .spiCsN => some .spi
  | .side (.spiIo _) => some .spi
  | .side _ => none

/-- The level of a land in a list of lands. -/
def levelIn (l : List (Signal × Bool)) (g : Signal) : Option Bool := (l.find? fun e => e.1 == g).map Prod.snd

/-- The level that the device itself holds on a land, where its state decides one: what R77 drives low or high, the cell's level under
boundary scan, and the inputs that the state holds. -/
def State.heldLevel (s : State) (g : Signal) : Option Bool :=
  match g with
  | .side .devResetN => some s.pins.resetN
  | .side .pwrGood => some s.pins.pwrGood
  | .side (.i3cAddr n) => some (s.pins.straps.getLsbD n.val)
  | g => match (signalGroup g).map s.drive with
    | some .low => some false
    | some .high => some true
    | some .scanned => levelIn s.pins.boundary g
    | some .scanInverted => (levelIn s.pins.boundary g).map (!·)
    | _ => none

/-- What Capture-DR takes into the boundary register: a level for every signal land (R45). A land whose level neither the state nor the
operand gives has a free one (log entry 116). -/
def State.capture (s : State) (levels : List (Signal × Bool)) : List (Signal × Bool) :=
  signalLands.map fun g => (g, (s.heldLevel g).getD ((levelIn levels g).getD (Config.padLevel s.draws g)))

/-- What stands in the boundary register once its whole length has been shifted in from TDI. -/
def State.shiftedIn (s : State) (tdi : List (Signal × Bool)) : List (Signal × Bool) :=
  signalLands.map fun g => (g, (levelIn tdi g).getD (Config.padLevel (s.draws + 1) g))

/-- The instruction selects the boundary register (R932). -/
def scansBoundary (ir : Nat) : Bool := [0x00, 0x02, 0x06, 0x07].contains ir

/-- The walk leaves the state in which the last command parked the TAP: from Shift-DR or Pause-DR it passes Update-DR, which moves the
shift stage to the cells. -/
def State.leavePark (s : State) : State :=
  if (s.pins.tap = .shiftDr ∨ s.pins.tap = .pauseDr) ∧ scansBoundary s.pins.tapIr then
    { s with pins := { s.pins with boundary := s.pins.shift } }
  else s

/-- A data scan of a TAP that has just been parked (R45): parked in Shift-DR, the captured levels leave on TDO and the bits from TDI
stand in the shift stage; parked in Pause-DR, the captured levels stand in it. -/
def State.scanDr (s : State) (x : BoundaryScan) : State :=
  let c := s.capture x.levels
  match s.pins.tap with
  | .shiftDr => { s with pins := { s.pins with shift := s.shiftedIn x.tdi }, draws := s.draws + 2 }.emit (.scan c)
  | .pauseDr => { s with pins := { s.pins with shift := c }, draws := s.draws + 1 }
  | _ => s

end Sys2Proof.Machine
end

