-- ==== Sys2Proof/Machine/Formats.lean ====
section
/-! DEFINITION. Element formats and their packing (R345, R498), tile and block headers (R505), the S24 body (R510, R511), and
the compressed forms of streams (R543–R545). Elements are codes: numbers of the format's width. -/

namespace Sys2Proof.Machine

/-- Bits per element of a format code (R498). -/
def fmtBits (f : Nat) : Option Nat :=
  if f = 0x00 ∨ f = 0x01 ∨ f = 0x02 then some 4
  else if f = 0x03 ∨ f = 0x04 then some 2
  else if f = 0x05 ∨ f = 0x06 ∨ f = 0x07 then some 8
  else if f = 0x08 then some 16
  else if f = 0x09 ∨ f = 0x0A then some 32
  else if f = 0x0B then some 64
  else none

/-- Bits per element; 8 for a reserved code. -/
def fmtW (f : Nat) : Nat := (fmtBits f).getD 8

/-- The format belongs to the integer family (R498). -/
def fmtInt (f : Nat) : Bool := [0x01, 0x02, 0x03, 0x04, 0x07, 0x0A, 0x0B].contains f

/-- n codes of k bytes each. -/
def unpackWide : Nat → Nat → List Byte → List Nat
  | 0, _, _ => []
  | n + 1, k, l => leNat (l.take k) :: unpackWide n k (l.drop k)

/-- The first n codes of a width, sub-byte elements lower index first (R345). -/
def unpack (bits n : Nat) (l : List Byte) : List Nat :=
  if bits < 8 then
    ((l.take (ceilDiv (n * bits) 8)).flatMap fun b => (List.range (8 / bits)).map fun i => nbits b.toNat (bits * i) bits).take n
  else unpackWide n (bits / 8) l

/-- Codes to bytes, 8 ÷ bits codes a byte. -/
def packSub : Nat → Nat → List Nat → List Byte
  | 0, _, _ => []
  | n + 1, bits, l =>
    let m := 8 / bits
    BitVec.ofNat 8 ((List.range m).foldl (fun a i => a + l.getD i 0 % 2 ^ bits * 2 ^ (bits * i)) 0)
      :: packSub n bits (l.drop m)

/-- Codes to bytes (R345). -/
def pack (bits : Nat) (l : List Nat) : List Byte :=
  if bits < 8 then packSub (ceilDiv (l.length * bits) 8) bits l else l.flatMap fun c => natLe (bits / 8) c

/-- A list in runs of k. -/
def chunks {α : Type} : Nat → Nat → List α → List (List α)
  | 0, _, _ => []
  | n + 1, k, l => l.take k :: chunks n k (l.drop k)

/-- A list in groups of four. -/
def groups4 (l : List Nat) : List (List Nat) := chunks (l.length / 4) 4 l

/-- The 16-byte header of a tile or block (R505). -/
def tileHeader (cls fmt hflags ref el128 len : Nat) : List Byte :=
  natLe 1 cls ++ natLe 1 fmt ++ natLe 1 hflags ++ zeros 1 ++ natLe 2 ref ++ natLe 2 el128 ++ natLe 4 len ++ zeros 4

/-- The positions of a group's non-zero codes. -/
def nzPos (g : List Nat) : List Nat := (List.range 4).filter fun i => g.getD i 0 != 0

/-- No group of four holds more than two non-zero codes. -/
def fits24 (l : List Nat) : Bool := (groups4 l).all fun g => decide ((nzPos g).length ≤ 2)

/-- The two positions of a group (R536): those of its non-zero codes, completed with the lowest others. -/
def pos24 (g : List Nat) : Nat × Nat :=
  let nz := nzPos g
  let all := nz ++ ((List.range 4).filter fun i => !nz.contains i)
  let a := all.getD 0 0
  let b := all.getD 1 0
  (min a b, max a b)

/-- The S24 body of codes, from the positions of each group (R510). -/
def body24At (bits : Nat) (l : List Nat) (ps : List (Nat × Nat)) : List Byte :=
  let vals := ((groups4 l).zip ps).flatMap fun (g, p) => [g.getD p.1 0, g.getD p.2 0]
  pack bits vals ++ pack 4 (ps.map fun p => p.1 + 4 * p.2)

/-- The S24 body of codes that fit it (R510, R536). -/
def body24 (bits : Nat) (l : List Nat) : List Byte := body24At bits l ((groups4 l).map pos24)

/-- A group's four codes from its two stored values and its position code; none where the order is not strict (R511). -/
def group24 (v1 v2 code : Nat) : Option (List Nat) :=
  let a := code % 4
  let b := code / 4 % 4
  if a < b then some ((List.range 4).map fun i => if i = a then v1 else if i = b then v2 else 0) else none

/-- The codes of an S24 body of n elements (R510, R511). -/
def decode24 (bits n : Nat) (body : List Byte) : Option (List Nat) :=
  let vals := unpack bits (n / 2) body
  let codes := unpack 4 (n / 4) (body.drop (ceilDiv (n / 2 * bits) 8))
  let gs := ((chunks (n / 4) 2 vals).zip codes).map fun (v, c) => group24 (v.getD 0 0) (v.getD 1 0) c
  if gs.all Option.isSome then some (gs.flatMap fun g => g.getD []) else none

/-- Bytes padded with zeros to a multiple of 16. -/
def pad16 (b : List Byte) : List Byte := b ++ zeros ((16 - b.length % 16) % 16)

/-- The bitmap body: a bit per code, then the non-zero codes (R527, R543). -/
def bodyMap (bits : Nat) (l : List Nat) : List Byte :=
  pack 1 (l.map fun c => if c = 0 then 0 else 1) ++ pack bits (l.filter (· != 0))

/-- The codes of a bitmap body; none where its length disagrees with its set bits (R545). -/
def decodeMap (bits n : Nat) (body : List Byte) : Option (List Nat) :=
  let m := unpack 1 n body
  let nz := m.sum
  if (pad16 (zeros (ceilDiv n 8 + ceilDiv (nz * bits) 8))).length ≠ body.length then none
  else
    let vals := unpack bits nz (body.drop (ceilDiv n 8))
    some (m.foldl (fun (acc : List Nat × List Nat) b =>
      if b = 0 then (acc.1 ++ [0], acc.2) else (acc.1 ++ [acc.2.headD 0], acc.2.tail)) ([], vals)).1

/-- Round up to a multiple of 16. -/
def up16 (n : Nat) : Nat := (n + 15) / 16 * 16

/-- A block in the compressed form of least body, ties to the earlier of ZERO, S24, BITMAP, DENSE (R543, R544). -/
def encodeBlock (fmt : Nat) (l : List Nat) : List Byte :=
  let bits := fmtW fmt
  let e := l.length
  let nz := (l.filter (· != 0)).length
  let dense := up16 (e * bits / 8)
  let s24 := up16 (e * bits / 16 + e / 8)
  let bmap := up16 (ceilDiv e 8 + ceilDiv (nz * bits) 8)
  let has24 := fits24 l
  if nz = 0 then tileHeader 0 fmt 0 0 (e / 128) 0
  else if has24 && decide (s24 ≤ bmap) && decide (s24 ≤ dense) then
    tileHeader 2 fmt 0 0 (e / 128) s24 ++ pad16 (body24 bits l)
  else if bmap ≤ dense then tileHeader 3 fmt 0 0 (e / 128) bmap ++ pad16 (bodyMap bits l)
  else tileHeader 1 fmt 0 0 (e / 128) dense ++ pad16 (pack bits l)

/-- BODY_LEN of a header. -/
def hdrLen (h : List Byte) : Nat := getLe h 0x08 4

/-- The codes of a compressed block of e elements; none where it is malformed (R545). -/
def decodeBlock (fmt e : Nat) (b : List Byte) : Option (List Nat) :=
  let bits := fmtW fmt
  let cls := getLe b 0x00 1
  let len := hdrLen b
  let body := slice b 16 len
  if getLe b 0x01 1 ≠ fmt ∨ getLe b 0x06 2 ≠ e / 128 then none
  else if cls = 0 then (if len = 0 then some (List.replicate e 0) else none)
  else if cls = 1 then (if len = up16 (e * bits / 8) then some (unpack bits e body) else none)
  else if cls = 2 then (if len = up16 (e * bits / 16 + e / 8) then decode24 bits e body else none)
  else if cls = 3 then decodeMap bits e body
  else none

end Sys2Proof.Machine
end

