-- ==== Sys2Proof/Machine/Num.lean ====
section
/-! DEFINITION. Values of narrow codes (R567–R569, R576), conversions to narrow formats (R571–R575, R548), pairwise trees and
reductions (R361–R368). -/

namespace Sys2Proof.Machine

/-- FP4 E2M1: fraction and exponent bits (R568). -/
def e2m1 : FFmt := { mb := 1, eb := 2 }
/-- FP8 E4M3. -/
def e4m3 : FFmt := { mb := 3, eb := 4 }
/-- FP8 E5M2. -/
def e5m2 : FFmt := { mb := 2, eb := 5 }

/-- The value of a code in a format without infinities. -/
def FFmt.decodeFinite (f : FFmt) (x : Nat) : FVal :=
  let neg := x.testBit (f.mb + f.eb)
  let ex := nbits x f.mb f.eb
  let fr := nbits x 0 f.mb
  if ex = 0 then .fin neg fr f.qmin else .fin neg (fr + 2 ^ f.mb) (f.qmin + (ex : Int) - 1)

/-- An integer as a value. -/
def intVal (v : Int) : FVal := .fin (decide (v < 0)) v.natAbs 0

/-- The integer that a code of an integer format stands for; the reserved ternary code reads as 0 (R569, R576). -/
def codeInt (fmt c : Nat) : Int :=
  if fmt = 0x02 then (c % 16 : Nat)
  else if fmt = 0x04 then (if c % 4 = 1 then 1 else if c % 4 = 3 then -1 else 0)
  else sext (fmtW fmt) c

/-- The value of a code (R567–R569). -/
def codeVal (fmt c : Nat) : FVal :=
  if fmt = 0x00 then e2m1.decodeFinite (c % 16)
  else if fmt = 0x05 then (if c % 128 = 127 then .nan false else e4m3.decodeFinite (c % 256))
  else if fmt = 0x06 then e5m2.decode (c % 256)
  else if fmt = 0x08 then bf16.decode (c % 2 ^ 16)
  else if fmt = 0x09 then fp32.decode (c % 2 ^ 32)
  else intVal (codeInt fmt c)

/-- A code as an FP32 number, exactly (R347, R548); the bits of a BF16 or FP32 NaN are kept (log entry 114). -/
def codeF (fmt c : Nat) : Nat :=
  if fmt = 0x08 then c % 2 ^ 16 * 2 ^ 16 else if fmt = 0x09 then c % 2 ^ 32 else (fp32.encode (codeVal fmt c)).1

/-- A code of the reserved ternary value (R576). -/
def ternReserved (fmt c : Nat) : Bool := fmt == 0x04 && c % 4 == 2

/-- Fraction bits, exponent of the last subnormal bit, and the code of the largest emitted magnitude of a narrow floating
format (R567, R573). -/
def narrowSpec (fmt : Nat) : Nat × Int × Nat :=
  if fmt = 0x00 then (1, -1, 7) else if fmt = 0x05 then (3, -9, 0x7E) else (2, -16, 0x7B)

/-- The largest emitted integer (R573). -/
def narrowIntMax (fmt : Nat) : Nat :=
  if fmt = 0x01 then 7 else if fmt = 0x07 then 127 else if fmt = 0x0A then 2 ^ 31 - 1 else if fmt = 0x0B then 2 ^ 63 - 1
  else 1

/-- The code of r × 2^q, for r rounded to mb fraction bits, as if the exponent had no upper bound. -/
def magCode (mb : Nat) (qmin : Int) (r : Nat) (q : Int) : Nat :=
  if r < 2 ^ mb then r
  else
    let (r, q) := if 2 ^ (mb + 1) ≤ r then (r / 2, q + 1) else (r, q)
    (q - qmin + 1).toNat * 2 ^ mb + (r - 2 ^ mb)

/-- The magnitude m × 2^e (with more below it where sticky) as a code of a narrow floating format, rounded to nearest even;
true where it saturates (R571, R573). -/
def narrowMag (fmt m : Nat) (e : Int) (sticky : Bool) : Nat × Bool :=
  let (mb, qmin, top) := narrowSpec fmt
  let q := if m = 0 then qmin else max qmin (lastPlace mb m e)
  let c := magCode mb qmin (roundAt m e q sticky).1 q
  if top < c then (top, true) else (c, false)

/-- A finite quotient to a narrow code by the quantiser's rules (R571–R573): zero of either sign takes the all-zero code. -/
def narrowFin (fmt : Nat) (neg : Bool) (m : Nat) (e : Int) (sticky : Bool) : Nat × Bool :=
  if fmtInt fmt then
    let r := (roundAt m e 0 sticky).1
    let (r, sat) := if narrowIntMax fmt < r then (narrowIntMax fmt, true) else (r, false)
    (wrapInt (fmtW fmt) (if neg then -(r : Int) else r), sat)
  else
    let (c, sat) := narrowMag fmt m e sticky
    (if c = 0 then 0 else c + (if neg then 2 ^ (fmtW fmt - 1) else 0), sat)

/-- The largest emitted code of a sign (R573). -/
def narrowTop (fmt : Nat) (neg : Bool) : Nat :=
  if fmtInt fmt then wrapInt (fmtW fmt) (if neg then -(narrowIntMax fmt : Int) else narrowIntMax fmt)
  else (narrowSpec fmt).2.2 + (if neg then 2 ^ (fmtW fmt - 1) else 0)

/-- The exact quotient x ÷ f, as bits for one rounding: sign, magnitude, exponent, sticky; or a special value. A zero, negative
or non-finite divisor, which the manual does not expect, divides as IEEE 754 has it. -/
inductive Quot where
  | fin (neg : Bool) (m : Nat) (e : Int) (sticky : Bool)
  | inf (neg : Bool)
  | nan
deriving DecidableEq, Repr

/-- x ÷ f. -/
def quotV (x f : FVal) : Quot :=
  match x, f with
  | .nan _, _ => .nan
  | _, .nan _ => .nan
  | .inf _, .inf _ => .nan
  | .inf n, .fin k _ _ => .inf (n != k)
  | .fin n _ _, .inf k => .fin (n != k) 0 0 false
  | .fin n m e, .fin k m2 e2 =>
    if m2 = 0 then (if m = 0 then .nan else .inf (n != k))
    else
      let (q, e3, st) := divBits m e m2 e2
      .fin (n != k) q e3 st

/-- x ÷ f converted to a narrow format by the quantiser's rules; zp is the zero point of UINT4. The code, and whether it
counts in QNT_SAT (R571–R575). -/
def toNarrow (fmt zp : Nat) (x f : FVal) : Nat × Bool :=
  if fmt = 0x02 then
    match quotV x f with
    | .nan => (0, true)
    | .inf n => (if n then 0 else 15, true)
    | .fin n m e st =>
      let r := (roundAt m e 0 st).1
      let v : Int := (if n then -(r : Int) else r) + zp
      if v < 0 then (0, true) else if 15 < v then (15, true) else (v.toNat, false)
  else
    match quotV x f with
    | .nan => if fmt = 0x05 ∨ fmt = 0x06 then (0x7F, false) else (0, true)
    | .inf n => (narrowTop fmt n, true)
    | .fin n m e st => if m = 0 && !st then (0, false) else narrowFin fmt n m e st

/-- The sign bit of a code. -/
def withSign (w : Nat) (neg : Bool) (c : Nat) : Nat := if neg then c + 2 ^ (w - 1) else c

/-- A value to BF16, a finite overflow saturated (R349, R525, R548): the code, and whether it saturated. -/
def bf16Sat (x : FVal) : Nat × Bool :=
  let (c, fl) := bf16.encode x
  match x with
  | .fin n _ _ => if fl.ovf then (withSign 16 n 0x7F7F, true) else (c, false)
  | _ => (c, false)

/-- An FP32 number to BF16. -/
def toBf16 (x : Nat) : Nat × Bool := bf16Sat (fp32.decode x)

/-- An exact integer saturated to an integer format. -/
def satInt (fmt : Nat) (v : Int) : Nat × Bool :=
  let top : Int := narrowIntMax fmt
  if top < v then (wrapInt (fmtW fmt) top, true)
  else if v < -top - 1 then (wrapInt (fmtW fmt) (-top - 1), true)
  else (wrapInt (fmtW fmt) v, false)

/-- A value converted once to the aggregate unit's DFMT (R548): the code, and whether it counts in SPIRE_AGG_SAT. -/
def toDfmt (fmt : Nat) (x : FVal) : Nat × Bool :=
  if fmt = 0x09 then ((fp32.encode x).1, false)
  else if fmt = 0x08 then bf16Sat x
  else match x with
    | .nan _ =>
      if fmtInt fmt then (0, true)
      else if fmt = 0x05 then (0x7F, false) else (0x7D + Config.unstated 2 0 % 3, false)
    | .inf n =>
      if fmtInt fmt then (wrapInt (fmtW fmt) (if n then -(narrowIntMax fmt : Int) - 1 else narrowIntMax fmt), true)
      else if fmt = 0x06 then (withSign 8 n 0x7C, false)
      else (Config.unstated 1 (if n then 1 else 0) % 256, false)
    | .fin n m e =>
      if fmtInt fmt then satInt fmt (if n then -((roundAt m e 0 false).1 : Int) else (roundAt m e 0 false).1)
      else
        let (c, sat) := narrowMag fmt m e false
        (withSign 8 n c, sat)

/-- An FP32 result to DFMT; FP32 itself is no conversion (log entry 114). -/
def toDfmtF (fmt x : Nat) : Nat × Bool := if fmt = 0x09 then (x % 2 ^ 32, false) else toDfmt fmt (fp32.decode x)

/-- An exact integer saturated once to an integer DFMT, or converted with one rounding to another (R554). -/
def intOut (fmt : Nat) (v : Int) : Nat × Bool := if fmtInt fmt then satInt fmt v else toDfmt fmt (intVal v)

/-- x ÷ n for a whole number n, in one FP32 division (R366). -/
def divNatF (x n : Nat) : Nat :=
  match fp32.decode x with
  | .fin s m e =>
    let (q, e3, st) := divBits m e n 0
    if m = 0 then (if s then 0x80000000 else 0) else (fp32.round s q e3 st).1
  | v => (fp32.encode v).1

/-- v ÷ n for whole numbers, in one rounding to FP32 (R554). -/
def divIntF (v : Int) (n : Nat) : Nat :=
  if v = 0 then 0
  else
    let (q, e3, st) := divBits v.natAbs 0 n 0
    (fp32.round (decide (v < 0)) q e3 st).1

/-- −0 becomes +0 (R368). -/
def posZero (x : Nat) : Nat := if x = 0x80000000 then 0 else x

/-! Trees and reductions. -/

/-- One level of the pairwise tree: pairs from the left, an odd last value unchanged (R363). -/
def treeLevel {α : Type} (f : α → α → α) : List α → List α
  | a :: b :: t => f a b :: treeLevel f t
  | l => l

/-- The pairwise tree with at most n levels (R363). -/
def treeN {α : Type} (f : α → α → α) : Nat → List α → List α
  | 0, l => l
  | n + 1, l => match l with
    | _ :: _ :: _ => treeN f n (treeLevel f l)
    | _ => l

/-- The pairwise tree over a list; d where it is empty (R363, R367). -/
def tree {α : Type} (f : α → α → α) (d : α) (l : List α) : α := (treeN f l.length l).headD d

/-- A value is not zero, of either sign; NaN is not zero. -/
def nonzeroF (x : Nat) : Bool := !isZeroF x

/-- The edge term of a row element (R361): red is a RED code, w the weight where one is present. -/
def edgeTerm (red : Nat) (w : Option Nat) (x : Nat) : Nat :=
  if red = 0x05 then (match w with | some w => mulF w x | none => x)
  else if red = 0x06 ∨ red = 0x07 then (match w with | some w => addF w x | none => addF 0 x)
  else if red = 0x08 then (match w with | some w => mulF w x | none => mulF oneF x)
  else if red = 0x09 then (if (match w with | some w => nonzeroF w | none => true) && nonzeroF x then oneF else 0)
  else x

/-- The combine of a reduction (R362). -/
def combineF (red x y : Nat) : Nat :=
  if red = 0x03 ∨ red = 0x07 ∨ red = 0x08 then maxF x y
  else if red = 0x04 ∨ red = 0x06 then minF x y
  else if red = 0x09 then (if nonzeroF x || nonzeroF y then oneF else 0)
  else addF x y

/-- The identity of a reduction (R367). -/
def redIdentity (red : Nat) : Nat :=
  if red = 0x03 ∨ red = 0x07 ∨ red = 0x08 then ninfF else if red = 0x04 ∨ red = 0x06 then infF else 0

/-- A result of SUM, MEAN or WSUM is never −0 (R368). -/
def redZero (red x : Nat) : Nat := if red = 0x01 ∨ red = 0x02 ∨ red = 0x05 then posZero x else x

/-- Weights are required, optional or forbidden for a reduction: 2, 1, 0 (the RED table). -/
def redWeights (red : Nat) : Nat := if red = 0x05 then 2 else if 0x06 ≤ red ∧ red ≤ 0x09 then 1 else 0

/-- Rows of values combined element by element by the tree (R363). -/
def treeRows (red : Nat) (rows : List (List Nat)) : List Nat :=
  tree (fun a b => List.zipWith (combineF red) a b) [] rows

end Sys2Proof.Machine
end

