-- ==== Sys2Proof/Machine/CoreInt.lean ====
section
/-! DEFINITION. Integer instructions of a core: register and immediate functions, compares and predicate logic (R448,
R451, R452). -/

namespace Sys2Proof.Machine

/-- A 64-bit function of two registers (OPC 0x01): the result goes to g[A]. -/
def State.alu (s : State) (i : Instr) (k : CoreRef) (g : Guard) (a b c : Reg) (f : W64 → W64 → W64) : Out :=
  s.fireCore i k g [a, b, c] [] fun r => r.wr a (f (r.rd b) (r.rd c))

/-- A 64-bit function of a register and the extended immediate (OPC 0x02). -/
def State.aluI (s : State) (i : Instr) (k : CoreRef) (g : Guard) (a b : Reg) (imm : W64) (f : W64 → W64 → W64) : Out :=
  s.fireCore i k g [a, b] [] fun r => r.wr a (f (r.rd b) imm)

/-- IMM sign-extended from bit 31 to 64 bits (R451). -/
def immX (imm : W32) : W64 := imm.signExtend 64

/-- The shift amount: the low six bits. -/
def shAmt (v : W64) : Nat := v.toNat % 64

/-- The greater or lesser of two values by a condition. -/
def pick (p : Bool) (x y : W64) : W64 := if p then x else y

/-- Unsigned quotient; all ones on division by zero (R452). -/
def divuW (x y : W64) : W64 := if y = 0 then BitVec.allOnes 64 else x / y
/-- Unsigned remainder; B on division by zero (R452). -/
def remuW (x y : W64) : W64 := if y = 0 then x else x % y
/-- Signed quotient rounded toward zero; −1 on division by zero (R452). -/
def divW (x y : W64) : W64 := if y = 0 then BitVec.allOnes 64 else BitVec.ofInt 64 (Int.tdiv x.toInt y.toInt)
/-- Signed remainder with the sign of B; B on division by zero (R452). -/
def remW (x y : W64) : W64 := if y = 0 then x else BitVec.ofInt 64 (Int.tmod x.toInt y.toInt)
/-- High 64 bits of the unsigned product. -/
def mulhuW (x y : W64) : W64 := BitVec.ofNat 64 (x.toNat * y.toNat / 2 ^ 64)
/-- High 64 bits of the signed product. -/
def mulhW (x y : W64) : W64 := BitVec.ofInt 64 (x.toInt * y.toInt / 2 ^ 64)
/-- Leading zeros of the low n bits. -/
def clzN : Nat → Nat → Nat
  | 0, _ => 0
  | n + 1, v => if v.testBit n then 0 else 1 + clzN n v

/-- The compare conditions of cmp, cmpi and bcc. -/
def condHolds (cd : Cond) (x y : W64) : Bool :=
  match cd with
  | .eq => x == y
  | .ne => x != y
  | .lt => x.slt y
  | .ge => !x.slt y
  | .ltu => x.ult y
  | .geu => !x.ult y

/-- add: Sum modulo 2^64 (R452). -/
def execAdd (k : CoreRef) (g : Guard) (a b c : Reg) (s : State) : Out :=
  s.alu (.add k g a b c) k g a b c fun x y => x + y

/-- sub: Difference modulo 2^64 (R452). -/
def execSub (k : CoreRef) (g : Guard) (a b c : Reg) (s : State) : Out :=
  s.alu (.sub k g a b c) k g a b c fun x y => x - y

/-- and: Bitwise and (R452). -/
def execAnd (k : CoreRef) (g : Guard) (a b c : Reg) (s : State) : Out :=
  s.alu (.and k g a b c) k g a b c fun x y => x &&& y

/-- or: Bitwise or (R452). -/
def execOr (k : CoreRef) (g : Guard) (a b c : Reg) (s : State) : Out :=
  s.alu (.or k g a b c) k g a b c fun x y => x ||| y

/-- xor: Bitwise exclusive or (R452). -/
def execXor (k : CoreRef) (g : Guard) (a b c : Reg) (s : State) : Out :=
  s.alu (.xor k g a b c) k g a b c fun x y => x ^^^ y

/-- shl: Shift left by C[5:0] (R452). -/
def execShl (k : CoreRef) (g : Guard) (a b c : Reg) (s : State) : Out :=
  s.alu (.shl k g a b c) k g a b c fun x y => x <<< shAmt y

/-- shr: Shift right by C[5:0], zero fill (R452). -/
def execShr (k : CoreRef) (g : Guard) (a b c : Reg) (s : State) : Out :=
  s.alu (.shr k g a b c) k g a b c fun x y => x >>> shAmt y

/-- sra: Shift right by C[5:0], sign fill (R452). -/
def execSra (k : CoreRef) (g : Guard) (a b c : Reg) (s : State) : Out :=
  s.alu (.sra k g a b c) k g a b c fun x y => x.sshiftRight (shAmt y)

/-- mul: Low 64 bits of the product (R452). -/
def execMul (k : CoreRef) (g : Guard) (a b c : Reg) (s : State) : Out :=
  s.alu (.mul k g a b c) k g a b c fun x y => x * y

/-- mulhu: High 64 bits, unsigned (R452). -/
def execMulhu (k : CoreRef) (g : Guard) (a b c : Reg) (s : State) : Out :=
  s.alu (.mulhu k g a b c) k g a b c fun x y => mulhuW x y

/-- mulh: High 64 bits, signed (R452). -/
def execMulh (k : CoreRef) (g : Guard) (a b c : Reg) (s : State) : Out :=
  s.alu (.mulh k g a b c) k g a b c fun x y => mulhW x y

/-- divu: Unsigned quotient (R452). -/
def execDivu (k : CoreRef) (g : Guard) (a b c : Reg) (s : State) : Out :=
  s.alu (.divu k g a b c) k g a b c fun x y => divuW x y

/-- remu: Unsigned remainder (R452). -/
def execRemu (k : CoreRef) (g : Guard) (a b c : Reg) (s : State) : Out :=
  s.alu (.remu k g a b c) k g a b c fun x y => remuW x y

/-- div: Signed quotient (R452). -/
def execDiv (k : CoreRef) (g : Guard) (a b c : Reg) (s : State) : Out :=
  s.alu (.div k g a b c) k g a b c fun x y => divW x y

/-- rem: Signed remainder (R452). -/
def execRem (k : CoreRef) (g : Guard) (a b c : Reg) (s : State) : Out :=
  s.alu (.rem k g a b c) k g a b c fun x y => remW x y

/-- minu: Unsigned minimum (R452). -/
def execMinu (k : CoreRef) (g : Guard) (a b c : Reg) (s : State) : Out :=
  s.alu (.minu k g a b c) k g a b c fun x y => pick (x.ult y) x y

/-- maxu: Unsigned maximum (R452). -/
def execMaxu (k : CoreRef) (g : Guard) (a b c : Reg) (s : State) : Out :=
  s.alu (.maxu k g a b c) k g a b c fun x y => pick (x.ult y) y x

/-- min: Signed minimum (R452). -/
def execMin (k : CoreRef) (g : Guard) (a b c : Reg) (s : State) : Out :=
  s.alu (.min k g a b c) k g a b c fun x y => pick (x.slt y) x y

/-- max: Signed maximum (R452). -/
def execMax (k : CoreRef) (g : Guard) (a b c : Reg) (s : State) : Out :=
  s.alu (.max k g a b c) k g a b c fun x y => pick (x.slt y) y x

/-- popc: Number of 1 bits (R452). -/
def execPopc (k : CoreRef) (g : Guard) (a b : Reg) (s : State) : Out :=
  s.alu (.popc k g a b) k g a b b fun x _ => BitVec.ofNat 64 (popCount 64 x.toNat)

/-- clz: Leading zeros, 0–64 (R452). -/
def execClz (k : CoreRef) (g : Guard) (a b : Reg) (s : State) : Out :=
  s.alu (.clz k g a b) k g a b b fun x _ => BitVec.ofNat 64 (clzN 64 x.toNat)

/-- addi: B + IMM (R451). -/
def execAddi (k : CoreRef) (g : Guard) (a b : Reg) (imm : W32) (s : State) : Out :=
  s.aluI (.addi k g a b imm) k g a b (immX imm) fun x y => x + y

/-- andi: B and IMM (R451). -/
def execAndi (k : CoreRef) (g : Guard) (a b : Reg) (imm : W32) (s : State) : Out :=
  s.aluI (.andi k g a b imm) k g a b (immX imm) fun x y => x &&& y

/-- ori: B or IMM (R451). -/
def execOri (k : CoreRef) (g : Guard) (a b : Reg) (imm : W32) (s : State) : Out :=
  s.aluI (.ori k g a b imm) k g a b (immX imm) fun x y => x ||| y

/-- xori: B xor IMM (R451). -/
def execXori (k : CoreRef) (g : Guard) (a b : Reg) (imm : W32) (s : State) : Out :=
  s.aluI (.xori k g a b imm) k g a b (immX imm) fun x y => x ^^^ y

/-- shli: B << IMM[5:0] (R451). -/
def execShli (k : CoreRef) (g : Guard) (a b : Reg) (imm : W32) (s : State) : Out :=
  s.aluI (.shli k g a b imm) k g a b (immX imm) fun x y => x <<< shAmt y

/-- shri: B >> IMM[5:0], zero fill (R451). -/
def execShri (k : CoreRef) (g : Guard) (a b : Reg) (imm : W32) (s : State) : Out :=
  s.aluI (.shri k g a b imm) k g a b (immX imm) fun x y => x >>> shAmt y

/-- srai: B >> IMM[5:0], sign fill (R451). -/
def execSrai (k : CoreRef) (g : Guard) (a b : Reg) (imm : W32) (s : State) : Out :=
  s.aluI (.srai k g a b imm) k g a b (immX imm) fun x y => x.sshiftRight (shAmt y)

/-- muli: Low 64 bits of B × IMM (R451). -/
def execMuli (k : CoreRef) (g : Guard) (a b : Reg) (imm : W32) (s : State) : Out :=
  s.aluI (.muli k g a b imm) k g a b (immX imm) fun x y => x * y

/-- li: the extended IMM (R451). -/
def execLi (k : CoreRef) (g : Guard) (a : Reg) (imm : W32) (s : State) : Out :=
  s.aluI (.li k g a imm) k g a 0 (immX imm) fun _ y => y

/-- lih: IMM in the high word above B's low word, not extended (R451). -/
def execLih (k : CoreRef) (g : Guard) (a b : Reg) (imm : W32) (s : State) : Out :=
  s.aluI (.lih k g a b imm) k g a b (imm.zeroExtend 64) fun x y => (y <<< 32) ||| (x &&& 0xFFFFFFFF)

/-- cmp: p[A] takes the condition between B and C (R448). -/
def execCmp (k : CoreRef) (g : Guard) (cd : Cond) (p : PReg) (b c : Reg) (s : State) : Out :=
  s.fireCore (.cmp k g cd p b c) k g [b, c] [] fun r => r.wp p (condHolds cd (r.rd b) (r.rd c))

/-- cmpi: p[A] takes the condition between B and the extended IMM (R448, R451). -/
def execCmpi (k : CoreRef) (g : Guard) (cd : Cond) (p : PReg) (b : Reg) (imm : W32) (s : State) : Out :=
  s.fireCore (.cmpi k g cd p b imm) k g [b] [] fun r => r.wp p (condHolds cd (r.rd b) (immX imm))

/-- pand: predicate logic of B and C (R448). -/
def execPand (k : CoreRef) (g : Guard) (p b c : PReg) (s : State) : Out :=
  s.fireCore (.pand k g p b c) k g [] [] fun r => let x := r.rp b; let y := r.rp c; r.wp p (x && y)

/-- por: predicate logic of B and C (R448). -/
def execPor (k : CoreRef) (g : Guard) (p b c : PReg) (s : State) : Out :=
  s.fireCore (.por k g p b c) k g [] [] fun r => let x := r.rp b; let y := r.rp c; r.wp p (x || y)

/-- pxor: predicate logic of B and C (R448). -/
def execPxor (k : CoreRef) (g : Guard) (p b c : PReg) (s : State) : Out :=
  s.fireCore (.pxor k g p b c) k g [] [] fun r => let x := r.rp b; let y := r.rp c; r.wp p (x != y)

/-- pandn: predicate logic of B and C (R448). -/
def execPandn (k : CoreRef) (g : Guard) (p b c : PReg) (s : State) : Out :=
  s.fireCore (.pandn k g p b c) k g [] [] fun r => let x := r.rp b; let y := r.rp c; r.wp p (x && !y)

end Sys2Proof.Machine
end

