-- ==== Sys2Proof/Machine/CoreMem.lean ====
section
/-! DEFINITION. Memory, branch, descriptor, system and fence instructions of a core (R420–R425, R462–R472, R484, R489–R492),
and the arrival of a load (R420). -/

namespace Sys2Proof.Machine

/-- Reading a core data memory. -/
def State.dataRead (s : State) (k a n : Nat) : Nat := leNat (Mem.readN s.dmem (k * 32768 + a) n)
/-- Writing a core data memory. -/
def State.dataWrite (s : State) (k a : Nat) (b : List Byte) : State := { s with dmem := Mem.writeN s.dmem (k * 32768 + a) b }

/-- The address of a memory instruction: g[B] + OFF modulo 2^64 (R462). -/
def memAddr (c : Core) (b : Reg) (off : W32) : Nat := (c.rd b + off.signExtend 64).toNat

/-- Where a core's access goes (R425, R462, R463). -/
inductive Reach where
  | data
  | store
  | tier
  /-- An operand check fails: alignment, range, another Spire's store, or banks outside the context's. -/
  | bad
deriving DecidableEq, Repr

/-- The operand checks of a core's access of n bytes at address a (R422, R425, R462, R463). -/
def State.reach (s : State) (k ctx : Nat) (sp : Space) (a n : Nat) : Reach :=
  if a % n ≠ 0 then .bad
  else match sp with
    | .data => if a < 32768 then .data else .bad
    | .dev =>
      if 2 ^ 48 ≤ a then .bad
      else if storeBase ≤ a ∧ a < storeBase + 2 ^ 29 then (if s.inBanks ctx (k / 16) a n then .store else .bad)
      else .tier
    | .desc => .bad

/-- A loaded value of n bytes, sign-extended where asked (R465). -/
def loadValue (sz : ASize) (sign : Bool) (v : Nat) : W64 :=
  if sign then BitVec.ofInt 64 (sext (8 * sz.bytes) v) else BitVec.ofNat 64 v

/-- A loaded value goes to its register. -/
def Core.putLoad (c : Core) (p : PendLoad) : Core :=
  if p.desc then c.wrd (Fin.ofNat 16 p.num) (BitVec.ofNat 512 p.val) else c.wr (Fin.ofNat 32 p.num) (BitVec.ofNat 64 p.val)

/-- A load whose value is on its way: the core goes on (R420). -/
def State.pendLoad (s : State) (n : Nat) (p : PendLoad) : State :=
  let c := s.core n
  s.setCore n { c.step with pend := c.pend ++ [p] }

/-- A load of n bytes by the core of item it: v turns the bytes' number into what the register takes. -/
def State.coreLoad (s : State) (k : Nat) (it : Item) (sp : Space) (a n : Nat) (desc : Bool) (reg : Nat) (v : Nat → Nat) :
    State :=
  let c := s.core k
  match s.reach k it.ctx sp a n with
  | .bad => s.illegalAt k it
  | .data => s.setCore k (c.putLoad { desc := desc, num := reg, val := v (s.dataRead k a n) }).step
  | .store => s.pendLoad k { desc := desc, num := reg, val := v (leNat (s.peek a n)) }
  | .tier =>
    match s.checkAcc it.ctx a n .rd with
    | some e => s.failAcc it.key it.asn e
    | none =>
      let (b, t) := s.readTier a n
      t.pendLoad k { desc := desc, num := reg, val := v (leNat b) }

/-- A store of bytes by the core of item it. -/
def State.coreStore (s : State) (k : Nat) (it : Item) (sp : Space) (a : Nat) (b : List Byte) : State :=
  let c := s.core k
  match s.reach k it.ctx sp a b.length with
  | .bad => s.illegalAt k it
  | .data => (s.dataWrite k a b).setCore k c.step
  | .store => (s.storeWrite a b).setCore k c.step
  | .tier =>
    match s.checkAcc it.ctx a b.length .wr with
    | some e => s.failAcc it.key it.asn e
    | none =>
      let t := s.taskWrite it.key it.asn a b
      t.setCore k (t.core k).step

/-- ld: 1 to 8 bytes from the data memory, the Spire store or a tier (R462, R463, R465). -/
def execLd (k : CoreRef) (g : Guard) (sz : ASize) (sign : Bool) (sp : Space) (a b : Reg) (off : W32) (s : State) : Out :=
  s.fire (.ld k g sz sign sp a b off) k g [a, b] [] fun t n c it =>
    t.coreLoad n it sp (memAddr c b off) sz.bytes false a.val fun v => (loadValue sz sign v).toNat

/-- st: 1 to 8 bytes (R462, R463). -/
def execSt (k : CoreRef) (g : Guard) (sz : ASize) (sp : Space) (b c : Reg) (off : W32) (s : State) : Out :=
  s.fire (.st k g sz sp b c off) k g [b, c] [] fun t n r it =>
    t.coreStore n it sp (memAddr r b off) (natLe sz.bytes (r.rd c).toNat)

/-- dld from the descriptor section (R464). -/
def State.descLoad (s : State) (k : Nat) (it : Item) (off d : Nat) : State :=
  let p := s.prog it.ctx
  if off % 64 ≠ 0 ∨ p.descLen ≤ off then s.illegalAt k it
  else if s.imageLost it.ctx (p.descOff + off) 64 then s.imageError it.key it.asn it.ctx (p.descOff + off) 64
  else
    let t := s.imageRead it.ctx (p.descOff + off) 64
    t.pendLoad k { desc := true, num := d, val := leNat (t.imageBytes it.ctx (p.descOff + off) 64) }

/-- dld: 64 bytes into a descriptor register (R422, R462–R464). -/
def execDld (k : CoreRef) (g : Guard) (sp : Space) (d : DReg) (b : Reg) (off : W32) (s : State) : Out :=
  s.fire (.dld k g sp d b off) k g [b] [d] fun t n c it =>
    if sp = .desc then t.descLoad n it (memAddr c b off) d.val
    else t.coreLoad n it sp (memAddr c b off) 64 true d.val id

/-- dst: the 64 bytes of a descriptor register (R422, R462, R463). -/
def execDst (k : CoreRef) (g : Guard) (sp : Space) (d : DReg) (b : Reg) (off : W32) (s : State) : Out :=
  s.fire (.dst k g sp d b off) k g [b] [d] fun t n c it =>
    t.coreStore n it sp (memAddr c b off) (natLe 64 (c.rdd d).toNat)

/-- The oldest load in flight of a core arrives (R420). -/
def execLoadComplete (k : CoreRef) (s : State) : Out :=
  if !s.works then .next s else
  let n := coreIdx k
  let c := s.core n
  match c.pend with
  | [] => .next s
  | p :: t => .next (s.setCore n ({ c with pend := t }.putLoad p))

/-! Branches. -/

/-- A PC moved by a signed byte offset, modulo 2^64. -/
def pcPlus (pc : Nat) (imm : W32) : Nat := (BitVec.ofNat 64 pc + immX imm).toNat

/-- b: to the PC of the branch plus IMM (R470). -/
def execB (k : CoreRef) (g : Guard) (imm : W32) (s : State) : Out :=
  s.fire (.b k g imm) k g [] [] fun t n c _ => t.setCore n { c with pc := pcPlus c.pc imm }

/-- bcc: as b, where the condition holds between g[B] and g[C] (R470). -/
def execBcc (k : CoreRef) (g : Guard) (cd : Cond) (b c : Reg) (imm : W32) (s : State) : Out :=
  s.fire (.bcc k g cd b c imm) k g [b, c] [] fun t n r _ =>
    t.setCore n (if condHolds cd (r.rd b) (r.rd c) then { r with pc := pcPlus r.pc imm } else r.step)

/-- jal: PC + 8 to g[A], then to PC + IMM (R470). -/
def execJal (k : CoreRef) (g : Guard) (a : Reg) (imm : W32) (s : State) : Out :=
  s.fire (.jal k g a imm) k g [a] [] fun t n c _ =>
    t.setCore n { c.wr a (BitVec.ofNat 64 (c.pc + 8)) with pc := pcPlus c.pc imm }

/-- jr: to g[B] + IMM, a multiple of 8 (R470, R471). -/
def execJr (k : CoreRef) (g : Guard) (b : Reg) (imm : W32) (s : State) : Out :=
  s.fire (.jr k g b imm) k g [b] [] fun t n c it =>
    let a := (c.rd b + immX imm).toNat
    if a % 8 ≠ 0 then t.illegalAt n it else t.setCore n { c with pc := a }

/-! Descriptor registers. -/

/-- The bytes of a descriptor register (R443). -/
def descBytes (d : BitVec 512) : List Byte := natLe 64 d.toNat
/-- A descriptor register of bytes. -/
def descOf (b : List Byte) : BitVec 512 := BitVec.ofNat 512 (leNat b)

/-- dset: the low SIZE bytes of g[B] at byte offset BYTE of d[A] (R466). -/
def execDset (k : CoreRef) (g : Guard) (sz : ASize) (d : DReg) (b : Reg) (byte : BitVec 6) (s : State) : Out :=
  s.fireCore (.dset k g sz d b byte) k g [b] [d] fun c =>
    c.wrd d (descOf (putBytes (descBytes (c.rdd d)) byte.toNat (natLe sz.bytes (c.rd b).toNat)))

/-- dget: SIZE bytes at BYTE of d[B] into g[A], zero-extended (R466). -/
def execDget (k : CoreRef) (g : Guard) (sz : ASize) (a : Reg) (d : DReg) (byte : BitVec 6) (s : State) : Out :=
  s.fireCore (.dget k g sz a d byte) k g [a] [d] fun c =>
    c.wr a (BitVec.ofNat 64 (getLe (descBytes (c.rdd d)) byte.toNat sz.bytes))

/-- dclr: zeros into all 64 bytes (R466). -/
def execDclr (k : CoreRef) (g : Guard) (d : DReg) (s : State) : Out :=
  s.fireCore (.dclr k g d) k g [] [d] fun c => c.wrd d 0

/-- dmov: d[B] into d[A] (R466). -/
def execDmov (k : CoreRef) (g : Guard) (d e : DReg) (s : State) : Out :=
  s.fireCore (.dmov k g d e) k g [] [d, e] fun c => c.wrd d (c.rdd e)

/-! Fences. A core's stores are visible to every agent as soon as they are made (log entry 14), so a fence retires at
once. -/

/-- fence.spire (R484). -/
def execFenceSpire (k : CoreRef) (g : Guard) (s : State) : Out := s.fireCore (.fenceSpire k g) k g [] [] id
/-- fence.dev (R484). -/
def execFenceDev (k : CoreRef) (g : Guard) (s : State) : Out := s.fireCore (.fenceDev k g) k g [] [] id
/-- fence.sys (R484). -/
def execFenceSys (k : CoreRef) (g : Guard) (s : State) : Out := s.fireCore (.fenceSys k g) k g [] [] id

/-! Special registers and the program trace. -/

/-- A special register (chapter "The Spaner instruction set"); none where the number is reserved. -/
def State.special (s : State) (k : Nat) (c : Core) (it : Item) (sel : Nat) : Option Nat :=
  let t := s.task? it.key it.asn
  if sel = 0x000 then some it.ctx
  else if sel = 0x001 then some it.asn
  else if sel = 0x002 then some it.num
  else if sel = 0x003 then some it.frag
  else if sel = 0x004 then some (k / 16)
  else if sel = 0x005 then some (k % 16)
  else if sel = 0x006 then some s.tick
  else if sel = 0x007 then some it.prio
  else if sel = 0x008 then some ((t.map (·.mode)).getD 0)
  else if sel = 0x009 then some (match t with
    | some x => if nbit x.flags 2 then x.deadline else 2 ^ 64 - 1
    | none => 2 ^ 64 - 1)
  else if sel = 0x010 then some c.fpflags
  else none

/-- csrr: a special register to g[A]; a reserved one faults (R489). -/
def execCsrr (k : CoreRef) (g : Guard) (a : Reg) (sel : BitVec 12) (s : State) : Out :=
  s.fire (.csrr k g a sel) k g [a] [] fun t n c it =>
    match t.special n c it sel.toNat with
    | some v => t.setCore n (c.wr a (BitVec.ofNat 64 v)).step
    | none => t.illegalAt n it

/-- csrw: FPFLAGS from g[B]; any other register, or a bit above bit 4, faults (R489). -/
def execCsrw (k : CoreRef) (g : Guard) (b : Reg) (sel : BitVec 12) (s : State) : Out :=
  s.fire (.csrw k g b sel) k g [b] [] fun t n c it =>
    if sel ≠ 0x010 ∨ 32 ≤ (c.rd b).toNat then t.illegalAt n it
    else t.setCore n { c with fpflags := (c.rd b).toNat }.step

/-- trace: one entry to the context's program trace ring (R490–R492). -/
def execTrace (k : CoreRef) (g : Guard) (b : Reg) (tag : BitVec 16) (s : State) : Out :=
  s.fire (.trace k g b tag) k g [b] [] fun t n c it =>
    let e := natLe 8 t.tick ++ natLe 8 (c.rd b).toNat ++ natLe 8 it.asn ++ natLe 4 it.num ++ natLe 2 tag.toNat
      ++ natLe 1 (n / 16) ++ natLe 1 (n % 16)
    (t.setCore n c.step).ringPut it.ctx (aCtx it.ctx 0x030) (aCtx it.ctx 0x038) (aCtx it.ctx 0x03C) true e

end Sys2Proof.Machine
end

