-- ==== Sys2Proof/Machine/CoreSync.lean ====
section
/-! DEFINITION. Synchronisation instructions of a core (R449, R477–R483, R742–R745, R760), the retirement of a woken wait
(R749–R751), and the stall limit with its dependency snapshot (R764–R766). -/

namespace Sys2Proof.Machine

/-- The identifier that an S- or E-format instruction names (R449). -/
def vcOf (c : Core) (vc : BitVec 16) (vcreg : Bool) (b : Reg) : Nat :=
  (vc.toNat + if vcreg then (c.rd b).toNat % 65536 else 0) % 65536

/-- The value of an S-format instruction: IMMV or g[C]. -/
def sopValue (c : Core) (o : SOp) : Nat := if o.imm then o.immv.toNat else (c.rd o.c).toNat

/-- The core of an item retires its instruction. -/
def State.retire (s : State) (k : Nat) : State := s.setCore k (s.core k).step

/-- sig: adds the value, 1 to 2^32 − 1, to a counter (R477, R478). -/
def execSig (k : CoreRef) (g : Guard) (o : SOp) (s : State) : Out :=
  s.fire (.sig k g o) k g [o.b, o.c] [] fun t n c it =>
    let v := sopValue c o
    let vc := vcOf c o.vc o.vcreg o.b
    match t.translate it.ctx vc with
    | some (.ctr p) =>
      if v = 0 ∨ 2 ^ 32 ≤ v then t.illegalAt n it
      else (t.addCtr it.ctx it.key it.asn vc p v).retire n
    | _ => t.illegalAt n it

/-- A wait reaches the home of its counter or lane group: it retires at once where its condition holds, and otherwise
registers or is held for want of an entry (R748–R750). -/
def State.waitAt (s : State) (w : Waiter) : State :=
  if w.target ≤ s.waitValue w then
    s.passWait w
  else
    let t := match s.register w with
      | some u => u
      | none => { s.bump (aSync 0x104) with poolHeld := s.poolHeld ++ [w] }
    t.setCore w.core { t.core w.core with hold := some .wait, since := t.tick }

/-- A wait on a counter or lane group by the core of item it. -/
def State.waitOn (s : State) (k : Nat) (it : Item) (kind vc phys lanes target : Nat) : State :=
  s.waitAt { core := k, key := it.key, asn := it.asn, ctx := it.ctx, kind := kind, vc := vc, phys := phys, lanes := lanes,
             target := target, since := s.tick }

/-- wait.ge: holds until the counter is at least the value (R479). -/
def execWaitGe (k : CoreRef) (g : Guard) (o : SOp) (s : State) : Out :=
  s.fire (.waitGe k g o) k g [o.b, o.c] [] fun t n c it =>
    let vc := vcOf c o.vc o.vcreg o.b
    match t.translate it.ctx vc with
    | some (.ctr p) => t.waitOn n it 1 vc p 0 (sopValue c o)
    | _ => t.illegalAt n it

/-- wait.c: as wait.ge, then subtracts the value in the same step; only under the T7 convention (R480, R760). -/
def execWaitC (k : CoreRef) (g : Guard) (o : SOp) (s : State) : Out :=
  s.fire (.waitC k g o) k g [o.b, o.c] [] fun t n c it =>
    let vc := vcOf c o.vc o.vcreg o.b
    match t.translate it.ctx vc, t.task? it.key it.asn with
    | some (.ctr p), some x => if x.mode / 4 % 2 = 0 then t.illegalAt n it else t.waitOn n it 2 vc p 0 (sopValue c o)
    | _, _ => t.illegalAt n it

/-- arrive: raises one lane of a lane group by 1 (R481, R744). -/
def execArrive (k : CoreRef) (g : Guard) (o : SOp) (s : State) : Out :=
  s.fire (.arrive k g o) k g [o.b, o.c] [] fun t n c it =>
    let v := sopValue c o
    let vc := vcOf c o.vc o.vcreg o.b
    match t.translate it.ctx vc with
    | some (.group p len) =>
      if 256 ≤ v ∨ len ≤ v then t.illegalAt n it else (t.addCtr it.ctx it.key it.asn vc (p + v) 1).retire n
    | _ => t.illegalAt n it

/-- wait.b: holds until the least lane of the group is at least the value (R745). -/
def execWaitB (k : CoreRef) (g : Guard) (o : SOp) (s : State) : Out :=
  s.fire (.waitB k g o) k g [o.b, o.c] [] fun t n c it =>
    let vc := vcOf c o.vc o.vcreg o.b
    match t.translate it.ctx vc with
    | some (.group p len) => t.waitOn n it 3 vc p len (sopValue c o)
    | _ => t.illegalAt n it

/-- cread: the counter's value, or the least lane of a group, to g[A] (R482, R743). -/
def execCread (k : CoreRef) (g : Guard) (a : Reg) (o : SOp) (s : State) : Out :=
  s.fire (.cread k g a o) k g [a, o.b] [] fun t n c it =>
    match t.translate it.ctx (vcOf c o.vc o.vcreg o.b) with
    | some (.ctr p) => t.setCore n (c.wr a (BitVec.ofNat 64 (t.ctr p))).step
    | some (.group p len) => t.setCore n (c.wr a (BitVec.ofNat 64 (t.leastLane p len).1)).step
    | none => t.illegalAt n it

/-- A woken wait retires and its entry is freed; a wait held for want of an entry takes it (R749–R751). -/
def execWaitRetire (k : CoreRef) (s : State) : Out :=
  if !s.works then .next s else
  let n := coreIdx k
  let c := s.core n
  if c.hold = some .wait && (s.waiters.any fun w => w.core == n && w.woken) then
    .next ((s.setCore n { c.step with hold := none }).dropWaiter n)
  else .next s

end Sys2Proof.Machine
end

