-- ==== Sys2Proof/Machine/Work.lean ====
section
/-! DEFINITION. Work dispatch (chapter "Work dispatch and hub calving", R426–R436, R486–R488, R868): expanding tasks, calving,
placing items in next slots by the shares of R695, starting and ending items, spawns and retries. -/

namespace Sys2Proof.Machine

/-! Entering the ready lists. -/

/-- The reserved bits of a work-item record are 0 and its CONTEXT is the task's (R686, R689). -/
def recordOk (rec : List Byte) (ctx : Nat) : Bool :=
  decide (getLe rec 0x3C 1 < 8) && getLe rec 0x3D 1 == ctx && decide (getLe rec 0x3E 1 < 2) && getLe rec 0x3F 1 == 0

/-- A record that keeps recordOk becomes an entry of the ready lists, calved where its SPLIT flag and degree say so (R689, R703, R707). -/
def State.pushRecord (s : State) (t : Task) (num prio : Nat) (rec : List Byte) : State :=
  let d := getLe rec 0x38 4
  let calved := nbit (getLe rec 0x3E 1) 0 && decide (t.calve < d)
  let e : Entry := { id := s.entrySeq, kind := if calved then 1 else 0, key := t.key, asn := t.asn, ctx := t.ctx,
                     prio := prio, num := num, degree := d, words := rec, frags := if calved then ceilDiv d t.fragment else 0 }
  let s1 := { s with ready := s.ready ++ [e], entrySeq := s.entrySeq + 1 }
  if calved then ((s1.bump (aDisp 0x104)).traceEnt 0x04 e e.frags).updateBp else s1.updateBp

/-- A task's items enter the ready lists in array order while entries are free and level B does not hold (R688, R692,
R699). -/
def State.expandLoop : Nat → State → Nat → Nat → State
  | 0, s, _, _ => s
  | n + 1, s, key, asn =>
    match s.task? key asn with
    | none => s
    | some t =>
      if t.ended || t.retryDue || t.itemCount ≤ t.expanded || s.rb (aDisp 0x004) 31 || s.freeEntries = 0 then s
      else
        let a := t.itemSrc + 64 * t.expanded
        match s.checkAcc t.ctx a 64 .rd with
        | some e => s.failAcc key asn e
        | none =>
          let (rec, s1) := s.readTier a 64
          if !recordOk rec t.ctx then s1.failTask key asn stIllegal 0xFFFF
          else
            let s2 := s1.pushRecord t t.expanded t.prio rec
            State.expandLoop n (s2.modTask key asn fun t => { t with expanded := t.expanded + 1 }) key asn

/-- The item array lies within one input or in-out buffer (R688). -/
def Task.arrayDeclared (t : Task) : Bool :=
  t.bufs.any fun b => (b.kind == 0 || b.kind == 2) && inside t.itemSrc (64 * t.itemCount) b.addr b.len

/-- An accepted task may go on with its expansion now. -/
def Task.expandable (t : Task) : Bool :=
  t.accepted && !t.ended && !t.retryDue && !t.cancelled && t.status.isNone && decide (t.expanded < t.itemCount)

/-- An earlier task does not stand before task t at the ready lists: it has expanded or ended, it is not accepted yet, it waits for a retry
or with a held context, or it waits for shadow space (R692, R702, R876). A waiting task of a T7SYNC context stands only before tasks of its
context (R761). -/
def State.letsPass (s : State) (e t : Task) : Bool :=
  !e.accepted || e.ended || e.retryDue || decide (e.itemCount ≤ e.expanded) || s.ctxHeld.testBit e.ctx || (e.expanded == 0 && e.unreserved)
    || (e.mode / 4 % 2 == 1 && e.ctx != t.ctx && e.expanded == 0)

/-- Every task accepted before a task that needs shadow space has reserved its own (R876). -/
def State.shadowTurn (s : State) (t : Task) : Bool :=
  (s.earlier t.key t.asn).all fun e => !(e.accepted && !e.ended && e.unreserved)

/-- The order rules let a task expand (R692, R702); one of a T7SYNC context waits for the end of every earlier task of the context,
accepted yet or not (R761). -/
def State.turnOf (s : State) (t : Task) : Bool :=
  (s.earlier t.key t.asn).all fun e =>
    if t.mode / 4 % 2 = 1 && e.ctx == t.ctx then e.ended else s.letsPass e t

/-- The first expansion of a task: its array is declared (R688), and an IN_PLACE task reserves its shadow space (R876). -/
def State.expandFirst (s : State) (t : Task) : State :=
  let need := t.shadowNeed
  if !t.arrayDeclared then s.failTask t.key t.asn stPerm 0xFFFD
  else if s.shadowPool < need then s.failTask t.key t.asn stPerm 0xFFFA
  else if 0 < need ∧ (s.shadowTurn t = false ∨ s.shadowPool < s.shadowUsed + need) then
    (if t.waited then s
     else (s.bump (aErr 0x11C)).modTask t.key t.asn fun t => { t with waited := true })
  else
    let s1 := s.modTask t.key t.asn fun t => { t with reserved := need }
    s1.expandLoop (min t.itemCount 262144) t.key t.asn

/-- The dispatcher reads a task's item array into the ready lists (R688, R692, R699, R702). -/
def execTaskExpand (key : Fin 16) (asn : Nat) (s : State) : Out :=
  match s.task? key.val asn with
  | none => .next s
  | some t =>
    if !s.works || !t.expandable || s.ctxHeld.testBit t.ctx || s.rb (aDisp 0x004) 31 || !s.turnOf t then .next s
    else if t.expanded = 0 && t.reserved = 0 then .next (s.expandFirst t)
    else .next (s.expandLoop (min t.itemCount 262144) key.val asn)

/-- A stopped task is restored and expanded again from its journal record (R868–R871): its shadows go back, its log is
discarded, and its operations have run on to completion. -/
def execTaskRetry (key : Fin 16) (asn : Nat) (s : State) : Out :=
  match s.task? key.val asn with
  | none => .next s
  | some t =>
    if !s.works || s.ctxHeld.testBit t.ctx || !t.retryDue || t.cancelled || s.underWay key.val asn then .next s
    else
      let s1 := s.restoreShadows t
      let s2 := (s1.bump (aErr 0x108)).modTask key.val asn fun t =>
        { t with retryDue := false, expanded := 0, spawned := 0, log := [], logSpace := 0 }
      .next (s2.expandLoop (min t.itemCount 262144) key.val asn)

/-! Placing. -/

/-- An entry that can be placed now: a calving entry whose fragments have all been placed waits for their ends. -/
def Entry.placeable (e : Entry) : Bool := e.kind != 1 || !e.back.isEmpty || decide (e.nextFrag < e.frags)

/-- CTX_SPIRES of a context. -/
def State.spireMask (s : State) (c : Nat) : Nat := s.pair (aCtx c 0x018)

/-- A context's items may run in a Spire (R694, R696). -/
def State.allowed (s : State) (c sp : Nat) : Bool :=
  let m := s.spireMask c
  m.testBit sp || (List.range 64).all fun i => !(m.testBit i && s.spireState i == 1)

/-- The entries that the dispatcher may place in a Spire. -/
def State.eligible (s : State) (sp : Nat) : List Entry :=
  s.ready.filter fun e => e.placeable && s.allowed e.ctx sp && !s.ctxHeld.testBit e.ctx

/-- The priorities among entries, rising. -/
def priosOf (l : List Entry) : List Nat := (List.range 8).filter fun p => l.any fun e => e.prio == p

/-- The shares of a new block of 256 placements (R695). -/
def State.newShares (s : State) (ps : List Nat) : SMap Nat :=
  let want := ps.map fun p => (p, s.rf (aDisp (0x020 + 4 * p)) 0 8)
  let sum := (want.map (·.2)).sum
  if sum ≤ 256 then want else want.map fun e => (e.1, max 1 (e.2 * 256 / sum))

/-- The dispatcher's counts as a placement finds them: a new block begins after 256 placements, and a priority that has run
out of items loses the rest of its share (R695). -/
def State.qosNow (s : State) (ps : List Nat) : Qos :=
  let q := s.qos
  if q.placed % 256 = 0 then { q with placed := 0, got := [], share := s.newShares ps }
  else { q with share := q.share.map fun e => if ps.contains e.1 then e else (e.1, min e.2 (SMap.get q.got 0 e.1)) }

/-- Placements a priority is still owed in the block. -/
def Qos.owed (q : Qos) (p : Nat) : Nat := SMap.get q.share 0 p - SMap.get q.got 0 p

/-- The entries that can be placed in some Spire now (R695). -/
def State.waiting (s : State) : List Entry := s.ready.filter fun e => e.placeable && !s.ctxHeld.testBit e.ctx

/-- What an entry can still place: an item, or a calving entry's fragments (R707, R710). -/
def Entry.supply (e : Entry) : Nat := if e.kind = 1 then e.back.length + (e.frags - e.nextFrag) else 1

/-- More items can be placed than next slots are empty in the Spires that take items (R695). -/
def State.contended (s : State) : Bool :=
  let on := (List.range 64).filter fun sp => s.spireState sp == 1
  let full := (s.cores.filter fun e => e.2.next.isSome && on.contains (e.1 / 16)).length
  decide (16 * on.length - full < (s.waiting.map Entry.supply).sum)

/-- In how many Spires an item of a priority can be placed. -/
def State.spiresFor (s : State) (p : Nat) : Nat :=
  ((List.range 64).filter fun sp => s.spireState sp == 1 && (s.eligible sp).any fun e => e.prio == p).length

/-- The priorities, those first whose items can be placed in the fewest Spires, and of equal ones the highest first. -/
def State.narrowFirst (s : State) : List Nat := sortKey (fun p => 8 * s.spiresFor p + (7 - p)) (List.range 8)

/-- The priority of the next placement among ps, which rise (R695): while more items can be placed than slots are empty, the first in
order that the block still owes some of its share; otherwise the highest (log entry 15). -/
def Qos.choose (q : Qos) (contended : Bool) (order ps : List Nat) : Option Nat :=
  match (if contended then order.find? fun p => ps.contains p && decide (0 < q.owed p) else none) with
  | some p => some p
  | none => ps.getLast?

/-- Round-robin over the contexts with entries of a priority, after the one served last (R694). -/
def nextCtx (l : List Entry) (p last : Nat) : Option Nat :=
  ((List.range 16).map fun i => (last + 1 + i) % 16).find? fun c => l.any fun e => e.prio == p && e.ctx == c

/-- Edges of fragment f of an entry (R707). -/
def fragEdges (size degree f : Nat) : Nat := min size (degree - f * size)

/-- What an entry places next, and the entry that remains (R708–R712). -/
def Entry.place (e : Entry) (size : Nat) : Item × Option Entry :=
  let i : Item := { key := e.key, asn := e.asn, ctx := e.ctx, prio := e.prio, num := e.num, frag := e.frag, degree := e.degree,
                    words := e.words }
  if e.kind = 1 then
    match e.back with
    | f :: t => ({ i with frag := f, degree := fragEdges size e.degree f, entry := e.id }, some { e with back := t })
    | [] => ({ i with frag := e.nextFrag, degree := fragEdges size e.degree e.nextFrag, entry := e.id },
             some { e with nextFrag := e.nextFrag + 1 })
  else (i, none)

/-- The PC at which an item starts; none where it is no entry of its program (R429). -/
def State.startPc (s : State) (i : Item) : Option Nat :=
  let p := s.prog i.ctx
  let pc := getLe i.words 0x00 8
  if pc = 2 ^ 64 - 1 then
    match s.task? i.key i.asn with
    | some t => if t.entry < p.nEntry then some (p.entryPc t.entry) else none
    | none => none
  else if (List.range p.nEntry).any fun n => p.entryPc n == pc then some pc else none

/-- A core that runs an item fetches the entry line of the item in its next slot (R430); a line that cannot be read stays out. -/
def State.prefetchEntry (s : State) (k : Nat) (i : Item) : State :=
  match (s.core k).run, s.startPc i with
  | some _, some pc => if s.fetchLost k i.ctx pc then s else s.icFetch k i.ctx pc
  | _, _ => s

/-- The dispatcher places entry e in core k's next slot. -/
def State.placeEntry (s : State) (k : Nat) (e : Entry) : State :=
  let size := ((s.task? e.key e.asn).map (·.fragment)).getD 1
  let (i0, left) := e.place size
  let i := { i0 with ord := s.entrySeq }
  let s1 := { s with entrySeq := s.entrySeq + 1, ready := match left with
    | some x => s.ready.map fun (y : Entry) => if y.id == e.id then x else y
    | none => s.ready.filter fun (y : Entry) => y.id != e.id }
  let s2 := ((s1.setCore k { s1.core k with next := some i }).bump (aDisp 0x100)).prefetchEntry k i
  let s3 := if left.isSome then s2.bump (aDisp 0x108) else s2
  (s3.traceItem 0x01 i k).updateBp

/-- The dispatcher fills a core's empty next slot with an eligible item, fragment or join (R694–R698). -/
def execNextSlotFill (k : CoreRef) (s : State) : Out :=
  let n := coreIdx k
  if (s.core n).next.isSome || !s.spireRuns k.spire.val || s.spireState k.spire.val ≠ 1 then .next s
  else
    let l := s.eligible k.spire.val
    let q := s.qosNow (priosOf s.waiting)
    match q.choose s.contended s.narrowFirst (priosOf l) with
    | none => .next s
    | some p =>
      match nextCtx l p (SMap.get q.last 15 p) with
      | none => .next s
      | some c =>
        match l.find? fun e => e.prio == p && e.ctx == c with
        | none => .next s
        | some e =>
          let q1 := { q with placed := q.placed + 1, got := SMap.put q.got p (SMap.get q.got 0 p + 1),
                             last := SMap.put q.last p c }
          .next ({ s with qos := q1 }.placeEntry n e)

/-! Starting and ending. -/

/-- The registers of a core at the start of an item (R426, R446). -/
def startRegs (i : Item) : SMap W64 :=
  let g := (List.range 6).map fun j => (j + 1, BitVec.ofNat 64 (getLe i.words (0x08 + 8 * j) 8))
  (g ++ [(7, BitVec.ofNat 64 i.degree)]).filter fun e => e.2 != 0

/-- A core moves its next item into the running slot, checks its PC and sets its registers (R426–R429, R433, R756). -/
def execItemStart (k : CoreRef) (s : State) : Out :=
  let n := coreIdx k
  let c := s.core n
  match c.run, c.next with
  | none, some i =>
    if !s.spireRuns k.spire.val || s.spireState k.spire.val ≠ 1 || s.clrDue.testBit i.ctx then .next s
    else
      match s.startPc i with
      | none =>
        .next (((s.setCore n { c with next := none, run := some i }).traceItem 0x02 i n).updateBp.illegal n i (getLe i.words 0x00 8) 0)
      | some pc =>
        let dm := if c.owner = (i.key, i.asn) then s.dmem else s.dmem.clearRange (n * 32768) ((n + 1) * 32768)
        let c1 : Core := { run := some i, next := none, pc := pc, g := startRegs i, opBase := s.opSeq,
                           owner := (i.key, i.asn) }
        let s1 := (({ s with dmem := dm }.setCore n c1).traceItem 0x02 i n).updateBp
        .next (if 2 ^ 63 ≤ i.frag ∧ i.frag ≠ 2 ^ 64 - 1 then s1.bump (aDisp 0x10C) else s1)
  | _, _ => .next s

/-- end: the item waits for every operation it issued (R432, R488). -/
def execEndI (k : CoreRef) (g : Guard) (s : State) : Out :=
  s.fire (.endI k g) k g [] [] fun t n c _ => t.setCore n { c with hold := some .ending, since := t.tick }

/-- Every item of a task has ended (R693). -/
def State.allEnded (s : State) (t : Task) : Bool :=
  t.accepted && !t.ended && !t.retryDue && decide (t.itemCount ≤ t.expanded)
    && !(s.ready.any fun e => e.key == t.key && e.asn == t.asn)
    && !(s.cores.any fun e => (match e.2.run with | some i => i.of t.key t.asn | none => false)
          || match e.2.next with | some i => i.of t.key t.asn | none => false)

/-- A fragment has ended; with the last one its entry becomes a join item at the head of its list (R711). -/
def State.fragEnd (s : State) (i : Item) : State :=
  if i.entry = 0 then s
  else match s.ready.find? fun e => e.id == i.entry with
    | none => s
    | some e =>
      if e.ended + 1 < e.frags then
        { s with ready := s.ready.map fun (y : Entry) => if y.id == e.id then { y with ended := y.ended + 1 } else y }
      else
        let j := { e with kind := 2, ended := e.frags }
        { s with ready := j :: s.ready.filter fun (y : Entry) => y.id != e.id }.traceEnt 0x05 j (2 ^ 31 + e.frags)

/-- A task whose last item has ended is complete (R693). -/
def State.checkComplete (s : State) (key asn : Nat) : State :=
  match s.task? key asn with
  | none => s
  | some t => if s.allEnded t then s.endTask key asn else s

/-- The end instruction retires once every operation the item issued has completed (R432, R711, R693). -/
def execItemEnd (k : CoreRef) (s : State) : Out :=
  let n := coreIdx k
  let c := s.core n
  match c.run with
  | none => .next s
  | some i =>
    if !s.works || c.hold ≠ some .ending || !c.pend.isEmpty || s.ops.any (fun o => o.core == n && decide (c.opBase ≤ o.id)) then .next s
    else
      let s1 := (s.setCore n { c with run := none, hold := none }).traceItem 0x03 i n
      .next (((s1.fragEnd i).checkComplete i.key i.asn).dueClears.checkDrained)

/-! Spawns. -/

/-- spawn: the record is handed to the dispatcher when it takes it; a record of another context is an illegal instruction
(R485–R487, R700). -/
def execSpawn (k : CoreRef) (g : Guard) (d : DReg) (s : State) : Out :=
  s.fire (.spawn k g d) k g [] [d] fun t n c it =>
    if getLe (descBytes (c.rdd d)) 0x3D 1 % 16 ≠ it.ctx then t.illegalAt n it
    else
      let full := t.freeEntries = 0
      (if full then t.bump (aDisp 0x118) else t).setCore n { c with hold := some .spawn, since := t.tick, counted := full }

/-- The word at core n's PC. -/
def State.wordAt (s : State) (n : Nat) (c : Core) (ctx : Nat) : Nat := (s.fetch n ctx c.pc).getD 0

/-- A spawned record enters the ready lists when an entry is free (R485, R487, R689, R690, R700); a spawn that finds none holds, and is counted
once (R731). -/
def execSpawnAccept (k : CoreRef) (s : State) : Out :=
  let n := coreIdx k
  let c := s.core n
  match c.run with
  | none => .next s
  | some it =>
    if !s.works || c.hold ≠ some .spawn then .next s
    else if s.freeEntries = 0 then
      .next (if c.counted then s else (s.bump (aDisp 0x118)).setCore n { c with since := s.tick, counted := true })
    else
      match s.task? it.key it.asn with
      | none => .next s
      | some t =>
        let rec1 := descBytes (SMap.get c.d 0 (s.wordAt n c it.ctx / 2 ^ 51 % 16))
        let num := t.itemCount + t.spawned
        if !recordOk rec1 t.ctx then .next (s.failTask it.key it.asn stIllegal 0xFFFF)
        else
          let s1 := s.setCore n { c.step with hold := none, counted := false }
          let s2 := s1.dtrace 0x08 it.asn num (2 ^ 32 - 1) k.spire.val k.core.val it.ctx it.key (getLe rec1 0x3C 1 % 8)
          let s3 := s2.pushRecord t num (getLe rec1 0x3C 1 % 8) rec1
          .next (s3.modTask it.key it.asn fun t => { t with spawned := t.spawned + 1 })

end Sys2Proof.Machine
end

