-- ==== Sys2Proof/Machine/UnitOps.lean ====
section
/-! DEFINITION. Operations that cores hand to the units of their Spire (R396–R403, R473–R476): queues, acceptance, completion
with its increment, and the faults of a unit. -/

namespace Sys2Proof.Machine

/-- The unit that takes an opcode (R396): 0 array, 1 aggregate unit, 2 quantiser, 3 stream unit. -/
def unitOf (opc : Nat) : Nat :=
  if opc ≤ 0x52 then 0 else if opc ≤ 0x55 then 1 else if opc ≤ 0x59 then 2 else 3

/-- Entries of a unit's issue queue (R396). -/
def queueCap (u : Nat) : Nat := if u = 2 then 16 else if u = 3 then 64 else 32

/-- An operation belongs to a unit of a Spire. -/
def Op.inUnit (o : Op) (sp u : Nat) : Bool := o.core / 16 == sp && unitOf o.opc == u

/-- Operations that wait in a unit's queue. -/
def State.queued (s : State) (sp u : Nat) : List Op := s.ops.filter fun o => o.inUnit sp u && !o.started

/-- A unit's queue has room (R398). -/
def State.hasRoom (s : State) (sp u : Nat) : Bool := decide ((s.queued sp u).length < queueCap u)

/-- An operation has started (R400). -/
def State.markStarted (s : State) (id : Nat) : State :=
  { s with ops := s.ops.map fun (o : Op) => if o.id == id then { o with started := true, since := s.tick } else o }

/-- The operation's task has stopped, so nothing waits for what it writes (R436). -/
def State.opDead (s : State) (o : Op) : Bool :=
  match s.task? o.key o.asn with
  | some t => t.ended || t.retryDue
  | none => true

/-- A Spire-store range, 16-byte aligned, within the context's banks of the issuing Spire. -/
def State.opBanks (s : State) (o : Op) (a n : Nat) : Bool := s.inBanks o.ctx (o.core / 16) a n

/-- A malformed tile, block or mask ends the task (R509, R540, R545). -/
def State.sparseFault (s : State) (o : Op) : State := s.failTask o.key o.asn stSparse (o.core / 16)

/-- A ROW_FAULT record of a kind, and the task's end (R338, R340, R343, R391). -/
def State.rowFault (s : State) (o : Op) (origin kind : Nat) : State :=
  (s.report { cls := clsRowFault, origin := origin, reporter := origin, ctx := o.ctx, key := o.key, asn := o.asn,
              status := stPerm, detail := 0xFFFE, body := natLe 1 kind ++ zeros 15 }).failTask o.key o.asn stPerm 0xFFFE

/-- The offsets of an operation of the issuing Spire break R336 (R338, R552): the record's origin is that Spire's store island. -/
def State.offsetFault (s : State) (o : Op) : State := s.rowFault o (0x403 + 4 * (o.core / 16)) 1

/-- The tier or a Spire store is read for an operation: the bytes and the state after, or the state in which the task has
ended (R263, R267, R680). Reads of a Spire store were checked at issue. -/
def State.opRead (s : State) (o : Op) (a n : Nat) : Except State (List Byte × State) :=
  if n = 0 then .ok ([], s)
  else if isStore a && !s.unbackedAt a then .ok (s.peek a n, s)
  else match s.checkAcc o.ctx a n .rd with
    | some e => .error (s.failAcc o.key o.asn e)
    | none => .ok (s.readTier a n)

/-- A range lies in an output or in-out buffer of the operation's task. -/
def State.inOutputs (s : State) (o : Op) (a n : Nat) : Bool :=
  match s.task? o.key o.asn with
  | some t => t.bufs.any fun b => b.kind != 0 && inside a n b.addr b.len
  | none => false

/-- The tier or a Spire store is written for an operation; once its task has stopped, only its output buffers and banks are
(R436). -/
def State.opWrite (s : State) (o : Op) (a : Nat) (b : List Byte) : Except State State :=
  if b.isEmpty then .ok s
  else if isStore a && !s.unbackedAt a then .ok (s.storeWrite a b)
  else if s.opDead o && !s.inOutputs o a b.length then .ok s
  else match s.checkAcc o.ctx a b.length .wr with
    | some e => .error (s.failAcc o.key o.asn e)
    | none => .ok (s.taskWrite o.key o.asn a b)

end Sys2Proof.Machine
end

