-- ==== Sys2Proof/Machine/Scales.lean ====
section
/-! DEFINITION. The scale register file (R578–R585), the derivation of scales (R589–R593), and group factors. -/

namespace Sys2Proof.Machine

/-- KIND of TAG. -/
def Scale.kind (r : Scale) : Bool := nbit r.tag 0
/-- PROMO of TAG. -/
def Scale.promo (r : Scale) : Bool := nbit r.tag 1
/-- GSCALED of TAG. -/
def Scale.gscaled (r : Scale) : Bool := nbit r.tag 2
/-- The group size that TAG's GSIZE names. -/
def Scale.gsize (r : Scale) : Nat := 32 * (1 + nbits r.tag 3 2)
/-- FLAT of TAG. -/
def Scale.flat (r : Scale) : Bool := nbit r.tag 5

/-- The tensor-scale register that number n of context c names in Spire sp (R581). -/
def State.scaleIdx (s : State) (c sp n : Nat) : Nat :=
  let first := s.rf (aCtx c 0x010) 0 5
  let nb := s.rf (aCtx c 0x010) 8 6
  256 * sp + 8 * first + n % (8 * nb)

/-- The group-scale entry that number n of context c names in Spire sp (R581). -/
def State.gsIdx (s : State) (c sp n : Nat) : Nat :=
  let first := s.rf (aCtx c 0x010) 0 5
  let nb := s.rf (aCtx c 0x010) 8 6
  65536 * sp + 2048 * first + n % (2048 * nb)

/-- The fields of a register as the register file holds them: those of R579, and the address of the promotion buffer. -/
def Scale.held (r : Scale) : List Byte := natLe 4 r.value ++ natLe 4 r.qdiv ++ natLe 1 r.tag ++ natLe 1 r.zp ++ natLe 6 r.pbuf

/-- The register that 16 bytes of the register file hold; the reserved bits of TAG are 0 (R579). -/
def Scale.ofHeld (b : List Byte) : Scale :=
  { value := getLe b 0 4, qdiv := getLe b 4 4, tag := getLe b 8 1 % 64, zp := getLe b 9 1 % 16, pbuf := getLe b 10 6 }

/-- The tensor-scale register that a descriptor of an operation names. -/
def State.scale (s : State) (o : Op) (n : Nat) : Scale :=
  Scale.ofHeld (Mem.readN s.scales (16 * s.scaleIdx o.ctx (o.core / 16) n) 16)
/-- The state with it written. -/
def State.setScale (s : State) (o : Op) (n : Nat) (r : Scale) : State :=
  { s with scales := Mem.writeN s.scales (16 * s.scaleIdx o.ctx (o.core / 16) n) r.held }
/-- The group-scale entry that a descriptor of an operation names. -/
def State.gs (s : State) (o : Op) (n : Nat) : Nat := (Mem.read s.gscales (s.gsIdx o.ctx (o.core / 16) n)).toNat
/-- The state with it written. -/
def State.setGs (s : State) (o : Op) (n e : Nat) : State :=
  { s with gscales := Mem.write s.gscales (s.gsIdx o.ctx (o.core / 16) n) (BitVec.ofNat 8 e) }
/-- Entries written one after another from entry n. -/
def State.setGss (s : State) (o : Op) : Nat → List Nat → State
  | _, [] => s
  | n, e :: t => State.setGss (s.setGs o n e) o (n + 1) t

/-- The factor 2^(e - 127) of an E8M0 code; 0xFF is NaN (R570). -/
def e8m0 (e : Nat) : FVal := if e = 255 then .nan false else .fin false 1 ((e : Int) - 127)

/-- The 16-byte scale record (R584). -/
def Scale.record (r : Scale) : List Byte :=
  natLe 4 r.value ++ natLe 4 r.qdiv ++ natLe 1 r.tag ++ natLe 1 r.zp ++ zeros 6

/-- A register from a record; the record of the buffer that a promotion filled stays. -/
def Scale.ofRecord (old : Scale) (b : List Byte) : Scale :=
  { value := getLe b 0 4, qdiv := getLe b 4 4, tag := getLe b 8 1 % 64, zp := getLe b 9 1 % 16, pbuf := old.pbuf }

/-- The largest value that a target format emits (R589). -/
def qmaxOf (fmt : Nat) : Nat :=
  if fmt = 0x00 then 6 else if fmt = 0x01 then 7 else if fmt = 0x07 then 127 else if fmt = 0x05 then 448
  else if fmt = 0x06 then 57344 else 1

/-- 2^-126 -/
def minScale : Nat := 0x00800000

/-- What a derivation gives: the scale, the zero point, whether the range was degenerate, and an infinite amax. -/
structure Derived where
  scale : Nat
  zp : Nat := 0
  flat : Bool := false
  sat : Bool := false
deriving DecidableEq, Repr

/-- The zero point of UINT4 for a least value and a scale (R589); the quotient of 0 by a scale that rounded to 0 is not
stated (log entry 16). -/
def zeroPoint (lo0 : FVal) (scale : Nat) : Nat :=
  match quotV lo0.neg (fp32.decode scale) with
  | .nan => Config.unstated 4 0 % 16
  | .inf n => if n then 0 else 15
  | .fin n m e st => if n then 0 else min (roundAt m e 0 st).1 15

/-- (hi0 - lo0) ÷ 15, rounded once to FP32. -/
def rangeScale (lo0 hi0 : FVal) : Nat :=
  match quotV (hi0.add lo0.neg).1 (intVal 15) with
  | .fin n m e st => (fp32.round n m e st).1
  | _ => infF

/-- The derivation of a tensor scale from FP32 codes (R589). -/
def deriveScale (amax lo hi : Nat) (const : Bool) (fmt : Nat) : Derived :=
  if isZeroF amax then { scale := oneF, flat := true }
  else if const && !(lo == infF || lo == ninfF) then
    { scale := absF lo, zp := if fmt = 0x02 && ltF lo 0 then 1 else 0, flat := true }
  else
    let sat := amax == infF
    let a := if sat then 0x7F7FFFFF else amax
    if fmt = 0x02 then
      let lo0 := if ltF lo 0xFF7FFFFF then 0xFF7FFFFF else if ltF lo 0 then lo else 0
      let hi0 := if ltF 0x7F7FFFFF hi then 0x7F7FFFFF else if ltF 0 hi then hi else 0
      let sc := rangeScale (fp32.decode lo0) (fp32.decode hi0)
      { scale := maxF sc minScale, zp := zeroPoint (fp32.decode lo0) sc, sat := sat }
    else { scale := maxF (divNatF a (qmaxOf fmt)) minScale, sat := sat }

/-- emax of a format with group scales (R592). -/
def emaxOf (fmt : Nat) : Nat := if fmt = 0x00 then 2 else if fmt = 0x05 then 8 else 15

/-- floor(log2) of a finite non-zero value. -/
def floorLog2 : FVal → Int
  | .fin _ m e => (Nat.log2 m : Int) + e
  | _ => 0

/-- The group exponent of FP32 values (R592). -/
def groupExp (emax : Nat) (l : List Nat) : Nat :=
  let a := (l.filter fun x => !isNanF x && absF x != infF).foldl (fun a x => maxF a (absF x)) 0
  if isZeroF a then 127
  else
    let e : Int := 127 + floorLog2 (fp32.decode a) - emax
    if e < 0 then 0 else min e.toNat 254

/-- The register that a derivation writes (R590). -/
def Derived.register (r : Derived) (value : Nat) (pbuf : Nat) : Scale :=
  { value := value, qdiv := r.scale, tag := if r.flat then 32 else 0, zp := r.zp, pbuf := pbuf }

/-- The counters a derivation raises (R589, R591). -/
def State.countDerived (s : State) (r : Derived) : State :=
  let s1 := if r.flat then s.bump (aQnt 2) else s
  if r.sat then s1.bump (aQnt 0) else s1

/-- The derivation from an amax held in a register (R587, R589): for UINT4 the range is -amax to amax. -/
def Scale.derive (r : Scale) (fmt : Nat) : Derived := deriveScale r.value (negF r.value) r.value false fmt

/-- The reserved ternary codes among codes read are counted (R576). -/
def State.countTern (s : State) (fmt : Nat) (l : List Nat) : State :=
  let n := (l.filter (ternReserved fmt)).length
  if n = 0 then s else s.bump (aQnt 4) n

end Sys2Proof.Machine
end

