-- ==== Sys2Proof/Machine/Versions.lean ====
section
/-! DEFINITION. Table versions and batches (R772–R785, R791): which version a request uses, and what a version record says. -/

namespace Sys2Proof.Machine

/-! The table descriptor (R339). -/

/-- ROWS -/
def tdRows (d : List Byte) : Nat := getLe d 0x00 8
/-- DIR_BASE -/
def tdDir (d : List Byte) : Nat := getLe d 0x08 8
/-- DATA_BASE -/
def tdData (d : List Byte) : Nat := getLe d 0x10 8
/-- REPL_BASE -/
def tdRepl (d : List Byte) : Nat := getLe d 0x18 8
/-- SKETCH_BASE -/
def tdSketch (d : List Byte) : Nat := getLe d 0x20 8
/-- SHARD_ROWS -/
def tdShard (d : List Byte) : Nat := getLe d 0x28 4
/-- SHARD_STRIDE_GIB -/
def tdStride (d : List Byte) : Nat := getLe d 0x2C 2
/-- DIM -/
def tdDim (d : List Byte) : Nat := getLe d 0x2E 2
/-- REPL_STRIDE_GIB -/
def tdReplStride (d : List Byte) : Nat := getLe d 0x30 2
/-- TFLAGS -/
def tdFlags (d : List Byte) : Nat := getLe d 0x32 2
/-- SKETCH_EN -/
def tdSketchEn (d : List Byte) : Bool := nbit (tdFlags d) 0
/-- SKETCH_W -/
def tdSketchW (d : List Byte) : Nat := nbits (tdFlags d) 1 3
/-- DIRLESS -/
def tdDirless (d : List Byte) : Bool := nbit (tdFlags d) 4
/-- DL_TIER -/
def tdTier (d : List Byte) : Nat := nbits (tdFlags d) 5 2
/-- HOT_COUNT -/
def tdHot (d : List Byte) : Nat := getLe d 0x34 4
/-- HOT_DATA_4K -/
def tdHot4k (d : List Byte) : Nat := getLe d 0x38 4

/-- The span P of a replica area (R350). -/
def tdSpan (d : List Byte) : Nat := ceilDiv (8 * tdHot d) 4096 * 4096
/-- Length of a replica area. -/
def tdArea (d : List Byte) : Nat := tdSpan d + 4096 * tdHot4k d
/-- The replica area of a stack (R350). -/
def tdAreaAt (d : List Byte) (st : Nat) : Nat := tdRepl d + st * (tdReplStride d * gib)

/-- The address of the directory entry of an index. -/
def tdEntry (d : List Byte) (i : Nat) : Nat :=
  if tdShard d = 0 then tdDir d + 8 * i else tdDir d + i / tdShard d * (tdStride d * gib) + 8 * (i % tdShard d)

/-- Bytes of a stored row (R344). -/
def storedBytes (tier dim : Nat) : Nat :=
  if tier = 0 then 2 * dim
  else up16 (if tier = 1 then 4 + dim else if tier = 2 then dim / 32 + dim / 2 else 4 + dim / 4)

/-- The first byte of row i of a directory-less table. -/
def tdRowAt (d : List Byte) (i : Nat) : Nat :=
  let n := storedBytes (tdTier d) (tdDim d)
  if tdShard d = 0 then tdData d + i * n else tdData d + i / tdShard d * (tdStride d * gib) + i % tdShard d * n

/-- A stack serves: it was present at the last boot and has not failed since (R353). -/
def State.stackUp (s : State) (st : Nat) : Bool := s.rb aMemNear (24 + st) && !s.outOfService.testBit (16 + st)

/-- The stacks that serve. -/
def State.stacksUp (s : State) : List Nat := (List.range 8).filter s.stackUp

/-- Region r places every byte of [a, a + n), which lies in it, in stack st (R238): it is local to st or names st alone, or the
range lies in one granule, which falls to st. -/
def State.regionIn (s : State) (r a n st : Nat) : Bool :=
  if s.rb (aRgn r) 30 then s.rf (aRgn r) 27 3 == st
  else s.rf (aRgn r) 16 8 == 2 ^ st || (a / 4096 == (a + n - 1) / 4096 && (s.placeNear a).inNear st)

/-- [a, a + n) lies wholly in stack st, through at most as many regions as the fuel. -/
def State.inStack : Nat → State → Nat → Nat → Nat → Bool
  | 0, _, _, _, _ => false
  | k + 1, s, a, n, st =>
    match s.regionOf a with
    | none => false
    | some r =>
      let stop := (s.rf (aRgn r + 4) 16 9 + s.rf (aRgn r + 4) 0 10) * gib
      s.regionIn r a (min n (stop - a)) st && (decide (a + n ≤ stop) || State.inStack k s stop (a + n - stop) st)

/-- The replica areas keep R350 and R352. -/
def State.replicasOk (s : State) (d : List Byte) : Bool :=
  tdHot d == 0 || (decide (tdArea d ≤ tdReplStride d * gib)
    && s.stacksUp.all fun st => State.inStack 17 s (tdAreaAt d st) (tdArea d) st)

/-- The fields of a table descriptor are in range (R339, R340). -/
def tableFieldsOk (d : List Byte) : Bool :=
  decide (1 ≤ tdRows d) && decide (tdRows d ≤ 2 ^ 40) && (tdDirless d || tdDir d % 4096 == 0) && tdData d % 4096 == 0
    && (tdHot d == 0 || tdRepl d % 4096 == 0) && (!tdSketchEn d || tdSketch d % 4096 == 0)
    && (tdShard d != 0 || tdStride d == 0) && tdDim d % 32 == 0 && decide (32 ≤ tdDim d) && decide (tdDim d ≤ 8192)
    && decide (tdFlags d < 128) && decide (tdSketchW d ≤ 6) && decide (tdHot d ≤ 65536) && decide (tdHot d ≤ tdRows d)
    && zeroAt d 0x3C 4

/-- A table descriptor keeps R339 and R340. -/
def State.tableOk (s : State) (d : List Byte) : Bool := tableFieldsOk d && s.replicasOk d

/-! The distribution record (R772). -/

/-- MODE: 0 LOCAL, 1 RANGE, 2 MODULO, 3 HASH. -/
def vrMode (b : List Byte) : Nat := getLe b 0x40 1
/-- EAGER of DFLAGS. -/
def vrEager (b : List Byte) : Bool := nbit (getLe b 0x41 1) 0
/-- GROUP -/
def vrGroup (b : List Byte) : Nat := getLe b 0x42 2
/-- GEN -/
def vrGen (b : List Byte) : Nat := getLe b 0x44 4
/-- GLOBAL_ROWS -/
def vrGlobal (b : List Byte) : Nat := getLe b 0x48 8
/-- RANGE_ROWS -/
def vrRange (b : List Byte) : Nat := getLe b 0x50 8

/-- The version makes a distributed table (R791). -/
def Version.dist (v : Version) : Bool := vrMode v.bytes != 0

/-- Owner rank of a global index in a group of n (R791). -/
def vrOwner (b : List Byte) (n i : Nat) : Nat :=
  if vrMode b = 1 then i / vrRange b
  else if vrMode b = 2 then i % n
  else i * 0x9E3779B97F4A7C15 % 2 ^ 64 / 2 ^ 32 % n

/-- Local index at the owner (R791). -/
def vrLocal (b : List Byte) (n i : Nat) : Nat :=
  if vrMode b = 1 then i % vrRange b else if vrMode b = 2 then i / n else i

/-! Which version a request uses. -/

/-- A table that belongs to a context (R775). -/
def State.table? (s : State) (c t : Nat) : Option Table :=
  match SMap.find s.tables t with
  | some x => if x.owner = c then some x else none
  | none => none

/-- The newest version of a table, while it has one. -/
def Table.top (x : Table) : Option Version := if x.newest then x.versions.getLast? else none

/-- The newest live version of a context's table. -/
def State.newestOf (s : State) (c t : Nat) : Option Version := (s.table? c t).bind Table.top

/-- A live version of a table by its generation. -/
def State.versionOf (s : State) (t gen : Nat) : Option Version :=
  (SMap.find s.tables t).bind fun x => x.versions.find? fun v => v.gen == gen

/-- The open batch of a context and number. -/
def State.batch? (s : State) (c n : Nat) : Option Batch :=
  if n = 0 then none else s.batches.find? fun (b : Batch) => b.ctx == c && b.num == n

/-- The version that a request naming a batch uses (R781–R783): the pinned one of an open batch, else the newest. -/
def State.usable (s : State) (c t n : Nat) : Option Version :=
  match s.batch? c n with
  | some b => (b.pins.find? fun p => p.1 == t).bind fun p => s.versionOf t p.2
  | none => s.newestOf c t

/-- A batch opens: it pins the newest version of every table of its context (R780, R781). -/
def State.openBatch (s : State) (o : Op) (n : Nat) : State :=
  if n = 0 || (s.batch? o.ctx n).isSome then s
  else
    let pins := s.tables.filterMap fun (e : Nat × Table) =>
      if e.2.owner = o.ctx then e.2.top.map fun v => (e.1, v.gen) else none
    { s with batches := s.batches ++ [{ ctx := o.ctx, num := n, key := o.key, asn := o.asn, pins := pins }] }

end Sys2Proof.Machine
end

