-- ==== Sys2Proof/Machine/StreamUnit.lean ====
section
/-! DEFINITION. The stream unit (chapter "Streams"): descriptor checks (R634, R639, R640, R658), buffers and their grants
(R650–R654), slots, granules and passes (R642–R649, R656–R662, R666–R670), the short path (R671, R672) and deadlines
(R676, R677). -/

namespace Sys2Proof.Machine

/-! Checks at issue. -/

/-- The stream has a tier side that its descriptor names. -/
def sdHasTier (d : List Byte) : Bool := sdType d == 1 || sdType d == 2 || sdType d == 4

/-- An EXCHANGE stream with an index list for its tier side (R795). -/
def sdHasList (d : List Byte) : Bool := sdType d == 5 && !sdSignal d

/-- The extent of the tier side in a pass: the rows at their stride, or the index list. -/
def sdTierLen (d : List Byte) : Nat :=
  if sdHasList d then sdRows d * (if sdIdx64 d then 8 else 4) else extent (sdRows d) (sdRowBytes d) (sdTierStride d)

/-- A tier side that meets the Spire stores lies, over the whole extent of the pass, within the context's banks of one Spire, and a
MULTICAST has none there (R638; log entry 131); addresses in the tiers are checked on every transfer (R639). -/
def State.tierSideOk (s : State) (c : Nat) (d : List Byte) : Bool :=
  let a := sdTierBase d
  let n := sdTierLen d
  if (sdHasTier d || sdHasList d) && overlaps a n storeBase (storeEnd - storeBase) then
    sdType d != 4 && isStore a && s.inBanks c ((a - storeBase) / 2 ^ 23) a n
  else true

/-- [a, a + n) lies in the near tier's range or in the glacier window. -/
def inTiers (a n : Nat) : Bool := inside a n 0 (2 ^ 39) || inside a n glacierBase (storeBase - glacierBase)

/-- COMPRESS is used as R639 allows. -/
def compressOk (d : List Byte) : Bool :=
  match fmtBits (sdCfmt d) with
  | none => false
  | some w =>
    sdHasTier d && inTiers (sdTierBase d) (extent (sdRows d) (sdRowBytes d + 16) (sdTierStride d))
      && sdRowBytes d * 8 % (128 * w) == 0 && decide (sdRowBytes d + 16 ≤ sdTierStride d)

/-- The Spire side and its buffer lie in the context's banks of every Spire that the stream names; DST of a MULTICAST is an address in a
Spire store (R638). -/
def State.spireSideOk (s : State) (c core : Nat) (d : List Byte) : Bool :=
  sdSignal d || (sdType d != 4 || isStore (sdDst d)) && (sdSpires core d).all fun sp => s.inBanks c sp (sdAddrIn sp d) (sdBufLen d)

/-- Every field of a stream descriptor is in range (R637, R639). -/
def fieldsOk (d : List Byte) : Bool :=
  decide (1 ≤ sdType d) && decide (sdType d ≤ 5) && decide (sdFlags d < 32) && decide (sdPrio d < 8)
    && decide (12 ≤ sdLog d) && decide (sdLog d ≤ 20) && zeroAt d 0x07 1 && zeroAt d 0x34 12
    && decide (16 ≤ sdRowBytes d) && decide (sdRowBytes d ≤ 32768) && sdRowBytes d % 16 == 0
    && (sdSrcStride0 d == 0 || decide (sdRowBytes d ≤ sdSrcStride0 d))
    && (sdDstStride0 d == 0 || decide (sdRowBytes d ≤ sdDstStride0 d))
    && (!sdOut d || sdType d == 3) && (sdMask d == 0 || sdType d == 4 || sdType d == 5)
    && (sdComp d || sdCfmt d == 0) && (sdDl d || sdDlTicks d == 0)

/-- MASK and the fields of an EXCHANGE descriptor are used as R794 and R795 allow. -/
def exchFieldsOk (d : List Byte) : Bool :=
  decide (1 ≤ sdKind d) && decide (sdKind d ≤ 4) && nbits (sdMask d) 14 2 == 0 && nbits (sdMask d) 20 12 == 0
    && nbits (sdMask d) 48 16 == 0 && decide (1 ≤ sdRows d)
    && (if sdSignal d then nbits (sdSrc d) 12 4 == 0 && decide (sdSrc d < 2 ^ 32) && sdDst d == 0 && sdRowBytes d == 16
        else decide (sdRows d ≤ 1048576) && (sdKind d == 1 || sdBatch d != 0))

/-- PEER_CFG.SIZE -/
def State.groupSize (s : State) : Nat := s.rf (aPeer 0x04) 15 9

/-- The peer group is formed (R788). -/
def State.groupFormed (s : State) : Bool := s.rf (aPeer 0x14) 30 2 == 2

/-- The version of a distributed table that an EXCHANGE descriptor uses (R781–R783, R796), where it may use it. -/
def State.exchVersion (s : State) (c : Nat) (d : List Byte) : Option Version :=
  match s.usable c (sdTable d) (sdBatch d) with
  | none => none
  | some v =>
    if v.dist && vrGroup v.bytes == s.groupSize && sdRowBytes d == tdDim v.bytes * (if sdXfmt d = 8 then 2 else 4) then some v
    else none

/-- The stream unit's check of an EXCHANGE descriptor (R794–R796). -/
def State.exchOk (s : State) (c : Nat) (d : List Byte) : Bool :=
  exchFieldsOk d && s.groupFormed
    && (if sdSignal d then decide (nbits (sdSrc d) 0 8 < s.groupSize) else (s.exchVersion c d).isSome)

/-- The stream unit's check of a stream descriptor that core `core` of context c issues (R634, R639). -/
def State.strmDescOk (s : State) (c core : Nat) (d : List Byte) : Bool :=
  fieldsOk d
    && (sdType d != 4 || (bitsSet 64 (sdMask d)).all fun sp => s.spireState sp != 0 && s.spireState sp != 5)
    && s.spireSideOk c core d && (!sdComp d || compressOk d) && (!sdDl d || s.rb (aCtxCtl c) 3)
    && s.tierSideOk c d && (s.physStrm c (sdId d)).isSome && (sdType d != 5 || s.exchOk c d)

/-- A row unit larger than the slot (R640). -/
def rowTooLarge (d : List Byte) : Bool := decide (sdSlotSize d < sdRowBytes d)

/-- A re-arm may change only the tier-side address and stride, ROWS and DL_TICKS (R658). -/
def rearmOk (x : Strm) (d : List Byte) : Bool :=
  let (ta, ts) := if sdOutbound d then (0x10, 0x24) else (0x08, 0x20)
  let clear := fun (l : List Byte) =>
    putBytes (putBytes (putBytes (putBytes l ta (zeros 8)) ts (zeros 4)) 0x18 (zeros 4)) 0x30 (zeros 4)
  clear x.desc == clear d && (sdSlot d || decide (sdBufLen d ≤ x.held))

/-- What the stream unit says of a strm operation when it comes to accept it. -/
inductive Verdict where
  | accept
  /-- Refused at issue, with an enable-check reason or 0 (R403, R640). -/
  | refuse (reason : Nat)
  /-- Not accepted yet: the issuing core holds (R660). -/
  | hold
deriving DecidableEq, Repr

/-- The stream belongs to the operation's task (R661). -/
def Strm.mine (x : Strm) (o : Op) : Bool := x.arm.key == o.key && x.arm.asn == o.asn

/-- The stream unit's answer to a strm operation (R634, R639, R640, R647, R656, R658, R660, R661). func: 0 arm, 1 rearm, 2 adv,
3 close. -/
def State.strmVerdict (s : State) (o : Op) : Verdict :=
  let d := o.desc
  match s.physStrm o.ctx (sdId d) with
  | none => .refuse 0
  | some p =>
    let x := s.strm? p
    if o.func = 0 then
      if !s.strmDescOk o.ctx o.core d then .refuse 0
      else if rowTooLarge d then .refuse 0x04
      else if shortPath d then .accept
      else match x with | none => .accept | some _ => .refuse 0
    else match x with
      | none => .refuse 0
      | some x =>
        if !x.mine o then .refuse 0
        else if o.func = 2 then (if sdSlot x.desc then .accept else .refuse 0)
        else if x.close.isSome then .refuse 0
        else if o.func = 3 then .accept
        else if !s.strmDescOk o.ctx x.home d || !sdPersist x.desc then .refuse 0
        else if rowTooLarge d then .refuse 0x04
        else if !rearmOk x d then .refuse 0
        else if x.rearm.isSome then .hold
        else .accept

/-! Exchanges. -/

/-- The stream unit accepts an EXCHANGE arm or re-arm: it opens the batch and takes the table version (R780–R782). -/
def State.exchAccept (s : State) (o : Op) : State :=
  let d := o.desc
  if sdType d ≠ 5 then s
  else
    let x : Exch := { op := o, kind := sdKind d, table := sdTable d, batch := sdBatch d, gen := 0, record := [] }
    if sdSignal d then { s with exch := s.exch ++ [x] }
    else
      let s1 := s.openBatch o (sdBatch d)
      match s1.exchVersion o.ctx d with
      | some v => { s1 with exch := s1.exch ++ [{ x with gen := v.gen, record := v.bytes }] }
      | none => s1

/-- Acceptance moves the stream's state (R656, R659): an arm makes it WAITING, a re-arm or close becomes pending. -/
def State.strmAccept (s : State) (o : Op) : State :=
  match s.physStrm o.ctx (sdId o.desc) with
  | none => s
  | some p =>
    if o.func = 0 then
      if shortPath o.desc then s
      else (s.exchAccept o).setStrm p { desc := o.desc, arm := o, home := o.core, held := sdBufLen o.desc }
    else match s.strm? p with
      | none => s
      | some x =>
        if o.func = 1 then (s.exchAccept o).setStrm p { x with rearm := some o }
        else if o.func = 3 then s.setStrm p { x with close := some o }
        else s

/-! Buffers. -/

/-- The bytes of two streams' buffers overlap in some Spire (R651). -/
def strmOverlap (x y : Strm) : Bool :=
  x.spires.any fun sp => y.spires.contains sp && overlaps (sdAddrIn sp x.desc) x.held (sdAddrIn sp y.desc) y.held

/-- Stream p can be granted its buffer: it waits, its whole buffer is free in every Spire it names, and no waiting arm of a
lower identifier overlaps it (R650–R652). -/
def State.grantable (s : State) (p : Nat) (x : Strm) : Bool :=
  x.state == 1 && x.joined
    && s.streams.all fun (q, y) => q == p || !strmOverlap x y || (y.state == 1 && (!y.joined || decide (p < q)))

/-! Passes. -/

/-- The passes of EXCHANGE streams that are over end, and the advances that wait for the next ones take effect (R647). -/
def State.checkExch (s : State) : State :=
  s.streams.foldl (fun (t : State) (e : Nat × Strm) => if sdType e.2.desc = 5 then (t.checkPass e.1).runAdvs e.1 else t) s

/-- The buffer is granted and the stream becomes ACTIVE (R652, R656); the first pass starts, but for a GATHER stream, which
waits for its request (R968). -/
def State.grantStrm (s : State) (p : Nat) (x : Strm) : State :=
  if sdType x.desc = 3 then s.setStrm p { x with state := 2 }
  else (s.setStrm p (x.begin s.tick)).checkPass p

/-! Moving rows. -/

/-- One row read from the tier side of a LOAD or MULTICAST, decoded where it is compressed (R543, R545). -/
def State.tierRow (s : State) (x : Strm) (r : Nat) : Except State (List Byte × State) :=
  let d := x.desc
  let a := sdTierBase d + r * sdTierStride d
  if !sdComp d then s.opRead x.arm a (sdRowBytes d)
  else do
    let (h, s1) ← s.opRead x.arm a 16
    if sdRowBytes d < hdrLen h then .error (s1.sparseFault x.arm)
    else
      let (b, s2) ← s1.opRead x.arm (a + 16) (hdrLen h)
      let w := fmtW (sdCfmt d)
      match decodeBlock (sdCfmt d) (sdRowBytes d * 8 / w) (h ++ b) with
      | some l => .ok (pack w l, s2)
      | none => .error (s2.sparseFault x.arm)

/-- One row that an inbound stream delivers next: from the tier side, or from its row-engine request or exchange. -/
def State.inRow (s : State) (x : Strm) (r : Nat) : Except State (List Byte × State) :=
  if sdType x.desc = 3 then
    .ok (match x.reqs with
      | id :: _ => match s.req? id with | some q => (SMap.find q.rows r).getD [] | none => []
      | [] => [], s)
  else if sdType x.desc = 5 then
    .ok (match s.exch? x.arm.id with | some e => (SMap.find e.rows r).getD [] | none => [], s)
  else s.tierRow x r

/-- The rows r to r + n - 1 of a pass are at hand: a request or exchange has formed them. -/
def State.rowsReady (s : State) (x : Strm) (r n : Nat) : Bool :=
  let has := fun (m : SMap (List Byte)) => (List.range n).all fun i => (SMap.find m (r + i)).isSome
  if sdType x.desc = 3 then
    (match x.reqs with | id :: _ => (match s.req? id with | some q => has q.rows | none => false) | [] => false)
  else if sdType x.desc = 5 then
    (match s.exch? x.arm.id with | some e => has e.rows | none => false)
  else true

/-- n rows from row r move in, each to offset off + i × step of the Spire side in every Spire (R666). -/
def State.fillRows : Nat → State → Strm → Nat → Nat → Nat → Except State State
  | 0, s, _, _, _, _ => .ok s
  | n + 1, s, x, r, off, step => do
    let (b, s1) ← s.inRow x r
    let s2 := (s1.consumers x).foldl (fun (t : State) sp => t.storeWrite (sdAddrIn sp x.desc + off) b) s1
    State.fillRows n s2 x (r + 1) (off + step) step

/-- One outbound row goes to the tier side, compressed where asked, or to its request or exchange. -/
def State.outRow (s : State) (x : Strm) (r : Nat) (b : List Byte) : Except State State :=
  let d := x.desc
  if sdType d = 3 then
    .ok (match x.reqs with | id :: _ => s.modReq id fun q => { q with rows := SMap.put q.rows r b } | [] => s)
  else if sdType d = 5 then
    .ok (s.modExch x.arm.id fun e => { e with rows := SMap.put e.rows r b })
  else
    let a := sdTierBase d + r * sdTierStride d
    if sdComp d then
      let w := fmtW (sdCfmt d)
      s.opWrite x.arm a (encodeBlock (sdCfmt d) (unpack w (sdRowBytes d * 8 / w) b))
    else s.opWrite x.arm a b

/-- n rows from row r move out, read at offset off + i × step of the Spire side. -/
def State.drainRows : Nat → State → Strm → Nat → Nat → Nat → Except State State
  | 0, s, _, _, _, _ => .ok s
  | n + 1, s, x, r, off, step => do
    let s1 ← s.outRow x r (s.peek (sdAddrIn (x.home / 16) x.desc + off) (sdRowBytes x.desc))
    State.drainRows n s1 x (r + 1) (off + step) step

/-- A slot or granule that lands after its due tick is a deadline miss (R676, R677, R679). -/
def State.deadline (s : State) (x : Strm) : State :=
  if sdDl x.desc && decide (x.start + (x.moved + 1) * sdDlTicks x.desc < s.tick) then
    (s.bump (aStrm 0x10C)).modTask x.arm.key x.arm.asn fun t => { t with late := true }
  else s

/-- Rows of the next slot or granule of the pass. -/
def State.nextRows (s : State) (x : Strm) : Nat := min (sdSlotRows x.desc) (s.passRows x - x.row)

/-- A slot position is free for the next fill (R644, R667). -/
def State.slotFree (s : State) (x : Strm) : Bool := decide (x.filled < s.freedAll x + 2)

/-- An inbound slot becomes full and visible, and the arm's increment is made (R646, R667). -/
def execSlotFillComplete (n : Fin 16384) (s : State) : Out :=
  if !s.works then .next s else
  let p := n.val
  match s.strm? p with
  | none => .next s
  | some x =>
    let k := s.nextRows x
    if x.state ≠ 2 || !x.passOn || !sdSlot x.desc || sdOutbound x.desc || k = 0 || !s.slotFree x
        || !s.rowsReady x x.row k then .next s
    else
      match s.fillRows k x x.row (x.filled % 2 * sdSlotSize x.desc) (sdRowBytes x.desc) with
      | .error e => .next e
      | .ok t =>
        let u := (t.deadline x).setStrm p { x with row := x.row + k, moved := x.moved + 1, filled := x.filled + 1 }
        .next ((u.increment x.arm).runAdvs p)

/-- An outbound slot has been drained, and the arm's increment is made (R646). -/
def execSlotDrainComplete (n : Fin 16384) (s : State) : Out :=
  if !s.works then .next s else
  let p := n.val
  match s.strm? p with
  | none => .next s
  | some x =>
    let k := s.nextRows x
    if x.state ≠ 2 || !x.passOn || !sdSlot x.desc || !sdOutbound x.desc || k = 0 || decide (x.handed ≤ x.filled) then .next s
    else
      match s.drainRows k x x.row (x.filled % 2 * sdSlotSize x.desc) (sdRowBytes x.desc) with
      | .error e => .next e
      | .ok t =>
        let u := (t.deadline x).setStrm p { x with row := x.row + k, moved := x.moved + 1, filled := x.filled + 1 }
        .next (((u.increment x.arm).checkPass p).runAdvs p)

/-- A linear-mode granule of a pass lands (R645, R649, R670). -/
def execGranuleComplete (n : Fin 16384) (s : State) : Out :=
  if !s.works then .next s else
  let p := n.val
  match s.strm? p with
  | none => .next s
  | some x =>
    let k := s.nextRows x
    let out := sdOutbound x.desc
    if x.state ≠ 2 || !x.passOn || sdSlot x.desc || k = 0 || (!out && !s.rowsReady x x.row k) then .next s
    else
      let st := sdSpireStride x.desc
      match (if out then s.drainRows k x x.row (x.row * st) st else s.fillRows k x x.row (x.row * st) st) with
      | .error e => .next e
      | .ok t =>
        .next (((t.deadline x).setStrm p { x with row := x.row + k, moved := x.moved + 1 }).checkPass p)

/-- A waiting arm is granted its whole buffer (R652). -/
def execBufferGrant (n : Fin 16384) (s : State) : Out :=
  if !s.works then .next s else
  match s.strm? n.val with
  | some x => .next (if s.grantable n.val x then (s.grantStrm n.val x).runAdvs n.val else s)
  | none => .next s

/-- The row-engine request that waits first on a GATHER stream starts its pass, the earlier one having ended (R968). -/
def State.passStart (s : State) (p : Nat) : State :=
  match s.strm? p with
  | some x =>
    match x.reqs with
    | [] => s
    | id :: _ =>
      if sdType x.desc ≠ 3 || x.passOn || (x.state ≠ 2 && x.state ≠ 3) || !s.opStarted id then s
      else (s.setStrm p (x.begin s.tick)).modReq id fun q => { q with passOn := true }
  | none => s

/-- REQUEST_PASS_START on stream n (R968). -/
def execRequestPassStart (n : Fin 16384) (s : State) : Out :=
  .next (if s.works then (s.passStart n.val).runAdvs n.val else s)

/-! Starting operations of the stream unit. -/

/-- A short-path transfer moves its rows and completes (R671, R672). -/
def State.shortMove (s : State) (o : Op) : State :=
  let x : Strm := { desc := o.desc, arm := o, home := o.core, held := 0 }
  let st := sdSpireStride o.desc
  let r := if sdOutbound o.desc then s.drainRows (sdRows o.desc) x 0 0 st
           else s.fillRows (sdRows o.desc) x 0 0 st
  match r with
  | .error e => e.dropOp o.id
  | .ok t => (t.bump (aStrm 0x108)).complete o

/-- A strm operation starts (R400, R653, R656): an arm joins the waiting arms, and is granted its buffer at once where it can
be; a re-arm or close of a PARKED stream takes effect; an advance takes effect or waits. -/
def State.strmStart (s : State) (o : Op) : State :=
  let s1 := s.markStarted o.id
  if o.func = 0 && shortPath o.desc then s1
  else match s1.physStrm o.ctx (sdId o.desc) with
    | none => s1
    | some p =>
      match s1.strm? p with
      | none => if o.func = 2 then (s1.dropOp o.id).unitIllegal o else s1.dropOp o.id
      | some x =>
        if o.func = 0 then
          let x1 := { x with joined := true }
          let t := s1.setStrm p x1
          if t.grantable p x1 then (t.grantStrm p x1).runAdvs p else t.bump (aStrm 0x100)
        else if o.func = 1 then
          if x.state = 3 then
            let x1 := { x with rearm := none, desc := o.desc, arm := o, armOpen := true, state := 2 }
            ((s1.setStrm p (if sdType o.desc = 3 then x1 else x1.begin s1.tick)).checkPass p).runAdvs p
          else s1
        else if o.func = 3 then (if x.state = 3 && x.reqs.isEmpty && x.rearm.isNone then s1.strmIdle p x else s1)
        else (s1.setStrm p { x with advs := x.advs ++ [{ o with since := s1.tick }] }).runAdvs p

end Sys2Proof.Machine
end

