-- ==== Sys2Proof/Machine/Array.lean ====
section
/-! DEFINITION. The array: mma.d and mma.s (R498–R531, R610–R619). The loader takes weight tiles in order (R512, R515), tiles are
applied to the activation rows in K order (R520–R524), and each N-block is written after its last tile (R525). -/

namespace Sys2Proof.Machine

/-! The descriptor (R501). -/

/-- AFMT -/
def mmA (d : List Byte) : Nat := getLe d 0x00 1
/-- WFMT -/
def mmW (d : List Byte) : Nat := getLe d 0x01 1
/-- OFMT -/
def mmO (d : List Byte) : Nat := getLe d 0x02 1
/-- The activation operand channel. -/
def mmChA (d : List Byte) : Nat := nbits (getLe d 0x03 1) 0 3
/-- The weight operand channel. -/
def mmChW (d : List Byte) : Nat := nbits (getLe d 0x03 1) 4 3
/-- FLAGS -/
def mmFlags (d : List Byte) : Nat := getLe d 0x04 2
/-- WSTREAM -/
def mmWstream (d : List Byte) : Bool := nbit (mmFlags d) 1
/-- HDRLESS -/
def mmHdrless (d : List Byte) : Bool := nbit (mmFlags d) 2
/-- AZPT -/
def mmAzpt (d : List Byte) : Bool := nbit (mmFlags d) 3
/-- AGS -/
def mmAgs (d : List Byte) : Bool := nbit (mmFlags d) 4
/-- WGS -/
def mmWgs (d : List Byte) : Bool := nbit (mmFlags d) 5
/-- ACC -/
def mmAcc (d : List Byte) : Bool := nbit (mmFlags d) 6
/-- PROMO -/
def mmPromo (d : List Byte) : Bool := nbit (mmFlags d) 7
/-- AZP -/
def mmAzp (d : List Byte) : Nat := getLe d 0x06 1
/-- ASCALE -/
def mmAscale (d : List Byte) : Nat := getLe d 0x07 1
/-- ACT -/
def mmAct (d : List Byte) : Nat := getLe d 0x08 8
/-- OUT -/
def mmOut (d : List Byte) : Nat := getLe d 0x10 8
/-- WSRC -/
def mmWsrc (d : List Byte) : Nat := getLe d 0x18 8
/-- ROWS -/
def mmRows (d : List Byte) : Nat := getLe d 0x20 4
/-- KT -/
def mmKt (d : List Byte) : Nat := getLe d 0x24 2
/-- NT -/
def mmNt (d : List Byte) : Nat := getLe d 0x26 2
/-- ZMAP_IN -/
def mmZin (d : List Byte) : Nat := getLe d 0x28 8
/-- ZMAP_OUT -/
def mmZout (d : List Byte) : Nat := getLe d 0x30 8
/-- AGS_BASE -/
def mmAgsBase (d : List Byte) : Nat := getLe d 0x38 2
/-- WSCALE -/
def mmWscale (d : List Byte) : Nat := getLe d 0x3A 1
/-- CARRY -/
def mmCarry (d : List Byte) : Nat := getLe d 0x3B 1
/-- WGS_BASE -/
def mmWgsBase (d : List Byte) : Nat := getLe d 0x3C 2
/-- K -/
def mmK (d : List Byte) : Nat := 128 * mmKt d
/-- N -/
def mmN (d : List Byte) : Nat := 128 * mmNt d

/-- The weight formats: codes 0x00–0x08 but UINT4 (R499). -/
def weightFmt (f : Nat) : Bool := decide (f ≤ 8) && f != 2

/-- Formats of 2 bits. -/
def twoBit (f : Nat) : Bool := f == 3 || f == 4

/-- The formats that a DENSE tile of 128 K takes (R506). -/
def dense128 (f : Nat) : Bool := [0, 1, 5, 6, 7, 8].contains f

/-- The formats with an S24 tile (R506). -/
def has24 (f : Nat) : Bool := [0, 1, 5, 6, 7].contains f

/-- The rate class of an operation (R500): 2, 4, 8 or 16. -/
def rateClass (a w : Nat) : Nat :=
  if twoBit a && twoBit w then 2 else max 4 (max (fmtW a) (fmtW w))

/-- Steps per activation row of a DENSE tile of 128 K, and of an S24 or B2 tile of 256 K (R500). -/
def classSteps (cls : Nat) : Nat := if cls = 8 then 4 else if cls = 16 then 16 else 1

/-- K that one step covers (R500, R522): the K range of a step, in a tile of class S24 (s24) or DENSE. R520 rounds once a step, so without
group scales an S24 tile, whose steps are longer, may round otherwise than the DENSE tiles of the same weights, whatever R526 says of
them (log entry 132). -/
def stepK (cls : Nat) (s24 : Bool) : Nat := (if s24 || cls = 2 then 256 else 128) / classSteps cls

/-- The class (1 DENSE, 2 S24) and logical K length of a headerless tile (R508). -/
def hdrlessTile (opc fmt : Nat) : Nat × Nat :=
  if opc = 0x51 then (2, 256) else (1, if twoBit fmt then 256 else 128)

/-- BODY_LEN of a class and format (R506). -/
def tileBody (cls fmt : Nat) : Nat :=
  if cls = 1 then (if twoBit fmt then 8192 else 16384 * fmtW fmt / 8)
  else if cls = 2 then 16384 * fmtW fmt / 8 + 4096
  else 0

/-- Bytes of all tiles of a headerless operation. -/
def hdrlessLen (opc : Nat) (d : List Byte) : Nat :=
  let (cls, kl) := hdrlessTile opc (mmW d)
  mmNt d * ceilDiv (mmK d) kl * tileBody cls (mmW d)

/-- Bytes of the tiles with headers from an address on, as the headers stand (R504, R505): n bounds the tiles, k is the K of the N-block
still to cover of kAll, and nb the N-blocks still to come. A header that gives no K length ends the walk; the loader finds it
malformed (R509). -/
def State.headerLen (s : State) (kAll : Nat) : Nat → Nat → Nat → Nat → Nat
  | 0, _, _, _ => 0
  | n + 1, a, k, nb =>
    if nb = 0 then 0
    else
      let h := s.peek a 16
      let kl := getLe h 6 2
      let len := 16 + getLe h 8 4
      if kl ≠ 128 ∧ kl ≠ 256 ∨ k < kl then 16
      else if k = kl then len + State.headerLen s kAll n (a + len) kAll (nb - 1)
      else len + State.headerLen s kAll n (a + len) (k - kl) nb

/-- The weight area in the store (R502): the tiles that the descriptor or their headers name. -/
def State.weightArea (s : State) (opc : Nat) (d : List Byte) : Nat × Nat :=
  if mmWstream d then (0, 0)
  else (mmWsrc d, if mmHdrless d then hdrlessLen opc d else s.headerLen (mmK d) (mmKt d * mmNt d) (mmWsrc d) (mmK d) (mmNt d))

/-- A stream that WSRC names is one of the context's (R634), and no other task's (R661). -/
def State.weightStrmOk (s : State) (o : Op) : Bool :=
  match s.physStrm o.ctx (mmWsrc o.desc) with
  | none => false
  | some p => (SMap.find s.streams p).all fun x => x.arm.key == o.key && x.arm.asn == o.asn

/-- Formats and flags fit together (R498–R500, R502). -/
def mmFormats (opc : Nat) (d : List Byte) : Bool :=
  let int := fmtInt (mmA d)
  decide (mmA d ≤ 8) && weightFmt (mmW d) && int == fmtInt (mmW d)
    && (mmO d == 9 || (mmO d == 8 && !int) || (mmO d == 10 && int))
    && (!mmAzpt d || mmA d == 2) && decide (mmAzp d ≤ 15) && !(mmAcc d && mmO d == 8) && (!mmPromo d || mmA d == 0)
    && (!(mmAgs d || mmWgs d) || !int) && (!mmAgs d || decide (mmChA d ≤ 1)) && (!mmWgs d || decide (mmChW d ≤ 1))
    && mmChA d != mmChW d
    && (!mmHdrless d || opc != 0x51
          || (has24 (mmW d) && (rateClass (mmA d) (mmW d) == 4 || rateClass (mmA d) (mmW d) == 8)))

/-- Ranges and reserved bits (R501, R502). -/
def mmRanges (d : List Byte) : Bool :=
  decide (1 ≤ mmRows d) && decide (mmRows d ≤ 1024) && decide (1 ≤ mmKt d) && decide (mmKt d ≤ 512)
    && decide (1 ≤ mmNt d) && decide (mmNt d ≤ 64) && decide (mmFlags d < 256) && !nbit (mmFlags d) 0
    && !nbit (getLe d 0x03 1) 3 && !nbit (getLe d 0x03 1) 7 && zeroAt d 0x3E 2
    && (!mmWstream d || decide (mmWsrc d < 65536))

/-- Bytes of the activations. -/
def mmActLen (d : List Byte) : Nat := mmRows d * (mmK d * fmtW (mmA d) / 8)
/-- Bytes of the output. -/
def mmOutLen (d : List Byte) : Nat := mmRows d * mmN d * (fmtW (mmO d) / 8)
/-- Bytes of a zero-block map of rows of n elements (R527). -/
def zmapLen (rows n : Nat) : Nat := ceilDiv (rows * (n / 32)) 8

/-- The array accepts an mma descriptor (R502, R634, R661). -/
def State.mmaOk (s : State) (o : Op) : Bool :=
  let d := o.desc
  let w := s.weightArea o.opc d
  mmFormats o.opc d && mmRanges d
    && s.opBanks o (mmAct d) (mmActLen d) && s.opBanks o (mmOut d) (mmOutLen d)
    && (mmZin d == 0 || s.opBanks o (mmZin d) (zmapLen (mmRows d) (mmK d)))
    && (mmZout d == 0 || s.opBanks o (mmZout d) (zmapLen (mmRows d) (mmN d)))
    && (if mmWstream d then s.weightStrmOk o else s.opBanks o w.1 w.2)
    && !overlaps (mmOut d) (mmOutLen d) (mmAct d) (mmActLen d) && !overlaps (mmOut d) (mmOutLen d) w.1 w.2

/-! Progress. -/

/-- The array's progress in an operation. -/
def State.run (s : State) (id : Nat) : ArrRun := SMap.get s.arr {} id
/-- The state with it replaced. -/
def State.setRun (s : State) (id : Nat) (r : ArrRun) : State := { s with arr := SMap.set s.arr {} id r }

/-- The operation that the array of a Spire runs. -/
def State.arrayOp (s : State) (sp : Nat) : Option Op := s.ops.find? fun (o : Op) => o.inUnit sp 0 && o.started

/-- An mma operation, not spcmp. -/
def Op.isMma (o : Op) : Bool := o.opc == 0x50 || o.opc == 0x51

/-- An mma starts: the promotion flag is read (R503). -/
def State.mmaStart (s : State) (o : Op) : State :=
  let r := s.run o.id
  let sc := s.scale o (mmAscale o.desc)
  let promo := mmPromo o.desc && sc.promo
  s.setRun o.id { r with started := true, since := s.tick, act := if promo then sc.pbuf else mmAct o.desc,
                         afmt := if promo then 5 else mmA o.desc }

/-- The output of an operation that a malformed tile stopped is undefined (R509): free bytes stand there. -/
def State.spoilOut (s : State) (o : Op) : State := s.scramble (mmOut o.desc) (mmOut o.desc + mmOutLen o.desc)

/-- An mma leaves the array unfinished: its task has ended for a fault of its own. -/
def State.abandon (s : State) (o : Op) : State := { s.dropOp o.id with arr := SMap.erase s.arr o.id }

/-! Loading (R504–R516). -/

/-- Every tile of the operation has been loaded. -/
def allLoaded (d : List Byte) (r : ArrRun) : Bool := decide (mmNt d ≤ r.nLoad)

/-- Tiles that an engine of a Spire holds, of whatever operation (R507, R512): cls 1 is the dense engine and 2 the sparse one. -/
def State.latched (s : State) (sp cls : Nat) : Nat :=
  ((s.ops.filter fun (o : Op) => o.inUnit sp 0).map fun o => ((s.run o.id).tiles.filter fun (t : Tile) => t.cls == cls).length).sum

/-- The engine that a tile's class names has a free latch (R512); a ZERO tile takes none. -/
def State.hasLatch (s : State) (o : Op) (cls : Nat) : Bool := cls == 0 || decide (s.latched (o.core / 16) cls < 2)

/-- The operation whose next tile the loader takes (R512, R514): the running one, or once that has loaded all, the first
tile of the next one. -/
def State.loadOp (s : State) (sp : Nat) : Option Op :=
  match s.arrayOp sp with
  | some o =>
    if o.isMma && !allLoaded o.desc (s.run o.id) then some o
    else match s.queued sp 0 with
      | n :: _ => if n.isMma && (s.run n.id).loaded == 0 then some n else none
      | [] => none
  | none => none

/-- The bytes of the slot that Spire sp reads next on a stream: address and length; none where no full slot waits. -/
def State.nextSlot (s : State) (x : Strm) (sp : Nat) : Option (Nat × Nat) :=
  let f := x.freedBy sp
  if x.spires.contains sp && sdSlot x.desc && sdType x.desc == 4 && decide (f < x.filled) then
    let rows := min (sdSlotRows x.desc) (s.passRows x - (f - x.first) * sdSlotRows x.desc)
    some (sdAddrIn sp x.desc + f % 2 * sdSlotSize x.desc, rows * sdRowBytes x.desc)
  else none

/-- The loader reads stream slots until it holds n bytes or no full slot waits; each slot is released once its last byte is
read (R515). -/
def State.pullSlots : Nat → State → Op → Nat → State
  | 0, s, _, _ => s
  | k + 1, s, o, n =>
    let r := s.run o.id
    let sp := o.core / 16
    if n ≤ r.buf.length then s
    else match o.weightStrm? s with
      | none => s
      | some p =>
        match s.strm? p with
        | none => s
        | some x =>
          match s.nextSlot x sp with
          | none => s
          | some (a, len) =>
            let at_ := SMap.get x.readAt 0 sp
            let m := min (n - r.buf.length) (len - at_)
            let s1 := s.setRun o.id { r with buf := r.buf ++ s.peek (a + at_) m }
            if at_ + m = len then State.pullSlots k ((s1.setStrm p (x.freeSlot sp)).runAdvs p) o n
            else s1.setStrm p { x with readAt := SMap.put x.readAt sp (at_ + m) }

/-- The first n bytes of the next tile: those at hand, and the state after reading them from slots. -/
def State.weightBytes (s : State) (o : Op) (n : Nat) : List Byte × State :=
  if mmWstream o.desc then
    let t := s.pullSlots (n + 1) o n
    ((t.run o.id).buf.take n, t)
  else (s.peek (mmWsrc o.desc + (s.run o.id).pos) n, s)

/-- A header is one of the tile table's, in an operation (R505, R506, R509, R616): class, K length and BODY_LEN. -/
def headerTile (d : List Byte) (afmt : Nat) (h : List Byte) : Option (Nat × Nat × Nat) :=
  let cls := getLe h 0 1
  let fl := getLe h 2 1
  let el := getLe h 6 2
  let w := mmW d
  let rate := rateClass afmt w
  if getLe h 1 1 ≠ w ∨ 4 ≤ fl ∨ !zeroAt h 3 1 ∨ !zeroAt h 12 4 then none
  else if nbit fl 0 && decide (1 < mmChW d) then none
  else if cls = 0 then (if (el = 128 ∨ el = 256) ∧ hdrLen h = 0 then some (0, el, 0) else none)
  else if cls = 1 then
    (if hdrLen h = tileBody 1 w ∧ el = (if twoBit w then 256 else 128) then some (1, el, tileBody 1 w) else none)
  else if cls = 2 then
    (if has24 w ∧ el = 256 ∧ hdrLen h = tileBody 2 w ∧ (rate = 4 ∨ rate = 8) then some (2, 256, tileBody 2 w) else none)
  else none

/-- The codes of a tile in flat order (R506, R510, R511); none where an S24 group is out of order. -/
def Tile.codes (t : Tile) : Option (List Nat) :=
  let w := fmtW t.fmt
  if t.cls = 0 then some (List.replicate (128 * t.kl) 0)
  else if t.cls = 1 then some (unpack w (128 * t.kl) t.body)
  else decode24 w (128 * t.kl) t.body

/-- The tile takes its place in the operation's order (R504): its K range follows the last one's within the N-block. -/
def State.placeTile (s : State) (o : Op) (t : Tile) : State :=
  let r := s.run o.id
  let e := r.kLoad + t.kl
  let wref := if t.cls != 0 && r.wref.isNone then some (t.gscale, t.ref) else r.wref
  let r1 := { r with kLoad := if e = mmK o.desc then 0 else e, nLoad := if e = mmK o.desc then r.nLoad + 1 else r.nLoad,
                     tiles := r.tiles ++ [{ t with k0 := r.kLoad, t := r.loaded }], loaded := r.loaded + 1, wref := wref,
                     zref := r.zref || (t.cls == 0 && t.gscale),
                     since := s.tick }
  s.setRun o.id r1

/-- Bytes of the next tile have been taken from the area or from what the slots gave. -/
def State.consume (s : State) (o : Op) (n : Nat) : State :=
  let r := s.run o.id
  s.setRun o.id (if mmWstream o.desc then { r with buf := r.buf.drop n } else { r with pos := r.pos + n })

/-- A tile of class, K length and flags, n bytes long with a header of h bytes, is loaded where all of it is at hand
(R509, R512). -/
def State.loadBody (s : State) (o : Op) (t : Tile) (h n : Nat) : State :=
  let r := s.run o.id
  if mmK o.desc < r.kLoad + t.kl then ((s.spoilOut o).sparseFault o).abandon o
  else if !mmWstream o.desc && !s.opBanks o (mmWsrc o.desc + r.pos) (h + n) then (s.unitIllegal o).abandon o
  else
    let (b, s1) := s.weightBytes o (h + n)
    if b.length < h + n then s1
    else
      let t1 := { t with body := b.drop h }
      match t1.codes with
      | none => ((s1.spoilOut o).sparseFault o).abandon o
      | some l => ((s1.consume o (h + n)).countTern t.fmt l).placeTile o t1

/-- The loader goes on with the next tile of an operation. -/
def State.loadTile (s : State) (o : Op) : State :=
  let d := o.desc
  let r := s.run o.id
  if mmHdrless d then
    let (cls, kl) := hdrlessTile o.opc (mmW d)
    if !s.hasLatch o cls then s
    else s.loadBody o { cls := cls, fmt := mmW d, kl := kl, ref := 0, gscale := false, body := [], k0 := 0, t := 0 } 0
      (tileBody cls (mmW d))
  else if !mmWstream d && !s.opBanks o (mmWsrc d + r.pos) 16 then (s.unitIllegal o).abandon o
  else
    let (h, s1) := s.weightBytes o 16
    if h.length < 16 then s1
    else match headerTile d (if r.started then r.afmt else mmA d) h with
      | none => ((s1.spoilOut o).sparseFault o).abandon o
      | some (cls, kl, n) =>
        if !s.hasLatch o cls then s1
        else s1.loadBody o { cls := cls, fmt := mmW d, kl := kl, ref := getLe h 4 2, gscale := nbit (getLe h 2 1) 0,
                             body := [], k0 := 0, t := 0 } 16 n

/-- The loader fills a free weight latch with the next tile, or passes a ZERO tile (R512). -/
def execTileLoadComplete (sp : Fin 64) (s : State) : Out :=
  if !s.works then .next s else
  match s.loadOp sp.val with
  | some o => .next (s.loadTile o)
  | none => .next s

/-! Products and sums (R518–R524, R615). -/

/-- A finite value of at most 16 bits in units of 2^-133. -/
def fixed133 : FVal → Int
  | .fin n m e => (if n then -1 else 1) * ((m * 2 ^ (e + 133).toNat : Nat) : Int)
  | _ => 0

/-- One product (R518): +0 where either factor is zero, else exact. -/
def exMul (a b : FVal) : ExSum :=
  if a.isZero || b.isZero then {}
  else if a.isNaN || b.isNaN then { nan := true }
  else
    match a, b with
    | .fin _ _ _, .fin _ _ _ => { v := fixed133 a * fixed133 b }
    | _, _ => if a.sign != b.sign then { ninf := true } else { pinf := true }

/-- The sum of two exact sums. -/
def ExSum.add (x y : ExSum) : ExSum :=
  { v := x.v + y.v, pinf := x.pinf || y.pinf, ninf := x.ninf || y.ninf, nan := x.nan || y.nan }

/-- The value of an exact sum (R523). -/
def ExSum.value (x : ExSum) : FVal :=
  if x.nan || (x.pinf && x.ninf) then .nan false
  else if x.pinf then .inf false
  else if x.ninf then .inf true
  else .fin (decide (x.v < 0)) x.v.natAbs (-266)

/-- A value times the product of two group factors; an E8M0 code of 0xFF makes it NaN (R521, R615). -/
def scaleBy (e1 e2 : Option Nat) (x : FVal) : FVal :=
  let f := fun (e : Option Nat) (y : FVal) => match e with | some c => (y.mul (e8m0 c)).1 | none => y
  if e1 = some 255 || e2 = some 255 then .nan false else f e2 (f e1 x)

/-- An exact sum added to an FP32 accumulator with one rounding (R520, R523). -/
def accAdd (acc : Nat) (x : FVal) : Nat := (fp32.encode ((fp32.decode acc).add x).1).1

/-- What one column of a row brings to a tile: the accumulator, and the exact sum of a group not complete. -/
structure ColAcc where
  acc : Nat
  part : ExSum
deriving DecidableEq, Repr

/-- The ranges of a tile over which products are summed exactly (R520, R521, R615): end offset and whether the range is
complete there. g is the group size, ags and wsc say which operands have group factors, k0 the tile's first K of K in all. -/
def cuts (ags wsc : Bool) (g step kl k0 k : Nat) : List (Nat × Bool) :=
  let isCut := fun (i : Nat) =>
    if !ags && !wsc then i % step == 0
    else (wsc && (i % g == 0 || i == kl)) || (ags && ((k0 + i) % g == 0 || k0 + i == k))
  ((List.range kl).map (· + 1)).filterMap fun i => if isCut i then some (i, true) else if i = kl then some (i, false) else none

/-- One column over the ranges of a tile: products as exact sums, factors by range. -/
def colRanges (fac : Nat → Option Nat × Option Nat) : List (Nat × Bool) → Nat → List ExSum → ColAcc → ColAcc
  | [], _, _, c => c
  | (i, full) :: t, from_, ps, c =>
    let x := (ps.take (i - from_)).foldl ExSum.add c.part
    let c1 : ColAcc := if full then
        let (e1, e2) := fac from_
        { acc := accAdd c.acc (scaleBy e1 e2 x.value), part := {} }
      else { c with part := x }
    colRanges fac t i (ps.drop (i - from_)) c1

/-! Applying a tile (R520–R530). -/

/-- What a tile's application needs of its operation. -/
structure MmaEnv where
  o : Op
  r : ArrRun
  t : Tile
  /-- Columns of the tile: codes by K. -/
  cols : List (List Nat)
  wsc : Bool
  g : Nat
deriving DecidableEq, Repr

/-- The group size of an operation (R612). -/
def State.mmaGroup (s : State) (o : Op) : Nat :=
  (s.scale o (if mmAgs o.desc then mmAscale o.desc else mmWscale o.desc)).gsize

/-- The group-scale entry of column n and offset i of a tile (R614). -/
def MmaEnv.wEntry (v : MmaEnv) (n i : Nat) : Nat :=
  let per := ceilDiv v.t.kl v.g
  if mmHdrless v.o.desc then mmWgsBase v.o.desc + v.t.t * 128 * per + n * per + i / v.g
  else v.t.ref + n * per + i / v.g

/-- The group factors at offset i of a tile for row r and column n (R613, R614). -/
def State.factors (s : State) (v : MmaEnv) (r n i : Nat) : Option Nat × Option Nat :=
  let d := v.o.desc
  (if mmAgs d then some (s.gs v.o (mmAgsBase d + r * ceilDiv (mmK d) v.g + (v.t.k0 + i) / v.g)) else none,
   if v.wsc then some (s.gs v.o (v.wEntry n i)) else none)

/-- The ZMAP_IN bit of block b of a row (R527). -/
def State.zbit (s : State) (a rowBlocks r b : Nat) : Bool :=
  let j := r * rowBlocks + b
  nbit (getLe (s.peek (a + j / 8) 1) 0 1) (j % 8)

/-- Every block of a row in [k0, k0 + kl) is marked zero (R529). -/
def State.rowSkipped (s : State) (d : List Byte) (r k0 kl : Nat) : Bool :=
  mmZin d != 0 && !mmAzpt d && (List.range (kl / 32)).all fun b => s.zbit (mmZin d) (mmK d / 32) r (k0 / 32 + b)

/-- The activation bytes of a row's K range; a promotion buffer outside the context's banks holds free bytes. -/
def State.actBytes (s : State) (v : MmaEnv) (r : Nat) : List Byte :=
  let w := fmtW v.r.afmt
  let a := v.r.act + (r * mmK v.o.desc + v.t.k0) * w / 8
  let n := v.t.kl * w / 8
  if s.opBanks v.o a n then s.peek a n else (List.range n).map fun i => Config.freeByte s.draws (a + i)

/-- The activation codes of a row over a tile's K range, with the blocks that ZMAP_IN marks taken as zero (R530). -/
def State.actCodes (s : State) (v : MmaEnv) (r : Nat) : List Nat :=
  let d := v.o.desc
  let l := unpack (fmtW v.r.afmt) v.t.kl (s.actBytes v r)
  if mmZin d = 0 then l
  else
    let z := if mmAzpt d then mmAzp d else 0
    (List.zip (List.range v.t.kl) l).map fun (i, c) =>
      if s.zbit (mmZin d) (mmK d / 32) r ((v.t.k0 + i) / 32) then z else c

/-- One row's accumulators after a floating-family tile. from their groups not complete are the parts. -/
def State.rowFloat (s : State) (v : MmaEnv) (r : Nat) (act : List Nat) (isOpen : Bool) (l : List ColAcc) : List ColAcc :=
  let d := v.o.desc
  let av := act.map (codeVal v.r.afmt)
  let cs := cuts (mmAgs d) v.wsc v.g (stepK (rateClass v.r.afmt (mmW d)) (v.t.cls == 2)) v.t.kl v.t.k0 (mmK d)
  (List.zip (List.range 128) (v.cols.zip l)).map fun (n, (w, c)) =>
    let c1 := if v.wsc && isOpen then
        ({ acc := accAdd c.acc (scaleBy (s.factors v r n 0).1 none c.part.value), part := {} } : ColAcc)
      else c
    colRanges (fun i => s.factors v r n i) cs 0 (List.zipWith (fun a b => exMul a (codeVal v.t.fmt b)) av w) c1

/-- A row on which a tile executes nothing: a group that was open and ends within the tile's K range is added (R521). -/
def State.rowIdle (s : State) (v : MmaEnv) (r : Nat) (ends : Bool) (l : List ColAcc) : List ColAcc :=
  if ends then l.map fun c => { acc := accAdd c.acc (scaleBy (s.factors v r 0 0).1 none c.part.value), part := {} } else l

/-- One row's integer accumulators after a tile (R524). -/
def rowInt (afmt wfmt : Nat) (act : List Nat) (cols : List (List Nat)) (l : List Int) : List Int :=
  let av := act.map (codeInt afmt)
  List.zipWith (fun w a => a + (List.zipWith (fun x c => x * codeInt wfmt c) av w).sum) cols l

/-- Accumulators at the start of an N-block (R519, R524); a NaN in OUT is the quiet NaN (R523). -/
def State.accStart (s : State) (d : List Byte) (nb : Nat) : List Int :=
  let row := fun (r : Nat) => unpack 32 128 (s.peek (mmOut d + (r * mmN d + 128 * nb) * 4) 512)
  if !mmAcc d then List.replicate (mmRows d * 128) 0
  else (List.range (mmRows d)).flatMap fun r =>
    (row r).map fun c => if fmtInt (mmW d) then sext 32 c else (((if isNanF c then nanF else posZero c) : Nat) : Int)

/-- One output value (R525). -/
def outValue (int : Bool) (ofmt : Nat) (v : Int) : Nat × Bool :=
  if int then (if ofmt = 10 then satInt 10 v else (intF v, false))
  else if ofmt = 8 then toBf16 v.toNat else (posZero v.toNat, false)

/-- The output of an N-block (R517, R525). -/
def State.writeBlock (s : State) (o : Op) (r : ArrRun) : State :=
  let d := o.desc
  let int := fmtInt (mmW d)
  let ob := fmtW (mmO d) / 8
  let fix := fun (row : List Int) => if mmAzpt d then List.zipWith (fun a c => a - (mmAzp d : Int) * c) row r.cols else row
  let rows := (chunks (mmRows d) 128 r.acc).map fun row => (fix row).map (outValue int (mmO d))
  let sat := ((rows.flatMap id).filter (·.2)).length
  let s1 := (List.zip (List.range (mmRows d)) rows).foldl (fun (t : State) (i, row) =>
    t.storeWrite (mmOut d + (i * mmN d + 128 * r.nApply) * ob) (pack (fmtW (mmO d)) (row.map (·.1)))) s
  if sat = 0 then s1 else s1.bump (aSpire (o.core / 16) 0x114) sat

/-- A zero-block map of codes (R527). -/
def zmapOf (isZero : Nat → Bool) (l : List Nat) : List Byte :=
  pack 1 ((chunks (l.length / 32) 32 l).map fun b => if b.all isZero then 1 else 0)

/-- The map of the output, written with the last N-block (R528). -/
def State.writeZmap (s : State) (o : Op) : State :=
  let d := o.desc
  if mmZout d = 0 then s
  else
    let n := mmRows d * mmN d
    let w := fmtW (mmO d)
    s.storeWrite (mmZout d)
      (zmapOf (fun c => if mmO d = 10 then c == 0 else (codeVal (mmO d) c).isZero) (unpack w n (s.peek (mmOut d) (n * w / 8))))

/-- The engine counters of one tile (R529, R566). -/
def State.countTile (s : State) (sp cls steps skipped : Nat) : State :=
  let s1 := s.bump (aSpire sp (if cls = 0 then 0x108 else if cls = 2 then 0x10C else 0x110))
  let s2 := s1.setReg (aSpire sp 0x100) (s1.reg (aSpire sp 0x100) + BitVec.ofNat 32 steps)
  if skipped = 0 then s2 else s2.bump (aSpire sp 0x104) skipped

/-- Steps that one activation row takes on a tile (R500). -/
def tileSteps (afmt : Nat) (t : Tile) : Nat :=
  if t.cls = 0 then 0 else t.kl / stepK (rateClass afmt t.fmt) (t.cls == 2)

/-- The accumulators of every row after a tile. -/
def State.tileRows (s : State) (v : MmaEnv) (run : List Bool) : List Int × List ExSum × List Bool :=
  let d := v.o.desc
  let rows := mmRows d
  if fmtInt (mmW d) then
    let l := (List.zip (List.range rows) (run.zip (chunks rows 128 v.r.acc))).flatMap fun (r, (go, row)) =>
      if go then rowInt v.r.afmt v.t.fmt (s.actCodes v r) v.cols row else row
    (l, v.r.part, v.r.opened)
  else
    let last := v.t.k0 + v.t.kl
    let ends := decide (v.t.k0 / v.g < last / v.g) || last == mmK d
    let endOpen := mmAgs d && !v.wsc && last % v.g != 0 && last != mmK d
    let out := (List.zip (List.range rows) (run.zip (v.r.opened.zip ((chunks rows 128 v.r.acc).zip (chunks rows 128 v.r.part))))).map
      fun (r, (go, (op, (row, part)))) =>
        let l := List.zipWith (fun (a : Int) p => ({ acc := a.toNat, part := p } : ColAcc)) row part
        if go then (s.rowFloat v r (s.actCodes v r) op l, endOpen)
        else (s.rowIdle v r (op && ends) l, op && !ends)
    (out.flatMap fun e => e.1.map fun c => (c.acc : Int), out.flatMap fun e => e.1.map fun c => c.part, out.map (·.2))

/-- The accumulators as the first tile of an N-block finds them. -/
def State.blockStart (s : State) (d : List Byte) (r : ArrRun) : ArrRun :=
  if r.kApply = 0 then
    { r with acc := s.accStart d r.nApply, cols := List.replicate 128 0, part := List.replicate (mmRows d * 128) {},
             opened := List.replicate (mmRows d) false }
  else r

/-- A loaded tile is applied to every activation row, or a ZERO tile passes (R507, R520–R530); after the last tile of its
N-block the output is written (R525). -/
def State.applyTile (s : State) (o : Op) (r0 : ArrRun) (t : Tile) (rest : List Tile) : State :=
  let d := o.desc
  let r := s.blockStart d r0
  let cols := chunks 128 t.kl (t.codes.getD [])
  let v : MmaEnv := { o := o, r := r, t := t, cols := cols, g := s.mmaGroup o,
                      wsc := t.cls != 0 && (if mmHdrless d then mmWgs d else t.gscale) && !fmtInt (mmW d) }
  let run := (List.range (mmRows d)).map fun i => t.cls != 0 && !s.rowSkipped d i t.k0 t.kl
  let go := (run.filter id).length
  let n := tileSteps r.afmt t
  let (acc, part, opened) := s.tileRows v run
  let sums := List.zipWith (fun a c => a + (c.map (codeInt t.fmt)).sum) r.cols cols
  let tern := ((List.zip (List.range (mmRows d)) run).flatMap fun (i, g) => if g then s.actCodes v i else [])
  let k1 := t.k0 + t.kl
  let r1 := { r with tiles := rest, acc := acc, part := part, opened := opened, kApply := k1,
                     cols := if fmtInt (mmW d) then sums else r.cols }
  let s1 := (s.countTile (o.core / 16) t.cls (go * n) (if t.cls = 0 then 0 else (mmRows d - go) * n)).countTern r.afmt tern
  if k1 < mmK d then s1.setRun o.id r1
  else
    let s2 := (s1.writeBlock o r1).setRun o.id { r1 with kApply := 0, nApply := r1.nApply + 1, acc := [], part := [], opened := [] }
    if r1.nApply + 1 = mmNt d then s2.writeZmap o else s2

/-- The array applies the tile that it holds (R520). -/
def execTileApply (sp : Fin 64) (s : State) : Out :=
  if !s.works then .next s else
  match s.arrayOp sp.val with
  | none => .next s
  | some o =>
    let r := s.run o.id
    match r.tiles with
    | t :: rest => .next (if o.isMma && r.started then s.applyTile o r t rest else s)
    | [] => .next s

/-! Completion (R610, R618). -/

/-- The weights' tensor scale (R610); of an operation whose tiles are all ZERO and without GSCALE the manual names none (log entry 16). -/
def State.weightScale (s : State) (o : Op) (r : ArrRun) : Nat :=
  let d := o.desc
  if mmHdrless d then (s.scale o (mmWscale d)).value
  else match r.wref with
    | some (true, _) => (s.scale o (mmWscale d)).value
    | some (false, n) => (s.scale o n).value
    | none => if r.zref then (s.scale o (mmWscale d)).value else Config.unstated 3 0 % 2 ^ 32

/-- Every N-block has been written. -/
def State.mmaDone (s : State) (o : Op) : Bool := decide (mmNt o.desc ≤ (s.run o.id).nApply)

/-- An mma completes: the carried scale is written to CARRY (R618). -/
def State.mmaRun (s : State) (o : Op) : State :=
  let p := mulF (s.scale o (mmAscale o.desc)).value (s.weightScale o (s.run o.id))
  let s1 := s.setScale o (mmCarry o.desc) { value := p, qdiv := p, pbuf := (s.scale o (mmCarry o.desc)).pbuf }
  { s1 with arr := SMap.erase s1.arr o.id }

end Sys2Proof.Machine
end

