-- ==== Sys2Proof/Machine/Transcend.lean ====
section
/-! DEFINITION. The element-wise functions computed by a fixed algorithm of the firmware version (R556, R557): each result is
a free FP32 number within 2 ULP of the exact value. The exact value is
computed in fixed point, in units of 2^-320. -/

namespace Sys2Proof.Machine

/-- 1 in units of 2^-320. -/
def fxOne : Nat := 2 ^ 320

/-- ln 2 in units of 2^-320. -/
def fxLn2 : Nat := 1480553391661173448385607439722553250922680800745876974795605978609098082859138712941075737848984

/-- m × 2^e in units of 2^-320, cut below. -/
def toFx (m : Nat) (e : Int) : Nat := if 0 ≤ e + 320 then m * 2 ^ (e + 320).toNat else m / 2 ^ (-(e + 320)).toNat

/-- Σ x^i ÷ i!, from the term t of index i on. -/
def expSeries (x : Nat) : Nat → Nat → Nat → Nat
  | 0, _, _ => 0
  | n + 1, i, t => t + expSeries x n (i + 1) (t * x / (fxOne * (i + 1)))

/-- exp of a fixed-point number, taken no further out than ±1,000: t and k with exp(x) = t × 2^(k - 320). -/
def expFx (x : Int) : Nat × Int :=
  let y : Int := max (-1000 * (fxOne : Int)) (min x (1000 * (fxOne : Int)))
  let k := y / (fxLn2 : Int)
  (expSeries (y - k * (fxLn2 : Int)).toNat 90 0 fxOne, k)

/-- exp of a fixed-point number in units of 2^-320. -/
def expUnits (x : Int) : Nat :=
  let (t, k) := expFx x
  if 0 ≤ k then t * 2 ^ k.toNat else t / 2 ^ (-k).toNat

/-- Σ p ÷ (2 i + 1), where p falls by z² from term to term: the series of artanh. -/
def artanhSeries (zz : Int) : Nat → Nat → Int → Int
  | 0, _, _ => 0
  | n + 1, i, p => Int.tdiv p (2 * i + 1) + artanhSeries zz n (i + 1) (Int.tdiv (p * zz) (fxOne : Int))

/-- The natural logarithm of m × 2^e, m not 0, in units of 2^-320. -/
def logFx (m : Nat) (e : Int) : Int :=
  let l := Nat.log2 m
  let (d, k) := if 3 * 2 ^ l ≤ 2 * m then (2 ^ (l + 1), e + l + 1) else (2 ^ l, e + (l : Int))
  let z := Int.tdiv (((m : Int) - (d : Nat)) * (fxOne : Int)) ((m : Int) + (d : Nat))
  k * (fxLn2 : Int) + 2 * artanhSeries (Int.tdiv (z * z) (fxOne : Int)) 80 0 z

/-- The exact value (-1)^neg × m × 2^e ÷ d of a function. -/
structure Exact where
  neg : Bool
  m : Nat
  e : Int
  d : Nat := 1
deriving DecidableEq, Repr

/-- The FP32 number nearest to an exact value. -/
def Exact.near (q : Exact) : Nat :=
  let (n, e, st) := divBits q.m q.e q.d 0
  (fp32.round q.neg n e st).1

/-- An integer times 2^e in units of 2^-2000. -/
def unit2000 (v : Int) (e : Int) : Int := v * 2 ^ (e + 2000).toNat

/-- The exponent of one ULP of an exact value in FP32: 2^-149 at the least, which it is at zero (R557). -/
def Exact.ulp (q : Exact) : Int :=
  if q.m = 0 then -149 else
  let l : Int := (Nat.log2 q.m : Int) - Nat.log2 q.d
  let top := if (Nat.log2 q.m : Int) < l + Nat.log2 q.d ∨ q.m * 2 ^ (-l).toNat < q.d * 2 ^ l.toNat then l - 1 else l
  max (q.e + top - 23) (-149)

/-- The FP32 number y lies within 2 ULP of an exact value (R557). -/
def Exact.within (q : Exact) (y : Nat) : Bool :=
  match fp32.decode y with
  | .fin n m e =>
    let diff := unit2000 ((if n then -1 else 1) * (m * q.d : Nat)) e - unit2000 ((if q.neg then -1 else 1) * (q.m : Nat)) q.e
    decide (diff.natAbs ≤ (unit2000 (2 * q.d : Nat) q.ulp).natAbs)
  | _ => false

/-- An FP32 number moved k places along the line of FP32 numbers; an infinity stays. -/
def movedBy (k : Int) (x : Nat) : Nat :=
  if k = 0 ∨ x % 2 ^ 31 = infF then x
  else
    let o : Int := (if x < 2 ^ 31 then (x : Int) else -((x - 2 ^ 31 : Nat) : Int)) + k
    if o < 0 then 2 ^ 31 + min o.natAbs infF else min o.toNat infF

/-- The FP32 number that a free number t names within 2 ULP of an exact value (R557): the nearest one, or one up to four places from it
that keeps the bound (four lie within it only below a power of two). -/
def Exact.pick (q : Exact) (t : Nat) : Nat :=
  let y := movedBy ((t % 9 : Nat) - 4) q.near
  if q.within y then y else q.near

/-- -2 y for the y of GELU: 0.797 884 56 × (A + 0.044 715 × A³). -/
def geluArg (neg : Bool) (m : Nat) (e : Int) : Int :=
  let y := (toFx m e * 1000000 + 44715 * toFx (m ^ 3) (3 * e)) * 79788456 / (1000000 * 100000000)
  if neg then 2 * (y : Int) else -2 * (y : Int)

/-- The function f of a finite operand, or its quotient by b, as an exact value. none where the function has no
finite value there, or the manual states none. -/
def exactF (f : Nat) (neg : Bool) (m : Nat) (e : Int) (b : FVal) : Option Exact :=
  let fx : Int := if neg then -(toFx m e : Int) else toFx m e
  if f = 0x04 then (match b with
    | .fin n2 m2 e2 => if m2 = 0 then none else some ⟨neg != n2, m, e - e2, m2⟩
    | _ => none)
  else if f = 0x0A then some ⟨neg, m, e + 320, fxOne + expUnits (geluArg neg m e)⟩
  else if f = 0x0B then some ⟨neg, m, e + 320, fxOne + expUnits (-fx)⟩
  else if f = 0x0C then some ⟨false, fxOne, 0, fxOne + expUnits (-fx)⟩
  else if f = 0x0D then
    let u := expUnits (2 * (toFx m e : Int))
    some ⟨neg, u - fxOne, 0, u + fxOne⟩
  else if f = 0x0E then
    let (t, k) := expFx fx
    some ⟨false, t, k - 320, 1⟩
  else if f = 0x0F then
    let v := logFx m e
    if neg then none else some ⟨decide (v < 0), v.natAbs, -320, 1⟩
  else if neg then none
  else
    let r := Nat.sqrt (2 ^ 640 / (m * 2 ^ (e % 2).toNat))
    some ⟨false, r, -320 - e / 2, 1⟩

/-- The result that IEEE 754 gives a function where its value is not finite or an operand is not: a quotient, 1 ÷ √A, and
SIGMOID and EXP of an infinity. none where the manual states no result. -/
def edgeF (f a b : Nat) : Option Nat :=
  if f = 0x04 then some (divF a b)
  else if f = 0x10 then some (divF oneF (sqrtF a))
  else if f = 0x0C then some (if a = infF then oneF else 0)
  else if f = 0x0E then some (if a = infF then infF else 0)
  else none

/-- A function computed by the fixed algorithm of firmware version v (R557); a NaN operand gives the quiet NaN (R457). What the manual states no
result for (a logarithm of zero or of a negative number) is free. -/
def fixedF (v f a b : Nat) : Nat :=
  if isNanF a || isNanF b then nanF
  else
    let r := match fp32.decode a with
      | .fin neg m e => if m = 0 && (f == 0x0F || f == 0x10) then none else exactF f neg m e (fp32.decode b)
      | _ => none
    match r with
    | some q => q.pick (Config.transcend v f a b)
    | none => (edgeF f a b).getD (Config.transcend v f a b % 2 ^ 32)

end Sys2Proof.Machine
end

