-- ==== Sys2Proof/Machine/Agg.lean ====
section
/-! DEFINITION. The aggregate unit (R546–R565): its descriptor and check, reductions and combining, element-wise functions and
streaming softmax. An operation reads its sources and writes its result when it completes. -/

namespace Sys2Proof.Machine

/-! The descriptor (R546). -/

/-- OP -/
def agOp (d : List Byte) : Nat := getLe d 0x00 1
/-- FUNC -/
def agFunc (d : List Byte) : Nat := getLe d 0x01 1
/-- SFMT -/
def agS (d : List Byte) : Nat := getLe d 0x02 1
/-- DFMT -/
def agD (d : List Byte) : Nat := getLe d 0x03 1
/-- FLAGS: bit 0 WGT, bit 1 CAUSAL, bit 2 BROW, bit 3 FIRST. -/
def agFlags (d : List Byte) : Nat := getLe d 0x04 2
/-- N -/
def agN (d : List Byte) : Nat := getLe d 0x06 2
/-- SRC_A -/
def agA (d : List Byte) : Nat := getLe d 0x08 8
/-- SRC_B -/
def agB (d : List Byte) : Nat := getLe d 0x10 8
/-- DST -/
def agDst (d : List Byte) : Nat := getLe d 0x18 8
/-- AUX -/
def agAux (d : List Byte) : Nat := getLe d 0x20 8
/-- ROWS -/
def agRows (d : List Byte) : Nat := getLe d 0x28 4
/-- NSEG -/
def agSeg (d : List Byte) : Nat := getLe d 0x2C 4
/-- SCALAR -/
def agScalar (d : List Byte) : Nat := getLe d 0x30 4
/-- QPOS0 -/
def agQ (d : List Byte) : Nat := getLe d 0x34 4
/-- KPOS0 -/
def agK (d : List Byte) : Nat := getLe d 0x38 4
/-- WGT -/
def agWgt (d : List Byte) : Bool := nbit (agFlags d) 0
/-- CAUSAL -/
def agCausal (d : List Byte) : Bool := nbit (agFlags d) 1
/-- BROW -/
def agBrow (d : List Byte) : Bool := nbit (agFlags d) 2
/-- FIRST -/
def agFirst (d : List Byte) : Bool := nbit (agFlags d) 3

/-- Bytes of n elements of a format of at least 8 bits. -/
def fmtBytes (f n : Nat) : Nat := n * (fmtW f / 8)

/-- An element-wise function takes operand B. -/
def ewiseTwo (f : Nat) : Bool := (decide (1 ≤ f) && decide (f ≤ 7)) || f == 0x12 || f == 0x13

/-- The source areas of an operation besides SRC_A: address and length (R546–R565). -/
def agSources (d : List Byte) : List (Nat × Nat) :=
  let r := agRows d
  let n := agN d
  let w := fmtBytes (agS d)
  if agOp d = 0x01 then (agAux d, 4 * (agSeg d + 1)) :: (if agWgt d then [(agB d, w r)] else [])
  else if agOp d = 0x03 then (if ewiseTwo (agFunc d) then [(agB d, if agBrow d then w r else w (r * n))] else [])
  else if agOp d = 0x10 ∨ agOp d = 0x12 then [(agAux d, 16 * r)]
  else if agOp d = 0x11 then [(agB d, w (r * n)), (agAux d, 16 * r)]
  else if agOp d = 0x13 then [(agB d, 4 * r * n + 16 * r), (agAux d, 16 * r)]
  else if agOp d = 0x14 then [(agAux d, 4 * (agSeg d + 1))]
  else []

/-- Bytes at SRC_A. -/
def agALen (d : List Byte) : Nat :=
  let w := fmtBytes (agS d) (agRows d * agN d)
  if agOp d = 0x02 then agSeg d * (w + if agFunc d = 2 then 4 * agRows d else 0) else w

/-- Bytes at DST. -/
def agDLen (d : List Byte) : Nat := fmtBytes (agD d) ((if agOp d = 0x01 then agSeg d else agRows d) * agN d)

/-- OP, FUNC, SFMT and DFMT fit together (R549, R550, R553, R554, R556, R559, R561, R563); the rules name no use of an INT32
source by the softmax operations. -/
def agFormats (d : List Byte) : Bool :=
  let s := agS d
  let t := agD d
  let f := agFunc d
  let int := s == 0x0A
  [5, 6, 8, 9, 10].contains s && [5, 6, 8, 9, 10, 11].contains t
    && (if agOp d = 0x01 ∨ agOp d = 0x02 then
          decide (1 ≤ f) && decide (f ≤ 9) && (!int || (decide (f ≤ 4) && (f != 2 || t == 9)))
            && (agOp d != 1 || (if redWeights f = 2 then agWgt d else if redWeights f = 0 then !agWgt d else true))
        else if agOp d = 0x03 then decide (f ≤ 0x13) && (!int || [0, 1, 2, 5, 6].contains f)
        else if agOp d = 0x10 then !int && [5, 6, 8].contains t
        else if agOp d = 0x11 ∨ agOp d = 0x13 then s == 9 && t == 9
        else if agOp d = 0x12 then s == 9
        else agOp d == 0x14 && !int)

/-- Ranges and reserved bits (R546, R549). -/
def agRanges (d : List Byte) : Bool :=
  decide (agFlags d < 16) && zeroAt d 0x3C 4 && agN d % 32 == 0 && decide (32 ≤ agN d) && decide (agN d ≤ 8192)
    && decide (1 ≤ agRows d) && decide (agRows d ≤ 65536)
    && (!([1, 2, 0x14].contains (agOp d)) || decide (1 ≤ agSeg d))
    && decide (agQ d < 2 ^ 22) && decide (agK d < 2 ^ 22)
    && decide (agQ d + agRows d ≤ 4194304) && decide (agK d + agN d ≤ 4194304)

/-- DST may equal SRC_A exactly for these operations (R549). -/
def agInPlace (d : List Byte) : Bool := [3, 0x11, 0x12, 0x13].contains (agOp d)

/-- No source is partly overlapped by DST (R549). -/
def agDisjoint (d : List Byte) : Bool :=
  let dst := agDst d
  let n := agDLen d
  let hits := fun (e : Nat × Nat) => overlaps dst n e.1 e.2
  (!overlaps dst n (agA d) (agALen d) || (agInPlace d && dst == agA d && n == agALen d)) && !(agSources d).any hits

/-- The aggregate unit accepts an agg descriptor (R549). -/
def State.aggOk (s : State) (o : Op) : Bool :=
  let d := o.desc
  agFormats d && agRanges d && s.opBanks o (agA d) (agALen d) && s.opBanks o (agDst d) (agDLen d)
    && (agSources d).all (fun e => s.opBanks o e.1 e.2) && agDisjoint d

/-! Reading and writing. -/

/-- n FP32 values from elements of a format (R548). -/
def State.readF (s : State) (fmt a n : Nat) : List Nat :=
  (unpack (fmtW fmt) n (s.peek a (ceilDiv (n * fmtW fmt) 8))).map (codeF fmt)

/-- n signed 32-bit integers. -/
def State.readI (s : State) (a n : Nat) : List Int := (unpack 32 n (s.peek a (4 * n))).map (sext 32)

/-- n 32-bit words. -/
def State.readW (s : State) (a n : Nat) : List Nat := unpack 32 n (s.peek a (4 * n))

/-- Results written once in DFMT, each saturation counted (R548). -/
def State.aggWrite (s : State) (sp fmt a : Nat) (l : List (Nat × Bool)) : State :=
  let sat := (l.filter (·.2)).length
  let s1 := s.storeWrite a (pack (fmtW fmt) (l.map (·.1)))
  if sat = 0 then s1 else s1.bump (aSpire sp 0x11C) sat

/-! Reductions (R550–R554). -/

/-- The offsets of R336 against a row count. -/
def offsetsOk (offs : List Nat) (count : Nat) : Bool :=
  offs.head? == some 0 && offs.getLast? == some count && (List.zip offs offs.tail).all fun e => decide (e.1 ≤ e.2)

/-- The rows of each segment. -/
def segRows {α : Type} (offs : List Nat) (rows : List α) : List (List α) :=
  (List.zip offs offs.tail).map fun e => (rows.drop e.1).take (e.2 - e.1)

/-- One segment of floating rows with their weights (R551). -/
def segFloat (red n : Nat) (rows : List (Option Nat × List Nat)) : List Nat :=
  if rows.isEmpty then List.replicate n (redIdentity red)
  else
    let v := treeRows red (rows.map fun e => e.2.map (edgeTerm red e.1))
    (if red = 2 then v.map fun x => divNatF x rows.length else v).map (redZero red)

/-- Columns of integer rows combined exactly (R554): 3 is MAX, 4 is MIN, otherwise the sum. -/
def intColumns (red : Nat) (rows : List (List Int)) : List Int :=
  let op := fun (a b : Int) => if red = 3 then max a b else if red = 4 then min a b else a + b
  match rows with
  | [] => []
  | h :: t => t.foldl (fun a r => List.zipWith op a r) h

/-- One segment or tensor of integers as results (R554); n values where it is empty. count divides for MEAN. -/
def intResult (red fmt n count : Nat) (rows : List (List Int)) : List (Nat × Bool) :=
  if rows.isEmpty then
    List.replicate n (if red = 3 then toDfmt fmt (.inf true) else if red = 4 then toDfmt fmt (.inf false) else intOut fmt 0)
  else if red = 2 then (intColumns red rows).map fun v => ((if count = 0 then 0 else divIntF v count), false)
  else (intColumns red rows).map (intOut fmt)

/-- SEGRED (R550–R552, R554). -/
def State.segred (s : State) (o : Op) : State :=
  let d := o.desc
  let n := agN d
  let r := agRows d
  let offs := s.readW (agAux d) (agSeg d + 1)
  if !offsetsOk offs r then s.offsetFault o
  else if agS d = 0x0A then
    let rows := chunks r n (s.readI (agA d) (r * n))
    s.aggWrite (o.core / 16) (agD d) (agDst d)
      ((segRows offs rows).flatMap fun l => intResult (agFunc d) (agD d) n l.length l)
  else
    let rows := chunks r n (s.readF (agS d) (agA d) (r * n))
    let ws := if agWgt d then (s.readF (agS d) (agB d) r).map some else List.replicate r none
    s.aggWrite (o.core / 16) (agD d) (agDst d)
      ((segRows offs (ws.zip rows)).flatMap fun l => (segFloat (agFunc d) n l).map (toDfmtF (agD d)))

/-- Where partial i of a COMBINE starts, and its counts (R553). -/
def partialAt (d : List Byte) (i : Nat) : Nat × Nat :=
  let w := fmtBytes (agS d) (agRows d * agN d)
  let step := w + if agFunc d = 2 then 4 * agRows d else 0
  (agA d + i * step, agA d + i * step + w)

/-- The counts of each row summed over the partials. -/
def State.sumCounts (s : State) (d : List Byte) : List Nat :=
  (List.range (agSeg d)).foldl (fun acc i => List.zipWith (· + ·) acc (s.readW (partialAt d i).2 (agRows d)))
    (List.replicate (agRows d) 0)

/-- COMBINE (R553, R554). -/
def State.combine (s : State) (o : Op) : State :=
  let d := o.desc
  let n := agN d
  let r := agRows d
  let red := agFunc d
  let counts := if red = 2 then s.sumCounts d else List.replicate r 0
  if agS d = 0x0A then
    let ps := (List.range (agSeg d)).map fun i => chunks r n (s.readI (partialAt d i).1 (r * n))
    s.aggWrite (o.core / 16) (agD d) (agDst d)
      ((List.range r).flatMap fun j => intResult red (agD d) n (counts.getD j 0) (ps.map fun p => p.getD j []))
  else
    let ps := (List.range (agSeg d)).map fun i => s.readF (agS d) (partialAt d i).1 (r * n)
    let rows := chunks r n (treeRows red ps)
    s.aggWrite (o.core / 16) (agD d) (agDst d)
      ((rows.zip counts).flatMap fun (row, c) =>
        (if red = 2 then row.map fun x => if c = 0 then 0 else divNatF x c else row).map fun x =>
          toDfmtF (agD d) (redZero red x))

/-! Element-wise functions (R556, R557). -/

/-- The firmware's major and minor version, which chooses the fixed algorithms of R557: major × 65,536 + minor. -/
def State.fwVer (s : State) : Nat := (s.reg aDevFwLo).toNat

/-- The function of FUNC on FP32 operands, with SCALAR c (R556), in firmware version v. -/
def ewiseF (v f c a b : Nat) : Nat :=
  if f = 0x00 then a
  else if f = 0x01 then addF a b
  else if f = 0x02 then subF a b
  else if f = 0x03 then mulF a b
  else if f = 0x05 then minF a b
  else if f = 0x06 then maxF a b
  else if f = 0x07 then fmaF b a c
  else if f = 0x08 then mulF a c
  else if f = 0x09 then maxF a 0
  else if f = 0x11 then absF a
  else if f = 0x12 then (if nonzeroF a || nonzeroF b then oneF else 0)
  else if f = 0x13 then (if nonzeroF a && nonzeroF b then oneF else 0)
  else fixedF v f a (if f = 0x04 then b else 0)

/-- The functions that INT32 sources allow, exact (R557). -/
def ewiseI (f : Nat) (a b : Int) : Int :=
  if f = 0x01 then a + b else if f = 0x02 then a - b else if f = 0x05 then min a b else if f = 0x06 then max a b else a

/-- Operand B of each element: at the same place, or the row's value with BROW. -/
def spread {α : Type} (brow : Bool) (n : Nat) (l : List α) : List α :=
  if brow then l.flatMap fun x => List.replicate n x else l

/-- EWISE (R556, R557). -/
def State.ewise (s : State) (o : Op) : State :=
  let d := o.desc
  let n := agN d
  let m := agRows d * n
  let f := agFunc d
  let nb := if agBrow d then agRows d else m
  if agS d = 0x0A then
    let a := s.readI (agA d) m
    let b := if ewiseTwo f then spread (agBrow d) n (s.readI (agB d) nb) else List.replicate m 0
    s.aggWrite (o.core / 16) (agD d) (agDst d) (List.zipWith (fun x y => intOut (agD d) (ewiseI f x y)) a b)
  else
    let a := s.readF (agS d) (agA d) m
    let b := if ewiseTwo f then spread (agBrow d) n (s.readF (agS d) (agB d) nb) else List.replicate m 0
    s.aggWrite (o.core / 16) (agD d) (agDst d)
      (List.zipWith (fun x y => toDfmtF (agD d) (ewiseF s.fwVer f (agScalar d) x y)) a b)

/-! Streaming softmax (R558–R565). -/

/-- exp by the fixed algorithm; exp(-infinity) is +0 (R559). -/
def expF (ver x : Nat) : Nat := if x = ninfF then 0 else fixedF ver 0x0E x 0

/-- The state of a query row (R558). -/
structure SmState where
  m : Nat := ninfF
  sh : Nat := 0
  sc : Nat := 0
  al : Nat := 0
deriving DecidableEq, Repr

/-- The states at an address; with FIRST, m is −infinity and the sums are +0. -/
def State.smStates (s : State) (a rows : Nat) (first : Bool) : List SmState :=
  (chunks rows 4 (s.readW a (4 * rows))).map fun w =>
    if first then { al := w.getD 3 0 } else { m := w.getD 0 0, sh := w.getD 1 0, sc := w.getD 2 0, al := w.getD 3 0 }

/-- The 16 bytes of a state. -/
def SmState.bytes (x : SmState) : List Byte := natLe 4 x.m ++ natLe 4 x.sh ++ natLe 4 x.sc ++ natLe 4 x.al

/-- Compensated addition of b to a state's sums (R559). -/
def SmState.addTo (x : SmState) (b : Nat) : SmState :=
  let y := subF b x.sc
  let t := addF x.sh y
  { x with sc := subF (subF t x.sh) y, sh := t }

/-- SM_BLOCK on one row (R559, R560): scores as FP32 codes; the weights and the new state. -/
def smRow (ver fmt scalar : Nat) (mask : Nat → Bool) (x : SmState) (l : List Nat) : List (Nat × Bool) × SmState :=
  let v := (List.zip (List.range l.length) l).map fun (j, c) => if mask j then ninfF else mulF c scalar
  let mn := maxF x.m (tree maxF ninfF v)
  let masked := mn == ninfF
  let alpha := if masked then oneF else expF ver (subF x.m mn)
  let p := v.map fun c => if masked then (0, false) else toDfmtF fmt (expF ver (subF c mn))
  let b := tree addF 0 (p.map fun c => codeF fmt c.1)
  (p, { ({ x with sh := mulF x.sh alpha, sc := mulF x.sc alpha } : SmState).addTo b with m := mn, al := alpha })

/-- SM_BLOCK (R559). -/
def State.smBlock (s : State) (o : Op) : State :=
  let d := o.desc
  let r := agRows d
  let n := agN d
  let rows := chunks r n (s.readF (agS d) (agA d) (r * n))
  let sts := s.smStates (agAux d) r (agFirst d)
  let out := (List.zip (List.range r) (rows.zip sts)).map fun (i, (l, x)) =>
    smRow s.fwVer (agD d) (agScalar d) (fun j => agCausal d && decide (agQ d + i < agK d + j)) x l
  (s.aggWrite (o.core / 16) (agD d) (agDst d) (out.flatMap (·.1))).storeWrite (agAux d) (out.flatMap fun e => e.2.bytes)

/-- The rows of O: with FIRST they are +0 (R558). -/
def State.smO (s : State) (d : List Byte) : List (List Nat) :=
  let m := agRows d * agN d
  chunks (agRows d) (agN d) (if agFirst d then List.replicate m 0 else s.readF (agS d) (agA d) m)

/-- SM_RESCALE (R561). -/
def State.smRescale (s : State) (o : Op) : State :=
  let d := o.desc
  let pv := chunks (agRows d) (agN d) (s.readF 9 (agB d) (agRows d * agN d))
  let sts := s.smStates (agAux d) (agRows d) (agFirst d)
  s.aggWrite (o.core / 16) (agD d) (agDst d)
    (((s.smO d).zip (pv.zip sts)).flatMap fun (l, (q, x)) => List.zipWith (fun a b => toDfmtF (agD d) (fmaF b a x.al)) l q)

/-- SM_FINAL (R562). -/
def State.smFinal (s : State) (o : Op) : State :=
  let d := o.desc
  let sts := s.smStates (agAux d) (agRows d) (agFirst d)
  s.aggWrite (o.core / 16) (agD d) (agDst d)
    (((s.smO d).zip sts).flatMap fun (l, x) =>
      let q := subF x.sh x.sc
      l.map fun a => toDfmtF (agD d) (if q = 0 then 0 else divF a q))

/-- SM_MERGE of one row (R563): the merged state and the two factors. -/
def smMergeRow (ver : Nat) (x y : SmState) : SmState × Nat × Nat :=
  let m := maxF x.m y.m
  let a1 := if m = ninfF then oneF else expF ver (subF x.m m)
  let a2 := if m = ninfF then oneF else expF ver (subF y.m m)
  let b := mulF (subF y.sh y.sc) a2
  ({ ({ x with sh := mulF x.sh a1, sc := mulF x.sc a1 } : SmState).addTo b with m := m }, a1, a2)

/-- SM_MERGE (R563). -/
def State.smMerge (s : State) (o : Op) : State :=
  let d := o.desc
  let r := agRows d
  let m := r * agN d
  let o2 := chunks r (agN d) (s.readF 9 (agB d) m)
  let st1 := s.smStates (agAux d) r (agFirst d)
  let st2 := s.smStates (agB d + 4 * m) r false
  let f := List.zipWith (smMergeRow s.fwVer) st1 st2
  (s.aggWrite (o.core / 16) (agD d) (agDst d)
    (((s.smO d).zip (o2.zip f)).flatMap fun (l1, (l2, (_, a1, a2))) =>
      List.zipWith (fun a b => toDfmtF (agD d) (fmaF (mulF a a1) b a2)) l1 l2)).storeWrite (agAux d) (f.flatMap fun e => e.1.bytes)

/-- One column of one segment of SEG_SOFTMAX (R565). -/
def softColumn (ver : Nat) (v : List Nat) : List Nat :=
  let m := tree maxF ninfF v
  if m = ninfF then v.map fun _ => 0
  else
    let e := v.map fun x => expF ver (subF x m)
    let l := tree addF 0 e
    e.map fun x => divF x l

/-- Rows as columns. -/
def transposeN (n : Nat) (rows : List (List Nat)) : List (List Nat) :=
  (List.range n).map fun j => rows.map fun r => r.getD j 0

/-- SEG_SOFTMAX (R565). -/
def State.segSoftmax (s : State) (o : Op) : State :=
  let d := o.desc
  let n := agN d
  let r := agRows d
  let offs := s.readW (agAux d) (agSeg d + 1)
  if !offsetsOk offs r then s.offsetFault o
  else
    let rows := chunks r n (s.readF (agS d) (agA d) (r * n))
    s.aggWrite (o.core / 16) (agD d) (agDst d)
      ((segRows offs rows).flatMap fun l =>
        (transposeN l.length ((transposeN n l).map (softColumn s.fwVer))).flatMap fun row => row.map (toDfmtF (agD d)))

/-- An agg operation completes (R546). -/
def State.aggRun (s : State) (o : Op) : State :=
  let op := agOp o.desc
  if op = 0x01 then s.segred o
  else if op = 0x02 then s.combine o
  else if op = 0x03 then s.ewise o
  else if op = 0x10 then s.smBlock o
  else if op = 0x11 then s.smRescale o
  else if op = 0x12 then s.smFinal o
  else if op = 0x13 then s.smMerge o
  else s.segSoftmax o

end Sys2Proof.Machine
end

