-- ==== Sys2Proof/Machine/Opt.lean ====
section
/-! DEFINITION. optstep, the fused optimiser step of the aggregate unit (R621–R629). -/

namespace Sys2Proof.Machine

/-- GFMT -/
def osFmt (d : List Byte) : Nat := getLe d 0x00 1
/-- FIRST of FLAGS -/
def osFirst (d : List Byte) : Bool := nbit (getLe d 0x01 1) 0
/-- GSREG -/
def osReg (d : List Byte) : Nat := getLe d 0x02 1
/-- N -/
def osN (d : List Byte) : Nat := getLe d 0x04 4
/-- W -/
def osW (d : List Byte) : Nat := getLe d 0x08 8
/-- G -/
def osG (d : List Byte) : Nat := getLe d 0x10 8
/-- M -/
def osM (d : List Byte) : Nat := getLe d 0x18 8
/-- V -/
def osV (d : List Byte) : Nat := getLe d 0x20 8
/-- T -/
def osT (d : List Byte) : Nat := getLe d 0x38 4
/-- LR, B1, B2, EPS as the words at 0x28, 0x2C, 0x30, 0x34; WD at 0x3C. -/
def osF (d : List Byte) (off : Nat) : Nat := getLe d off 4

/-- Bytes of a tensor with a scale section and codes of a width (R621). -/
def scaledLen (n bits : Nat) : Nat := up16 (n / 32) + n * bits / 8

/-- The four areas of an optstep (R621). -/
def osAreas (d : List Byte) : List (Nat × Nat) :=
  let n := osN d
  [(osW d, 2 * n), (osG d, if osFmt d = 0x06 then n else scaledLen n 4), (osM d, scaledLen n 4), (osV d, scaledLen n 8)]

/-- No two areas of a list overlap; an area of length 0 overlaps nothing. -/
def disjointAreas : List (Nat × Nat) → Bool
  | [] => true
  | a :: t => t.all (fun b => !overlaps a.1 a.2 b.1 b.2) && disjointAreas t

/-- The aggregate unit accepts an optstep descriptor (R629). -/
def State.optOk (s : State) (o : Op) : Bool :=
  let d := o.desc
  (osFmt d == 0x06 || (osFmt d == 0x00 && osReg d == 0)) && decide (getLe d 0x01 1 < 2) && zeroAt d 0x03 1
    && osN d % 32 == 0 && decide (32 ≤ osN d) && decide (osN d ≤ 1048576) && osT d != 0
    && (osAreas d).all (fun e => s.opBanks o e.1 e.2) && disjointAreas (osAreas d)

/-- pow_sq of R623: b to the power t, FP32 at every step. -/
def powSq : Nat → Nat → Nat → Nat → Nat
  | 0, r, _, _ => r
  | n + 1, r, p, t => if t = 0 then r else powSq n (if t % 2 = 1 then mulF r p else r) (mulF p p) (t / 2)

/-- Values of codes under one E8M0 factor per group of 32. -/
def scaled32 (fmt : Nat) (es codes : List Nat) : List Nat :=
  (List.zip es (chunks es.length 32 codes)).flatMap fun (e, l) => l.map fun c => mulF (codeF fmt c) (fp32.encode (e8m0 e)).1

/-- The tensor at an address with a scale section (R621). -/
def State.readScaled (s : State) (fmt a n : Nat) : List Nat :=
  scaled32 fmt (unpack 8 (n / 32) (s.peek a (n / 32)))
    (unpack (fmtW fmt) n (s.peek (a + up16 (n / 32)) (n * fmtW fmt / 8)))

/-- A group of 32 re-encoded (R624, R625): exponent, codes, saturations and underflows. -/
def reencode (fmt : Nat) (l : List Nat) : Nat × List Nat × Nat × Nat :=
  if fmt = 0x00 && l.any isNanF then (255, l.map fun _ => 0, 1, 0)
  else
    let e := groupExp (emaxOf fmt) l
    let cs := l.map fun x => toNarrow fmt 0 (fp32.decode x) (e8m0 e)
    let lost := ((List.zip l cs).filter fun p => !isNanF p.1 && !isZeroF p.1 && p.2.1 == 0).length
    (e, cs.map (·.1), (cs.filter (·.2)).length, lost)

/-- A tensor written with its scale section, its events counted (R624). -/
def State.writeScaled (s : State) (fmt a : Nat) (l : List Nat) : State :=
  let gs := (chunks (l.length / 32) 32 l).map (reencode fmt)
  let s1 := (s.storeWrite a (gs.map fun g => BitVec.ofNat 8 g.1)).storeWrite (a + up16 (l.length / 32))
    (pack (fmtW fmt) (gs.flatMap fun g => g.2.1))
  (s1.bump (aQnt 0) (gs.map fun g => g.2.2.1).sum).bump (aQnt 1) (gs.map fun g => g.2.2.2).sum

/-- What one element gives (R623): m, v, d and the new weight before conversion. -/
structure OptEl where
  m : Nat
  v : Nat
  d : Nat
  w : Nat
deriving DecidableEq, Repr

/-- One element (R623). c1 and c2 are the bias corrections. -/
def optElem (d : List Byte) (c1 c2 g m0 v0 w : Nat) : OptEl :=
  let b1 := osF d 0x2C
  let b2 := osF d 0x30
  let m := fmaF (mulF (subF oneF b1) g) b1 m0
  let v := fmaF (mulF (subF oneF b2) (mulF g g)) b2 v0
  let u := divF (mulF m c1) (addF (sqrtF (mulF v c2)) (osF d 0x34))
  let dl := mulF (osF d 0x28) (fmaF u (osF d 0x3C) w)
  { m := m, v := v, d := dl, w := subF w dl }

/-- 1 ÷ (1 - b^t). -/
def biasFix (b t : Nat) : Nat := divF oneF (subF oneF (powSq 32 oneF b t))

/-- optstep completes (R623–R628). -/
def State.optRun (s : State) (o : Op) : State :=
  let d := o.desc
  let n := osN d
  let w := unpack 16 n (s.peek (osW d) (2 * n))
  let f := (s.scale o (osReg d)).value
  let g := if osFmt d = 0x06 then (s.readF 0x06 (osG d) n).map fun x => mulF x f else s.readScaled 0x00 (osG d) n
  let m0 := if osFirst d then List.replicate n 0 else s.readScaled 0x00 (osM d) n
  let v0 := if osFirst d then List.replicate n 0 else s.readScaled 0x05 (osV d) n
  let c1 := biasFix (osF d 0x2C) (osT d)
  let c2 := biasFix (osF d 0x30) (osT d)
  let els := List.zipWith (fun (a : Nat × Nat) (b : Nat × Nat) => optElem d c1 c2 a.1 b.1 b.2 (codeF 8 a.2)) (g.zip w) (m0.zip v0)
  let ws := els.map fun e => toBf16 e.w
  let lost := ((List.zip w (List.zip els ws)).filter fun p =>
    nonzeroF p.2.1.d && !isNanF (codeF 8 p.1) && p.2.2.1 == p.1).length
  let s1 := s.storeWrite (osW d) (pack 16 (ws.map (·.1)))
  let s2 := (s1.writeScaled 0x00 (osM d) (els.map (·.m))).writeScaled 0x05 (osV d) (els.map (·.v))
  (s2.bump (aQnt 0) (ws.filter (·.2)).length).bump (aQnt 5) lost

end Sys2Proof.Machine
end

