-- ==== Sys2Proof/Machine/Quant.lean ====
section
/-! DEFINITION. The quantiser: qscan and qconv (R586–R609). -/

namespace Sys2Proof.Machine

/-- Source formats of the quantiser. -/
def quantSrc (f : Nat) : Bool := [5, 6, 8, 9].contains f
/-- Target formats of the quantiser. -/
def quantDst (f : Nat) : Bool := decide (f ≤ 7)

/-! qscan (R586–R594). -/

/-- MODE -/
def qsMode (d : List Byte) : Nat := getLe d 0x00 1
/-- SFMT -/
def qsS (d : List Byte) : Nat := getLe d 0x01 1
/-- TFMT -/
def qsT (d : List Byte) : Nat := getLe d 0x02 1
/-- FLAGS: bit 0 GROUP, bit 1 CARRY_IN. -/
def qsFlags (d : List Byte) : Nat := getLe d 0x03 1
/-- GROUP -/
def qsGroup (d : List Byte) : Bool := nbit (qsFlags d) 0
/-- CARRY_IN -/
def qsCarry (d : List Byte) : Bool := nbit (qsFlags d) 1
/-- GSIZE -/
def qsGsize (d : List Byte) : Nat := getLe d 0x04 2
/-- SREG -/
def qsReg (d : List Byte) : Nat := getLe d 0x06 1
/-- CREG -/
def qsCreg (d : List Byte) : Nat := getLe d 0x07 1
/-- SRC -/
def qsSrc (d : List Byte) : Nat := getLe d 0x08 8
/-- ROWS -/
def qsRows (d : List Byte) : Nat := getLe d 0x10 4
/-- N -/
def qsN (d : List Byte) : Nat := getLe d 0x14 2
/-- GS_BASE -/
def qsBase (d : List Byte) : Nat := getLe d 0x16 2

/-- GSIZE is one of the four group sizes. -/
def gsizeOk (g : Nat) : Bool := [32, 64, 96, 128].contains g

/-- ROWS and N are in range (R586, R596). -/
def tensorOk (rows n : Nat) : Bool :=
  decide (1 ≤ rows) && decide (rows ≤ 65536) && n % 32 == 0 && decide (32 ≤ n) && decide (n ≤ 8192)

/-- The quantiser accepts a qscan descriptor (R594): in no mode is a format code reserved (R498), and a context without banks issues
none (R581). -/
def State.qscanOk (s : State) (o : Op) : Bool :=
  let d := o.desc
  let m := qsMode d
  decide (m ≤ 3) && decide (qsFlags d < 4) && zeroAt d 0x18 40 && decide (qsS d ≤ 0x0B) && decide (qsT d ≤ 0x0B)
    && s.rf (aCtx o.ctx 0x010) 8 6 != 0
    && (if qsGroup d then m == 0 && [0, 5, 6].contains (qsT d) && gsizeOk (qsGsize d) else qsGsize d == 0)
    && (if m = 0 then quantSrc (qsS d) && quantDst (qsT d) && tensorOk (qsRows d) (qsN d)
            && s.opBanks o (qsSrc d) (fmtBytes (qsS d) (qsRows d * qsN d))
        else if m = 1 then quantDst (qsT d)
        else s.opBanks o (qsSrc d) 16)

/-- amax, lo and hi of a tensor (R588): FP32 codes; NaN elements are passed over. -/
def scanRange (l : List Nat) : Nat × Nat × Nat :=
  (l.filter fun x => !isNanF x).foldl
    (fun (a : Nat × Nat × Nat) x => (maxF a.1 (absF x), if ltF x a.2.1 then x else a.2.1, if ltF a.2.2 x then x else a.2.2))
    (0, infF, ninfF)

/-- Two FP32 codes stand for equal values. -/
def eqF (x y : Nat) : Bool := !isNanF x && !isNanF y && !ltF x y && !ltF y x

/-- VALUE of a derived register: the scale, or times the carried scale (R590, R593). -/
def State.carried (s : State) (o : Op) (scale : Nat) : Nat :=
  if qsCarry o.desc then mulF scale (s.scale o (qsCreg o.desc)).value else scale

/-- SCAN with GROUP (R592, R593). -/
def State.scanGroups (s : State) (o : Op) (l : List Nat) : State :=
  let d := o.desc
  let g := qsGsize d
  let per := ceilDiv (qsN d) g
  let es := (chunks (qsRows d) (qsN d) l).flatMap fun row => (chunks per g row).map (groupExp (emaxOf (qsT d)))
  let s1 := s.setGss o (qsBase d) es
  let v := if qsCarry d then (s1.scale o (qsCreg d)).value else oneF
  s1.setScale o (qsReg d) { value := v, qdiv := oneF, tag := 4 + 8 * (g / 32 - 1), pbuf := (s1.scale o (qsReg d)).pbuf }

/-- SCAN (R587–R593). -/
def State.qscanScan (s : State) (o : Op) : State :=
  let d := o.desc
  let l := s.readF (qsS d) (qsSrc d) (qsRows d * qsN d)
  if qsGroup d then s.scanGroups o l
  else
    let (amax, lo, hi) := scanRange l
    let r := deriveScale amax lo hi (eqF lo hi) (qsT d)
    (s.setScale o (qsReg d) (r.register (s.carried o r.scale) (s.scale o (qsReg d)).pbuf)).countDerived r

/-- DERIVE (R587, R589): a register whose KIND is 0 stays. -/
def State.qscanDerive (s : State) (o : Op) : State :=
  let d := o.desc
  let x := s.scale o (qsReg d)
  if !x.kind then s
  else
    let r := x.derive (qsT d)
    (s.setScale o (qsReg d) (r.register (s.carried o r.scale) x.pbuf)).countDerived r

/-- A qscan completes (R587). -/
def State.qscanRun (s : State) (o : Op) : State :=
  let d := o.desc
  let x := s.scale o (qsReg d)
  if qsMode d = 0 then s.qscanScan o
  else if qsMode d = 1 then s.qscanDerive o
  else if qsMode d = 2 then s.setScale o (qsReg d) (x.ofRecord (s.peek (qsSrc d) 16))
  else s.storeWrite (qsSrc d) x.record

/-! qconv (R596–R607). -/

/-- SFMT -/
def qcS (d : List Byte) : Nat := getLe d 0x00 1
/-- DFMT -/
def qcD (d : List Byte) : Nat := getLe d 0x01 1
/-- FLAGS: bit 0 PROMO_EN, bit 1 GS_E4M3. -/
def qcFlags (d : List Byte) : Nat := getLe d 0x02 1
/-- PROMO_EN -/
def qcPromo (d : List Byte) : Bool := nbit (qcFlags d) 0
/-- GS_E4M3 -/
def qcGsE4 (d : List Byte) : Bool := nbit (qcFlags d) 1
/-- SREG -/
def qcReg (d : List Byte) : Nat := getLe d 0x03 1
/-- GS_BASE -/
def qcBase (d : List Byte) : Nat := getLe d 0x04 2
/-- N -/
def qcN (d : List Byte) : Nat := getLe d 0x06 2
/-- SRC -/
def qcSrc (d : List Byte) : Nat := getLe d 0x08 8
/-- DST -/
def qcDst (d : List Byte) : Nat := getLe d 0x10 8
/-- PBUF -/
def qcPbuf (d : List Byte) : Nat := getLe d 0x18 8
/-- ZMAP_OUT -/
def qcZmap (d : List Byte) : Nat := getLe d 0x20 8
/-- GSOUT -/
def qcGsout (d : List Byte) : Nat := getLe d 0x28 8
/-- ROWS -/
def qcRows (d : List Byte) : Nat := getLe d 0x30 4
/-- PBUF_LEN -/
def qcPlen (d : List Byte) : Nat := getLe d 0x34 4
/-- CNT_OUT -/
def qcCnt (d : List Byte) : Nat := getLe d 0x38 8

/-- Group-scale entries of a tensor under group size g. -/
def qcEntries (d : List Byte) (g : Nat) : Nat := qcRows d * ceilDiv (qcN d) g

/-- The areas of a qconv; GSOUT as long as the register at acceptance has it. -/
def State.qcAreas (s : State) (o : Op) : List (Nat × Nat) :=
  let d := o.desc
  let m := qcRows d * qcN d
  let x := s.scale o (qcReg d)
  [(qcSrc d, fmtBytes (qcS d) m), (qcDst d, m * fmtW (qcD d) / 8)]
    ++ (if qcPromo d then [(qcPbuf d, qcPlen d)] else [])
    ++ (if qcZmap d = 0 then [] else [(qcZmap d, zmapLen (qcRows d) (qcN d))])
    ++ (if qcGsout d = 0 then [] else [(qcGsout d, if x.gscaled then qcEntries d x.gsize else 1)])
    ++ (if qcCnt d = 0 then [] else [(qcCnt d, 16)])

/-- The quantiser accepts a qconv descriptor (R607). -/
def State.qconvOk (s : State) (o : Op) : Bool :=
  let d := o.desc
  quantSrc (qcS d) && quantDst (qcD d) && decide (qcFlags d < 4) && tensorOk (qcRows d) (qcN d)
    && (if qcPromo d then qcD d == 0 && decide (qcRows d * qcN d ≤ qcPlen d) else qcPbuf d == 0 && qcPlen d == 0)
    && (!qcGsE4 d || qcGsout d != 0)
    && (s.qcAreas o).all (fun e => s.opBanks o e.1 e.2) && disjointAreas (s.qcAreas o)

/-- The divisor of each element in row-major order (R598): QDIV, or the group factor times QDIV. -/
def qcDivisors (d : List Byte) (x : Scale) (es : List Nat) : List FVal :=
  let q := fp32.decode x.qdiv
  if x.gscaled then
    let per := ceilDiv (qcN d) x.gsize
    (chunks (qcRows d) per es).flatMap fun row =>
      ((List.range (qcN d)).map fun j => ((e8m0 (row.getD (j / x.gsize) 0)).mul q).1)
  else List.replicate (qcRows d * qcN d) q

/-- A value times 2^-6, exactly. -/
def FVal.div64 : FVal → FVal
  | .fin n m e => .fin n m (e - 6)
  | v => v

/-- What the first pass gives (R601): codes, non-zero inputs, underflows and saturations. -/
structure QcPass where
  codes : List Nat
  nonzero : Nat
  uflow : Nat
  sat : Nat
deriving DecidableEq, Repr

/-- Elements converted under their divisors (R598, R601). -/
def qcPass (fmt zp : Nat) (l : List Nat) (ds : List FVal) : QcPass :=
  let z := if fmt = 0x02 then zp else 0
  let r := List.zipWith (fun x f => toNarrow fmt zp (fp32.decode x) f) l ds
  let nz := fun (x : Nat) => !isNanF x && !isZeroF x
  { codes := r.map (·.1), nonzero := (l.filter nz).length,
    uflow := ((List.zip l r).filter fun p => nz p.1 && p.2.1 == z).length, sat := (r.filter (·.2)).length }

/-- The entries as GSOUT receives them (R599), with the saturations and underflows of GS_E4M3. -/
def gsOut (e4 : Bool) (es : List Nat) : List Byte × Nat × Nat :=
  if e4 then
    let r := es.map fun e => toNarrow 0x05 0 (e8m0 e) (intVal 1)
    (r.map fun c => BitVec.ofNat 8 c.1, (r.filter (·.2)).length, ((List.zip es r).filter fun p => p.1 != 255 && p.2.1 == 0).length)
  else (es.map fun e => BitVec.ofNat 8 e, 0, 0)

/-- The entries written to GSOUT. -/
def State.writeGsout (s : State) (d : List Byte) (es : List Nat) : State :=
  if qcGsout d = 0 || es.isEmpty then s
  else
    let (b, sat, uf) := gsOut (qcGsE4 d) es
    (((s.storeWrite (qcGsout d) b).bump (aQnt 0) sat).bump (aQnt 1) uf)

/-- The entries written to GSOUT by the second pass, which counts nothing (R605). -/
def State.rewriteGsout (s : State) (d : List Byte) (es : List Nat) : State :=
  if qcGsout d = 0 || es.isEmpty then s else s.storeWrite (qcGsout d) (gsOut (qcGsE4 d) es).1

/-- The zero-block map written (R600): z is the code that stands for zero, minus the code's sign of zero. -/
def State.writeQmap (s : State) (d : List Byte) (isZero : Nat → Bool) (codes : List Nat) : State :=
  if qcZmap d = 0 then s else s.storeWrite (qcZmap d) (zmapOf isZero codes)

/-- The second pass of a promoted tensor (R603, R605). -/
def State.promote (s : State) (o : Op) (x : Scale) (es l : List Nat) (ds : List FVal) : State :=
  let d := o.desc
  let codes := List.zipWith (fun v (f : FVal) => (toNarrow 0x05 0 (fp32.decode v) f.div64).1) l ds
  let es1 := es.map fun e => e - 6
  let half := fun (v : Nat) => (fp32.encode (fp32.decode v).div64).1
  let x1 : Scale := { x with value := if x.gscaled then x.value else half x.value,
                             qdiv := if x.gscaled then x.qdiv else half x.qdiv, tag := nsetBit x.tag 1 true, pbuf := qcPbuf d }
  let s1 := (s.storeWrite (qcPbuf d) (pack 8 codes)).setScale o (qcReg d) x1
  let s2 := if x.gscaled then (s1.setGss o (qcBase d) es1).rewriteGsout d es1 else s1
  (s2.writeQmap d (fun c => c == 0) codes).bump (aQnt 3)

/-- The promotion test (R602). -/
def promotes (d : List Byte) (limit : Nat) (r : QcPass) : Bool := qcPromo d && decide (limit * r.nonzero < 4096 * r.uflow)

/-- The count record (R606). -/
def State.writeCounts (s : State) (o : Op) (r : QcPass) (promoted : Bool) : State :=
  let d := o.desc
  if qcCnt d = 0 then s
  else
    let fl := (if promoted then 1 else 0) + (if (s.scale o (qcReg d)).flat then 2 else 0)
    s.storeWrite (qcCnt d) (natLe 4 r.nonzero ++ natLe 4 r.uflow ++ natLe 4 r.sat ++ natLe 4 fl)

/-- An amax held in SREG is derived first (R597). -/
def State.qconvDerive (s : State) (o : Op) : State :=
  let x := s.scale o (qcReg o.desc)
  if !x.kind then s
  else
    let r := x.derive (qcD o.desc)
    (s.setScale o (qcReg o.desc) (r.register r.scale x.pbuf)).countDerived r

/-- A qconv completes (R597–R606). -/
def State.qconvRun (s0 : State) (o : Op) : State :=
  let d := o.desc
  let s := s0.qconvDerive o
  let x := s.scale o (qcReg d)
  let es := if x.gscaled then (List.range (qcEntries d x.gsize)).map fun i => s.gs o (qcBase d + i) else []
  let l := s.readF (qcS d) (qcSrc d) (qcRows d * qcN d)
  let ds := qcDivisors d x es
  let r := qcPass (qcD d) x.zp l ds
  let z := if qcD d = 0x02 then x.zp else 0
  let s1 := ((s.storeWrite (qcDst d) (pack (fmtW (qcD d)) r.codes)).writeGsout d es).writeQmap d (fun c => c == z) r.codes
  let s2 := (s1.bump (aQnt 1) r.uflow).bump (aQnt 0) r.sat
  let up := promotes d (s.rf aQntCtl 0 12) r
  (if up then s2.promote o x es l ds else s2).writeCounts o r up

end Sys2Proof.Machine
end

