-- ==== Sys2Proof/Machine/Sparse.lean ====
section
/-! DEFINITION. spcmp: dense weight panels into the tiles that the array takes, freely or under a fixed mask (R532–R542). -/

namespace Sys2Proof.Machine

/-- FMT -/
def spFmt (d : List Byte) : Nat := getLe d 0x00 1
/-- FLAGS: bit 0 MASK, bit 1 TRANS, bit 2 GSCALE. -/
def spFlags (d : List Byte) : Nat := getLe d 0x01 1
/-- MASK -/
def spMask (d : List Byte) : Bool := nbit (spFlags d) 0
/-- TRANS -/
def spTrans (d : List Byte) : Bool := nbit (spFlags d) 1
/-- GSCALE -/
def spGscale (d : List Byte) : Bool := nbit (spFlags d) 2
/-- SCALE_REF -/
def spRef (d : List Byte) : Nat := getLe d 0x02 2
/-- NPANEL -/
def spPanels (d : List Byte) : Nat := getLe d 0x04 4
/-- SRC -/
def spSrc (d : List Byte) : Nat := getLe d 0x08 8
/-- DST -/
def spDst (d : List Byte) : Nat := getLe d 0x10 8
/-- MASKOFF -/
def spMaskOff (d : List Byte) : Nat := getLe d 0x18 8
/-- LEN_ADDR -/
def spLen (d : List Byte) : Nat := getLe d 0x20 8

/-- Bytes of one dense panel. -/
def panelBytes (fmt : Nat) : Nat := 32768 * fmtW fmt / 8

/-- Room that DST must have (R542). -/
def spRoom (d : List Byte) : Nat := spPanels d * (2 * (16 + tileBody 1 (spFmt d)))

/-- The array accepts an spcmp descriptor (R532, R540, R542). -/
def State.spcmpOk (s : State) (o : Op) : Bool :=
  let d := o.desc
  let n := spPanels d * panelBytes (spFmt d)
  weightFmt (spFmt d) && decide (spFlags d < 8) && decide (1 ≤ spPanels d) && decide (spPanels d ≤ 4096) && zeroAt d 0x28 24
    && s.opBanks o (spSrc d) n && s.opBanks o (spDst d) (spRoom d) && s.opBanks o (spLen d) 8
    && !overlaps (spSrc d) n (spDst d) (spRoom d)
    && (!spMask d || (has24 (spFmt d) && spMaskOff d % 64 == 0
          && decide (spMaskOff d + spPanels d * 4096 ≤ (s.prog o.ctx).descLen)))

/-- A mask block is transposable: two bits in each nibble and in each column (R538). -/
def maskBlockOk (b : Nat) : Bool :=
  (List.range 4).all fun i =>
    popCount 4 (nbits b (4 * i) 4) == 2 && ((List.range 4).filter fun j => b.testBit (4 * j + i)).length == 2

/-- The blocks of a mask are transposable. -/
def maskOk (l : List Nat) : Bool := l.all maskBlockOk

/-- An output panel in flat order from a source panel (R533). -/
def panelOf (trans : Bool) (src : List Nat) : List Nat :=
  if trans then (List.range 128).flatMap fun n => (List.range 256).map fun k => src.getD (k * 128 + n) 0 else src

/-- Whether the mask keeps element (k, n) of the output panel (R533, R537). -/
def kept (trans : Bool) (mask : List Nat) (k n : Nat) : Bool :=
  let (sk, sn, kl) := if trans then (n, k, 128) else (k, n, 256)
  (mask.getD (sn / 4 * (kl / 4) + sk / 4) 0).testBit (4 * (sk % 4) + sn % 4)

/-- The two kept positions of each group of four, in flat order. -/
def keptPos (trans : Bool) (mask : List Nat) : List (Nat × Nat) :=
  (List.range 128).flatMap fun n => (List.range 64).map fun q =>
    let l := (List.range 4).filter fun i => kept trans mask (4 * q + i) n
    (l.getD 0 0, l.getD 1 1)

/-- A ZERO or DENSE tile of K length kl (R534). -/
def denseTile (fmt fl ref kl : Nat) (l : List Nat) : List Byte :=
  if l.all (· == 0) then tileHeader 0 fmt fl ref kl 0
  else tileHeader 1 fmt fl ref kl (tileBody 1 fmt) ++ pack (fmtW fmt) l

/-- Half of a panel's K range in the flat order of a 128-K tile. -/
def halfPanel (hi : Bool) (l : List Nat) : List Nat :=
  (chunks 128 256 l).flatMap fun c => if hi then c.drop 128 else c.take 128

/-- The tiles of a panel without a mask, and whether it took form 3 where form 2 was possible for its format
(R534, R535). -/
def freeTiles (fmt fl ref : Nat) (l : List Nat) : List Byte × Bool :=
  if l.all (· == 0) then (tileHeader 0 fmt fl ref 256 0, false)
  else if twoBit fmt then (denseTile fmt fl ref 256 l, false)
  else if has24 fmt && fits24 l then (tileHeader 2 fmt fl ref 256 (tileBody 2 fmt) ++ body24 (fmtW fmt) l, false)
  else (denseTile fmt fl ref 128 (halfPanel false l) ++ denseTile fmt fl ref 128 (halfPanel true l), has24 fmt)

/-- The S24 tile of a panel under a mask, and the non-zero codes dropped (R539). -/
def maskedTile (fmt fl ref : Nat) (trans : Bool) (mask l : List Nat) : List Byte × Nat :=
  let ps := keptPos trans mask
  let gs := groups4 l
  let drops := ((List.zip gs ps).map fun (g, p) => ((nzPos g).filter fun i => i != p.1 && i != p.2).length).sum
  (tileHeader 2 fmt (fl + 2) ref 256 (tileBody 2 fmt) ++ body24At (fmtW fmt) l ps, drops)

/-- Panels from number i encoded one after another to address a; the state and the bytes written (R542). -/
def State.spPanels (s : State) (o : Op) (masks : List (List Nat)) : Nat → Nat → Nat → State × Nat
  | 0, _, len => (s, len)
  | n + 1, i, len =>
    let d := o.desc
    let fmt := spFmt d
    let fl := if spGscale d then 1 else 0
    let src := unpack (fmtW fmt) 32768 (s.peek (spSrc d + i * panelBytes fmt) (panelBytes fmt))
    let l := panelOf (spTrans d) src
    if spMask d then
      let (b, drops) := maskedTile fmt fl (spRef d) (spTrans d) (masks.getD i []) l
      let s1 := s.storeWrite (spDst d + len) b
      State.spPanels (if drops = 0 then s1 else s1.bump (aSpire (o.core / 16) 0x118) drops) o masks n (i + 1) (len + b.length)
    else
      let (b, fell) := freeTiles fmt fl (spRef d) l
      let s1 := s.storeWrite (spDst d + len) b
      State.spPanels (if fell then s1.bump (aSps 1) else s1) o masks n (i + 1) (len + b.length)

/-- The masks of an spcmp, one list of block values per panel. -/
def State.spMasks (s : State) (o : Op) : List (List Nat) :=
  let d := o.desc
  if spMask d then
    (List.range (Machine.spPanels d)).map fun i =>
      unpack 16 2048 (s.imageBytes o.ctx ((s.prog o.ctx).descOff + spMaskOff d + 4096 * i) 4096)
  else []

/-- spcmp completes (R534–R542). -/
def State.spcmpRun (s : State) (o : Op) : State :=
  let d := o.desc
  let off := (s.prog o.ctx).descOff + spMaskOff d
  let len := Machine.spPanels d * 4096
  let s0 := if spMask d then s.imageRead o.ctx off len else s
  let masks := s0.spMasks o
  if spMask d && s.imageLost o.ctx off len then s.imageError o.key o.asn o.ctx off len
  else if !masks.all maskOk then s0.sparseFault o
  else
    let (s1, len) := s0.spPanels o masks (Machine.spPanels d) 0 0
    s1.storeWrite (spLen d) (natLe 8 len)

end Sys2Proof.Machine
end

