-- ==== Sys2Proof/Machine/Check.lean ====
section
/-! DEFINITION. The enable check (R118–R124): the reasons at each of its events, the lowest of those that apply (R120), and where
a refusal is recorded (R122, R952). -/

namespace Sys2Proof.Machine

/-- NO_PROGRAM -/
def rcNoProgram : Nat := 0x01
/-- STALE_CACHE -/
def rcStale : Nat := 0x02
/-- WINDOW_OVERLAP -/
def rcOverlap : Nat := 0x03
/-- ROW_EXCEEDS_SLOT -/
def rcRow : Nat := 0x04
/-- SCALE_GROUP -/
def rcGroup : Nat := 0x05
/-- MASK_NOT_TRANSPOSABLE -/
def rcMask : Nat := 0x06
/-- SHAPE_PIN -/
def rcPin : Nat := 0x07
/-- EXACT_CONFLICT -/
def rcExact : Nat := 0x08
/-- TIMEBASE_UNLOCKED -/
def rcTime : Nat := 0x09
/-- COUNTER_MAP -/
def rcCmap : Nat := 0x0A
/-- PRIVILEGED_CHANNELS -/
def rcChan : Nat := 0x0B
/-- TIER_POPULATION -/
def rcTier : Nat := 0x0C
/-- PORT_MODE -/
def rcPort : Nat := 0x0D
/-- OUTPUT_OVERLAPS_INPUT -/
def rcOut : Nat := 0x0E
/-- PROMOTION_BUFFER -/
def rcPbuf : Nat := 0x0F
/-- DEADLINE_NOT_REALTIME -/
def rcDeadline : Nat := 0x10
/-- VERSION_LIMIT -/
def rcVersions : Nat := 0x11
/-- PEER_FIRMWARE -/
def rcPeerFw : Nat := 0x12
/-- KEY_MISSING -/
def rcKey : Nat := 0x13

/-- The lowest code whose reason applies, of a list with rising codes; 0 where none does (R120). -/
def lowestCode (l : List (Nat × Bool)) : Nat :=
  match l.find? fun e => e.2 with
  | some e => e.1
  | none => 0

/-! Recording. -/

/-- The event of a check (DEV_REFUSE_LAST.SOURCE) and the partner key of its message, where one caused it. -/
structure Cause where
  source : Nat
  key : Option Nat := none
deriving DecidableEq, Repr

/-- The partner key of a requester's message (R952). -/
def State.keyOf (s : State) : Who → Option Nat
  | .sess k => some (s.ses k.val).key
  | _ => none

/-- A refusal of the enable check in DEV_REFUSE_LAST and DEV_REFUSE_COUNT (R952); no context: a device-level check. -/
def State.noteRefusal (s : State) (code : Nat) (ctx : Option Nat) (y : Cause) : State :=
  if code = 0 then s
  else
    (s.setReg aDevRefuseLast (BitVec.ofNat 32 (code * 2 ^ 24 + ctx.getD 0 * 2 ^ 20 + y.key.getD 0 * 2 ^ 16 + y.source * 2 ^ 8
      + (if ctx.isNone then 2 ^ 7 else 0) + (if y.key.isNone then 2 ^ 6 else 0)))).bump aDevRefuseCount

/-- The answer of a check on a context: CTX_STATUS.REFUSE, and the record of a refusal (R122). -/
def State.answerCtx (s : State) (c code : Nat) (y : Cause) : State :=
  (s.setF (aCtxStatus c) 24 8 code).noteRefusal code (some c) y

/-- The answer of a device-level check: DEV_STATUS.REFUSE, and the record of a refusal. -/
def State.answerDev (s : State) (code : Nat) (y : Cause) : State := (s.setF aDevStatus 24 8 code).noteRefusal code none y

/-! Checks of a context. -/

/-- The other contexts that count as enabled (R99). -/
def State.otherCtxs (s : State) (c : Nat) : List Nat := (List.range 16).filter fun d => d != c && s.ctxLocked d

/-- A window grants WR or RWR. -/
def State.winWrites (s : State) (c w : Nat) : Bool := s.winGrants c w .wr || s.winGrants c w .rwr

/-- The valid windows of a context. -/
def State.validWins (s : State) (c : Nat) : List Nat := (List.range 64).filter (s.winValid c)

/-- Two contexts' windows overlap where one of the two may be written (R264). -/
def State.winClash (s : State) (c d : Nat) : Bool :=
  (s.validWins c).any fun w => (s.validWins d).any fun x =>
    overlaps (s.winBase c w) (s.winLen c w) (s.winBase d x) (s.winLen d x) && (s.winWrites c w || s.winWrites d x)

/-- WINDOW_OVERLAP (R264, R407, R635). -/
def State.overlapsOther (s : State) (c : Nat) : Bool :=
  (s.otherCtxs c).any fun d =>
    s.winClash c d
      || overlaps (s.rf (aCtx c 0x010) 0 5) (s.rf (aCtx c 0x010) 8 6) (s.rf (aCtx d 0x010) 0 5) (s.rf (aCtx d 0x010) 8 6)
      || overlaps (s.rf (aCtx c 0x014) 0 8) (s.rf (aCtx c 0x014) 16 9) (s.rf (aCtx d 0x014) 0 8) (s.rf (aCtx d 0x014) 16 9)

/-- Active Spires: STATE 0x1–0x4 (R833). -/
def State.activeSpires (s : State) : Nat :=
  ((List.range 64).filter fun sp => decide (1 ≤ s.spireState sp) && decide (s.spireState sp ≤ 4)).length

/-- SHAPE_PIN (R835). -/
def State.pinFails (s : State) (c : Nat) : Bool :=
  s.rb (aCtx c 0x020) 15 && decide (s.activeSpires < s.rf (aCtx c 0x020) 0 7)

/-- The newest version of some table of the context has EAGER (R822). -/
def State.eagerTable (s : State) (c : Nat) : Bool :=
  s.tables.any fun (e : Nat × Table) => e.2.owner == c && (match e.2.top with | some v => vrEager v.bytes | none => false)

/-- COUNTER_MAP (R741). -/
def State.sharesCtr (s : State) (c : Nat) : Bool :=
  let mine := s.mappedCtrs c
  (s.otherCtxs c).any fun d => (s.mappedCtrs d).any fun p => mine.contains p

/-- PEER_STATUS.STATE -/
def State.peerState (s : State) : Nat := s.rf (aPeer 0x14) 30 2

/-- A member of the peer group reports another firmware version (R789). -/
def State.peerMixed (s : State) : Bool := s.rb (aPeer 0x14) 29 && s.peerState == 2

/-! Checks of a program's descriptors. -/

/-- Some 64 bytes of the descriptor section that stand for kind k (log entry 17) satisfy f. -/
def Program.anyDesc (p : Program) (k : Nat) (f : List Byte → Bool) : Bool :=
  (List.range (p.descLen / 64)).any fun i =>
    Config.descKind p.image (64 * i) == k && f (slice p.image (p.descOff + 64 * i) 64)

/-- ROW_EXCEEDS_SLOT (R640). -/
def Program.rowFails (p : Program) : Bool := p.anyDesc 1 rowTooLarge
/-- SCALE_GROUP (R586). -/
def Program.groupFails (p : Program) : Bool := p.anyDesc 2 fun d => qsGroup d && !gsizeOk (qsGsize d)
/-- MASK_NOT_TRANSPOSABLE (R541). -/
def Program.maskFails (p : Program) : Bool :=
  p.anyDesc 3 fun d => Machine.spMask d
    && (decide (p.descLen < spMaskOff d + 4096 * Machine.spPanels d)
      || !maskOk (unpack 16 (2048 * Machine.spPanels d) (slice p.image (p.descOff + spMaskOff d) (4096 * Machine.spPanels d))))
/-- PRIVILEGED_CHANNELS: a channel other than 0 and 1 is set for group scales. -/
def Program.chanFails (p : Program) : Bool :=
  p.anyDesc 5 fun d => (mmAgs d && decide (1 < mmChA d)) || (mmWgs d && decide (1 < mmChW d))
/-- PROMOTION_BUFFER (R608). -/
def Program.pbufFails (p : Program) : Bool := p.anyDesc 4 fun d => qcPromo d && decide (qcPlen d < qcRows d * qcN d)
/-- DEADLINE_NOT_REALTIME: a stream descriptor sets a deadline. -/
def Program.deadlines (p : Program) : Bool := p.anyDesc 1 sdDl

/-! The events. -/

/-- The check of CTX_CTL.EN, with the mode bits of the value written (R118); it takes the image's bytes as they stand (log entry 163). -/
def State.checkEn (s : State) (c : Nat) (exact : Bool) : Nat :=
  lowestCode [
    (rcNoProgram, !s.rb (aCtxStatus c) 1),
    (rcOverlap, s.overlapsOther c),
    (rcPin, s.pinFails c),
    (rcExact, exact && s.eagerTable c),
    (rcCmap, s.sharesCtr c),
    (rcPbuf, (s.storedProg c).pbufFails),
    (rcPeerFw, exact && s.peerMixed)]

/-- The check of LOAD_PROGRAM on an image (R194, R416). -/
def State.checkLoad (s : State) (c : Nat) (p : Program) : Nat :=
  lowestCode [
    (rcRow, p.rowFails),
    (rcGroup, p.groupFails),
    (rcMask, p.maskFails),
    (rcExact, s.rb (aCtxCtl c) 4 && s.eagerTable c),
    (rcCmap, s.sharesCtr c),
    (rcChan, p.chanFails),
    (rcPbuf, p.pbufFails),
    (rcDeadline, p.deadlines && !s.rb (aCtxCtl c) 3)]

/-- The sub-ports of a split (R127). -/
def subports (split : Nat) : List Nat :=
  if split = 0 then [0] else if split = 1 then [0, 4] else if split = 2 then [0, 2, 4, 6] else List.range 8

/-- The lanes of sub-port p (R128), as a bit mask. -/
def subLanes (split p : Nat) : Nat := ((List.range (subWidth split)).map fun i => 2 ^ (p + i)).sum

/-- A split needs a lane whose LANE_FAILED bit is 1. -/
def State.splitFails (s : State) (split : Nat) : Bool :=
  (subports split).any fun p => s.rf aPortStatus 8 8 &&& subLanes split p != 0

/-- An enabled session slot has no provisioned key. -/
def State.keyFails (s : State) : Bool :=
  (List.range 8).any fun k => s.rb (aSessCfg k) 0 && !(s.key (s.rf (aSessCfg k) 4 4)).present

/-- The contexts whose pin check fails at DEV_CTL.RUN (R835). -/
def State.pinFailures (s : State) : List Nat := (List.range 16).filter fun c => s.ctxEn c && s.pinFails c

/-- The check of DEV_CTL.RUN. -/
def State.checkRun (s : State) : Nat :=
  lowestCode [
    (rcPin, !s.pinFailures.isEmpty),
    (rcTier, !s.boot.popOk),
    (rcPort, s.splitFails (s.rf aPortCfg 0 2)),
    (rcKey, s.keyFails)]

/-- The answer of the check of DEV_CTL.RUN; SHAPE_PIN also goes to every failing context (R835). -/
def State.answerRun (s : State) (y : Cause) : State :=
  let code := s.checkRun
  let s1 := if code = rcPin then s.pinFailures.foldl (fun t c => t.setF (aCtxStatus c) 24 8 rcPin) s else s
  s1.answerDev code y

/-! Enabling a context. -/

/-- The logical Spire count takes effect as the context is enabled (R833). -/
def State.setShape (s : State) (c : Nat) : State :=
  { s with enSpires := SMap.set s.enSpires 0 c s.activeSpires }.setF (aCtx c 0x020) 16 7
    (if s.rb (aCtx c 0x020) 15 then s.rf (aCtx c 0x020) 0 7 else s.activeSpires)

/-- A context switch (R755, R756): the counters are cleared, at once or when no item of the context runs. -/
def State.ctxSwitch (s : State) (c : Nat) : State :=
  if s.ctxRuns c then { s with clrDue := nsetBit s.clrDue c true } else s.switchClear c

/-- The check of CTX_CTL.EN is answered, and the context is enabled where it allows (R117, R755, R833): the answer's code, and
the state. v is the value written. The check reads the descriptor section through the Dome cache (R33, R412). -/
def State.enableCtx (s : State) (c : Nat) (v : W32) (y : Cause) : Nat × State :=
  let s0 := s.imageRead c (s.prog c).descOff (s.prog c).descLen
  let code := s0.checkEn c (rbit v 4)
  let s1 := s0.answerCtx c code y
  if code ≠ 0 then (code, s1)
  else
    let s2 := { s1.setReg (aCtxCtl c) (v &&& 0x1D) with ctxHeld := nsetBit s1.ctxHeld c false }
    (0, (s2.setShape c).ctxSwitch c)

end Sys2Proof.Machine
end

