-- ==== Sys2Proof/Machine/Rows.lean ====
section
/-! DEFINITION. Rows as the row-engine units read and write them (R325–R328, R341–R358, R378, R379, R382–R386): where a row lies, its
tiers, the access sketch, and the probes of the Dome cache. -/

namespace Sys2Proof.Machine

/-- The row-engine unit of a place (R324). -/
def Place.reUnit : Place → Option Nat
  | .near st _ => some st
  | .glacier ch _ => some (8 + ch)
  | _ => none

/-- The unit that holds an address. -/
def State.unitAt (s : State) (a : Nat) : Option Nat := (s.place a).reUnit

/-- Every byte of [a, a + n) lies in unit u. -/
def State.allInUnit (s : State) (a n u : Nat) : Bool := (granules a n).all fun g => s.unitAt g == some u

/-- Why a unit cannot serve an index. -/
inductive RowErr where
  /-- R343: ROW_FAULT of kind 3. -/
  | entry
  | acc (b : Bad)
deriving DecidableEq, Repr

/-- What a unit meets: its failure with the state after, or a result. -/
abbrev RowM (α : Type) := Except (RowErr × State) α

/-- A row: its first byte and its tier. -/
structure RowAt where
  addr : Nat
  tier : Nat
deriving DecidableEq, Repr

/-! Probes (R282, R283, R388). -/

/-- 64-byte blocks of [a, a + n) that lie in line l. -/
def blocksIn (a n l : Nat) : Nat :=
  let lo := max a (l * 128)
  let hi := min (a + n) (l * 128 + 128)
  (hi - 1) / 64 - lo / 64 + 1

/-- One line probed: a line that the slice holds, or that stands in the victim buffer, is supplied and counted (R282, R313, R315; log entry
127), and an absent one costs the bursts of its blocks (R388). -/
def State.probeLine (s : State) (u a n l : Nat) : State :=
  if s.bypass then s.bump (aRe u 0x108) (blocksIn a n l)
  else if (s.findWay l).isSome then s.bump (aDomeCnt 0)
  else if s.inVictim l then s.victimHit l
  else s.bump (aRe u 0x108) (blocksIn a n l)

/-- Lines probed one after another. -/
def State.probeLines (s : State) (u a n : Nat) (l : List Nat) : State := l.foldl (fun (t : State) x => t.probeLine u a n x) s

/-- A unit reads n bytes under the windows of context c (R282, R283): nothing is allocated. -/
def State.probeRead (s : State) (c u a n : Nat) : RowM (List Byte × State) :=
  match s.checkAcc c a n .rd with
  | some b => .error (.acc b, s)
  | none => .ok (s.peek a n, s.probeLines u a n (linesOf a n))

/-! Where a row lies. -/

/-- The row at an address keeps R328, and for a hot index the bound of R351; base is the start of the data it belongs to. -/
def State.rowPlaced (s : State) (u : Nat) (d : List Byte) (hot : Bool) (base : Nat) (r : RowAt) : Bool :=
  let n := storedBytes r.tier (tdDim d)
  s.allInUnit r.addr n u && (!hot || decide (r.addr + n ≤ base + 4096 * tdHot4k d))

/-- The row of an index as unit u finds it (R341–R343, R351, R354): i is the index of the table's directory, hot says that the
index is hot, and rep names the replica's stack and index where one serves it. None where the row does not exist. DEDUCED: these
checks come before the window check of the row itself (log entry 115). -/
def State.rowLoc (s : State) (c u : Nat) (d : List Byte) (i : Nat) (hot : Bool) (rep : Option (Nat × Nat)) :
    RowM (Option RowAt × State) :=
  let base := match rep with | some (st, _) => tdAreaAt d st + tdSpan d | none => tdData d
  if tdDirless d then
    let a := match rep with | some (_, j) => base + (tdRowAt d j - tdData d) | none => tdRowAt d i
    let r : RowAt := { addr := a, tier := tdTier d }
    if s.rowPlaced u d hot base r then .ok (some r, s) else .error (.entry, s)
  else do
    let (b, s1) ← s.probeRead c u (match rep with | some (st, j) => tdAreaAt d st + 8 * j | none => tdEntry d i) 8
    let e := leNat b
    if e = 2 ^ 64 - 1 then .ok (none, s1)
    else
      let r : RowAt := { addr := base + 16 * nbits e 0 40, tier := nbits e 62 2 }
      if nbits e 40 21 = 0 && nbit e 61 == hot && s1.rowPlaced u d hot base r then .ok (some r, s1) else .error (.entry, s1)

/-- The stack whose replica serves a hot index (R353); none where no stack serves. -/
def State.replicaStack (s : State) (home : Option Nat) (i : Nat) : Option Nat :=
  match home with
  | some h => if s.stackUp h then some h else ((List.range 8).map fun k => (i + k) % 8).find? s.stackUp
  | none => ((List.range 8).map fun k => (i + k) % 8).find? s.stackUp

/-! Tiers (R344–R348, R378, R379). -/

/-- One FP32 product of a decode; a finite overflow saturates (R347, R348). -/
def decodeMul (x f : Nat) : Nat × Bool :=
  let (c, fl) := fMul fp32 x f
  if fl.ovf then (withSign 32 (decide (2 ^ 31 ≤ c)) 0x7F7FFFFF, true) else (c, false)

/-- A stored row as FP32 values, each with whether it saturated. -/
def decodeRow (tier dim : Nat) (b : List Byte) : List (Nat × Bool) :=
  if tier = 0 then (unpack 16 dim b).map fun c => (codeF 8 c, false)
  else if tier = 1 then (unpack 8 dim (b.drop 4)).map fun c => decodeMul (codeF 5 c) (getLe b 0 4)
  else if tier = 2 then
    (List.zip (chunks (dim / 32) 32 (unpack 4 dim (b.drop (dim / 32)))) (unpack 8 (dim / 32) b)).flatMap fun (l, e) =>
      l.map fun c => decodeMul (codeF 0 c) (fp32.encode (e8m0 e)).1
  else (unpack 2 dim (b.drop 4)).map fun c => decodeMul (codeF 3 c) (getLe b 0 4)

/-- The largest absolute finite value of a list. -/
def amaxFinite (l : List Nat) : Nat :=
  (l.filter fun x => !isNanF x && absF x != infF).foldl (fun a x => maxF a (absF x)) 0

/-- A row encoded in its tier, padded with zeros, and the saturations (R378, R379). -/
def encodeRow (tier dim : Nat) (l : List Nat) : List Byte × Nat :=
  let a := amaxFinite l
  let fit := fun (b : List Byte) => b ++ zeros (storedBytes tier dim - b.length)
  let with_ := fun (fmt sc : Nat) =>
    let cs := l.map fun x => toNarrow fmt 0 (fp32.decode x) (fp32.decode sc)
    (fit (natLe 4 sc ++ pack (fmtW fmt) (cs.map (·.1))), (cs.filter (·.2)).length)
  if tier = 0 then
    let cs := l.map toBf16
    (pack 16 (cs.map (·.1)), (cs.filter (·.2)).length)
  else if tier = 1 then with_ 5 (if isZeroF a then oneF else maxF (divNatF a 448) minScale)
  else if tier = 3 then with_ 3 (if isZeroF a then oneF else a)
  else
    let gs := (chunks (dim / 32) 32 l).map fun g => (groupExp 2 g, g)
    let cs := gs.flatMap fun (e, g) => g.map fun x => toNarrow 0 0 (fp32.decode x) (e8m0 e)
    (fit (gs.map (fun g => BitVec.ofNat 8 g.1) ++ pack 4 (cs.map (·.1))), (cs.filter (·.2)).length)

/-- A counter of a unit raised by n, where n is not 0. -/
def State.reBump (s : State) (u off n : Nat) : State := if n = 0 then s else s.bump (aRe u off) n

/-- A unit reads a row as FP32 values (R347, R348). -/
def State.readRow (s : State) (c u dim : Nat) (r : RowAt) : RowM (List Nat × State) := do
  let (b, s1) ← s.probeRead c u r.addr (storedBytes r.tier dim)
  let l := decodeRow r.tier dim b
  .ok (l.map (·.1), s1.reBump u 0x110 (l.filter (·.2)).length)

/-- A unit writes the bytes of a row or a replica through the slice (R283, R325); a task's write keeps its shadow. -/
def State.writeRowBytes (s : State) (c u : Nat) (task : Option (Nat × Nat)) (a : Nat) (b : List Byte) :
    RowM State :=
  match s.checkAcc c a b.length .wr with
  | some e => .error (.acc e, s)
  | none =>
    let s1 := match task with
      | some (key, asn) => s.taskWrite key asn a b
      | none => s.writeTier a b
    .ok (s1.bump (aRe u 0x10C))

/-- Where the replica of a row lies in a stack (R351). -/
def replicaAddr (d : List Byte) (st : Nat) (r : RowAt) : Nat := tdAreaAt d st + tdSpan d + (r.addr - tdData d)

/-- The replica writes of a hot row, in stack order (R356). -/
def State.rowCopies (s : State) (d : List Byte) (r : RowAt) (b : List Byte) : List Copy :=
  s.stacksUp.map fun st => { stack := st, addr := replicaAddr d st r, bytes := b }

/-! The access sketch (R382–R386). -/

/-- Counters per row of the sketch. -/
def sketchW (d : List Byte) : Nat := 1024 * 2 ^ tdSketchW d

/-- The sketch of a unit: address and length (R383). -/
def sketchArea (d : List Byte) (u : Nat) : Nat × Nat := (tdSketch d + u * 16 * sketchW d, 16 * sketchW d)

/-- The multipliers of R384. -/
def sketchK : List Nat := [0x9E3779B97F4A7C15, 0xC2B2AE3D27D4EB4F, 0x165667B19E3779F9, 0xD6E8FEB86659FD93]

/-- The addresses of the four counters of an index in a unit's sketch (R383, R384). -/
def sketchCells (d : List Byte) (u i : Nat) : List Nat :=
  (List.zip (List.range 4) sketchK).map fun (r, k) =>
    (sketchArea d u).1 + 4 * sketchW d * r + 4 * (i * k % 2 ^ 64 / 2 ^ (64 - (10 + tdSketchW d)))

/-- One increment added to memory, saturating (R382, R385). -/
def State.sketchAdd (s : State) (d : List Byte) (u i : Nat) : State :=
  (sketchCells d u i).foldl (fun t a => t.writeTier a (natLe 4 (satAdd 32 (getLe (t.peek a 4) 0 4) 1))) s

/-- No part of a unit's sketch lies outside the writable windows of a context (R386): each of its granules is one's, since windows cover
whole granules (R261). -/
def State.sketchWritable (s : State) (c : Nat) (d : List Byte) (u : Nat) : Bool :=
  (granules (sketchArea d u).1 (sketchArea d u).2).all fun g => decide (s.access c g 4096 .wr = .ok)

end Sys2Proof.Machine
end

