-- ==== Sys2Proof/Machine/Requests.lean ====
section
/-! DEFINITION. Row-engine requests before their units (R327–R338, R640, R777–R785, R968): the request structure, its check at
issue, and the splitter. -/

namespace Sys2Proof.Machine

/-! The request (R332). -/

/-- OP: 1 GATHER, 2 GATHER_REDUCE, 3 GATHER_AMAX, 4 SCATTER, 5 SCATTER_ADD, 6 PREFETCH_BATCH. -/
def rqOp (d : List Byte) : Nat := getLe d 0x00 1
/-- RED -/
def rqRed (d : List Byte) : Nat := getLe d 0x01 1
/-- FMT: 0 FP32, 1 BF16. -/
def rqFmt (d : List Byte) : Nat := getLe d 0x02 1
/-- FLAGS -/
def rqFlags (d : List Byte) : Nat := getLe d 0x03 1
/-- TABLE -/
def rqTable (d : List Byte) : Nat := getLe d 0x04 2
/-- BATCH -/
def rqBatch (d : List Byte) : Nat := getLe d 0x06 2
/-- IDX_ADDR -/
def rqIdx (d : List Byte) : Nat := getLe d 0x08 8
/-- SEG_ADDR -/
def rqSeg (d : List Byte) : Nat := getLe d 0x10 8
/-- WGT_ADDR -/
def rqWgt (d : List Byte) : Nat := getLe d 0x18 8
/-- EMAP_ADDR -/
def rqEmap (d : List Byte) : Nat := getLe d 0x20 8
/-- COUNT -/
def rqCount (d : List Byte) : Nat := getLe d 0x28 4
/-- NSEG -/
def rqNseg (d : List Byte) : Nat := getLe d 0x2C 4
/-- STREAM -/
def rqStream (d : List Byte) : Nat := getLe d 0x30 2
/-- AMAX_REG -/
def rqAmax (d : List Byte) : Nat := getLe d 0x32 1
/-- Bytes of an index. -/
def rqIdxBytes (d : List Byte) : Nat := if nbit (rqFlags d) 0 then 8 else 4
/-- SEG -/
def rqHasSeg (d : List Byte) : Bool := nbit (rqFlags d) 1
/-- WGT -/
def rqHasWgt (d : List Byte) : Bool := nbit (rqFlags d) 2
/-- Bytes of a weight. -/
def rqWgtBytes (d : List Byte) : Nat := if nbit (rqFlags d) 3 then 2 else 4
/-- HOME_STACK where HOME_EN is 1. -/
def rqHome (d : List Byte) : Option Nat := if nbit (rqFlags d) 4 then some (nbits (rqFlags d) 5 3) else none
/-- Bytes of an element of an output or source row. -/
def rqElem (d : List Byte) : Nat := if rqFmt d = 1 then 2 else 4
/-- A SCATTER or SCATTER_ADD. -/
def rqWrites (d : List Byte) : Bool := rqOp d == 4 || rqOp d == 5
/-- Bits of the empty map or drop map. -/
def rqMapBits (d : List Byte) : Nat := if rqOp d = 2 then rqNseg d else rqCount d

/-! The check at issue (R333). -/

/-- The columns of the request check for an operation. -/
def rqShapeOk (d : List Byte) : Bool :=
  let plain := rqRed d == 0 && !rqHasSeg d && !rqHasWgt d
  if rqOp d = 1 ∨ rqOp d = 3 then plain && decide (1 ≤ rqCount d) && rqNseg d == 0
  else if rqOp d = 2 then
    decide (1 ≤ rqRed d) && decide (rqRed d ≤ 9) && rqHasSeg d && decide (1 ≤ rqNseg d)
      && (if redWeights (rqRed d) = 2 then rqHasWgt d else if redWeights (rqRed d) = 0 then !rqHasWgt d else true)
  else if rqOp d = 4 ∨ rqOp d = 5 then plain && decide (1 ≤ rqCount d) && rqNseg d == 0 && rqEmap d == 0
  else rqOp d == 6 && plain && rqFmt d == 0 && rqStream d == 0 && rqEmap d == 0

/-- The fields of a request are in range, aligned and zero where R333 asks it. -/
def rqFieldsOk (d : List Byte) : Bool :=
  decide (rqFmt d ≤ 1) && zeroAt d 0x33 13 && (rqOp d == 3 || rqAmax d == 0)
    && rqIdx d % rqIdxBytes d == 0 && rqSeg d % 4 == 0 && rqWgt d % rqWgtBytes d == 0
    && (rqHasSeg d || rqSeg d == 0) && (rqHasWgt d || (rqWgt d == 0 && rqWgtBytes d == 4))
    && decide (rqCount d ≤ 1048576) && decide (rqNseg d ≤ 1048576)

/-- The GATHER stream that a request names may carry it (R968). -/
def State.rqStreamOk (s : State) (o : Op) : Bool :=
  match s.physStrm o.ctx (rqStream o.desc) with
  | none => false
  | some p =>
    match s.strm? p with
    | none => false
    | some x =>
      sdType x.desc == 3 && x.mine o && x.close.isNone && sdOut x.desc == rqWrites o.desc && (sdPersist x.desc || !x.used)

/-- A row larger than ROW_BYTES of the request's stream (R640). -/
def State.rqRowTooLarge (s : State) (o : Op) (v : Version) : Bool :=
  match (s.physStrm o.ctx (rqStream o.desc)).bind s.strm? with
  | none => false
  | some x => rqOp o.desc != 6 && decide (sdRowBytes x.desc < tdDim v.bytes * rqElem o.desc)

/-- A request on a linear-mode stream that would deliver more rows than the stream's ROWS (R665). -/
def State.rqTooManyRows (s : State) (o : Op) : Bool :=
  match (s.physStrm o.ctx (rqStream o.desc)).bind s.strm? with
  | none => false
  | some x => rqOp o.desc != 6 && !sdSlot x.desc && decide (sdRows x.desc < reqRows o.desc)

/-- What the stream unit says of the version that a request would use: none to go on, else the reason to record (R640, R783,
R793). -/
def State.rqVersion (s : State) (o : Op) : Except Nat Version :=
  match s.usable o.ctx (rqTable o.desc) (rqBatch o.desc) with
  | none => .error 0
  | some v => if v.dist then .error 0 else if s.rqRowTooLarge o v then .error 0x04 else .ok v

/-- A task runs in exact mode. -/
def State.exactTask (s : State) (o : Op) : Bool := ((s.task? o.key o.asn).map (·.mode)).getD 0 % 2 == 1

/-- Space that the write log of a request can take: an entry for each index (R825, R827; log entry 29). -/
def State.logNeed (s : State) (o : Op) : Nat :=
  if rqWrites o.desc && s.exactTask o then
    match s.rqVersion o with
    | .ok v => rqCount o.desc * Config.logBytes (tdDim v.bytes)
    | .error _ => 0
  else 0

/-- A request finds no space for its log entries in the shadow pool (R827), or none that it may take ahead of a task accepted earlier that
waits for shadow space (R876; log entry 149). -/
def State.logShort (s : State) (o : Op) : Bool :=
  decide (0 < s.logNeed o) && (decide (s.shadowPool < s.shadowUsed + s.logNeed o)
    || (s.earlier o.key o.asn).any fun e => e.accepted && !e.ended && e.waited && e.unreserved)

/-- The stream unit's check of a row-engine request (R333, R665, R968), which holds while its log finds no space (R827). -/
def State.rqVerdict (s : State) (o : Op) : Verdict :=
  let d := o.desc
  if !rqShapeOk d || !rqFieldsOk d || (rqOp d != 6 && !s.rqStreamOk o) || s.rqTooManyRows o
      || (rqEmap d != 0 && isStore (rqEmap d) && !s.opBanks o (rqEmap d) (ceilDiv (rqMapBits d) 8)) then .refuse 0
  else match s.rqVersion o with
    | .error r => .refuse r
    | .ok _ => if s.logShort o then .hold else .accept

/-- A request is accepted into its stream's order (R968), and takes the space of its log entries (R827). -/
def State.rqAccept (s : State) (o : Op) : State :=
  let need := s.logNeed o
  let s0 := if need = 0 then s else s.modTask o.key o.asn fun t => { t with logSpace := t.logSpace + need }
  let s1 := { s0 with reqs := s0.reqs ++ [{ op := o }] }
  if rqOp o.desc = 6 then s1
  else match s1.physStrm o.ctx (rqStream o.desc) with
    | none => s1
    | some p => match s1.strm? p with
      | none => s1
      | some x => s1.setStrm p { x with reqs := x.reqs ++ [o.id], used := true }

/-! The splitter (R327–R338). -/

/-- A request leaves: its operation ends without its increment, and what RowReq.leave names runs on. -/
def State.dropReq (s : State) (id : Nat) : State :=
  { s.dropOp id with reqs := s.reqs.filterMap fun (r : RowReq) => if r.op.id == id then r.leave else some r }

/-- An index list, offsets or weights are read through the Dome cache (R391). -/
def State.rqRead (s : State) (o : Op) (a n : Nat) : Except State (List Byte × State) :=
  match s.checkAcc o.ctx a n .rd with
  | some e => .error (s.failAcc o.key o.asn e)
  | none => if isStore a then .ok (s.peek a n, s) else .ok (s.readTier a n)

/-- What the splitter makes of an index (R327). -/
inductive Routed where
  | missing
  | range
  | sent (r : Route)
  | bad (b : Bad)
deriving DecidableEq, Repr

/-- The address whose unit holds the row of an index: its directory entry, or the row's first byte (R327). -/
def homeAddr (t : List Byte) (i : Nat) : Nat := if tdDirless t then tdRowAt t i else tdEntry t i

/-- The index at a list position, routed to its home unit (R327). -/
def State.routeHome (s : State) (c : Nat) (t : List Byte) (pos i : Nat) : Routed :=
  match s.unitAt (homeAddr t i) with
  | some u => .sent { pos := pos, unit := u, idx := i, hot := false }
  | none => .bad ((s.checkAcc c (homeAddr t i) 8 .rd).getD (.perm 0xFFFF))

/-- The routing of the index at a list position (R327, R335, R353, R356). -/
def State.routeOne (s : State) (c : Nat) (t d : List Byte) (pos i : Nat) : Routed :=
  if i = 2 ^ (8 * rqIdxBytes d) - 1 then .missing
  else if tdRows t ≤ i then .range
  else if i < tdHot t ∧ rqWrites d = false then
    match s.replicaStack (rqHome d) i with
    | some st => .sent { pos := pos, unit := st, idx := i, hot := true }
    | none => s.routeHome c t pos i
  else s.routeHome c t pos i

/-- An index is not routed to a place without memory. -/
def Routed.isBad : Routed → Bool
  | .bad _ => true
  | _ => false

/-- The dropped indices are counted (R329). -/
def State.countDrops (s : State) (l : List Routed) : State :=
  let m := (l.filter (· == .missing)).length
  let r := (l.filter (· == .range)).length
  let s1 := if m = 0 then s else s.bump aDropMissing m
  if r = 0 then s1 else s1.bump aDropRange r

/-- An output row of +0. -/
def zeroRow (t d : List Byte) : List Byte := zeros (tdDim t * rqElem d)

/-- The rows of dropped positions, where the operation delivers rows (R372). -/
def putZeroRows (t d : List Byte) (ps : List Nat) (m : SMap (List Byte)) : SMap (List Byte) :=
  if rqOp d = 1 ∨ rqOp d = 3 then ps.foldl (fun (m : SMap (List Byte)) p => SMap.put m p (zeroRow t d)) m else m

/-- The request as the splitter leaves it: its version, offsets, weights and routes (R330). -/
def RowReq.split (q : RowReq) (v : Version) (offs ws : List Nat) (l : List Routed) : RowReq :=
  let drops := (List.zip (List.range l.length) l).filterMap fun (p, r) => match r with
    | .missing => some p
    | .range => some p
    | _ => none
  { q with accepted := true, tdesc := v.bytes.take 64, gen := v.gen, offs := offs, weights := ws,
           routes := l.filterMap fun r => match r with | .sent x => some x | _ => none,
           dropped := drops, rows := putZeroRows v.bytes q.op.desc drops q.rows }

/-- The request stands last among the accepted ones. -/
def State.putReqLast (s : State) (q : RowReq) : State :=
  { s with reqs := (s.reqs.filter fun (r : RowReq) => r.op.id != q.op.id) ++ [q] }

/-- The offsets that keep R336 so far, taken in order with the least that the next may be: the number of them, with off[0] = 0 (R336,
R338). -/
def offsetsKept (least : Nat) : List Nat → Nat
  | [] => 0
  | o :: t => if o < least then 0 else 1 + offsetsKept o t

/-- The first offset that breaks R336, by its number; none where all of them keep it. -/
def badOffset (offs : List Nat) (count : Nat) : Option Nat :=
  let k := if offs.headD 0 = 0 then offsetsKept 0 offs else 0
  if k < offs.length then some k else if offs.getLast? = some count then none else some (offs.length - 1)

/-- List positions ahead of the segment in which an offset is found bad. -/
def positionsBefore (offs : List Nat) (count k : Nat) : Nat := if k = 0 then 0 else min (offs.getD (k - 1) 0) count

/-- What the splitter has read of a request: offsets, weights and indices, and the number of the first offset that breaks R336. -/
structure Operands where
  offs : List Nat
  weights : List Nat
  idx : List Nat
  bad : Option Nat

/-- The splitter's reads of a request's offsets, and of the weights and the index list of the positions that they cover: it reads the
offsets as it goes, and nothing behind a bad one (R338). -/
def State.rqOperands (s : State) (o : Op) : Except State (Operands × State) := do
  let d := o.desc
  let seen := unpack 32 (rqNseg d + 1) (s.peek (rqSeg d) (4 * (rqNseg d + 1)))
  let bad := if rqHasSeg d then badOffset seen (rqCount d) else none
  let n := match bad with | some k => positionsBefore seen (rqCount d) k | none => rqCount d
  let no := match bad with | some k => k + 1 | none => rqNseg d + 1
  let (_, s1) ← if rqHasSeg d then s.rqRead o (rqSeg d) (4 * no) else .ok ([], s)
  let (wb, s2) ← if rqHasWgt d then s1.rqRead o (rqWgt d) (rqWgtBytes d * n) else .ok ([], s1)
  let (ib, s3) ← s2.rqRead o (rqIdx d) (rqIdxBytes d * n)
  .ok ({ offs := if rqHasSeg d then seen else [], bad := bad, idx := unpack (8 * rqIdxBytes d) n ib,
         weights := (unpack (8 * rqWgtBytes d) (wb.length / rqWgtBytes d) wb).map (codeF (if rqWgtBytes d = 2 then 8 else 9)) }, s3)

/-- The lines that a prefetch of an index would install as far as the splitter knows them: a directory-less row's, else the entry's. -/
def homeLines (t : List Byte) (i : Nat) : Nat :=
  if tdDirless t then (linesOf (tdRowAt t i) (storedBytes (tdTier t) (tdDim t))).length else 1

/-- The splitter routes the indices of a request whose version is chosen (R327, R336). Of offsets that break R336 it has sent the segments
ahead of the bad one, which it reaches later; it has none to send where the first segment is bad (R338). A prefetch skips an index that
reaches no memory, and counts each of its lines (R317, R381). -/
def State.splitWith (s : State) (q : RowReq) (v : Version) : State :=
  let o := q.op
  match s.rqOperands o with
  | .error e => e.dropReq o.id
  | .ok (x, s1) =>
    let l := (List.zip (List.range x.idx.length) x.idx).map fun (p, i) => s1.routeOne o.ctx v.bytes o.desc p i
    let pf := rqOp o.desc == 6
    let s2 := s1.countDrops (if pf then l else l.takeWhile fun r => !r.isBad)
    match (if pf then none else l.find? Routed.isBad) with
    | some (.bad b) => (s2.failAcc o.key o.asn b).dropReq o.id
    | _ =>
      if x.bad.any fun k => k ≤ 1 then (s2.offsetFault o).dropReq o.id
      else
        let lost := if pf then (((List.zip l x.idx).filter fun e => e.1.isBad).map fun e => homeLines v.bytes e.2).sum else 0
        let s3 := if lost = 0 then s2 else s2.bump (aDomeCnt 6) lost
        s3.putReqLast { q.split v (x.offs.take (x.bad.getD x.offs.length)) x.weights l with badOff := x.bad }

end Sys2Proof.Machine
end

