-- ==== Sys2Proof/Machine/RowUnits.lean ====
section
/-! DEFINITION. Row-engine units at work on requests (R324–R328, R340–R386, R823–R827): gathering, reducing, scattering,
prefetching, replicas, sketches, and the end of a request. A unit serves all its indices of a request that its stream unit has sent
(R663) in one step; the order in which it takes them has no effect on what they give (R360). -/

namespace Sys2Proof.Machine

/-- The undone routes of a request at a unit, in list order. -/
def RowReq.at_ (q : RowReq) (u : Nat) : List Route := q.routes.filter fun r => r.unit == u && !r.done

/-- The output row of a list position: its segment for GATHER_REDUCE, else the position (R336, R371). -/
def RowReq.rowOf (q : RowReq) (pos : Nat) : Nat :=
  if rqOp q.op.desc = 2 then (q.offs.filter fun o => decide (o ≤ pos)).length - 1 else pos

/-- The stream unit has sent the segment of row r to the row engines (R663): a slot, or one of the two granules in flight, is free for
it. Source rows are sent as they are drained, and PREFETCH_BATCH has no segments. -/
def State.rowSent (s : State) (q : RowReq) (r : Nat) : Bool :=
  rqWrites q.op.desc || match s.streams.find? fun e => e.2.reqs.head? == some q.op.id with
    | none => true
    | some (_, x) =>
      if sdSlot x.desc then decide (x.first + r / sdSlotRows x.desc < s.freedAll x + 2)
      else decide (r / sdSlotRows x.desc < x.moved + 2)

/-- The undone routes of a request at a unit that have been sent to it. -/
def State.sentTo (s : State) (q : RowReq) (u : Nat) : List Route := (q.at_ u).filter fun r => s.rowSent q (q.rowOf r.pos)

/-- The splitter goes on with a request whose offsets break R336: it finds the bad one where it would send the segment that ends there (log entry 164; R338,
R663), and the task stops as R681 states. -/
def State.reachBad (s : State) (q : RowReq) : State :=
  match q.badOff with
  | none => s
  | some k => if s.rowSent q (k - 1) then (s.offsetFault q.op).dropReq q.op.id else s

/-- The splitter accepts a request whose pass has started: it chooses the table version, opens the batch, and routes each
index (R333, R640, R777, R780–R785). Of one that it has accepted it reads the offsets on (R338). -/
def execSplitterAccept (id : Nat) (s : State) : Out :=
  if !s.works then .next s else
  match s.req? id with
  | none => .next s
  | some q =>
    let o := q.op
    if q.accepted then .next (s.reachBad q)
    else if !s.opStarted id || (!q.passOn && rqOp o.desc != 6) then .next s
    else match s.rqVersion o with
      | .error r => .next ((s.unitIllegal o r).dropReq id)
      | .ok v => .next ((if rqOp o.desc = 6 then s else s.openBatch o (rqBatch o.desc)).splitWith q v)

/-- The requests that unit u holds: the first 256 accepted ones with indices of its own not yet served (R390). -/
def State.unitHolds (s : State) (u : Nat) : List RowReq :=
  (s.reqs.filter fun (q : RowReq) => q.accepted && !(q.at_ u).isEmpty).take 256

/-- The unit number of a row-engine unit (R859). -/
def reUnitNo (u : Nat) : Nat := 0x540 + u

/-- A request ends its task for what a unit found (R340, R343, R391). -/
def State.failRow (s : State) (q : RowReq) (u : Nat) (e : RowErr) : State :=
  (match e with
    | .entry => (s.bump (aRe u 0x114)).rowFault q.op (reUnitNo u) 3
    | .acc b => s.failAcc q.op.key q.op.asn b).dropReq q.op.id

/-- An index has been served (R354, R395). -/
def State.countIdx (s : State) (u : Nat) (hot : Bool) (n : Nat) : State :=
  (s.reBump u 0x100 n).reBump u 0x104 (if hot then n else 0)

/-- The row of a route as its unit finds it. -/
def State.locate (s : State) (c u : Nat) (t : List Byte) (r : Route) : RowM (Option RowAt × State) :=
  s.rowLoc c u t r.idx (decide (r.idx < tdHot t)) (if r.hot then some (u, r.idx) else none)

/-- The state with a request replaced. -/
def State.setReq (s : State) (q : RowReq) : State := s.modReq q.op.id fun _ => q

/-- A unit's increments of a request are added to its sketch (R382–R385). -/
def State.flushSketch (s : State) (q : RowReq) (u : Nat) : State :=
  let s1 := (q.sketch.filter fun e => e.1 == u).foldl (fun (x : State) e => x.sketchAdd q.tdesc u e.2) s
  s1.setReq { q with sketch := q.sketch.filter fun e => e.1 != u }

/-- The entries of a unit's combining buffer: the increments of one index of one table share an entry (R385). -/
def State.sketchHeld (s : State) (u : Nat) : Nat :=
  ((s.reqs.flatMap fun (q : RowReq) => (q.sketch.filter fun e => e.1 == u).map fun e => (q.tdesc, e.2)).eraseDups).length

/-- A combining buffer that has filled is added to memory (R385). -/
def State.spillSketch (s : State) (u : Nat) : State :=
  if s.sketchHeld u < 1024 then s else s.reqs.foldl (fun (t : State) (q : RowReq) => t.flushSketch q u) s

/-- n increments of the sketch for an index that a unit serves (R382, R385), or their loss, counted once for the request (R386). -/
def State.noteSketch (s : State) (q : RowReq) (u i n : Nat) : State :=
  if !tdSketchEn q.tdesc || n = 0 then s
  else if s.sketchWritable q.op.ctx q.tdesc u then
    (s.modReq q.op.id fun x => { x with sketch := x.sketch ++ List.replicate n (u, i) }).spillSketch u
  else if s.reqs.any fun (x : RowReq) => x.op.id == q.op.id && x.sketchOff.contains u then s
  else (s.modReq q.op.id fun x => { x with sketchOff := x.sketchOff ++ [u] }).bump (aRe u 0x118)

/-- A unit has served n positions of a valid index of a request (R354, R382, R395). -/
def State.servedIdx (s : State) (q : RowReq) (u i : Nat) (hot : Bool) (n : Nat) : State := (s.countIdx u hot n).noteSketch q u i n

/-! Gathers and reductions. -/

/-- A unit reads the row of an index of a request; none where it does not exist (R342). -/
def State.readIdx (s : State) (q : RowReq) (u : Nat) (r : Route) : RowM (Option (List Nat) × State) := do
  let (l, s1) ← s.locate q.op.ctx u q.tdesc r
  match l with
  | none => .ok (none, s1.bump aDropMissing)
  | some a =>
    let (v, s2) ← s1.readRow q.op.ctx u (tdDim q.tdesc) a
    .ok (some v, s2.servedIdx q u r.idx r.hot 1)

/-- The rows of a list of routes. -/
def State.readIdxs (q : RowReq) (u : Nat) : List Route → State → RowM (List (Route × Option (List Nat)) × State)
  | [], s => .ok ([], s)
  | r :: rs, s => do
    let (v, s1) ← s.readIdx q u r
    let (l, s2) ← State.readIdxs q u rs s1
    .ok ((r, v) :: l, s2)

/-- An output row in FMT: its bytes, its values as delivered, and the saturations (R349). -/
def outRowOf (fmt : Nat) (l : List Nat) : List Byte × List Nat × Nat :=
  if fmt = 1 then
    let cs := l.map toBf16
    (pack 16 (cs.map (·.1)), cs.map (fun c => codeF 8 c.1), (cs.filter (·.2)).length)
  else (pack 32 l, l, 0)

/-- The largest absolute value that is no NaN (R373, R374). -/
def amaxOf (a : Nat) (l : List Nat) : Nat := (l.filter fun x => !isNanF x).foldl (fun a x => maxF a (absF x)) a

/-- A gathered row enters its request (R371–R374). -/
def RowReq.gathered (q : RowReq) (e : Route × Option (List Nat)) : RowReq :=
  match e.2 with
  | none => { q with dropped := q.dropped ++ [e.1.pos], rows := SMap.put q.rows e.1.pos (zeroRow q.tdesc q.op.desc) }
  | some l =>
    let (b, v, _) := outRowOf (rqFmt q.op.desc) l
    { q with rows := SMap.put q.rows e.1.pos b, amax := amaxOf q.amax v }

/-- A list position lies in a segment. -/
def RowReq.inSeg (q : RowReq) (seg pos : Nat) : Bool :=
  decide (q.offs.getD seg 0 ≤ pos) && decide (pos < q.offs.getD (seg + 1) 0)

/-- The partial of one segment from one unit, where it has a valid index of it (R361, R363, R364). -/
def RowReq.partialOf (q : RowReq) (u seg : Nat) (l : List (Route × Option (List Nat))) : Option Partial :=
  let red := rqRed q.op.desc
  let terms := l.filterMap fun (r, v) =>
    if q.inSeg seg r.pos then v.map fun x => x.map (edgeTerm red (if rqHasWgt q.op.desc then q.weights[r.pos]? else none))
    else none
  if terms.isEmpty then none
  else some { seg := seg, unit := u, count := terms.length, vals := treeRows red terms }

/-! Writing rows. -/

/-- The source row of a position, as FP32 values (R375). -/
def RowReq.source (q : RowReq) (pos : Nat) : List Nat :=
  let b := (SMap.find q.rows pos).getD []
  (unpack (8 * rqElem q.op.desc) (tdDim q.tdesc) b).map (codeF (if rqFmt q.op.desc = 1 then 8 else 9))

/-- A left fold of rows in FP32 (R376). -/
def foldRows : List (List Nat) → List Nat
  | [] => []
  | h :: t => t.foldl (fun a r => List.zipWith addF a r) h

/-- A row is encoded and written to its home copy; its replica copies follow where it is hot (R325, R356, R378). -/
def State.putRow (s : State) (q : RowReq) (u : Nat) (hot : Bool) (a : RowAt) (vals : List Nat) :
    RowM State := do
  let o := q.op
  let (b, sat) := encodeRow a.tier (tdDim q.tdesc) vals
  let s1 ← (s.reBump u 0x110 sat).writeRowBytes o.ctx u (some (o.key, o.asn)) a.addr b
  .ok (if hot then s1.modReq o.id fun x => { x with copies := x.copies ++ s1.rowCopies q.tdesc a b } else s1)

/-- The distinct indices of a list of routes in the order they first stand, each with its routes. -/
def groupIdx (l : List Route) : List (Route × List Route) :=
  l.foldl (fun (acc : List (Route × List Route)) r =>
    if acc.any fun e => e.1.idx == r.idx then
      acc.map fun e => if e.1.idx == r.idx then (e.1, e.2 ++ [r]) else e
    else acc ++ [(r, [r])]) []

/-- The directory entry that a route's unit reads. -/
def entryAt (t : List Byte) (u : Nat) (r : Route) : Nat := if r.hot then tdAreaAt t u + 8 * r.idx else tdEntry t r.idx

/-- The row that the entry of a route names, whatever R343 says of it. -/
def State.rowNamed (s : State) (t : List Byte) (u : Nat) (r : Route) : RowAt :=
  let base := if r.hot then tdAreaAt t u + tdSpan t else tdData t
  if tdDirless t then { addr := base + (tdRowAt t r.idx - tdData t), tier := tdTier t }
  else
    let e := leNat (s.peek (entryAt t u r) 8)
    { addr := base + 16 * nbits e 0 40, tier := nbits e 62 2 }

/-- The entry of a route names a row (R341). -/
def State.rowThere (s : State) (t : List Byte) (u : Nat) (r : Route) : Bool := tdDirless t || leNat (s.peek (entryAt t u r) 8) != 2 ^ 64 - 1

/-- A write to the row at an address by another request waits at the unit, whatever version of the table it names it through (R824). -/
def State.rowMeets (s : State) (q : RowReq) (u a : Nat) : Bool :=
  s.reqs.any fun (x : RowReq) => x.op.id != q.op.id && x.accepted && rqWrites x.op.desc && !s.exactTask x.op
    && (x.at_ u).any fun r => s.rowThere x.tdesc u r && (s.rowNamed x.tdesc u r).addr == a

/-- The rows that one index receives: for SCATTER each in turn, for SCATTER_ADD the stored row plus the fold (R375, R376;
log entry 115); a meeting with another request's write of the row is counted (R824). -/
def State.scatterIdx (s : State) (q : RowReq) (u : Nat) (g : Route × List Route) : RowM State := do
  let hot := decide (g.1.idx < tdHot q.tdesc)
  let (l, s1) ← s.locate q.op.ctx u q.tdesc g.1
  match l with
  | none => .ok (s1.bump aDropMissing g.2.length)
  | some a =>
    let rows := g.2.map fun r => q.source r.pos
    let s2 := (if s.rowMeets q u a.addr then s1.bump (aDet 0x104) else s1).servedIdx q u g.1.idx false g.2.length
    if rqOp q.op.desc = 4 then rows.foldlM (fun (t : State) v => t.putRow q u hot a v) s2
    else do
      let (old, s3) ← s2.readRow q.op.ctx u (tdDim q.tdesc) a
      s3.putRow q u hot a (List.zipWith addF old (foldRows rows))

/-- Exact mode: the index's combined source value goes to the task's write log instead (R825); its row must be writable. -/
def State.logIdx (s : State) (q : RowReq) (u : Nat) (g : Route × List Route) : RowM State := do
  let t := q.tdesc
  let (l, s1) ← s.locate q.op.ctx u t g.1
  match l with
  | none => .ok (s1.bump aDropMissing g.2.length)
  | some a =>
    match s1.checkAcc q.op.ctx a.addr (storedBytes a.tier (tdDim t)) .wr with
    | some b => .error (.acc b, s1)
    | none =>
      let rows := g.2.map fun r => q.source r.pos
      let add := rqOp q.op.desc == 5
      let e : LogEntry := { item := q.op.item, frag := q.op.frag, req := q.op.n, desc := t, unit := u, row := g.1.idx, add := add,
                            vals := if add then foldRows rows else rows.getLast?.getD [] }
      .ok ((s1.servedIdx q u g.1.idx false g.2.length).modTask q.op.key q.op.asn fun t => { t with log := t.log ++ [e] })

/-- A unit's part of a SCATTER or SCATTER_ADD. -/
def State.scatterAll (s : State) (q : RowReq) (u : Nat) (exact : Bool) : List (Route × List Route) → RowM State
  | [] => .ok s
  | g :: t => do
    let s1 ← if exact then s.logIdx q u g else s.scatterIdx q u g
    State.scatterAll s1 q u exact t

/-- Copies that another request has still to write lie in the replicas of a table: a write of one of its hot rows waits for them, so that
every replica ends equal to its home copy (R355, R356; log entry 126). -/
def State.copiesDue (s : State) (q : RowReq) (u : Nat) : Bool :=
  rqWrites q.op.desc && ((q.at_ u).any fun r => decide (r.idx < tdHot q.tdesc))
    && s.reqs.any fun (x : RowReq) => x.op.id != q.op.id && x.copies.any fun c =>
      overlaps c.addr c.bytes.length (tdAreaAt q.tdesc c.stack) (tdArea q.tdesc)

/-! Prefetches (R316, R317, R380, R381). -/

/-- A line is installed clean, unless it is present; it is skipped and counted where it cannot be read or the cache is in
bypass (R298, R316, R317). A present line is a probe's hit, and one in the victim buffer is served from there (R313, R389). An absent line
costs n bursts of unit u (R388). -/
def State.pfLine (s : State) (c u n l : Nat) : State :=
  if s.bypass || (s.checkAcc c (l * 128) 128 .rd).isSome then s.bump (aDomeCnt 6)
  else
    let s1 := s.settleFill l
    match s1.findWay l with
    | some _ => s1.bump (aDomeCnt 0)
    | none => (if s1.inVictim l then (s1.victimHit l).allocate l else (s1.reBump u 0x108 n).allocate l).bump (aDomeCnt 5)

/-- The lines of a row, with the bursts that each costs where it is absent. -/
def rowLines (t : List Byte) (a : RowAt) : List (Nat × Nat) :=
  let n := storedBytes a.tier (tdDim t)
  (linesOf a.addr n).map fun l => (blocksIn a.addr n l, l)

/-- A line that the unit has probed already is installed clean, unless it is present, or is skipped and counted: a line that it touches
costs one probe (R389). -/
def State.pfProbed (s : State) (c l : Nat) : State :=
  if s.bypass || (s.checkAcc c (l * 128) 128 .rd).isSome then s.bump (aDomeCnt 6)
  else
    let s1 := s.settleFill l
    if (s1.findWay l).isSome then s1 else (s1.allocate l).bump (aDomeCnt 5)

/-- The line of the directory entry of a route is installed; the unit's read of the entry has probed it, where the windows let it. -/
def State.pfEntry (s : State) (c u : Nat) (t : List Byte) (r : Route) : State :=
  if tdDirless t then s else (linesOf (entryAt t u r) 8).foldl (fun (x : State) l => x.pfProbed c l) s

/-- An index of PREFETCH_BATCH: the line of its entry and every line of its row; nothing of it fails a task, and the lines of a row that
R343 or the windows forbid are skipped and counted (R317, R381, R392). -/
def State.pfIdx (s : State) (q : RowReq) (u : Nat) (r : Route) : State :=
  let c := q.op.ctx
  let t := q.tdesc
  match s.locate c u t r with
  | .ok (none, s1) => (s1.bump aDropMissing).pfEntry c u t r
  | .ok (some a, s1) => (rowLines t a).foldl (fun (x : State) l => x.pfLine c u l.1 l.2) ((s1.servedIdx q u r.idx r.hot 1).pfEntry c u t r)
  | .error (.entry, s1) =>
    ((s1.servedIdx q u r.idx r.hot 1).pfEntry c u t r).bump (aDomeCnt 6) (rowLines t (s1.rowNamed t u r)).length
  | .error (.acc _, s1) => (s1.servedIdx q u r.idx r.hot 1).pfEntry c u t r

/-! A unit takes a request. -/

/-- Routes of a unit have been served. -/
def RowReq.done (q : RowReq) (u : Nat) (l : List Route) : RowReq :=
  { q with routes := q.routes.map fun r => if r.unit == u && l.contains r then { r with done := true } else r }

/-- A request as the state holds it. -/
def State.reqNow (s : State) (q : RowReq) : RowReq := (s.req? q.op.id).getD q

/-- What serving routes of a request gives: the request with its results, and the state. -/
def State.serveAt (s : State) (q : RowReq) (u : Nat) (rs : List Route) : RowM (RowReq × State) :=
  let d := q.op.desc
  if rqWrites d then do
    let s1 ← s.scatterAll q u (s.exactTask q.op) (groupIdx rs)
    .ok (s1.reqNow q, s1)
  else if rqOp d = 6 then
    let s1 := rs.foldl (fun (x : State) r => x.pfIdx q u r) s
    .ok (s1.reqNow q, s1)
  else do
    let (l, s1) ← State.readIdxs q u rs s
    let q1 := s1.reqNow q
    if rqOp d = 2 then
      .ok ({ q1 with parts := q1.parts ++ (List.range (rqNseg d)).filterMap fun g => q1.partialOf u g l }, s1)
    else
      let sat := (l.map fun e => match e.2 with | some v => (outRowOf (rqFmt d) v).2.2 | none => 0).sum
      .ok (l.foldl RowReq.gathered q1, s1.reBump u 0x110 sat)

/-- Every source row that a unit's routes need has come (R375). -/
def RowReq.sourcesIn (q : RowReq) (u : Nat) : Bool :=
  !rqWrites q.op.desc || (q.at_ u).all fun r => (SMap.find q.rows r.pos).isSome

/-- The indices of a PREFETCH_BATCH whose table descriptor breaks R340 are counted, and the line of each is skipped (R317, R381, R392; log
entry 128). -/
def State.skipPrefetch (s : State) (u : Nat) (rs : List Route) : State :=
  ((s.countIdx u false rs.length).reBump u 0x104 (rs.filter (·.hot)).length).bump (aDomeCnt 6) rs.length

/-- A unit takes what a request has sent to it, checks its table descriptor and serves the indices (R340–R386). -/
def execUnitRequestStart (id : Nat) (u : Fin 24) (s : State) : Out :=
  if !s.works then .next s else
  match (s.unitHolds u.val).find? fun (q : RowReq) => q.op.id == id with
  | none => .next s
  | some q =>
    let rs := s.sentTo q u.val
    if rs.isEmpty || !q.sourcesIn u.val || s.copiesDue q u.val then .next s
    else if !s.tableOk q.tdesc then
      if rqOp q.op.desc = 6 then .next ((s.skipPrefetch u.val rs).setReq (q.done u.val rs))
      else .next (((s.bump (aRe u.val 0x114)).rowFault q.op (reUnitNo u.val) 2).dropReq id)
    else
      match s.serveAt q u.val rs with
      | .error (e, s1) => .next (s1.failRow q u.val e)
      | .ok (q1, s1) => .next (s1.setReq (q1.done u.val rs))

/-! The aggregate unit's part of a reduction (R365–R368). -/

/-- Every route of a segment has been served; one that ends at an offset that breaks R336 never is (R338). -/
def RowReq.segDone (q : RowReq) (seg : Nat) : Bool :=
  (match q.badOff with | some k => decide (seg + 1 < k) | none => true) && q.routes.all fun r => !q.inSeg seg r.pos || r.done

/-- The reduced row of a segment in FP32 (R365–R368). -/
def RowReq.segRow (q : RowReq) (seg : Nat) : List Nat :=
  let red := rqRed q.op.desc
  let ps := sortKey (fun (p : Partial) => p.unit) (q.parts.filter fun p => p.seg == seg)
  if ps.isEmpty then List.replicate (tdDim q.tdesc) (redIdentity red)
  else
    let v := treeRows red (ps.map (·.vals))
    (if red = 2 then v.map fun x => divNatF x (ps.map (·.count)).sum else v).map (redZero red)

/-- The aggregate unit combines a segment's partials in unit order, divides for MEAN, and converts (R349, R365–R368). -/
def execUnitPartialCombine (id seg : Nat) (s : State) : Out :=
  if !s.works then .next s else
  match s.req? id with
  | none => .next s
  | some q =>
    if rqOp q.op.desc ≠ 2 || !q.accepted || decide (rqNseg q.op.desc ≤ seg) || (SMap.find q.rows seg).isSome || !q.segDone seg
      then .next s
    else
      let (b, _, sat) := outRowOf (rqFmt q.op.desc) (q.segRow seg)
      let s1 := if sat = 0 then s else s.bump (aSpire (q.op.core / 16) 0x11C) sat
      .next (s1.setReq { q with rows := SMap.put q.rows seg b })

/-! Replicas and sketches. -/

/-- A request that has left its task goes once its copies and increments are in memory (R355, R385; log entry 126). -/
def State.buryReqs (s : State) : State :=
  { s with reqs := s.reqs.filter fun (r : RowReq) => (s.op? r.op.id).isSome || !(r.copies.isEmpty && r.sketch.isEmpty) }

/-- The next replica of a hot row is written by the HRE of its stack (R325, R356, R357). -/
def execReplicaWrite (id : Nat) (s : State) : Out :=
  if !s.works then .next s else
  match s.req? id with
  | none => .next s
  | some q =>
    match q.copies with
    | [] => .next s
    | c :: t =>
      let q1 := { q with copies := t }
      if !s.stackUp c.stack then .next (s.setReq q1).buryReqs
      else match s.writeRowBytes q.op.ctx c.stack (some (q.op.key, q.op.asn)) c.addr c.bytes with
        | .error (e, s1) => .next ((s1.setReq q1).failRow q1 c.stack e)
        | .ok s1 => .next (s1.setReq q1).buryReqs

/-- A combining buffer is full, or its request has no more indices for the unit: its increments are added to memory (R385). -/
def execSketchFlush (id : Nat) (u : Fin 24) (s : State) : Out :=
  if !s.works then .next s else
  match s.req? id with
  | none => .next s
  | some q =>
    let mine := q.sketch.filter fun e => e.1 == u.val
    if mine.isEmpty || !(q.at_ u.val).isEmpty then .next s
    else .next (s.flushSketch q u.val).buryReqs

/-! The end of a request. -/

/-- A bit map of n bits as bytes (R369). -/
def mapBytes (n : Nat) (p : Nat → Bool) : List Byte :=
  (List.range (ceilDiv n 8)).map fun b =>
    BitVec.ofNat 8 (((List.range 8).filter fun i => decide (8 * b + i < n) && p (8 * b + i)).map fun i => 2 ^ i).sum

/-- The empty map of a reduction, or the drop map of a gather (R367, R369, R372). -/
def RowReq.emap (q : RowReq) : List Byte :=
  let d := q.op.desc
  if rqOp d = 2 then mapBytes (rqNseg d) fun g => !(q.parts.any fun (p : Partial) => p.seg == g)
  else mapBytes (rqCount d) fun p => q.dropped.contains p

/-- A request has done all that it does: its pass is over, its indices are served, and its copies written (R357, R381). -/
def State.reqOver (s : State) (q : RowReq) : Bool :=
  let d := q.op.desc
  q.accepted && q.badOff.isNone && s.opStarted q.op.id && (q.routes.all (·.done)) && q.copies.isEmpty
    && (rqOp d != 2 || (List.range (rqNseg d)).all fun g => (SMap.find q.rows g).isSome)
    && !(s.streams.any fun e => e.2.reqs.contains q.op.id)

/-- The request ends: its increments reach the sketches, its map and its amax are written, and its own increment is made
(R357, R369, R372, R373, R385, R585). -/
def State.reqEnd (s : State) (q : RowReq) : State :=
  let o := q.op
  let d := o.desc
  let s1 := (q.sketch.foldl (fun (x : State) e => x.sketchAdd q.tdesc e.1 e.2) s).setReq { q with sketch := [] }
  match (if rqEmap d = 0 then .ok s1 else s1.opWrite o (rqEmap d) q.emap) with
  | .error e => e.dropReq o.id
  | .ok s2 =>
    let s3 := if rqOp d = 3 then s2.setScale o (rqAmax d) { value := q.amax, tag := 1 } else s2
    { s3 with reqs := s3.reqs.filter fun (r : RowReq) => r.op.id != o.id }.complete o

end Sys2Proof.Machine
end

