-- ==== Sys2Proof/Machine/Issue.lean ====
section
/-! DEFINITION. Engine issue (R396–R403, R473–R476, R483, R494): a core hands an operation to a unit of its Spire, the unit
accepts it after its descriptor check, starts operations in the order accepted, and completes them. -/

namespace Sys2Proof.Machine

/-- The counter of an issue: virtual and physical identifier; none where the context's map names no counter (R483). With INC 0 the virtual
identifier is not translated (R476). -/
def State.issueCtr (s : State) (c : Core) (ctx : Nat) (e : EOp) : Option (Nat × Nat) :=
  let vc := vcOf c e.vc e.vcreg e.b
  if e.inc = 0 then some (vc, 0)
  else
    match s.translate ctx vc with
    | some (.ctr p) => some (vc, p)
    | _ => none

/-- SCOPE as the word spells it. -/
def scopeNo : Scope → Nat
  | .spire => 0 | .dev => 1 | .sys => 2

/-- The operation that a core's instruction hands over (R397). -/
def State.opOf (s : State) (k : Nat) (c : Core) (it : Item) (e : EOp) (opc func : Nat) (ctr : Nat × Nat) : Op :=
  { id := s.opSeq, core := k, key := it.key, asn := it.asn, ctx := it.ctx, item := it.num, frag := it.frag, n := c.reqs,
    opc := opc, func := func, desc := descBytes (c.rdd e.a), vc := ctr.1, phys := ctr.2, inc := e.inc.toNat,
    scope := scopeNo e.scope, pc := c.pc, word := s.wordAt k c it.ctx }

/-- A unit's answer to an operation it could take (R403). -/
def State.verdict (s : State) (o : Op) : Verdict :=
  let ans := fun (b : Bool) => if b then Verdict.accept else .refuse 0
  if o.opc ≤ 0x51 then ans (s.mmaOk o)
  else if o.opc = 0x52 then ans (s.spcmpOk o)
  else if o.opc = 0x54 then ans (s.aggOk o)
  else if o.opc = 0x55 then ans (s.optOk o)
  else if o.opc = 0x58 then ans (s.qscanOk o)
  else if o.opc = 0x59 then ans (s.qconvOk o)
  else if o.opc = 0x5C then s.rqVerdict o
  else s.strmVerdict o

/-- The key of a unit in the map of cores served. -/
def unitKey (sp u : Nat) : Nat := 4 * sp + u

/-- A unit accepts an operation, and its core's instruction retires (R397, R399). -/
def State.takeOp (s : State) (o : Op) : State :=
  let k := o.core
  let c := s.core k
  let s1 := { s with ops := s.ops ++ [o], opSeq := s.opSeq + 1,
                     served := SMap.put s.served (unitKey (k / 16) (unitOf o.opc)) (k % 16) }
  let s2 := s1.setCore k { c.step with hold := none, reqs := if o.opc = 0x5C then c.reqs + 1 else c.reqs }
  if o.opc = 0x5C then s2.rqAccept o else if o.opc = 0x5D then s2.strmAccept o else s2

/-- The core holds its issue (R398). -/
def State.holdIssue (s : State) (k : Nat) : State :=
  let c := s.core k
  s.setCore k { c with hold := some .issue, since := if c.hold = some .issue then c.since else s.tick }

/-- The E-format instruction at a core's PC, with its opcode and FUNC: what a held issue would hand over. -/
def State.heldIssue (s : State) (k : Nat) : Option (Item × EOp × Nat × Nat) :=
  let c := s.core k
  match c.run with
  | none => none
  | some it =>
    let w := s.wordAt k c it.ctx
    match eopOf (w / 2 ^ 51 % 32) (w / 2 ^ 46 % 32) (w / 2 ^ 41 % 32) (w % 2 ^ 37) with
    | some e => if c.hold = some .issue then some (it, e, w / 2 ^ 56 % 256, w % 256) else none
    | none => none

/-- The operation that core k holds. -/
def State.heldOp (s : State) (k : Nat) : Option Op :=
  (s.heldIssue k).bind fun (it, e, opc, f) => (s.issueCtr (s.core k) it.ctx e).map fun ctr =>
    s.opOf k (s.core k) it e opc f ctr

/-- A core of the Spire holds an issue that the unit could take now. -/
def State.waitsFor (s : State) (u k : Nat) : Bool :=
  match s.heldOp k with
  | some o => unitOf o.opc == u && s.verdict o != .hold
  | none => false

/-- A core issues an operation to its unit: it is accepted, refused, or held (R396–R403, R494). -/
def State.issue (s : State) (i : Instr) (k : CoreRef) (g : Guard) (e : EOp) (opc func : Nat) : Out :=
  s.fire i k g (if e.vcreg then [e.b] else []) [e.a] fun t n c it =>
    match t.issueCtr c it.ctx e with
    | none => t.illegalAt n it
    | some ctr =>
      let o := t.opOf n c it e opc func ctr
      let u := unitOf opc
      if !t.hasRoom (n / 16) u || (List.range 16).any fun j => t.waitsFor u (16 * (n / 16) + j) then t.holdIssue n
      else match t.verdict o with
        | .accept => t.takeOp o
        | .refuse r => t.unitIllegal o r
        | .hold => t.holdIssue n

/-! One meaning per issue. -/

/-- mma.d (R508). -/
def execMmaD (k : CoreRef) (g : Guard) (e : EOp) (s : State) : Out := s.issue (.mmaD k g e) k g e 0x50 0
/-- mma.s (R508). -/
def execMmaS (k : CoreRef) (g : Guard) (e : EOp) (s : State) : Out := s.issue (.mmaS k g e) k g e 0x51 0
/-- spcmp (R534). -/
def execSpcmp (k : CoreRef) (g : Guard) (e : EOp) (s : State) : Out := s.issue (.spcmp k g e) k g e 0x52 0
/-- agg SEGRED (R551). -/
def execSegred (k : CoreRef) (g : Guard) (e : EOp) (s : State) : Out := s.issue (.segred k g e) k g e 0x54 0
/-- agg COMBINE (R553). -/
def execCombine (k : CoreRef) (g : Guard) (e : EOp) (s : State) : Out := s.issue (.combine k g e) k g e 0x54 0
/-- agg EWISE COPY (R556). -/
def execEwiseCopy (k : CoreRef) (g : Guard) (e : EOp) (s : State) : Out := s.issue (.ewiseCopy k g e) k g e 0x54 0
/-- agg EWISE ADD (R556). -/
def execEwiseAdd (k : CoreRef) (g : Guard) (e : EOp) (s : State) : Out := s.issue (.ewiseAdd k g e) k g e 0x54 0
/-- agg EWISE SUB (R556). -/
def execEwiseSub (k : CoreRef) (g : Guard) (e : EOp) (s : State) : Out := s.issue (.ewiseSub k g e) k g e 0x54 0
/-- agg EWISE MUL (R556). -/
def execEwiseMul (k : CoreRef) (g : Guard) (e : EOp) (s : State) : Out := s.issue (.ewiseMul k g e) k g e 0x54 0
/-- agg EWISE DIV (R556). -/
def execEwiseDiv (k : CoreRef) (g : Guard) (e : EOp) (s : State) : Out := s.issue (.ewiseDiv k g e) k g e 0x54 0
/-- agg EWISE MIN (R556). -/
def execEwiseMin (k : CoreRef) (g : Guard) (e : EOp) (s : State) : Out := s.issue (.ewiseMin k g e) k g e 0x54 0
/-- agg EWISE MAX (R556). -/
def execEwiseMax (k : CoreRef) (g : Guard) (e : EOp) (s : State) : Out := s.issue (.ewiseMax k g e) k g e 0x54 0
/-- agg EWISE FMA (R556). -/
def execEwiseFma (k : CoreRef) (g : Guard) (e : EOp) (s : State) : Out := s.issue (.ewiseFma k g e) k g e 0x54 0
/-- agg EWISE SCALE (R556). -/
def execEwiseScale (k : CoreRef) (g : Guard) (e : EOp) (s : State) : Out := s.issue (.ewiseScale k g e) k g e 0x54 0
/-- agg EWISE RELU (R556). -/
def execEwiseRelu (k : CoreRef) (g : Guard) (e : EOp) (s : State) : Out := s.issue (.ewiseRelu k g e) k g e 0x54 0
/-- agg EWISE GELU (R557). -/
def execEwiseGelu (k : CoreRef) (g : Guard) (e : EOp) (s : State) : Out := s.issue (.ewiseGelu k g e) k g e 0x54 0
/-- agg EWISE SILU (R557). -/
def execEwiseSilu (k : CoreRef) (g : Guard) (e : EOp) (s : State) : Out := s.issue (.ewiseSilu k g e) k g e 0x54 0
/-- agg EWISE SIGMOID (R557). -/
def execEwiseSigmoid (k : CoreRef) (g : Guard) (e : EOp) (s : State) : Out := s.issue (.ewiseSigmoid k g e) k g e 0x54 0
/-- agg EWISE TANH (R557). -/
def execEwiseTanh (k : CoreRef) (g : Guard) (e : EOp) (s : State) : Out := s.issue (.ewiseTanh k g e) k g e 0x54 0
/-- agg EWISE EXP (R557). -/
def execEwiseExp (k : CoreRef) (g : Guard) (e : EOp) (s : State) : Out := s.issue (.ewiseExp k g e) k g e 0x54 0
/-- agg EWISE LOG (R557). -/
def execEwiseLog (k : CoreRef) (g : Guard) (e : EOp) (s : State) : Out := s.issue (.ewiseLog k g e) k g e 0x54 0
/-- agg EWISE RSQRT (R557). -/
def execEwiseRsqrt (k : CoreRef) (g : Guard) (e : EOp) (s : State) : Out := s.issue (.ewiseRsqrt k g e) k g e 0x54 0
/-- agg EWISE ABS (R556). -/
def execEwiseAbs (k : CoreRef) (g : Guard) (e : EOp) (s : State) : Out := s.issue (.ewiseAbs k g e) k g e 0x54 0
/-- agg EWISE OR (R556). -/
def execEwiseOr (k : CoreRef) (g : Guard) (e : EOp) (s : State) : Out := s.issue (.ewiseOr k g e) k g e 0x54 0
/-- agg EWISE AND (R556). -/
def execEwiseAnd (k : CoreRef) (g : Guard) (e : EOp) (s : State) : Out := s.issue (.ewiseAnd k g e) k g e 0x54 0
/-- agg SM_BLOCK (R559). -/
def execSmBlock (k : CoreRef) (g : Guard) (e : EOp) (s : State) : Out := s.issue (.smBlock k g e) k g e 0x54 0
/-- agg SM_RESCALE (R561). -/
def execSmRescale (k : CoreRef) (g : Guard) (e : EOp) (s : State) : Out := s.issue (.smRescale k g e) k g e 0x54 0
/-- agg SM_FINAL (R562). -/
def execSmFinal (k : CoreRef) (g : Guard) (e : EOp) (s : State) : Out := s.issue (.smFinal k g e) k g e 0x54 0
/-- agg SM_MERGE (R563). -/
def execSmMerge (k : CoreRef) (g : Guard) (e : EOp) (s : State) : Out := s.issue (.smMerge k g e) k g e 0x54 0
/-- agg SEG_SOFTMAX (R565). -/
def execSegSoftmax (k : CoreRef) (g : Guard) (e : EOp) (s : State) : Out := s.issue (.segSoftmax k g e) k g e 0x54 0
/-- optstep (R623). -/
def execOptstep (k : CoreRef) (g : Guard) (e : EOp) (s : State) : Out := s.issue (.optstep k g e) k g e 0x55 0
/-- qscan SCAN (R588). -/
def execScan (k : CoreRef) (g : Guard) (e : EOp) (s : State) : Out := s.issue (.scan k g e) k g e 0x58 0
/-- qscan DERIVE (R587). -/
def execDerive (k : CoreRef) (g : Guard) (e : EOp) (s : State) : Out := s.issue (.derive k g e) k g e 0x58 0
/-- qscan LOAD (R587). -/
def execQscanLoad (k : CoreRef) (g : Guard) (e : EOp) (s : State) : Out := s.issue (.qscanLoad k g e) k g e 0x58 0
/-- qscan STORE (R587). -/
def execQscanStore (k : CoreRef) (g : Guard) (e : EOp) (s : State) : Out := s.issue (.qscanStore k g e) k g e 0x58 0
/-- qconv (R598). -/
def execQconv (k : CoreRef) (g : Guard) (e : EOp) (s : State) : Out := s.issue (.qconv k g e) k g e 0x59 0
/-- gather GATHER (R371). -/
def execGather (k : CoreRef) (g : Guard) (e : EOp) (s : State) : Out := s.issue (.gather k g e) k g e 0x5C 0
/-- gather GATHER_REDUCE (R363). -/
def execGatherReduce (k : CoreRef) (g : Guard) (e : EOp) (s : State) : Out := s.issue (.gatherReduce k g e) k g e 0x5C 0
/-- gather GATHER_AMAX (R373). -/
def execGatherAmax (k : CoreRef) (g : Guard) (e : EOp) (s : State) : Out := s.issue (.gatherAmax k g e) k g e 0x5C 0
/-- gather SCATTER (R375). -/
def execScatter (k : CoreRef) (g : Guard) (e : EOp) (s : State) : Out := s.issue (.scatter k g e) k g e 0x5C 0
/-- gather SCATTER_ADD (R376). -/
def execScatterAdd (k : CoreRef) (g : Guard) (e : EOp) (s : State) : Out := s.issue (.scatterAdd k g e) k g e 0x5C 0
/-- gather PREFETCH_BATCH (R380). -/
def execPrefetchBatch (k : CoreRef) (g : Guard) (e : EOp) (s : State) : Out := s.issue (.prefetchBatch k g e) k g e 0x5C 0
/-- strm.arm (R656). -/
def execStrmArm (k : CoreRef) (g : Guard) (e : EOp) (s : State) : Out := s.issue (.strmArm k g e) k g e 0x5D 0
/-- strm.rearm (R658). -/
def execStrmRearm (k : CoreRef) (g : Guard) (e : EOp) (s : State) : Out := s.issue (.strmRearm k g e) k g e 0x5D 1
/-- strm.adv (R647). -/
def execStrmAdv (k : CoreRef) (g : Guard) (e : EOp) (s : State) : Out := s.issue (.strmAdv k g e) k g e 0x5D 2
/-- strm.close (R656). -/
def execStrmClose (k : CoreRef) (g : Guard) (e : EOp) (s : State) : Out := s.issue (.strmClose k g e) k g e 0x5D 3

/-! Acceptance, start and completion. -/

/-- The cores of a Spire in the order in which a unit serves them next (R399): after the one it served last. -/
def State.serveOrder (s : State) (sp u : Nat) : List Nat :=
  let last := SMap.get s.served 15 (unitKey sp u)
  (List.range 16).map fun i => 16 * sp + (last + 1 + i) % 16

/-- A unit with room takes the held issue that is next in its round (R398, R399). -/
def execIssueAccept (k : CoreRef) (s : State) : Out :=
  if !s.works then .next s else
  let n := coreIdx k
  match s.heldOp n with
  | none => .next s
  | some o =>
    let u := unitOf o.opc
    if !s.hasRoom k.spire.val u || (s.serveOrder k.spire.val u).find? (s.waitsFor u) ≠ some n then .next s
    else match s.verdict o with
      | .accept => .next (s.takeOp o)
      | .refuse r => .next (s.unitIllegal o r)
      | .hold => .next s

/-- A row-engine request has started: its pass begins where its stream is free for it (R968). -/
def State.rqStart (s : State) (o : Op) : State :=
  let s1 := s.markStarted o.id
  if rqOp o.desc = 6 then s1
  else match s1.physStrm o.ctx (rqStream o.desc) with
    | none => s1
    | some p => match s1.strm? p with
      | some x => if x.reqs.head? = some o.id then (s1.passStart p).runAdvs p else s1
      | none => s1

/-- An operation starts in its unit (R400). -/
def State.startOp (s : State) (o : Op) : State :=
  if o.isMma then (s.markStarted o.id).mmaStart o
  else if o.opc = 0x5C then s.rqStart o
  else if o.opc = 0x5D then s.strmStart o
  else s.markStarted o.id

/-- A unit starts its next operation, in the order accepted (R400); the array, the aggregate unit and the quantiser have one
operation in progress at a time. -/
def execOperationStart (sp : Fin 64) (u : Fin 4) (s : State) : Out :=
  if !s.works then .next s else
  match s.queued sp.val u.val with
  | [] => .next s
  | o :: _ =>
    if u.val ≠ 3 && s.ops.any fun x => x.inUnit sp.val u.val && x.started then .next s else .next (s.startOp o)

/-- What an operation of the array, the aggregate unit or the quantiser computes. -/
def State.runOp (s : State) (o : Op) : State :=
  if o.isMma then s.mmaRun o
  else if o.opc = 0x52 then s.spcmpRun o
  else if o.opc = 0x54 then s.aggRun o
  else if o.opc = 0x55 then s.optRun o
  else if o.opc = 0x58 then s.qscanRun o
  else s.qconvRun o

/-- An operation completes after its work (R402, R474); one that ended its own task makes no increment. -/
def State.finishOp (s t : State) (o : Op) : State := if t.opDead o && !s.opDead o then t.dropOp o.id else t.complete o

/-- An operation completes: its writes are visible and its increment is made (R402, R474). A pass of a stream ends on its own
(R657). -/
def execOperationComplete (id : Nat) (s : State) : Out :=
  if !s.works then .next s else
  match s.op? id with
  | none => .next s
  | some o =>
    if !o.started then .next s
    else if o.opc = 0x5C then
      match s.req? id with
      | some q => .next (if s.reqOver q then s.reqEnd q else s)
      | none => .next s
    else if o.opc = 0x5D then .next (if o.func = 0 && shortPath o.desc then s.shortMove o else s)
    else if o.isMma && !s.mmaDone o then .next s
    else .next (s.finishOp (s.runOp o) o)

end Sys2Proof.Machine
end

