-- ==== Sys2Proof/Machine/Registers.lean ====
section
/-! DEFINITION. Reading registers (R15, R940, R941, R943) and the plain part of writing them (R15): the fields that are computed when
they are read, the sampled pairs of each requester, and the answers of a write. -/

namespace Sys2Proof.Machine

/-! Values that the SMD holds. -/

/-- A lifetime value as the SMD has added it (R899, R900). -/
def State.lifeTotal (s : State) (set i : Nat) : Nat :=
  let k := 65536 * set + i
  min (SMap.get s.smd.life 0 k + SMap.get s.smd.lifeNew 0 k) (2 ^ 64 - 1)

/-- COLD_EPOCH: cold boots since manufacture (R901, R950). -/
def State.coldEpoch (s : State) : Nat := s.lifeTotal 7 2 % 2 ^ 32

/-- Key slots as a bit mask. -/
def State.keyMask (s : State) (f : KeySlot → Bool) : Nat :=
  ((List.range 16).map fun k => if f (s.key k) then 2 ^ k else 0).sum

/-- SEC_STATUS (R937). -/
def State.secStatus (s : State) : Nat := s.keyMask (fun k => k.present && k.owner) * 2 ^ 16 + s.keyMask (·.present)

/-- The next signature index the SMD will use; 2^40 where R915 applies (R912, R937). -/
def State.idNext (s : State) : Nat :=
  match s.smd.block with
  | some (n, stop) => if n < stop then n else if s.smd.nextResv + 4096 ≤ 2 ^ 40 then s.smd.nextResv else 2 ^ 40
  | none => if s.smd.nextResv + 4096 ≤ 2 ^ 40 then s.smd.nextResv else 2 ^ 40

/-! Fields computed at a read. -/

/-- SPIRE_STATUS.CTXS and BUSY (R440). -/
def State.spireLive (s : State) (sp : Nat) : Nat :=
  let busy := ((List.range 16).map fun j => if (s.core (16 * sp + j)).run.isSome then 2 ^ j else 0).sum
  let ctxs := ((List.range 16).filter fun c =>
    (List.range 16).any fun j => match (s.core (16 * sp + j)).run with | some i => i.ctx == c | none => false).length
  min ctxs 15 * 2 ^ 24 + busy

/-- ERR_REC: word w of the record whose SEQ equals ERR_RD (R893, R903), with OPEN as it stands at the present tick (R891). -/
def State.errWord (s : State) (w : Nat) : Nat :=
  match (closeDue s.errs s.tick).find? fun r => BitVec.ofNat 32 r.seq == s.reg (aErr 0x010) with
  | some r => getLe r.bytes (4 * w) 4
  | none => 0

/-- A session's view of the queue-pair window (R962): QP_IDX, QP_W0–W15 and QP_STATUS. -/
def State.qpWord (s : State) (w : Who) (i : Nat) : Nat := (s.ses (whoIdx w)).qpView.getD i 0

/-- The value that a sampled pair holds, by the address of its _LO register (R943). -/
def State.sampledValue (s : State) (a : Nat) : Option Nat :=
  if a = aTime 0x010 then some (s.tick % 2 ^ 64)
  else if a = aTime 0x018 then some s.ptp.offset.toNat
  else if a = aLife 0x004 then some (s.lifeTotal (s.rf (aLife 0) 28 4) (s.rf (aLife 0) 0 16))
  else if a = aSync 0x00C then
    let p := s.rf (aSync 0x008) 0 15
    some (if s.fuses.spires.getLsbD (p / 512) then s.ctr p else 0)
  else none

/-- A register's value where it is computed; none where the register is read as it is held. -/
def State.liveReg (s : State) (w : Who) (a : Nat) : Option Nat :=
  if a = aDevGrade then
    some (popCount 64 s.fuses.spires.toNat * 2 ^ 24 + s.fuses.stackGib % 256 * 2 ^ 16 + s.fuses.stackHigh % 256 * 2 ^ 8)
  else if a = 0x008 then some (s.fuses.spires.toNat % 2 ^ 32)
  else if a = 0x00C then some (s.fuses.spires.toNat / 2 ^ 32)
  else if a = aDevColdEpoch then some s.coldEpoch
  else if a = 0x030 then some (s.fuses.mac.toNat % 2 ^ 32)
  else if a = 0x034 then some (s.fuses.mac.toNat / 2 ^ 32)
  else if 0x10100 ≤ a ∧ a ≤ 0x10140 then some (s.qpWord w ((a - 0x10100) / 4))
  else if a = 0x10144 then some 0
  else if a = aQpStatus then some (s.qpWord w 17)
  else if 0x30000 ≤ a ∧ a < 0x40000 ∧ a % 0x1000 = 4 then
    some (rputBit (s.reg a) 0 (s.ctxActive ((a - 0x30000) / 0x1000))).toNat
  else if 0x60000 ≤ a ∧ a < 0x6C000 ∧ a % 0x800 = 4 then
    some (rput (s.reg a) 0 9 (s.unitHolds ((a - 0x60000) / 0x800)).length).toNat
  else if 0x80000 ≤ a ∧ a < 0xC0000 ∧ a % 0x1000 = 0 then
    some ((s.reg a).toNat / 2 ^ 28 * 2 ^ 28 + s.spireLive ((a - 0x80000) / 0x1000))
  else if a = aStrm 0x024 then some s.streams.length
  else if a = aErr 0x008 then some s.unread
  else if aErr 0x400 ≤ a ∧ a < aErr 0x800 then some (s.errWord ((a - aErr 0x400) / 4))
  else if a = aSec 0 then some s.secStatus
  else if (aSec 0x010 ≤ a ∧ a ≤ aSec 0x030) ∨ a = aSec 0x068 ∨ a = aDet 0x154 then some 0
  else if a = aSec 0x070 then some (s.idNext % 2 ^ 32)
  else if a = aSec 0x074 then some (s.idNext / 2 ^ 32)
  else if a = aTime 0x004 then
    some ((if s.rb aPortStatus 7 then 2 ^ 31 else 0) + (if s.rb aPortStatus 6 then 2 ^ 30 else 0)
      + (if s.port.refclkLost then 2 ^ 29 else 0))
  else none

/-- A requester's latest sample of a pair. -/
def State.sample (s : State) (w : Who) (lo : Nat) : Nat :=
  match w with
  | .i3c => SMap.get s.i3cSamples 0 lo
  | _ => SMap.get (s.ses (whoIdx w)).samples 0 lo

/-- The state with a requester's sample taken. -/
def State.setSample (s : State) (w : Who) (lo v : Nat) : State :=
  match w with
  | .i3c => { s with i3cSamples := SMap.put s.i3cSamples lo v }
  | _ =>
    let t := s.ses (whoIdx w)
    s.setSes (whoIdx w) { t with samples := SMap.put t.samples lo v }

/-- A read of a register by a requester (R15, R940, R943): its value, and the state with the sample that a _LO register
takes. -/
def State.readReg (s : State) (w : Who) (a : Nat) : W32 × State :=
  match s.sampledValue a with
  | some v => (BitVec.ofNat 32 v, s.setSample w a v)
  | none =>
    if 4 ≤ a ∧ (s.sampledValue (a - 4)).isSome then (BitVec.ofNat 32 (s.sample w (a - 4) / 2 ^ 32), s)
    else if (regInfo a).isNone then (0, s)
    else match s.liveReg w a with
      | some v => (BitVec.ofNat 32 v, s)
      | none => (s.reg a, s)

/-- Reads of n registers from address a upwards, in order (R941). -/
def State.readRegs : Nat → State → Who → Nat → List Byte × State
  | 0, s, _, _ => ([], s)
  | n + 1, s, w, a =>
    let (v, s1) := s.readReg w a
    let (l, s2) := State.readRegs n s1 w (a + 4)
    (natLe 4 v.toNat ++ l, s2)

/-! Writing. -/

/-- What a register write answers: it has taken effect; it is refused with a NAK reason, and the state holds what the refusal
recorded; or its answer is still to come. -/
inductive WRes where
  | ok (s : State)
  | nak (s : State) (reason : Nat)
  | pend (s : State)
deriving DecidableEq, Repr

/-- A register's value after a plain write (R15): RW bits take the value, W1C bits clear where it holds 1, others keep. -/
def mixReg (i : RegInfo) (old v : W32) : W32 :=
  let rw := BitVec.ofNat 32 i.rw
  let wc := BitVec.ofNat 32 i.w1c
  (old &&& ~~~ rw &&& ~~~ (wc &&& v)) ||| (v &&& rw)

/-- The value that a plain write would leave. -/
def State.mixed (s : State) (a : Nat) (v : W32) : W32 :=
  match regInfo a with
  | some i => mixReg i (s.reg a) v
  | none => s.reg a

/-- A plain write. -/
def State.put (s : State) (a : Nat) (v : W32) : State := s.setReg a (s.mixed a v)

/-- A write that is refused with a reason where a condition holds. -/
def WRes.unless (bad : Bool) (s : State) (reason : Nat) (r : WRes) : WRes := if bad then .nak s reason else r

/-- Bit 0 of a control register clears a block's counters. -/
def State.cntClr (s : State) (v : W32) (bit : Nat) (l : List Nat) : State := if rbit v bit then s.clearRegs l else s

/-- The registers at rising word addresses from lo to hi inclusive. -/
def regRange (lo hi : Nat) : List Nat := (List.range ((hi - lo) / 4 + 1)).map fun i => lo + 4 * i

end Sys2Proof.Machine
end

