-- ==== Sys2Proof/Machine/DomeOps.lean ====
section
/-! DEFINITION. What reaches the Dome cache from outside a program (chapter "The Dome cache"): single accesses with their fills
(R281, R310–R315), maintenance (R303–R312, R966), ways powered down (R291–R296), bypass and its end (R297–R302). -/

namespace Sys2Proof.Machine

/-! Accesses and fills. -/

/-- Data goes to the requester of an access. -/
def State.serve (s : State) (id a n : Nat) : State :=
  { s with dome := { s.dome with served := s.dome.served ++ [(id, Mem.readN s.mem a n)] } }

/-- A read or write of a line that a way holds. -/
def State.domeHit (s : State) (id a n w : Nat) (data : Option (List Byte)) : State :=
  match data with
  | none => s.serve id a n
  | some b => let t := s.dirtyLine (a / 128) w
              t.storeBytes a b

/-- A miss with its fill in flight (R286, R310, R313): the victim way is emptied, its line stands in the victim buffer until the fill
returns, and the access waits for the fill. -/
def State.startFill (s : State) (id a n : Nat) (data : Option (List Byte)) : State :=
  let l := a / 128
  let (w, s1) := s.chooseVictim l
  let k := wayKey l w
  let victim := (SMap.find s1.dome.lines k).map fun (e : Line) => lineOf k e.tag
  let s2 := s1.evict k
  let f : Fill := { line := l, way := w, raced := false, victim := victim,
                    writes := match data with | some b => [(a, b)] | none => [],
                    readers := match data with | some _ => [] | none => [(id, a, n)] }
  { s2 with dome := { s2.dome with fills := s2.dome.fills ++ [f] } }

/-- An access of a line whose fill is in flight waits for it. -/
def State.joinFill (s : State) (id a n : Nat) (data : Option (List Byte)) : State :=
  { s with dome := { s.dome with fills := s.dome.fills.map fun (f : Fill) =>
      if f.line == a / 128 then
        (match data with
         | some b => { f with writes := f.writes ++ [(a, b)] }
         | none => { f with readers := f.readers ++ [(id, a, n)] })
      else f } }

/-- A miss of line l that needs no fill: a write of the whole line (R281), or a line served from the victim buffer and
reinstalled (R314). -/
def State.missHere (s : State) (id a n : Nat) (data : Option (List Byte)) : State :=
  let l := a / 128
  let (w, t) := s.chooseVictim l
  ((t.evict (wayKey l w)).install l w).domeHit id a n w data

/-- An access of n bytes within one line (R281, R298, R313–R315): data is what a write stores. -/
def State.domeAccess (s : State) (id a n : Nat) (data : Option (List Byte)) : State :=
  let l := a / 128
  if s.bypass then
    (match data with
     | none => s.serve id a n
     | some b => s.storeBytes a b)
  else if s.dome.fills.any fun (f : Fill) => f.line == l then s.joinFill id a n data
  else match s.findWay l with
    | some w => (s.bump (aDomeCnt 0)).domeHit id a n w data
    | none =>
      if s.inVictim l then (s.victimHit l).missHere id a n data
      else if data.isSome && n == 128 then s.missHere id a n data
      else s.startFill id a n data

/-- Bytes of an access: those a write stores, or those a read asks for. -/
def accessLen (len : Nat) (data : Option (List Byte)) : Nat := match data with | some b => b.length | none => len

/-- DOME_ACCESS (R281): a read of len bytes, or a write of data, within one line of a tier. An access outside the cacheable
ranges, of no byte or across lines reaches no slice, and none comes while the units hold (State.works) or the slices are plain SRAM
(R101). -/
def execDomeAccess (id addr len : Nat) (data : Option (List Byte)) (s : State) : Out :=
  let n := accessLen len data
  if n = 0 || addr % 128 + n > 128 || !cacheable addr || s.unbackedAt addr || !s.works || s.dome.stage.isSome then .next s
  else .next (s.domeAccess id addr n data)

/-- DOME_FILL_COMPLETE (R310, R311): fill data returns; it is installed and passed on, unless it lost a race. -/
def execDomeFillComplete (line : Nat) (s : State) : Out := .next (if s.works then s.settleFill line else s)

/-- Every fill that satisfies p ends. -/
def State.settleAll (s : State) (p : Fill → Bool) : State :=
  ((s.dome.fills.filter p).map (·.line)).foldl State.settleFill s

/-! Maintenance. -/

/-- Start of the maintenance range (R321). -/
def State.mntBase (s : State) : Nat := (s.reg (aDomeCtl + 0x010)).toNat / 128 * 128 + s.rf (aDomeCtl + 0x014) 0 16 * 2 ^ 32
/-- Lines of the maintenance range. -/
def State.mntLines (s : State) : Nat := (s.reg (aDomeCtl + 0x018)).toNat + s.rf (aDomeCtl + 0x01C) 0 8 * 2 ^ 32

/-- The range keeps R304. -/
def State.mntRangeOk (s : State) : Bool :=
  let n := 128 * s.mntLines
  decide (1 ≤ s.mntLines) && (inside s.mntBase n 0 (2 ^ 39) || inside s.mntBase n glacierBase (storeBase - glacierBase))

/-- MNT_BUSY -/
def State.mntBusy (s : State) : Bool := s.rb aDomeStatus 2
/-- WAY_BUSY -/
def State.wayBusy (s : State) : Bool := s.rb aDomeStatus 1

/-- The answer that a write of DOME_MNT_CMD gets before it has any effect (R966): a NAK reason, or none. -/
def State.mntRefusal (s : State) (op : Nat) : Option Nat :=
  if op = 0 ∨ 4 < op then some nkMalformed
  else if s.mntBusy then some nkBusy
  else if op = 4 then (if s.bypass then none else some nkBusy)
  else if !s.mntRangeOk then some nkMalformed
  else if op = 2 && s.inUse s.mntBase (128 * s.mntLines) false then some nkInUse
  else none

/-- The keys of the lines that an operation acts on (R303). -/
def State.mntKeys (s : State) (op : Nat) : List Nat :=
  if op = 4 then (s.dome.lines.filter fun e => s.waysOn.testBit (e.1 % 16)).map (·.1)
  else s.keysIn s.mntBase (s.mntBase + 128 * s.mntLines)

/-- Fills in flight of the operation's lines have raced it (R310). -/
def State.raceFills (s : State) (op : Nat) : State :=
  let lo := s.mntBase / 128
  let met := fun (l : Nat) => op == 4 || (decide (lo ≤ l) && decide (l < lo + s.mntLines))
  { s with dome := { s.dome with fills := s.dome.fills.map fun (f : Fill) =>
      (if met f.line then { f with raced := true } else f) } }

/-- The operation acts on each line (R303, R309), and MNT_BUSY is 1. -/
def State.mntRun (s : State) (op : Nat) : State :=
  let ks := s.mntKeys op
  let s1 := if op = 1 then s.cleanAll ks else if op = 3 then s.evictAll ks else ks.foldl State.discard s
  let s2 := s1.raceFills op
  { s2 with dome := { s2.dome with mnt := some { op := op, lo := s.mntBase, hi := s.mntBase + 128 * s.mntLines } } }.setB
    aDomeStatus 2 true

/-- A write of DOME_MNT_CMD (R303, R966). -/
def State.wMnt (s : State) (v : W32) : WRes :=
  let op := rfld v 0 4
  match s.mntRefusal op with
  | some r => .nak s r
  | none => .ok (s.mntRun op)

/-- Every write-back of the operation has reached the tier (R308, R311), and MNT_BUSY is 0; an INVALIDATE_ALL in bypass makes
re-enabling safe (R301). -/
def execMaintenanceComplete (s : State) : Out :=
  if !s.works then .next s else
  match s.dome.mnt with
  | none => .next s
  | some m =>
    let s1 := s.settleAll fun f => f.raced && !f.writes.isEmpty
    let s2 := ({ s1 with dome := { s1.dome with mnt := none } }).setB aDomeStatus 2 false
    .next (if m.op = 4 && s2.bypass then s2.setB aDomeStatus 3 true else s2)

/-! Ways. -/

/-- A write of DOME_WAYMASK (R291, R293–R296). -/
def State.wWaymask (s : State) (v : W32) : WRes :=
  if s.wayBusy || s.mntBusy then .nak s nkBusy
  else
    let m := rfld v 0 16 ||| 1
    let on := s.rf aDomeStatus 16 16
    let s1 := (s.setReg aDomeWaymask (BitVec.ofNat 32 m)).setF aDomeStatus 16 16 (on ||| m)
    .ok (if (on ||| m) = m then s1 else s1.setB aDomeStatus 1 true)

/-- Every way being powered down is clean, invalid and off (R291–R293). -/
def execWayPowerDownComplete (s : State) : Out :=
  if !s.works then .next s else
  if !s.wayBusy then .next s
  else
    let off := fun (w : Nat) => !s.waysOn.testBit w
    let s1 := s.settleAll fun f => off f.way
    let s2 := s1.evictAll ((s1.dome.lines.filter fun e => off (e.1 % 16)).map (·.1))
    .next ((s2.setF aDomeStatus 16 16 s.waysOn).setB aDomeStatus 1 false)

/-! Bypass. -/

/-- Bypass ends: a line that stayed valid is looked up again, with the bytes it held when bypass began over the tier's (R299). -/
def State.reviveLines (s : State) : State :=
  let t := s.dome.lines.foldl (fun (u : State) (e : Nat × Line) =>
    let l := lineOf e.1 e.2.tag
    let now := Mem.readN u.mem (l * 128) 128
    match SMap.find s.dome.stale l with
    | some b =>
      if b = now then u
      else { u with mem := Mem.writeN u.mem (l * 128) b, dome := { u.dome with fresh := SMap.put u.dome.fresh l now } }
    | none => u) s
  { t with dome := { t.dome with stale := [] } }

/-- A write of DOME_CTL (R297, R301, R302, R318): clearing EN begins the clean before bypass, setting it runs the check of
STALE_CACHE. -/
def State.wDomeCtl (s : State) (key : Option Nat) (v : W32) : WRes :=
  let clr := fun (t : State) => t.cntClr v 1 (regRange (aDomeCnt 0) (aDomeCnt 6))
  let en := s.rb aDomeCtl 0
  if rbit v 0 && !en then
    let code := if s.rb aDomeStatus 3 then 0 else rcStale
    let s1 := s.answerDev code { source := 0x03, key := key }
    if code ≠ 0 then .nak s1 code
    else .ok (clr ((s1.reviveLines.setB aDomeCtl 0 true).setB aDomeStatus 0 false))
  else if !rbit v 0 && en then
    let s1 := (s.setB aDomeCtl 0 false).setB aDomeStatus 3 false
    .ok (clr { s1 with dome := { s1.dome with disabling := true } })
  else .ok (clr s)

/-- The clean completes and the cache enters bypass (R297, R299). -/
def execDomeBypassEnter (s : State) : Out :=
  if !s.works then .next s else
  if !s.dome.disabling then .next s
  else
    let s1 := s.settleAll fun _ => true
    let s2 := s1.cleanAll (s1.dome.lines.map (·.1))
    let held := s2.dome.lines.foldl (fun (m : SMap (List Byte)) (e : Nat × Line) =>
      SMap.put m (lineOf e.1 e.2.tag) (Mem.readN s2.mem (lineOf e.1 e.2.tag * 128) 128)) []
    let s3 := (s2.dome.fresh.map (·.1)).foldl State.refresh { s2 with dome := { s2.dome with disabling := false, stale := held } }
    .next (s3.setB aDomeStatus 0 true)

/-- A write of DOME_SEEDk (R290). -/
def State.wSeed (s : State) (k : Nat) (v : W32) : State := s.setReg (aDomeSeed k) (if v = 0 then 1 else v)

/-! Region changes. -/

/-- Every near-tier line is cleaned and invalidated (R243). -/
def State.flushNear (s : State) : State :=
  let s1 := s.settleAll fun f => decide (f.line * 128 < 2 ^ 39)
  s1.evictAll (s1.keysIn 0 (2 ^ 39))

end Sys2Proof.Machine
end

