-- ==== Sys2Proof/Machine/MemRegs.lean ====
section
/-! DEFINITION. Writes of the MEM block (chapter "Memory tiers and the address map"): regions (R240–R244), windows (R264–R266) and the
reserve area (R258–R260), and the tiers' upkeep (R271–R276). -/

namespace Sys2Proof.Machine

/-- The region table may be written (R240). -/
def State.tableOpen (s : State) : Bool := s.devState == stReady && !s.anyLocked

/-! Regions. -/

/-- A region as three register values spell it (R245–R247). -/
structure RgnVal where
  a : W32
  b : W32
  c : W32
deriving DecidableEq, Repr

/-- BASE_GIB -/
def RgnVal.base (r : RgnVal) : Nat := rfld r.b 16 9
/-- SIZE_GIB -/
def RgnVal.size (r : RgnVal) : Nat := rfld r.b 0 10
/-- SOFF_GIB -/
def RgnVal.soff (r : RgnVal) : Nat := rfld r.c 0 6
/-- LOCAL -/
def RgnVal.isLocal (r : RgnVal) : Bool := rbit r.a 30
/-- The stacks that a region names. -/
def RgnVal.stackMask (r : RgnVal) : Nat := if r.isLocal then 2 ^ rfld r.a 27 3 else rfld r.a 16 8
/-- GiB that a region occupies in each of its stacks (R237). -/
def RgnVal.depth (r : RgnVal) : Nat := r.size / max 1 (popCount 8 r.stackMask)

/-- Region n as its registers stand. -/
def State.rgnVal (s : State) (n : Nat) : RgnVal := { a := s.reg (aRgn n), b := s.reg (aRgn n + 4), c := s.reg (aRgn n + 8) }

/-- R242's first conditions: the region does not fit the near tier's addresses. -/
def State.rgnMalformed (s : State) (r : RgnVal) : Bool :=
  r.size == 0 || decide (512 < r.size) || decide (512 < r.base + r.size)
    || (s.fuses.stackGib == 48 && decide (384 < r.base + r.size))

/-- Two regions overlap in addresses, or in some stack. -/
def RgnVal.meets (r t : RgnVal) : Bool :=
  overlaps r.base r.size t.base t.size
    || (r.stackMask &&& t.stackMask != 0 && overlaps r.soff r.depth t.soff t.depth)

/-- R242's other conditions for region n. -/
def State.rgnConflict (s : State) (n : Nat) (r : RgnVal) : Bool :=
  ((List.range 16).any fun m => m != n && s.rb (aRgn m) 31 && r.meets (s.rgnVal m))
    || decide (s.rf aMemNear 8 8 < r.soff + r.depth)
    || r.stackMask &&& s.rf aMemNear 24 8 != r.stackMask
    || (!r.isLocal && r.stackMask == 0)
    || (!r.isLocal && r.size % max 1 (popCount 8 r.stackMask) != 0)

/-- The check of a region that becomes valid (R242): a NAK reason, or none. -/
def State.rgnCheck (s : State) (n : Nat) (r : RgnVal) : Option Nat :=
  if s.rgnMalformed r then some nkMalformed else if s.rgnConflict n r then some nkConflict else none

/-- The mapping of a region changes (R243, R244): near-tier lines are cleaned and invalidated, the new value stands, and bytes
that it places anew are undefined. -/
def State.applyRegion (s : State) (n : Nat) (v : W32) : State :=
  let s1 := (s.flushNear).setReg (aRgn n) v
  let r := s1.rgnVal n
  if rbit v 31 then s1.scramble (r.base * gib) ((r.base + r.size) * gib) else s1

/-- A write of MEM_RGN_A of region n; wait leaves the change to REGION_CHANGE_COMPLETE (R240–R243). -/
def State.wRgnA (s : State) (req : Req) (n : Nat) (v : W32) (wait : Bool) : WRes :=
  let old := s.reg (aRgn n)
  let new := s.mixed (aRgn n) v
  let go := if wait then .pend { s with rgnChange := some { n := n, value := new, req := req } } else .ok (s.applyRegion n new)
  if !s.tableOpen then .nak s nkBusy
  else if rbit old 31 then
    (if rputBit new 31 false ≠ rputBit old 31 false then .nak s nkBusy else if rbit new 31 then .ok s else go)
  else if rbit new 31 then
    (match s.rgnCheck n { s.rgnVal n with a := new } with
     | some r => .nak s r
     | none => go)
  else .ok (s.setReg (aRgn n) new)

/-- A write of MEM_RGN_B or MEM_RGN_C (R240, R241). -/
def State.wRgnBC (s : State) (n a : Nat) (v : W32) : WRes :=
  if !s.tableOpen then .nak s nkBusy
  else if s.rb (aRgn n) 31 && s.mixed a v != s.reg a then .nak s nkBusy
  else .ok (s.put a v)

/-- The clean and invalidate of a region change ends and its mapping takes effect (R243). -/
def execRegionChangeComplete (n : Fin 16) (s : State) : Out :=
  if !s.works then .next s else
  match s.rgnChange with
  | some x => .next (if x.n = n.val then { s with rgnChange := none }.applyRegion x.n x.value else s)
  | none => .next s

/-! Windows. -/

/-- First address of the area of R258. -/
def State.grsvBase (s : State) : Nat := glacierBase + (s.glacierSize - s.rf aMemGrsv 0 16 * gib)

/-- [a, a + n) lies where a window may lie (R234, R258, R266). -/
def State.windowFits (s : State) (a n : Nat) (grsvFrom : Nat) : Bool :=
  (inside a n 0 (2 ^ 39) || inside a n glacierBase (storeBase - glacierBase))
    && !overlaps a n grsvFrom (glacierBase + s.glacierSize - grsvFrom)

/-- A window keeps R266: it is invalid, or has a length and lies where a window may lie. -/
def State.windowOk (s : State) (c w : Nat) : Bool :=
  !s.winValid c w || (decide (0 < s.winLen c w) && s.windowFits (s.winBase c w) (s.winLen c w) s.grsvBase)

/-- A write of a window's register (R117, R265, R266). -/
def State.wWindow (s : State) (c w a : Nat) (v : W32) : WRes :=
  if s.ctxLocked c then .nak s nkBusy
  else
    let t := s.put a v
    if !t.windowOk c w then .nak s nkPermission
    else .ok (t.setF (aWin c w + 12) 12 20 (t.rf (aWin c w + 12) 12 20 + 1))

/-- Some valid window of some context overlaps [a, a + n). -/
def State.anyWindowIn (s : State) (a n : Nat) : Bool :=
  (List.range 16).any fun c => (s.validWins c).any fun w => overlaps (s.winBase c w) (s.winLen c w) a n

/-- A write of MEM_GRSV (R259). -/
def State.wGrsv (s : State) (v : W32) : WRes :=
  let g := rfld v 0 16
  let total := s.rf aMemCap 0 16
  if !s.tableOpen then .nak s nkBusy
  else if total / 2 < g then .nak s nkMalformed
  else if s.anyWindowIn (glacierBase + (total - g) * gib) (g * gib) then .nak s nkConflict
  else if g < s.rf (aDet 0x108) 0 16 + 2 then .nak s nkConflict
  else .ok (s.put aMemGrsv v)

/-! Upkeep (R271–R273, R276): it delays accesses and changes no result bit (R35), so in a model without access times it leaves
the state as it is. -/

/-- A per-bank refresh of a stack. -/
def execHbmRefresh (_stack : Fin 8) (_bank : Nat) (s : State) : Out := .next s

/-- A stack's periodic PHY retraining. -/
def execHbmPhyRetrain (_stack : Fin 8) (s : State) : Out := .next s

/-- A same-bank refresh of a channel. -/
def execGlacierRefresh (_chan : Fin 16) (_bank : Nat) (s : State) : Out := .next s

/-- A channel's DQS oscillator tracking. -/
def execDqsOscillatorTracking (_chan : Fin 16) (s : State) : Out := .next s

/-- A channel's full read and write retraining. -/
def execGlacierRetrain (_chan : Fin 16) (s : State) : Out := .next s

end Sys2Proof.Machine
end

