-- ==== Sys2Proof/Machine/PortOps.lean ====
section
/-! DEFINITION. The Ethernet port (chapter "The Ethernet port", R925–R929): modes and lanes, frames and logical ports, flow control,
congestion, MACsec associations and the PTP servo. -/

namespace Sys2Proof.Machine

/-- The key of a sub-port in the map of degraded sub-ports: P0 of RECOVERY, which runs whatever PORT_CFG holds (R109), has its own. -/
def State.laneKey (s : State) (p : Nat) : Nat := if s.devState = stRecovery then 8 + p else p

/-- The lanes that sub-port p runs on: those of its mode, or fewer while it is degraded (R128, R132). -/
def State.lanesOf (s : State) (p : Nat) : Nat := SMap.get s.port.lanes (subLanes s.split p) (s.laneKey p)

/-- The rate of sub-port p in Gb/s (R125, R127, R132): its lanes run at 200 Gb/s, or at 100 Gb/s where LANE100 says so, and in RECOVERY
whatever it says (R109). -/
def State.subRate (s : State) (p : Nat) : Nat :=
  popCount 8 (s.lanesOf p) * if s.devState = stRecovery ∨ s.rb aPortCfg (16 + p) then 100 else 200

/-! MACsec associations. -/

/-- A received frame's check value verifies under its transmitter's association: SSCI 2, and the association number of its GEN (R152, R925). -/
def State.icvOk (s : State) (f : Frame) (t : MacsecTag) (pn : Nat) : Bool :=
  t.an.toNat == t.sci.toNat % 4 && t.icv == macsecIcv (macsecKeys (s.key (s.macsecKey f.sub.val)).key t.sci.toNat f.sub.val) 2 pn t.sci.toNat
    t.an.toNat f.dstMac.toNat f.src.mac t.data

/-- The data of a frame that verifies, decrypted. -/
def State.decrypt (s : State) (f : Frame) (t : MacsecTag) (pn : Nat) : List Byte :=
  let keys := macsecKeys (s.key (s.macsecKey f.sub.val)).key t.sci.toNat f.sub.val
  gcmCrypt keys.1 (macsecIv keys.2 2 pn) t.data

/-- Sub-port p takes a new GEN, one above the record of its key, and records it (R926); past 65,535 it falls silent (R929). -/
def State.newGen (s : State) (p : Nat) : State :=
  let k := s.macsecKey p
  let v := s.key k
  let g := SMap.get v.genTx 0 p + 1
  if v.mute.contains p then s
  else if 65535 < g then s.setKey k { v with mute := p :: v.mute }
  else (s.setKey k { v with genTx := SMap.set v.genTx 0 p g }).setMacsec p { s.macsec p with txGen := g, txPn := 0 }

/-- What sub-port p has seen of a partner's channel under its present key. -/
def State.rxChannel (s : State) (p mac : Nat) : RxChannel :=
  ((s.macsec p).rx.find? fun w => w.key == s.macsecKey p && w.mac == mac).getD { key := s.macsecKey p, mac := mac }

/-- That record replaced. -/
def State.setRx (s : State) (p : Nat) (w : RxChannel) : State :=
  s.setMacsec p { s.macsec p with rx := w :: (s.macsec p).rx.filter fun v => !(v.key == w.key && v.mac == w.mac) }

/-- The packet number of a protected frame (IEEE 802.1AE): its low half continued from the replay window of its GEN. -/
def State.pnOf (s : State) (p : Nat) (t : MacsecTag) : Nat :=
  let w := s.rxChannel p (t.sci.toNat / 65536)
  fullPn (if w.gen = t.sci.toNat % 65536 then w.top - 63 else 0) t.pn

/-- A protected frame is accepted (R927): its GEN is at least the one recorded from that partner, and its packet number is new and within 64
of the highest. The state then holds what it records. -/
def State.macsecAccept (s : State) (f : Frame) (t : MacsecTag) : Option State :=
  let p := f.sub.val
  let k := s.macsecKey p
  let v := s.key k
  let mac := t.sci.toNat / 65536
  let gen := t.sci.toNat % 65536
  let known := SMap.get v.genRx 0 (p + 8 * mac)
  let w := s.rxChannel p mac
  let pn := s.pnOf p t
  if !s.icvOk f t pn || gen < known then none
  else if w.gen < gen ∨ known < gen then
    some ((s.setKey k { v with genRx := SMap.set v.genRx 0 (p + 8 * mac) gen }).setRx p { w with gen := gen, top := pn, seen := [pn] })
  else if pn + 64 ≤ w.top || w.seen.contains pn then none
  else
    let top := max w.top pn
    some (s.setRx p { w with top := top, seen := (pn :: w.seen).filter fun q => decide (top < q + 64) })

/-- The packet number of sub-port p's channel has reached 2^62: the next key is derived under a new GEN, and with it the association number
changes (R154, R925, R926). -/
def execMacsecRekey (p : Fin 8) (s : State) : Out :=
  let m := s.macsec p.val
  .next (if s.subUp p.val && s.macsecOn p.val && !s.muted p.val && decide (2 ^ 62 ≤ m.txPn) then s.newGen p.val else s)

/-! Modes and lanes. -/

/-- Sub-ports go down and train in the mode that PORT_CFG holds (R131, R162). -/
def State.retrain (s : State) : State :=
  let s1 := (List.range 8).foldl State.subDown (s.setReg aPortStatus (s.reg aPortStatus &&& 0x0000FFFF))
  { s1 with port := { s1.port with lanes := [], training := (subports s.split).map fun p => (p, true) } }

/-- A write of PORT_CFG (R131): the check of PORT_MODE on the split written; then every sub-port retrains. A write that leaves two enabled
sessions with WHOLE on an unsplit port is let through, since R140 names no answer (log entry 138). -/
def State.wPortCfg (s : State) (key : Option Nat) (v : W32) : WRes :=
  let new := s.mixed aPortCfg v
  let code := if s.splitFails (rfld new 0 2) then rcPort else 0
  let s1 := s.answerDev code { source := 0x08, key := key }
  if code ≠ 0 then .nak s1 code else .ok (s1.setReg aPortCfg new).retrain

/-- A sub-port completes training and carries traffic (R162); with MACsec it takes a new GEN (R926), and an XOFF that is due goes out
(R147). -/
def execSubportLinkUp (p : Fin 8) (s : State) : Out :=
  if !SMap.get s.port.training false p.val then .next s
  else
    let s1 := { s with port := { s.port with training := SMap.erase s.port.training p.val } }
    let s2 := (s1.setB aPortStatus (24 + p.val) true).setF aPortStatus 16 8 (s1.rf aPortStatus 16 8 ||| s1.lanesOf p.val)
    .next (if s2.macsecOn p.val then s2.newGen p.val else s2).pfcSync

/-- The half of a lane set that a degraded sub-port keeps: the lower one if none of its lanes has failed (R132). -/
def halfLanes (lanes failed : Nat) : Nat :=
  let l := bitsSet 8 lanes
  let lower := ((l.take (l.length / 2)).map fun i => 2 ^ i).sum
  if lower &&& failed = 0 then lower else lanes - lower

/-- The sub-port that uses a lane. -/
def State.subOfLane (s : State) (l : Nat) : Option Nat := (subports s.split).find? fun p => (s.lanesOf p).testBit l

/-- A lane in use fails (R130, R132–R134, R884): it is recorded, and its sub-port retrains at half its width, or goes down where
it has one lane. -/
def State.loseLane (s : State) (l : Nat) : State :=
  match s.subOfLane l with
  | none => s
  | some p =>
    if !s.pins.ethTx then s
    else
      let u := 0x580 + l
      let used := s.lanesOf p
      let s1 := ((s.setB aPortStatus (8 + l) true).setF aPortStatus 16 8 (s.rf aPortStatus 16 8 &&& (255 - used))).subDown p
      let s2 := ((s1.lifeAdd 0x6 u 1).report { cls := clsLane, origin := u, reporter := u }).report
        { cls := clsUnitOut, origin := u, reporter := u }
      let one := decide (popCount 8 used ≤ 1)
      { s2 with port := { s2.port with
        lanes := if one then s2.port.lanes else SMap.put s2.port.lanes (s.laneKey p) (halfLanes used (s2.rf aPortStatus 8 8)),
        training := if one then SMap.erase s2.port.training p else SMap.put s2.port.training p true } }

/-- LANE_FAILURE (R130). -/
def execLaneFailure (l : Fin 8) (s : State) : Out := .next (s.loseLane l.val)

/-! Logical ports. -/

/-- Two enabled sessions would share a logical port (R138, R140, R141): they lie on one sub-port that one of them takes whole, or
both take a whole sub-port of an unsplit port. -/
def State.lportClash (s : State) (j k : Nat) : Bool :=
  let a := s.reg (aSessLport j)
  let b := s.reg (aSessLport k)
  j != k && s.rb (aSessCfg j) 0 && s.rb (aSessCfg k) 0
    && ((rfld a 0 3 == rfld b 0 3 && (rbit a 3 || rbit b 3)) || (s.split == 0 && rbit a 3 && rbit b 3))

/-- A datagram matches slot k's logical port (R138, R139). -/
def State.lportMatch (s : State) (f : Frame) (dport k : Nat) : Bool :=
  let r := s.reg (aSessLport k)
  rfld r 0 3 == f.sub.val
    && (rbit r 3 || (f.dstMac.toNat == (s.fuses.mac.toNat + k) % 2 ^ 48 && f.vlan.toNat == rfld r 4 12 && dport == rfld r 16 16))

/-- The session whose logical port a datagram matches (R138, R139): an enabled slot before one that is not, since a first session
must open before any slot can be enabled (log entry 18). -/
def State.lportOf (s : State) (f : Frame) (dport : Nat) : Option Nat :=
  match (List.range 8).find? fun k => s.rb (aSessCfg k) 0 && s.lportMatch f dport k with
  | some k => some k
  | none => (List.range 8).find? fun k => s.lportMatch f dport k

/-- The datagram arrives at the peer port (R787, R820). -/
def State.peerPort (s : State) (f : Frame) (dport : Nat) : Bool :=
  let r := s.reg (aPeer 0x08)
  s.rf (aPeer 0x04) 12 3 == f.sub.val && f.dstMac.toNat == (s.fuses.mac.toNat + 8) % 2 ^ 48
    && f.vlan.toNat == rfld r 4 12 && dport == rfld r 16 16 && s.peerState != 0

/-- A congestion-marked packet of a queue pair is answered by a CNP, at most once in 50,000 ticks (R148). -/
def State.markQp (s : State) (q : Nat) : State :=
  let early := match SMap.find s.port.lastCnp q with | some t => decide (s.tick < t + 50000) | none => false
  if early then s else { s with port := { s.port with lastCnp := SMap.put s.port.lastCnp q s.tick } }.send {} (.cnp q)

/-- A datagram waits for its session; a congestion mark is echoed in the next header (R148), and a receive space that is now full calls for
XOFF (R147). -/
def State.takeDatagram (s : State) (slot : Nat) (f : Frame) : State :=
  let s1 := { s with port := { s.port with rx := s.port.rx ++ [(slot, { f.src with vlan := f.vlan.toNat }, f.bytes)] } }
  (if f.ce && decide (slot < 8) then s1.setSes slot { s1.ses slot with ceEcho := true } else s1).pfcSync

/-- A frame that MACsec lets through is matched (R139, R142). -/
def State.matchFrame (s : State) (f : Frame) : State :=
  match f.kind with
  | .udp dport =>
    match s.lportOf f dport with
    | some k => s.takeDatagram k f
    | none => if s.peerPort f dport then s.takeDatagram 16 f else s.bump aRxUnmatched
  | .roce qpn =>
    if 0x1000 ≤ qpn ∧ (s.qp? (qpn - 0x1000)).isSome then (if f.ce then s.markQp (qpn - 0x1000) else s)
    else s.bump aRxUnmatched
  | _ => s

/-- FRAME_RECEIVE (R129, R139, R142, R148, R155, R927, R929). -/
def execFrameReceive (f : Frame) (s : State) : Out :=
  let p := f.sub.val
  if !s.subUp p || decide (9216 < f.len) then .next s
  else if !s.macsecOn p || f.kind = .pfc then .next (s.matchFrame f)
  else if s.muted p then .next (s.bump aMacsecDrop)
  else match f.macsec with
    | none => .next (s.bump aMacsecDrop)
    | some t =>
      match s.macsecAccept f t with
      | none => .next (s.bump aMacsecDrop)
      | some s1 => .next (s1.matchFrame (Frame.inner f (s.decrypt f t (s.pnOf p t))))

/-! Priority flow control. -/

/-- A received pause on an enabled priority holds its frames until its time runs out; a time of 0 lifts it (R145). -/
def execPfcPauseReceive (p prio : Fin 8) (ticks : Nat) (s : State) : Out :=
  if !s.subUp p.val || !s.rb aPortCfg (8 + prio.val) then .next s
  else
    let k := pauseKey p.val prio.val
    .next ({ s with port := { s.port with pauses :=
      (if ticks = 0 then SMap.erase s.port.pauses k else SMap.put s.port.pauses k (s.tick + ticks)) } } : State).release

/-- The time of a received pause runs out, and the frames that it held leave (R151). -/
def execPfcPauseExpiry (p prio : Fin 8) (s : State) : Out :=
  let k := pauseKey p.val prio.val
  match SMap.find s.port.pauses k with
  | none => .next s
  | some t => .next ({ s.passTo t with port := { s.port with pauses := SMap.erase s.port.pauses k } } : State).release

/-! Congestion notification (R149, R150). -/

/-- The key of a rate in the port's maps: sessions 0–7, queue pair n at 16 + n. -/
def rateIdx : RateTarget → Nat
  | .lport k => k.val
  | .qp n => 16 + n.val

/-- A notification reaches a transmit rate: it falls by one eighth, at most once in 10,000 ticks, and never below 1/256 (R149). -/
def State.ecnCut (s : State) (k : Nat) : State :=
  let p := { s.port with lastNote := SMap.put s.port.lastNote k s.tick }
  let late := match SMap.find s.port.lastCut k with | some t => decide (t + 10000 ≤ s.tick) | none => true
  if !late then { s with port := p }
  else { s with port := { p with
    lastCut := SMap.put p.lastCut k s.tick,
    rate := SMap.set p.rate 1 k (max ((SMap.get p.rate 1 k) * (7 / 8 : Rat)) (1 / 256 : Rat)) } }

/-- ECN_RATE_CUT (R149). -/
def execEcnRateCut (tgt : RateTarget) (s : State) : Out := .next (s.ecnCut (rateIdx tgt))

/-- ECN_RATE_RECOVERY (R150): 50,000 ticks have passed without a notification, and the rate rises by 1/64 of the full rate. -/
def execEcnRateRecovery (tgt : RateTarget) (s : State) : Out :=
  let k := (rateIdx tgt)
  match SMap.find s.port.lastNote k with
  | none => .next s
  | some t =>
    let s0 := s.passTo (t + 50000)
    .next { s0 with port := { s.port with
      lastNote := SMap.put s.port.lastNote k s0.tick,
      rate := SMap.set s.port.rate 1 k (min ((SMap.get s.port.rate 1 k) + (1 / 64 : Rat)) 1) } }

/-! Time. -/

/-- PORT_CFG.PTP_SP -/
def State.ptpSub (s : State) : Nat := s.rf aPortCfg 4 3

/-- The PTP time at which the master sent the Sync of an exchange: Sync's own, or Follow_Up's where Sync is two-step (R156). -/
def syncTime (m : PtpSample) : Nat := m.followUp.getD m.origin

/-- The mean path delay of an exchange, by the delay request-response mechanism (R156): half of what the two ways take together,
rounded down where that is odd (log entry 153). -/
def pathDelay (m : PtpSample) : Int :=
  (((m.syncSeen : Int) - syncTime m) + ((m.reqSeen : Int) - m.reqSent)) / 2

/-- The difference of PTP time and tick that an exchange shows, at the tick at which the device saw Sync. -/
def ptpOffset (m : PtpSample) : Int := syncTime m + pathDelay m - m.syncSeen

/-- The servo error: PTP time less the sum of the tick and the offset (R159). -/
def servoErr (d : Int) (ofs : BitVec 64) : Int := sext 64 (wrapInt 64 (d - ofs.toNat))

/-- A PTP Sync exchange on the sub-port PORT_CFG.PTP_SP, in the domain that TIME_CFG.DOMAIN names (R156, R158, R159, R954): the device sends its Delay_Req, the frequency adjustment follows
the exchange within ±250 ppm, and the offset is set at the first reference and stepped on an error beyond 1,000,000 ticks; the servo error
as met, before any step, and the good intervals are kept. -/
def execPtpSyncReceive (smp : PtpSample) (s : State) : Out :=
  if !s.subUp s.ptpSub || smp.sub.val != s.ptpSub || smp.domain.toNat != s.rf (aTime 0x000) 0 8 then .next s
  else
    let e0 := servoErr (ptpOffset smp) s.ptp.offset
    let step := !s.ptp.seen || decide (1000000 < e0.natAbs)
    let ofs := if step then BitVec.ofNat 64 (wrapInt 64 (ptpOffset smp)) else s.ptp.offset
    let e := if s.ptp.seen then e0 else 0
    let s0 := s.send {} (.ptpDelayReq s.ptpSub smp.transport smp.domain)
    let s1 := s0.setReg (aTime 0x008) (BitVec.ofNat 32 (wrapInt 32 (max (-250000) (min 250000 smp.ppb))))
    .next { s1 with ptp := { seen := true, offset := ofs, err := e, missed := 0,
                             good := if e.natAbs ≤ 20 then s.ptp.good + 1 else 0 } }

/-- PTP locks after 16 consecutive intervals within ±20 ticks (R159). -/
def execPtpLockAcquire (s : State) : Out := .next (if 16 ≤ s.ptp.good then s.setB aPortStatus 7 true else s)

/-- PTP unlocks after four missed intervals, or on a servo error beyond ±100 ticks (R159). -/
def execPtpLockLoss (missed : Bool) (s : State) : Out :=
  if missed || decide (100 < s.ptp.err.natAbs) then
    .next ({ s with ptp := { s.ptp with good := 0, missed := if missed then 4 else s.ptp.missed } }.setB aPortStatus 7 false)
  else .next s

/-- SyncE lock changes (R160); a clock is recovered only from a sub-port that is up. -/
def execSynceLockChange (lock : Bool) (s : State) : Out := .next (s.setB aPortStatus 6 (lock && s.subUp s.ptpSub))

end Sys2Proof.Machine
end

