-- ==== Sys2Proof/Machine/SessRegs.lean ====
section
/-! DEFINITION. Writes of the SESS block (R141, R225, R231) and of the PORT block beside PORT_CFG (R957), and the queue-pair commands
(R958–R962). -/

namespace Sys2Proof.Machine

/-! Session registers. -/

/-- The partner key that a slot binds (SESS_CFG.KEY). -/
def State.slotKey (s : State) (k : Nat) : Nat := s.rf (aSessCfg k) 4 4

/-- Writes of a slot's key and result area wait while its session is open or its key has an unreleased result, which a task leaves when it
commits (R231). -/
def State.slotBusy (s : State) (k : Nat) : Bool :=
  let q := s.key (s.slotKey k)
  (s.ses k).isOpen || q.unreleased.any fun n => decide (n ≤ q.lastCommitted)

/-- Some pair of enabled sessions would share a logical port with slot k (R141). -/
def State.lportBad (s : State) (k : Nat) : Bool := (List.range 8).any (s.lportClash k)

/-- A frame carries a READ response of a queue pair. -/
def OutFrame.respondsTo (f : OutFrame) (q : Nat) : Bool := match f.msg with | .roceReadResponse p .. => p == q | _ => false

/-- The queue pairs that p names are destroyed: they are invalid at once, and READ responses that wait are not sent (R225, R961). -/
def State.killQps (s : State) (p : Nat → Qp → Bool) : State :=
  let gone := fun n => match s.qp? n with | some q => p n q | none => false
  { s with qps := s.qps.filter fun e => !gone e.1,
           port := { s.port with held := s.port.held.filter fun f => !((s.qps.map (·.1)).any fun n => gone n && f.respondsTo n) } }

/-- Queue pairs of session slot k are destroyed (R225). -/
def State.dropQps (s : State) (k : Nat) : State := s.killQps fun _ q => q.sess == k

/-- Queue pairs of the slots that bind a key are destroyed as it is unbound (R225). -/
def State.dropKeyQps (s : State) (key : Nat) : State :=
  ((List.range 8).filter fun k => s.slotKey k == key).foldl State.dropQps s

/-- A write of SESS_CFG (R231): a key bound to two enabled slots, or a logical port that two sessions would share, is refused. -/
def State.wSessCfg (s : State) (k : Nat) (v : W32) : WRes :=
  if s.slotBusy k then .nak s nkBusy
  else
    let t := s.put (aSessCfg k) v
    if t.rb (aSessCfg k) 0
        && ((List.range 8).any (fun j => j != k && t.rb (aSessCfg j) 0 && t.slotKey j == t.slotKey k) || t.lportBad k) then
      .nak s nkConflict
    else if !t.rb (aSessCfg k) 0 || t.slotKey k != s.slotKey k then .ok (t.dropQps k).pfcSync
    else .ok t.pfcSync

/-- A field that stores 1 where 0 is written. -/
def atLeast1 (w : W32) (lo n : Nat) : W32 := if rfld w lo n = 0 then rput w lo n 1 else w

/-- A write of a register of session slot k's SESS block (R141, R231); a write of SESS_LPORT that breaks R140 alone is answered as one that
breaks R138 (log entry 138). -/
def State.wSess (s : State) (k off : Nat) (v : W32) : WRes :=
  let a := aSess k off
  if off = 0x000 then s.wSessCfg k v
  else if off = 0x008 then .ok (s.setReg a (atLeast1 (rput v 16 16 (max 1024 (min 8256 (rfld v 16 16)))) 0 16))
  else if off = 0x010 ∨ off = 0x014 then (if s.slotBusy k then .nak s nkBusy else .ok (s.put a v))
  else if off = 0x018 then
    (if s.slotBusy k then .nak s nkBusy else .ok (s.setReg a (atLeast1 (atLeast1 v 0 16) 16 16)))
  else if off = 0x040 then
    (let t := s.put a v
     if t.lportBad k then .nak s nkConflict else .ok t.pfcSync)
  else .ok (s.put a v).pfcSync

/-! The PORT block. -/

/-- PORT_CTL.CNT_CLR (R956). -/
def State.wPortCtl (s : State) (v : W32) : State := s.cntClr v 0 [aMacsecDrop, aRxUnmatched]

/-- A write of PORT_MACSEC_KSESS (R957). -/
def State.wKsess (s : State) (v : W32) : WRes :=
  if (List.range 8).any fun p => s.macsecOn p && rfld (s.mixed aKsess v) (4 * p) 3 != s.rf aKsess (4 * p) 3 then .nak s nkBusy
  else .ok (s.put aKsess v)

/-! Queue-pair commands. -/

/-- The bytes of a queue-pair record are in range (R958). -/
def qpRecordOk (b : List Byte) : Bool :=
  decide (getLe b 0x00 1 < 8) && decide (getLe b 0x01 1 < 16) && decide (getLe b 0x02 1 < 8) && decide (getLe b 0x03 1 < 8)
    && decide (getLe b 0x04 4 < 2 ^ 24) && decide (getLe b 0x08 4 < 2 ^ 24) && decide (getLe b 0x0C 4 < 2 ^ 24)
    && decide (getLe b 0x26 2 < 4096) && decide (1 ≤ getLe b 0x2A 1) && decide (getLe b 0x2A 1 ≤ 31)
    && decide (getLe b 0x2B 1 < 8) && zeroAt b 0x2C 20

/-- A session may command queue pairs of context c and session slot j (R946). -/
def State.qpRight (s : State) (w : Who) (c j : Nat) : Bool :=
  match w with
  | .sess k => s.isOwner k.val || (s.rb (aSessMask k.val) c && j == k.val)
  | _ => false

/-- CREATE (R960): a NAK reason, or none. -/
def State.createRefusal (s : State) (w : Who) (q : Nat) (b : List Byte) : Option Nat :=
  if (s.qp? q).isSome then some nkBusy
  else if !qpRecordOk b then some nkMalformed
  else if !s.rb (aSessCfg (getLe b 0 1)) 0 || !s.qpRight w (getLe b 1 1) (getLe b 0 1) then some nkPermission
  else none

/-- The queue pair that a record makes (R958). -/
def Qp.ofRecord (b : List Byte) : Qp :=
  { words := b, sess := getLe b 0 1, ctx := getLe b 1 1, sq := getLe b 8 4, rq := getLe b 0xC 4 }

/-- A session may destroy or query a queue pair; one that is not valid is open to all. -/
def State.qpMine (s : State) (w : Who) (q : Nat) : Bool :=
  match s.qp? q with
  | some x => s.qpRight w x.ctx x.sess
  | none => true

/-- The record with its present PSNs, and QP_STATUS.STATE (R962). -/
def Qp.view (x : Qp) : List Byte := putBytes (putBytes x.words 8 (natLe 4 x.sq)) 0xC (natLe 4 x.rq)

/-- QP_STATUS.STATE -/
def qpStateOf : Option Qp → Nat
  | none => 0
  | some x => if x.err then 2 else 1

/-- The session's view of the window (R962). -/
def State.setQpView (s : State) (w : Who) (l : List Nat) : State :=
  let v := s.ses (whoIdx w)
  s.setSes (whoIdx w) { v with qpView := l }

/-- QP_STATUS.RESULT of a session's latest command (R962). -/
def State.qpResult (s : State) (w : Who) (r : Nat) : State :=
  let l := (s.ses (whoIdx w)).qpView
  let full := l ++ List.replicate (18 - l.length) 0
  s.setQpView w (full.take 17 ++ [full.getD 17 0 / 2 ^ 16 * 2 ^ 16 + r])

/-- QUERY (R962). -/
def State.qpLoad (s : State) (w : Who) (q : Nat) : State :=
  let b := match s.qp? q with | some x => x.view | none => zeros 64
  s.setQpView w (q :: (unpackWords b) ++ [qpStateOf (s.qp? q) * 2 ^ 30])
where
  /-- The 32-bit words of a record. -/
  unpackWords (b : List Byte) : List Nat := (List.range 16).map fun i => getLe b (4 * i) 4

/-- What a queue-pair command does where nothing refuses it. -/
def State.qpDo (s : State) (w : Who) (op q : Nat) (b : List Byte) : State :=
  if op = 1 then { s with qps := SMap.set s.qps none q (some (Qp.ofRecord b)) }
  else if op = 2 then s.killQps fun n _ => n == q
  else s.qpLoad w q

/-- The refusal of a queue-pair command (R946, R958, R960). -/
def State.qpRefusal (s : State) (w : Who) (idx cmd : W32) (b : List Byte) : Option Nat :=
  let q := rfld idx 0 12
  if rfld cmd 0 2 = 1 ∧ (s.qp? q).isSome then some nkBusy
  else if rfld idx 12 20 ≠ 0 ∨ rfld cmd 2 30 ≠ 0 ∨ rfld cmd 0 2 = 0 then some nkMalformed
  else if rfld cmd 0 2 = 1 then s.createRefusal w q b
  else if s.qpMine w q then none
  else some nkPermission

/-- A queue-pair command: QP_IDX, the record's 64 bytes and QP_CMD in one write (R958–R962). -/
def State.qpCmd (s : State) (w : Who) (idx : W32) (b : List Byte) (cmd : W32) : WRes :=
  match s.qpRefusal w idx cmd b with
  | some r => .nak (s.qpResult w r) r
  | none => .ok ((s.qpDo w (rfld cmd 0 2) (rfld idx 0 12) b).qpResult w 0)

end Sys2Proof.Machine
end

