-- ==== Sys2Proof/Machine/Tables.lean ====
section
/-! DEFINITION. Table operations (R773–R778): SWITCH, RETIRE, QUERY and RECLAIM, and the reclamation of versions. -/

namespace Sys2Proof.Machine

/-- Some open batch pins a version. -/
def State.pinned (s : State) (t gen : Nat) : Bool := s.batches.any fun (b : Batch) => b.pins.contains (t, gen)

/-- A version serves a peer's look-up that is in flight: of its part the LAST message has not been processed (R778, R799). -/
def State.lookedUp (s : State) (t gen : Nat) : Bool := s.lookups.any fun (l : PeerLookup) => l.table == t && l.gen == gen

/-- A version that is not the newest may be reclaimed (R778). -/
def State.reclaimable (s : State) (t : Nat) (v : Version) : Bool :=
  (!v.dist || (v.marked && !s.lookedUp t v.gen)) && !s.pinned t v.gen

/-- The versions of a table that stay live once it has another newest version, or none (R776, R778). -/
def State.stayLive (s : State) (t : Nat) (x : Table) : List Version := x.versions.filter fun v => !s.reclaimable t v

/-- The highest GEN installed for a table since the last cold boot (R774). -/
def State.genTop (s : State) (t : Nat) : Nat := SMap.get s.genHigh 0 t

/-- CTX_TBL_ADDR -/
def State.tblAddr (s : State) (c : Nat) : Nat := (s.reg (aCtx c 0x080)).toNat / 64 * 64 + s.rf (aCtx c 0x084) 0 16 * 2 ^ 32

/-- A version record keeps R339, R340 and R772. -/
def State.recordValid (s : State) (t : Nat) (b : List Byte) : Bool :=
  s.tableOk (b.take 64) && decide (vrMode b ≤ 3) && decide (getLe b 0x41 1 < 2) && zeroAt b 0x58 40
    && decide (0 < vrGen b) && decide (s.genTop t < vrGen b)
    && (if vrMode b = 0 then vrGroup b == 1 && vrGlobal b == tdRows b
        else s.groupFormed && vrGroup b == s.groupSize)
    && (if vrMode b = 1 then decide (0 < vrRange b) else vrRange b == 0)

/-- An uncorrectable error met outside any task is counted and reported, and counts against its unit (R776, R879, R883). -/
def State.reportUe (s : State) (c : Option Nat) (key : Option Nat) (a : Nat) : State :=
  let p := s.place a
  let (d, s0) := s.draw
  (((s0.bump (aErr 0x114)).lifeAdd 0x7 5 1).report
    { cls := clsMemUe, origin := p.unit, reporter := p.unit, ctx := c.getD 0xFF, key := key.getD 0xFF, addr := a,
      body := natLe 8 p.offset ++ natLe 4 (Config.freeNat d) ++ zeros 4 }).noteFault p.unit

/-- An access from the network meets an uncorrectable error, which is reported (R879); a failed unit was reported as it left service. -/
def State.noteBad (s : State) (c : Nat) (key : Option Nat) : Option Bad → State
  | some (.data a) => if s.lostAt a then s else s.reportUe (some c) key a
  | _ => s

/-- The version record at CTX_TBL_ADDR cannot be read (R776): the state holds the report of an uncorrectable error. -/
def State.recordUnreadable (s : State) (c : Nat) (key : Option Nat) : Option State :=
  (s.checkAcc c (s.tblAddr c) 128 .rd).map fun b => s.noteBad c key (some b)

/-- A version is installed as the newest one, and those that no longer live are reclaimed (R777, R778). -/
def State.installVersion (s : State) (c t : Nat) (b : List Byte) : State :=
  let old := match SMap.find s.tables t with | some x => s.stayLive t x | none => []
  { s with
    tables := SMap.put s.tables t { owner := c, newest := true, versions := old ++ [{ gen := vrGen b, bytes := b }] },
    genHigh := SMap.put s.genHigh t (vrGen b) }

/-- The enable-check code that refuses a switch to a record (R776): EXACT_CONFLICT, VERSION_LIMIT or none. -/
def State.switchCode (s : State) (c t : Nat) (b : List Byte) : Nat :=
  if s.rb (aCtxCtl c) 4 && vrEager b then rcExact
  else match SMap.find s.tables t with
    | some x => if 4 ≤ (s.stayLive t x).length then rcVersions else 0
    | none => 0

/-- SWITCH (R776, R777). -/
def State.tblSwitch (s : State) (key : Option Nat) (c t : Nat) : WRes :=
  match s.recordUnreadable c key with
  | some e => .nak e nkPermission
  | none =>
    let (b, s1) := s.readTier (s.tblAddr c) 128
    if !s1.recordValid t b then .nak s1 nkMalformed
    else
      let code := s1.switchCode c t b
      let s2 := s1.answerCtx c code { source := 0x06, key := key }
      if code ≠ 0 then .nak s2 code else .ok (s2.installVersion c t b)

/-- RETIRE (R773, R775). -/
def State.tblRetire (s : State) (c t : Nat) : State :=
  match s.table? c t with
  | some x => { s with tables := SMap.put s.tables t { x with newest := false } }
  | none => s

/-- QUERY: CTX_TBL_STATUS, CTX_TBL_GEN and CTX_TBL_OLDEST (R773, R819). -/
def State.tblQuery (s : State) (c t : Nat) : State :=
  let x := (s.table? c t).getD { owner := c, newest := false, versions := [] }
  let pins := (s.batches.filter fun (b : Batch) => b.pins.any fun p => p.1 == t).length
  let dist := match x.versions.getLast? with | some v => v.dist | none => false
  let st := min x.versions.length 7 * 2 ^ 29 + (if dist then 2 ^ 28 else 0) + (if x.top.isSome then 2 ^ 27 else 0) + min pins 0xFFFF
  let gen := match x.top with | some v => v.gen | none => s.genTop t
  let oldest := match x.versions with | v :: _ => v.gen | [] => 0
  ((s.setReg (aCtx c 0x090) (BitVec.ofNat 32 st)).setReg (aCtx c 0x094) (BitVec.ofNat 32 gen)).setReg (aCtx c 0x098)
    (BitVec.ofNat 32 oldest)

/-- RECLAIM: the version of a distributed table with generation CTX_TBL_ARG is marked (R773). -/
def State.tblReclaim (s : State) (c t : Nat) : State :=
  let g := (s.reg (aCtx c 0x088)).toNat
  match s.table? c t with
  | some x =>
    { s with tables := SMap.put s.tables t { x with versions := x.versions.map fun v =>
        (if v.gen == g && v.dist then { v with marked := true } else v) } }
  | none => s

/-- The three registers hold the results of a SWITCH that has been done (R819). -/
def WRes.query (c t : Nat) : WRes → WRes
  | .ok u => .ok (u.tblQuery c t)
  | r => r

/-- A write of CTX_TBL_CMD (R773, R775): an operation that is done loads its results (R819); a RETIRE with nothing to act on changes
nothing. -/
def State.wTblCmd (s : State) (key : Option Nat) (c : Nat) (v : W32) : WRes :=
  let op := rfld v 28 4
  let t := rfld v 0 12
  let foreign := match SMap.find s.tables t with | some x => x.owner != c | none => false
  if op = 0 ∨ 4 < op then .nak s nkMalformed
  else if foreign then .nak s nkConflict
  else if op = 1 then (s.tblSwitch key c t).query c t
  else if op = 2 then (if (s.newestOf c t).isSome then .ok ((s.tblRetire c t).tblQuery c t) else .ok s)
  else if op = 3 then .ok (s.tblQuery c t)
  else .ok ((s.tblReclaim c t).tblQuery c t)

/-- A table without a version belongs to no context (R775). -/
def State.putTable (s : State) (t : Nat) (x : Table) : State :=
  { s with tables := if x.versions.isEmpty then SMap.erase s.tables t else SMap.put s.tables t x }

/-- VERSION_RECLAIM (R778): a version that is neither the newest nor pinned, and of a distributed table has been named by RECLAIM, is
reclaimed. -/
def execVersionReclaim (t : Fin 4096) (gen : Nat) (s : State) : Out :=
  if !s.works then .next s else
  match SMap.find s.tables t.val with
  | none => .next s
  | some x =>
    match x.versions.find? fun v => v.gen == gen with
    | none => .next s
    | some v =>
      if x.top = some v || !s.reclaimable t.val v then .next s
      else .next (s.putTable t.val { x with versions := x.versions.filter fun y => y.gen != gen })

end Sys2Proof.Machine
end

