-- ==== Sys2Proof/Machine/Xmss.lean ====
section
/-! DEFINITION. The signatures of R906, as NIST SP 800-208 and IETF RFC 8391 define them: verifying with XMSS-SHAKE256_20_256 and signing
with XMSSMT-SHAKE256_40/4_256, both with 32-byte hashes and Winternitz parameter 16. -/

namespace Sys2Proof.Machine

/-- A hash address (RFC 8391, section 2.5): layer, tree, type, three words that the type names, and the word that tells key from masks.
One-time keys (type 0) put there the key, the chain and the step; L-trees (1) the L-tree, the height and the index; hash trees (2) 0, the
height and the index. -/
structure HashAddr where
  layer : Nat := 0
  tree : Nat := 0
  kind : Nat := 0
  w4 : Nat := 0
  w5 : Nat := 0
  w6 : Nat := 0
  mask : Nat := 0

/-- Its 32 bytes. -/
def HashAddr.bytes (x : HashAddr) : List Byte :=
  natBe 4 x.layer ++ natBe 8 x.tree ++ natBe 4 x.kind ++ natBe 4 x.w4 ++ natBe 4 x.w5 ++ natBe 4 x.w6 ++ natBe 4 x.mask

/-- The keyed hashes of SP 800-208 by their prefix: 0 F, 1 H, 2 H_msg, 3 PRF, 4 PRF_keygen. -/
def keyedHash (pre : Nat) (key m : List Byte) : List Byte := shake256 (natBe 32 pre ++ key ++ m) 32

/-- Two strings of bytes, exclusive-or. -/
def xorBytes (a b : List Byte) : List Byte := List.zipWith (· ^^^ ·) a b

/-- The key (0) or mask (1, 2) that the public seed gives at an address. -/
def seedWord (seed : List Byte) (x : HashAddr) (n : Nat) : List Byte := keyedHash 3 seed { x with mask := n }.bytes

/-- One step of a chain. -/
def chainStep (seed : List Byte) (x : HashAddr) (v : List Byte) : List Byte :=
  keyedHash 0 (seedWord seed x 0) (xorBytes v (seedWord seed x 1))

/-- n steps of a chain from step i. -/
def chainFrom (seed : List Byte) (x : HashAddr) : Nat → Nat → List Byte → List Byte
  | 0, _, v => v
  | n + 1, i, v => chainFrom seed x n (i + 1) (chainStep seed { x with w6 := i } v)

/-- The parent of two nodes at an address. -/
def nodeHash (seed : List Byte) (x : HashAddr) (l r : List Byte) : List Byte :=
  keyedHash 1 (seedWord seed x 0) (xorBytes l (seedWord seed x 1) ++ xorBytes r (seedWord seed x 2))

/-- The base-16 digits of bytes, the high digit of each first. -/
def hexDigits (m : List Byte) : List Nat := m.flatMap fun b => [b.toNat / 16, b.toNat % 16]

/-- The 67 digits that a one-time signature signs: those of the hash and the three of their checksum. -/
def wotsDigits (m : List Byte) : List Nat :=
  let d := hexDigits m
  d ++ (hexDigits (natBe 2 ((d.map fun v => 15 - v).sum * 16))).take 3

/-- A list cut into pieces of 32 bytes. -/
def pieces32 : Nat → List Byte → List (List Byte)
  | 0, _ => []
  | n + 1, l => l.take 32 :: pieces32 n (l.drop 32)

/-- The one-time public key that a signature of a hash leads to. -/
def wotsPublic (seed : List Byte) (x : HashAddr) (sig : List (List Byte)) (m : List Byte) : List (List Byte) :=
  (sig.zip (wotsDigits m)).zipIdx.map fun e => chainFrom seed { x with w5 := e.2 } (15 - e.1.2) e.1.2 e.1.1

/-- A level of an L-tree: the last of an odd number passes as it is. -/
def ltreeLevel (seed : List Byte) (x : HashAddr) : Nat → List (List Byte) → List (List Byte)
  | i, a :: b :: t => nodeHash seed { x with w6 := i } a b :: ltreeLevel seed x (i + 1) t
  | _, l => l

/-- The root of an L-tree; the first argument bounds its levels, the second is the level. -/
def ltree (seed : List Byte) (x : HashAddr) : Nat → Nat → List (List Byte) → List Byte
  | 0, _, l => l.headD []
  | n + 1, h, l => if l.length ≤ 1 then l.headD [] else ltree seed x n (h + 1) (ltreeLevel seed { x with w5 := h } 0 l)

/-- The way from a node at height k and index i to the root of its tree, along an authentication path. -/
def climb (seed : List Byte) (x : HashAddr) : Nat → Nat → List Byte → List (List Byte) → List Byte
  | _, _, v, [] => v
  | k, i, v, a :: t =>
    let y := { x with w5 := k, w6 := i / 2 }
    climb seed x (k + 1) (i / 2) (if i % 2 = 0 then nodeHash seed y v a else nodeHash seed y a v) t

/-- The leaf of key i of a tree: the root of the L-tree over its one-time public key. -/
def leafOf (seed : List Byte) (layer tree i : Nat) (pk : List (List Byte)) : List Byte :=
  ltree seed { layer := layer, tree := tree, kind := 1, w4 := i } 7 0 pk

/-- The hash that is signed: randomiser, root and index with the message. -/
def messageHash (r root : List Byte) (idx : Nat) (msg : List Byte) : List Byte := keyedHash 2 (r ++ root ++ natBe 32 idx) msg

/-- Bytes of a signature of the vendor key (R906). -/
def fwSigLen : Nat := 2820

/-- The OID of the vendor's key set, fixed in the ROM (R907): XMSS-SHAKE256_20_256 of SP 800-208. -/
def romOid : Nat := 0x12

/-- The vendor's 68-byte public key (R906, R907): the ROM's OID, and the root and public seed of the fuses. -/
def vendorPub (f : Fuses) : List Byte := natBe 4 romOid ++ natBe 32 f.vendorRoot.toNat ++ natBe 32 f.vendorSeed.toNat

/-- A vendor signature verifies under a public key of the ROM's set (R103, R906): the root that it leads to is the key's. Its fields are the
index (4 bytes), the randomiser, 67 chain values and an authentication path of 20. -/
def xmssVerify (pub msg sig : List Byte) : Bool :=
  let root := slice pub 4 32
  let seed := slice pub 36 32
  let idx := leNat (sig.take 4).reverse
  let p := pieces32 88 (sig.drop 4)
  let m := messageHash (p.headD []) root idx msg
  let leaf := leafOf seed 0 0 idx (wotsPublic seed { w4 := idx } ((p.drop 1).take 67) m)
  pub.take 4 == natBe 4 romOid && sig.length == fwSigLen && climb seed { kind := 2 } 0 idx leaf (p.drop 68) == root

/-! The identity key. -/

/-- The secret start of a chain (SP 800-208's key generation). -/
def wotsSecret (sk seed : List Byte) (x : HashAddr) (i : Nat) : List Byte := keyedHash 4 sk (seed ++ { x with w5 := i }.bytes)

/-- The address of one-time key i of a tree. -/
def otsAddr (layer tree i : Nat) : HashAddr := { layer := layer, tree := tree, w4 := i }

/-- The one-time signature of a hash. -/
def wotsSign (sk seed : List Byte) (x : HashAddr) (m : List Byte) : List (List Byte) :=
  (wotsDigits m).zipIdx.map fun e => chainFrom seed { x with w5 := e.2 } e.1 0 (wotsSecret sk seed x e.2)

/-- The node at a height and index of a tree of the key. -/
def treeNode (sk seed : List Byte) (layer tree : Nat) : Nat → Nat → List Byte
  | 0, i => leafOf seed layer tree i ((List.range 67).map fun c =>
      chainFrom seed { otsAddr layer tree i with w5 := c } 15 0 (wotsSecret sk seed (otsAddr layer tree i) c))
  | h + 1, i => nodeHash seed { layer := layer, tree := tree, kind := 2, w5 := h, w6 := i } (treeNode sk seed layer tree h (2 * i))
      (treeNode sk seed layer tree h (2 * i + 1))

/-- The signature of a hash by key leaf of a tree: the one-time signature and the authentication path of 10. -/
def treeSign (sk seed : List Byte) (layer tree leaf : Nat) (m : List Byte) : List Byte :=
  (wotsSign sk seed (otsAddr layer tree leaf) m).flatten
    ++ (List.range 10).flatMap fun k => treeNode sk seed layer tree k (leaf / 2 ^ k ^^^ 1)

/-- The reduced signatures of the layers from a layer on: each signs the root of the tree below it. -/
def layersSign (sk seed : List Byte) : Nat → Nat → Nat → List Byte → List Byte
  | 0, _, _, _ => []
  | n + 1, layer, idx, m =>
    treeSign sk seed layer (idx / 1024) (idx % 1024) m
      ++ layersSign sk seed n (layer + 1) (idx / 1024) (treeNode sk seed layer (idx / 1024) 10 0)

/-- The OID of the identity key's set (R906): XMSSMT-SHAKE256_40/4_256 of SP 800-208. -/
def idOid : Nat := 0x2C

/-- Bytes of a signature of the identity key (R906). -/
def sigLen : Nat := 9893

/-- The root of the identity key. -/
def idRoot (k : IdKey) : List Byte := treeNode (natBe 32 k.sk.toNat) (natBe 32 k.seed.toNat) 3 0 10 0

/-- The 68-byte identity public key (R906): OID, root and public seed. -/
def idPub (k : IdKey) : List Byte := natBe 4 idOid ++ idRoot k ++ natBe 32 k.seed.toNat

/-- The identity key's signature of a message under an index (R906): the index (5 bytes), the randomiser and the four layers. -/
def idSign (k : IdKey) (idx : Nat) (msg : List Byte) : List Byte :=
  let r := keyedHash 3 (natBe 32 k.prf.toNat) (natBe 32 idx)
  natBe 5 idx ++ r ++ layersSign (natBe 32 k.sk.toNat) (natBe 32 k.seed.toNat) 4 0 idx (messageHash r (idRoot k) idx msg)

end Sys2Proof.Machine
end

