-- ==== Sys2Proof/Machine/Hello.lean ====
section
/-! DEFINITION. Opening sessions: the HELLO exchange with partners and between peers (R174–R177, R212, R786, R787, R922–R924). -/

namespace Sys2Proof.Machine

/-- n fresh bytes of the device's random source (R923). -/
def State.fresh (s : State) (n : Nat) : List Byte × State :=
  let (d, t) := s.draw
  ((List.range n).map (Config.freeByte d), t)

/-- The key slot that protects session i: SESS_CFG.KEY of a partner slot, PEER_CFG.KEY of a peer (R174, R786). -/
def State.keyNo (s : State) (i : Nat) : Nat := if i < 8 then s.slotKey i else s.rf (aPeer 0x04) 8 4

/-- The device answers HELLO in READY, RUN, MAINTENANCE and RECOVERY (R177); to a peer while its group forms or is formed
(R786; log entry 19). -/
def State.hellos (s : State) (i : Nat) : Bool :=
  if i < 8 then decide (stReady ≤ s.devState) && decide (s.devState ≤ stRecovery)
  else decide (16 ≤ i) && decide (stReady ≤ s.devState) && decide (s.devState ≤ stMaint)
    && (s.peerState == 1 || s.peerState == 2) && decide (i - 16 < s.groupSize) && decide (i - 16 ≠ s.myRank)

/-- The device HELLO with nonce nd. -/
def State.helloPayload (s : State) (nd : List Byte) : List Byte :=
  natLe 2 s.fwMajor ++ natLe 2 s.fwMinor ++ natLe 2 (s.rf aDevFwHi 0 16) ++ natLe 2 0x00A1 ++ natLe 4 s.coldEpoch
    ++ natLe 1 s.devState ++ zeros 3 ++ shake256 (idPub s.fuses.id) 32 ++ nd

/-- PROVE.TAG (R922). -/
def proveTag (k t : List Byte) : List Byte := kmac256 k t 32 "NLT9 PROVE"
/-- KEYCONFIRM.TAG (R922). -/
def confirmTag (k t prove : List Byte) : List Byte := kmac256 k (t ++ prove) 32 "NLT9 CONFIRM"
/-- K_s (R922). -/
def sessionKey (k t prove : List Byte) (session : Nat) : List Byte := kmac256 k (t ++ prove ++ natLe 4 session) 32 "NLT9 SESSION"

/-- A partner's HELLO is checked and answered (R174, R922); a refusal for a missing key is also recorded (R122, R952). -/
def State.onHello (s : State) (w : Who) (src : NetAddr) (p : List Byte) : State :=
  let i := whoIdx w
  let k := s.keyNo i
  let y : Cause := { source := 0x09, key := if i < 8 then some (getLe p 0 2 % 16) else none }
  if p.length ≠ 40 ∨ !zeroAt p 2 6 then s.nakPlain i src tyHello nkMalformed
  else if !(s.key k).present then (s.answerDev rcKey y).nakPlain i src tyHello rcKey
  else
    let s0 := s.answerDev 0 y
    if getLe p 0 2 ≠ k then s0.nakPlain i src tyHello nkAuth
    else
      let (nd, s1) := s0.fresh 32
      let d := s1.helloPayload nd
      (s1.setSes i { s1.ses i with transcript := some (p ++ d), helloSrc := src }).emitPlain i src tyHello d

/-- A new epoch, not zero and not the one before (R176): 29 bits for a partner, 24 for a peer (R170, R787). -/
def State.newEpoch (s : State) (i : Nat) : Nat × State :=
  let (d, t) := s.draw
  let n := if i < 8 then 2 ^ 29 else 2 ^ 24
  let e := Config.freeNat d % (n - 2) + 1
  (if (s.ses i).epoch ≤ e ∧ (s.ses i).epoch ≠ 0 then e + 1 else e, t)

/-- The slots of a key's result area: SESS_RSLOT.COUNT. -/
def State.rslots (s : State) (k : Nat) : Nat := s.rf (aSessRslot k) 16 16
/-- Bytes of a result slot. -/
def State.rslotSize (s : State) (k : Nat) : Nat := s.rf (aSessRslot k) 0 16 * 1024
/-- The address of the result slot of an ASN, for the key of session slot k. -/
def State.rslotAt (s : State) (k asn : Nat) : Nat :=
  (s.reg (aSess k 0x010)).toNat / 4096 * 4096 + s.rf (aSess k 0x014) 0 16 * 2 ^ 32 + asn % s.rslots k * s.rslotSize k

/-- COMMIT_SEQ = 0 in a slot, where its address reaches memory (R212, R221). -/
def State.clearSeq (s : State) (a : Nat) : State := if s.unbackedAt a || s.lostAt a then s else s.writeTier a (zeros 8)

/-- The result area of a key is cleared before its first session after a cold boot opens (R212). -/
def State.clearResults (s : State) (i : Nat) : State :=
  let k := s.keyNo i
  let v := s.key k
  if 8 ≤ i ∨ v.cleared then s
  else ((List.range (s.rslots i)).foldl (fun t n => t.clearSeq (s.rslotAt i n)) s).setKey k { v with cleared := true }

/-- PEER_STATUS.REACHED: open peer sessions and this device (R820). -/
def State.countReached (s : State) : State :=
  s.setF (aPeer 0x14) 0 9 (1 + ((List.range 256).filter fun q => (s.ses (16 + q)).isOpen).length)

/-- Sessions on a partner key, and the session of the slot itself, close before a new one opens (R175). -/
def State.closeKey (s : State) (i k : Nat) : State :=
  (List.range 8).foldl (fun t j => if j = i ∨ ((t.ses j).isOpen ∧ (t.ses j).key = k) then t.closeSession j else t) s

/-- A session opens with sequence numbers from 1 (R176); credit is the other side's first grant. A congestion echo that its logical port owes
stays due (R148). -/
def State.openSes (s : State) (i epoch : Nat) (ks : List Byte) (src : NetAddr) (credit : Nat) : State :=
  let k := s.keyNo i
  let t := (if i < 8 then s.closeKey i k else s.closeSession i)
  let u := (t.setSes i { ({} : Session) with ceEcho := (t.ses i).ceEcho, isOpen := true, key := k, epoch := epoch, ks := ks, src := src, txLimit := credit }).grant i
  if i < 8 then u.pfcSync else u.countReached

/-- KEYCONFIRM (R922): the device's tag, the state of the partner queue and the first credit. -/
def State.confirm (s : State) (i : Nat) (tag : List Byte) : State :=
  let q := s.key (s.keyNo i)
  s.emitDwp i tyKeyconfirm 2 0 (tag ++ natLe 8 q.lastIssued ++ natLe 8 q.lastCommitted ++ natLe 8 q.tokenAccepted
    ++ natLe 8 q.tokenCommitted ++ natLe 4 ((s.ses i).rxLimit - (s.ses i).rxAck) ++ zeros 4)

/-- PROVE is checked before an epoch is picked (R924); a good tag opens the session (R174–R176, R212). A refusal goes to where PROVE came
from. -/
def State.onProve (s : State) (w : Who) (src : NetAddr) (credit : Nat) (p : List Byte) : State :=
  let i := whoIdx w
  let v := s.ses i
  let key := (s.key (s.keyNo i)).key
  match v.transcript with
  | none => s.nakPlain i src tyProve nkAuth
  | some t =>
    if p.length ≠ 32 then s.nakPlain i src tyProve nkMalformed
    else if t.length ≠ 120 ∨ p ≠ proveTag key t then s.nakPlain i src tyProve nkAuth
    else
      let (e, s1) := s.newEpoch i
      let s2 := (s1.clearResults i).openSes i e (sessionKey key t p (sessionWord i s1.myRank e))
        (if i < 8 then v.helloSrc else v.src) credit
      s2.confirm i (confirmTag key t p)

/-! The partner's side, between peers (R786): this device is the lower rank. -/

/-- This device starts an exchange with a higher rank. -/
def State.helloTo (s : State) (q : Nat) : State :=
  let (np, s1) := s.fresh 32
  let p := natLe 2 (s1.keyNo (16 + q)) ++ zeros 6 ++ np
  (s1.setSes (16 + q) { s1.ses (16 + q) with transcript := some p }).emitPlain (16 + q) (s1.ses (16 + q)).src tyHello p

/-- The device HELLO of a higher rank is answered by PROVE; the transcript then holds PROVE.TAG too, and the rank's firmware version
is kept (R789). -/
def State.onPeerHello (s : State) (q : Nat) (p : List Byte) : State :=
  let i := 16 + q
  match (s.ses i).transcript with
  | none => s
  | some t =>
    if t.length ≠ 40 ∨ p.length ≠ 80 then s
    else
      let tag := proveTag (s.key (s.keyNo i)).key (t ++ p)
      let s1 := s.setSes i { s.ses i with transcript := some (t ++ p ++ tag) }
      let s2 := match s1.form with
        | some f => { s1 with form := some { f with fw := SMap.put f.fw q (getLe p 0 2, getLe p 2 2) } }
        | none => s1
      s2.emitPlain i (s2.ses i).src tyProve tag

/-- KEYCONFIRM of a higher rank opens the session at this end (R787, R922). -/
def State.onConfirm (s : State) (q session credit : Nat) (p : List Byte) : State :=
  let i := 16 + q
  match (s.ses i).transcript with
  | none => s
  | some t =>
    let key := (s.key (s.keyNo i)).key
    if t.length ≠ 152 ∨ p.length ≠ 72 ∨ session % 256 ≠ q ∨ p.take 32 ≠ confirmTag key (t.take 120) (t.drop 120) then s
    else s.openSes i (session / 256) (sessionKey key (t.take 120) (t.drop 120) session) (s.ses i).src credit

/-- A HELLO from whoever sends it: a partner, a lower rank, or the answer of a higher one. -/
def State.hello (s : State) (w : Who) (src : NetAddr) (p : List Byte) : State :=
  match w with
  | .i3c => s
  | .sess _ => s.onHello w src p
  | .peer q => if s.myRank < q then s.onPeerHello q p else s.onHello w src p

/-- HELLO from an address (R169, R174, R177): its enable check waits for the checks of messages received before it (R119). -/
def execHello (w : Who) (src : NetAddr) (p : List Byte) (s : State) : Out :=
  .next (if s.hellos (whoIdx w) && !s.checksDue && !s.port.rx.any rxHello then s.hello w src p else s)

/-- PROVE from an address (R169, R174, R924). -/
def execProve (w : Who) (src : NetAddr) (p : List Byte) (s : State) : Out :=
  .next (if s.hellos (whoIdx w) && w != .i3c then s.onProve w src 0 p else s)

end Sys2Proof.Machine
end

