-- ==== Sys2Proof/Machine/Peers.lean ====
section
/-! DEFINITION. The peer group (R786–R790, R817, R818, R820): forming it, losing a rank, dissolving it, and the peer registers. -/

namespace Sys2Proof.Machine

/-- The other ranks of the group. -/
def State.otherRanks (s : State) : List Nat := (List.range s.groupSize).filter fun q => q != s.myRank

/-- An exchange still needs rank q: the target of a SIGNAL whose DONE is due, or a rank whose reply or DONE is due. -/
def Exch.needs (x : Exch) (q : Nat) : Bool :=
  x.started && (if x.kind = 4 then !x.due.isEmpty && getLe x.op.desc 0x08 8 % 256 == q else x.due.contains q)

/-- The session with rank q is lost: tasks whose exchange needs it fail (R817), and a START_AT that waits for it is refused there
(log entry 19); its look-ups are served no further (R778). -/
def State.lostRank (s : State) (q : Nat) : State :=
  let hit := s.exch.filter fun (x : Exch) => x.needs q
  let s1 := hit.foldl (fun t (x : Exch) => t.failTask x.op.key x.op.asn stDataLost 0xFFFB) s
  { s1 with lookups := s1.lookups.filter fun (l : PeerLookup) => l.rank != q, fanouts := s1.fanouts.map fun (f : Fanout) =>
      (if f.due.any fun d => d.1 == q then
         { f with due := f.due.filter fun d => d.1 != q, refused := f.refused ++ [(q, nkState)] }
       else f) }

/-- Every peer session closes, and rounds that were not complete are discarded (R790, R818). -/
def State.closePeers (s : State) : State :=
  let s1 := (List.range 256).foldl (fun t q => if (t.ses (16 + q)).isOpen then (t.closeSession (16 + q)).lostRank q else t) s
  { s1 with rounds := [], lookups := [] }

/-- PEER_STATUS.STATE and FW_MIXED (R820). -/
def State.setPeerState (s : State) (v : Nat) (mixed : Bool) : State := (s.setF (aPeer 0x14) 30 2 v).setB (aPeer 0x14) 29 mixed

/-- PEER_TABLE -/
def State.peerTable (s : State) : Nat := (s.reg (aPeer 0x0C)).toNat / 32 * 32 + s.rf (aPeer 0x10) 0 16 * 2 ^ 32

/-- Setting PEER_CTL.FORM (R786): the address table is read through the windows of PEER_PORT.CTX, and every exchange that this device
begins starts. The write's answer follows when formation ends (R788). A table that cannot be read refuses the write (log entry 70). -/
def State.formStart (s : State) (r : Req) (msg : Bool) : WRes :=
  let n := 32 * s.groupSize
  if s.peerState = 1 ∨ s.form.isSome then .nak s nkBusy
  else match s.checkAcc (s.rf (aPeer 0x08) 0 4) s.peerTable n .rd with
    | some b => .nak (s.noteBad (s.rf (aPeer 0x08) 0 4) (s.keyOf r.who) (some b)) nkPermission
    | none =>
      let (b, s1) := s.closePeers.readTier s.peerTable n
      let s2 := ({ s1 with form := some { req := r, key := s1.keyOf r.who, msg := msg, since := s1.tick } }.setPeerState 1 false).countReached
      let s3 := s2.otherRanks.foldl (fun t q => t.setSes (16 + q) { t.ses (16 + q) with src := peerEntry (slice b (32 * q) 32) }) s2
      .pend ((s3.otherRanks.filter fun q => decide (s3.myRank < q)).foldl State.helloTo s3)

/-- An uncommitted task has a live EXCHANGE stream (R790). -/
def State.liveExchange (s : State) : Bool :=
  s.streams.any fun (e : Nat × Strm) => sdType e.2.desc == 5 && (s.task? e.2.arm.key e.2.arm.asn).isSome

/-- Setting PEER_CTL.DISSOLVE (R790). -/
def State.dissolve (s : State) : WRes :=
  if s.liveExchange then .nak s nkBusy else .ok (s.closePeers.setPeerState 0 false).countReached

/-- A write of PEER_CTL. With DISSOLVE and FORM both 1 the group is dissolved and then formed, unless either is refused, and then the write
has no effect (R121; log entry 139). -/
def State.wPeerCtl (s : State) (r : Req) (msg : Bool) (v : W32) : WRes :=
  if rbit v 1 then
    match s.dissolve with
    | .ok t =>
      if !rbit v 0 then .ok t
      else match t.formStart r msg with
        | .nak _ n => .nak s n
        | x => x
    | x => x
  else if rbit v 0 then s.formStart r msg
  else .ok s

/-- A write of a peer register (R790). -/
def State.wPeer (s : State) (r : Req) (msg : Bool) (off : Nat) (v : W32) : WRes :=
  if off = 0 then s.wPeerCtl r msg v
  else if off = 0x14 then .ok s
  else if s.peerState = 1 ∨ s.peerState = 2 then .nak s nkBusy
  else .ok (s.put (aPeer off) v)

/-- Every rank's exchange has completed. -/
def State.allReached (s : State) : Bool := s.otherRanks.all fun q => (s.ses (16 + q)).isOpen

/-- The enabled contexts that refuse a mixed group (R789). -/
def State.exactCtxs (s : State) : List Nat := (List.range 16).filter fun c => s.ctxEn c && s.rb (aCtxCtl c) 4

/-- Formation ends with every rank reached (R788, R789): the group is formed, or refused with PEER_FIRMWARE; the check's code goes to each
context that it looked at (R116, R124). mixed tells that a rank
below this device's reports another version; the higher ranks' versions came in their HELLO. -/
def State.formDone (s : State) (f : Formation) (mixed : Bool) : WRes :=
  let own := (s.fwMajor, s.fwMinor)
  let mix := mixed || f.fw.any fun (e : Nat × (Nat × Nat)) => e.2 != own
  let s1 := { s with form := none }
  let code := if mix && !s1.exactCtxs.isEmpty then rcPeerFw else 0
  let y : Cause := { source := 0x0A, key := f.key }
  let s2 := s1.exactCtxs.foldl (fun t c => t.answerCtx c code y) s1
  if code ≠ 0 then .nak (s2.setPeerState 3 true) rcPeerFw
  else .ok ((s2.setPeerState 2 mix).countReached)

/-- Formation fails 10 s after it began (R788). -/
def State.formFail (s : State) (f : Formation) : WRes :=
  let s1 := { s.passTo (f.since + 10 ^ 10) with form := none }
  .nak (if s1.peerState = 1 then s1.setPeerState 3 (s1.rb (aPeer 0x14) 29) else s1) nkState

end Sys2Proof.Machine
end

