-- ==== Sys2Proof/Machine/Trust.lean ====
section
/-! DEFINITION. The SMD's services: partner keys (R916–R920), signature indices (R912–R915), attestation (R930, R931), signed batch
roots (R855, R856), the replay journal (R844–R849), and the writes of the SEC and DET registers. -/

namespace Sys2Proof.Machine

/-! Partner keys. -/

/-- The session slot whose SESS_CFG binds a key: an open one, else an enabled one, else the lowest. -/
def State.slotOfKey (s : State) (k : Nat) : Option Nat :=
  let l := (List.range 8).filter fun j => s.slotKey j == k
  match l.find? fun j => (s.ses j).isOpen with
  | some j => some j
  | none => match l.find? fun j => s.rb (aSessCfg j) 0 with
    | some j => some j
    | none => l.head?

/-- An ASN of a key is admitted and not yet accepted. -/
def State.admittedOnly (s : State) (k n : Nat) : Bool := s.tasks.any fun t => t.key == k && t.asn == n && !t.accepted

/-- A slot's key may not change (R919); a task that is admitted only is no accepted one. -/
def State.keyBusy (s : State) (k : Nat) : Bool :=
  (s.sess.any fun (e : Nat × Session) => e.2.isOpen && e.2.key == k) || (s.tasks.any fun t => t.key == k && t.accepted)
    || (s.key k).unreleased.any fun n => !s.admittedOnly k n

/-- Tasks of a key that are admitted only go with its queue. -/
def State.dropAdmitted (s : State) (k : Nat) : State := { s with tasks := s.tasks.filter fun t => t.key != k || t.accepted }

/-- The cores whose data memories a key's tasks have written belong to no task any more: ASNs start again (R427, R920). -/
def State.disownKey (s : State) (k : Nat) : State :=
  (s.cores.filter fun e => (s.core e.1).owner.1 == k).foldl (fun t e => t.setCore e.1 { t.core e.1 with owner := (0, 0) }) s

/-- The queue of a slot after a key operation (R920). -/
def KeySlot.fresh (v : KeySlot) : KeySlot :=
  { v with lastIssued := 0, lastCommitted := 0, tokenAccepted := 0, tokenCommitted := 0, unreleased := [], genTx := [], genRx := [] }

/-- What sub-ports have seen of partners under a key slot is forgotten (R920). -/
def State.dropRx (s : State) (k : Nat) : State :=
  (List.range 8).foldl (fun t p => t.setMacsec p { t.macsec p with rx := (t.macsec p).rx.filter fun w => w.key != k }) s

/-- A slot holds a new key, or none; a sub-port that R929 silenced on it takes its next GEN under a new key and sends again (R926; log
entry 136). -/
def State.placeKey (s : State) (k : Nat) (v : KeySlot) : State :=
  let s1 := (((s.dropRx k).dropAdmitted k).disownKey k).setKey k { v.fresh with mute := if v.present then [] else v.mute }
  if !v.present then s1
  else v.mute.foldl (fun t p => if t.subUp p && t.macsecOn p && t.macsecKey p == k then t.newGen p else t) s1

/-- The bytes of SEC_KEY_W0–W7. -/
def State.keyWords (s : State) : List Byte := (List.range 8).flatMap fun i => natLe 4 (s.reg (aSec (0x010 + 4 * i))).toNat

/-- W0–W7 are cleared by every key operation (R918). -/
def State.clearKeyWords (s : State) : State := s.clearRegs (regRange (aSec 0x010) (aSec 0x02C))

/-- The pad that wraps a key in transit (R918). -/
def wrapPad (ks : List Byte) (slot seq : Nat) : List Byte := kmac256 ks (natLe 1 slot ++ natLe 8 seq) 32 "NLT9 WRAP"

/-- INSTALL (R917–R920): wrapped over DWP, in plain form over I3C. -/
def State.keyInstall (s : State) (r : Req) (slot : Nat) (owner : Bool) (w : List Byte) : WRes :=
  let i3c := r.who == .i3c
  if i3c && (s.keyMask (fun k => k.present && k.owner) != 0 || !owner) then .nak s nkPermission
  else if s.keyBusy slot then .nak s nkBusy
  else
    let k := if i3c then w else List.zipWith (· ^^^ ·) w (wrapPad (s.ses (whoIdx r.who)).ks slot r.seq)
    .ok (s.placeKey slot { s.key slot with present := true, owner := owner, key := k }).clearKeyWords

/-- ERASE (R225, R917, R919, R920): erasing the last owner key is refused as such, although its own session is open (log entry 143). -/
def State.keyErase (s : State) (slot : Nat) : WRes :=
  if s.keyMask (fun k => k.present && k.owner) = 2 ^ slot then .nak s nkConflict
  else if s.keyBusy slot then .nak s nkBusy
  else .ok ((s.placeKey slot { s.key slot with present := false, owner := false, key := [] }).dropKeyQps slot).clearKeyWords

/-- COMMIT_SEQ = 0 in the slots of a key's unreleased results (R221). -/
def State.clearSlots (s : State) (k : Nat) (l : List Nat) : State :=
  match s.slotOfKey k with
  | some j => l.foldl (fun t n => t.clearSeq (t.rslotAt j n)) s
  | none => s

/-- ERASE_ALL (R225, R917, R920). -/
def State.keyEraseAll (s : State) : WRes :=
  if s.tasks.any (·.accepted) then .nak s nkBusy
  else
    let s1 := (List.range 16).foldl (fun t k => t.clearSlots k (t.key k).unreleased) s
    let s2 := (List.range 16).foldl (fun t k =>
      t.placeKey k { t.key k with present := false, owner := false, key := [] }) s1
    .ok (((List.range 8).foldl State.closeSession s2.closePeers).killQps fun _ _ => true).countReached.pfcSync.clearKeyWords

/-- A write of SEC_KEY_CMD; group tells that one CONTROL_WR writes W0–W7 with it (R918). -/
def State.wKeyCmd (s : State) (r : Req) (group : Bool) (v : W32) : WRes :=
  let op := rfld v 30 2
  let i3c := r.who == .i3c
  let slot := rfld v 0 4
  if op = 0 then .ok s
  else if op = 3 then (if i3c then s.keyEraseAll else .nak s nkPermission)
  else if op = 2 then (if i3c then .nak s nkPermission else s.keyErase slot)
  else if !i3c && !group then .nak s nkMalformed
  else s.keyInstall r slot (rbit v 8) s.keyWords

/-! Signing. -/

/-- The first index of a new block, once MRAM holds its reservation; none where R915 applies (R912). -/
def State.reserveIndex (s : State) : Option Nat × State :=
  let n := s.smd.nextResv
  if 2 ^ 40 < n + 4096 then (none, s)
  else
    let (d, t) := s.draw
    if Config.mramFails d then (none, t)
    else (some n, { t with smd := { t.smd with nextResv := n + 4096, block := some (n + 1, n + 4096) } })

/-- A signature index is taken (R912–R914): its value, or none where R915 applies. -/
def State.takeIndex (s : State) : Option Nat × State :=
  match s.smd.block with
  | some (n, e) => if n < e then (some n, { s with smd := { s.smd with block := some (n + 1, e) } }) else s.reserveIndex
  | none => s.reserveIndex

/-- Some signing runs (R911). -/
def State.signing (s : State) : Bool := s.smd.sign.isSome || s.smd.att.isSome

/-- SEC_ATT_DST -/
def State.attDst (s : State) : Nat := (s.reg (aSec 0x060)).toNat / 64 * 64 + s.rf (aSec 0x064) 0 16 * 2 ^ 32

/-- GO of SEC_ATT_CMD (R930, R931). -/
def State.attGo (s : State) (c : Nat) : State :=
  let fail := fun (t : State) n => t.setF (aSec 0x06C) 0 16 n
  if s.signing then fail s nkBusy
  else if (s.checkAcc c s.attDst (0xC0 + sigLen) .wr).isSome then fail s nkPermission
  else match s.takeIndex with
    | (none, t) => fail t nkState
    | (some i, s1) =>
      let n := (List.range 8).flatMap fun w => natLe 4 (s.reg (aSec (0x040 + 4 * w))).toNat
      { s1 with smd := { s1.smd with att := some { dst := s.attDst, nonce := n, index := i } } }.setB (aSec 0x06C) 31 true

/-- The first 0xB0 bytes of an attestation record (R930). -/
def State.attHead (s : State) (nonce : List Byte) : List Byte :=
  natLe 4 0x3154414E ++ natLe 2 0x00A1 ++ natLe 1 (popCount 64 s.fuses.spires.toNat) ++ natLe 1 s.fuses.stackGib
    ++ natLe 2 s.fwMajor ++ natLe 2 s.fwMinor ++ natLe 2 (s.rf aDevFwHi 0 16) ++ zeros 2 ++ natLe 8 s.tick ++ natLe 4 s.coldEpoch
    ++ natLe 4 s.secStatus ++ nonce ++ (s.boot.fwDigest ++ zeros 32).take 32 ++ idPub s.fuses.id ++ zeros 12

/-- ATTESTATION_COMPLETE (R931): the record is written and SEC_ATT_STATUS reports it. -/
def execAttestationComplete (s : State) : Out :=
  match s.smd.att with
  | none => .next s
  | some j =>
    let h := s.attHead j.nonce
    let rec1 := h ++ natLe 4 sigLen ++ zeros 12 ++ idSign s.fuses.id j.index h
    .next (({ s with smd := { s.smd with att := none } }.writeTier j.dst rec1).setReg (aSec 0x06C) 0)

/-- DET_SIGN_DST -/
def State.signDst (s : State) : Nat := (s.reg (aDet 0x14C)).toNat / 64 * 64 + s.rf (aDet 0x150) 0 16 * 2 ^ 32

/-- Why a range of results cannot be signed (R856): a NAK reason, or 0. -/
def State.signRefusal (s : State) (k asn count : Nat) : Nat :=
  let l := (List.range count).map (asn + ·)
  if count = 0 ∨ 65536 < count then nkMalformed
  else if l.any fun n => (s.task? k n).isSome then nkNotReady
  else if l.any fun n => !(s.key k).unreleased.contains n then nkNoResult
  else 0

/-- GO of DET_SIGN_CMD (R855, R856). -/
def State.signGo (s : State) (k c : Nat) : State :=
  let fail := fun (t : State) n => t.setF (aDet 0x158) 0 16 n
  let asn := s.pair (aDet 0x140)
  let count := s.rf (aDet 0x148) 0 17
  if s.signing then fail s nkBusy
  else if s.signRefusal k asn count ≠ 0 then fail s (s.signRefusal k asn count)
  else if (s.checkAcc c s.signDst (0x40 + sigLen) .wr).isSome then fail s nkPermission
  else match s.takeIndex with
    | (none, t) => fail t nkState
    | (some i, s1) =>
      let j : SignJob := { key := k, ctx := c, asn := asn, count := count, dst := s.signDst, index := i }
      { s1 with smd := { s1.smd with sign := some j } }.setB (aDet 0x158) 31 true

/-- The pairs of one level of the tree (R363, R855): the last of an odd number passes as it is. -/
def pairUp : List (List Byte) → List (List Byte)
  | a :: b :: t => shake256 ((1 : Byte) :: a ++ b) 32 :: pairUp t
  | l => l

/-- The root of the tree over leaves. -/
def treeRoot : Nat → List (List Byte) → List Byte
  | 0, l => l.headD []
  | n + 1, l => match l with
    | [a] => a
    | _ => treeRoot n (pairUp l)

/-- The leaves over the DIGEST fields of n slots from an ASN on, read as every access of a tier is (R33, R855). -/
def State.readLeaves (s : State) (k asn : Nat) : Nat → List (List Byte) × State
  | 0 => ([], s)
  | n + 1 =>
    let (l, s1) := State.readLeaves s k asn n
    let (b, s2) := s1.readTier (s1.rslotAt k (asn + n) + 0x20) 32
    (l ++ [shake256 ((0 : Byte) :: b) 32], s2)

/-- BATCH_ROOT_SIGN_COMPLETE (R855, R856): the root over the slots' DIGEST fields is signed and the record written. A range that is no
longer whole fails as at GO. -/
def execBatchRootSignComplete (s : State) : Out :=
  match s.smd.sign with
  | none => .next s
  | some j =>
    let s0 := { s with smd := { s.smd with sign := none } }
    let bad := s.signRefusal j.key j.asn j.count
    match s.slotOfKey j.key with
    | none => .next (s0.setReg (aDet 0x158) (BitVec.ofNat 32 nkNoResult))
    | some k =>
      if bad ≠ 0 then .next (s0.setReg (aDet 0x158) (BitVec.ofNat 32 bad))
      else
        let (leaves, s1) := s0.readLeaves k j.asn j.count
        let root := treeRoot 17 leaves
        let h := natLe 8 j.asn ++ natLe 4 j.count ++ natLe 1 j.key ++ zeros 3 ++ natLe 8 s.tick ++ root ++ natLe 4 sigLen ++ zeros 4
        .next ((s1.writeTier j.dst (h ++ idSign s.fuses.id j.index h)).setReg (aDet 0x158) 0)

/-! The replay journal. -/

/-- Two records of a ring of len bytes share a byte of it. -/
def ringMeets (len : Nat) (a b : RplRec) : Bool :=
  overlaps a.off a.size b.off b.size || overlaps (a.off + len) a.size b.off b.size || overlaps a.off a.size (b.off + len) b.size

/-- A replay record is written, where the journal is on (R844, R845), over the oldest records of a full ring (R846): data is what DIGEST covers, and stands in the body with FULL. -/
def State.record (s : State) (kind key ctx ref : Nat) (data : Option (List Byte)) (body : List Byte) : State :=
  if !s.rb (aDet 0x100) 1 then s
  else
    let full := data.isNone || s.rb (aDet 0x100) 2
    let n := s.pair (aDet 0x110) + 1
    let len := s.ringAt.2
    let r : RplRec := { rseq := n, off := s.replay.place % len, tick := s.tick, kind := kind, full := full, key := key, ctx := ctx, ref := ref,
                        digest := match data with | some d => shake256 d 32 | none => zeros 32,
                        body := body ++ (if full then data.getD [] else []) }
    let ring := (s.replay.ring.filter fun x => !ringMeets len x r) ++ [r]
    let s1 := { s with replay := { s.replay with ring := ring, place := (r.off + r.size) % len } }
    (s1.setPair (aDet 0x110) n).setPair (aDet 0x118) (match ring with | h :: _ => h.rseq | [] => n)

/-- KEY of a record: a partner's key, or 0xFF for a peer (R844). -/
def State.recKey (s : State) (w : Who) : Nat := (s.keyOf w).getD 0xFF

/-- A replay runs: records are being fed, or data is awaited (R849–R852). -/
def State.replaying (s : State) : Bool := s.rf (aDet 0x12C) 28 4 == 1 || s.rf (aDet 0x12C) 28 4 == 2

/-- DET_RPL_STATUS.STATE -/
def State.setRpl (s : State) (v : Nat) : State := s.setReg (aDet 0x12C) (BitVec.ofNat 32 (v * 2 ^ 28))

/-- DET_RPL_CMD START (R849). -/
def State.replayStart (s : State) : WRes :=
  if s.devState ≠ stRun ∨ !s.tasks.isEmpty then .nak s nkBusy
  else
    let first := s.pair (aDet 0x120)
    let head := s.pair (aDet 0x110)
    if !(s.replay.ring.any fun r => r.rseq == first) then .ok (s.setRpl (if head < first then 3 else 5))
    else .ok ({ s with replay := { s.replay with next := first, stop := head, asns := [] } }.setRpl 1)

/-- A write of DET_RPL_CMD (R857). -/
def State.wRplCmd (s : State) (v : W32) : WRes :=
  if rfld v 0 2 = 1 then s.replayStart
  else if rfld v 0 2 = 2 && s.replaying then .ok (s.setRpl 6)
  else .ok s

/-- A write of a DET register (R848, R857). -/
def State.wDet (s : State) (off : Nat) (v : W32) : WRes :=
  if off = 0x100 then .ok ((s.put (aDet off) v).cntClr v 0 [aDet 0x104])
  else if off = 0x108 then
    (if s.rb (aDet 0x100) 1 then .nak s nkBusy
     else if rfld v 0 16 = 0 ∨ s.rf aMemGrsv 0 16 < rfld v 0 16 + 2 then .nak s nkMalformed
     else .ok (s.put (aDet off) v))
  else if off = 0x128 then s.wRplCmd v
  else if off = 0x154 then
    (let s1 := s.setReg (aDet off) (v &&& 0xFF)
     .ok (if rbit v 31 then s1.signGo (rfld v 4 4) (rfld v 0 4) else s1))
  else .ok (s.put (aDet off) v)

/-- A write of a SEC register (R917, R930). -/
def State.wSec (s : State) (r : Req) (group : Bool) (off : Nat) (v : W32) : WRes :=
  if 0x010 ≤ off ∧ off ≤ 0x02C then .ok (s.setReg (aSec off) v)
  else if off = 0x030 then s.wKeyCmd r group v
  else if off = 0x068 then
    (let s1 := s.setReg (aSec off) (v &&& 0xF)
     .ok (if rbit v 31 then s1.attGo (rfld v 0 4) else s1))
  else .ok (s.put (aSec off) v)

end Sys2Proof.Machine
end

