-- ==== Sys2Proof/Machine/Reset.lean ====
section
/-! DEFINITION. Pins, resets, the boot sequence and the power manager (chapters "Package, supplies and pace" and "Bring-up,
firmware and the enable check"), the TAP (R932–R934), and context and Spire resets (R92–R95). -/

namespace Sys2Proof.Machine

/-! Lifetime counts. -/

/-- The counts added so far are written to MRAM (R899). -/
def State.lifeFlush (s : State) : State :=
  let m := s.smd.lifeNew.foldl (fun m (e : Nat × Nat) => SMap.set m 0 e.1 (min (SMap.get m 0 e.1 + e.2) (2 ^ 64 - 1))) s.smd.life
  { s with smd := { s.smd with life := m, lifeNew := [] } }.lifeAdd 0x7 9 1

/-- A cold boot is counted at once, since COLD_EPOCH follows it (R901). -/
def State.countColdBoot (s : State) : State :=
  let k := 65536 * 7 + 2
  { s with smd := { s.smd with lifeNew := SMap.set s.smd.lifeNew 0 k (SMap.get s.smd.lifeNew 0 k + 1) } }

/-! Resets. -/

/-- The PTP servo without a lock: what it measured last stands (R88, R158). -/
def Ptp.unlocked (p : Ptp) : Ptp := { p with good := 0, missed := 0 }

/-- A key slot after a cold reset (R88, R211, R212): LAST_ISSUED equals LAST_COMMITTED, and nothing is unreleased. -/
def KeySlot.cold (v : KeySlot) : KeySlot :=
  { v with lastIssued := v.lastCommitted, tokenAccepted := v.tokenCommitted, unreleased := [], cleared := false }

/-- What the SMD's MRAM, the fuses and the board keep without any other supply (R88, R916): a state with everything else as
after a cold reset, and the tiers' contents lost. The power manager starts again from 720 mV, the level at which a regulator powers up
(R50); the manual gives no setpoint for a cold reset that keeps the rails up (log entry 117). -/
def State.powerDown (s : State) : State :=
  let s1 := s.scramble 0 storeBase
  let d := { State.reset with
    pending := s.pending, tick := s.tick, fuses := s.fuses, flash := s.flash, tx := s.tx,
    draws := s1.draws, mem := ({ cells := [], scr := s1.mem.scr } : Mem).clearRange storeBase (storeBase + 2 ^ 29),
    pins := { s.pins with ethTx := false, ddrResetN := false, nearSelfRefresh := false, glacierSelfRefresh := false },
    keys := s.keys, smd := { s.smd with block := none, sign := none, att := none }, i3cSamples := s.i3cSamples,
    port := { ({} : Port) with refclkLost := s.port.refclkLost },
    boot := { ({} : Boot) with flashFound := s.boot.flashFound, flashQuad := s.boot.flashQuad, tripped := s.boot.tripped } }
  (List.range 16).foldl (fun t k => t.setKey k (t.key k).cold) d

/-- A cold reset (R81, R88): LAST_RESET takes its source, STATE is RESET. -/
def State.coldReset (s : State) (source : Nat) : State := s.powerDown.setF aDevStatus 12 4 source

/-- RECOVERY is entered (R108, R109): the cause is kept, and P0 alone trains, at its full width. -/
def State.enterRecovery (s : State) (cause : Nat) : State :=
  let s1 := ((s.setDevState stRecovery).setF aDevStatus 8 4 cause).setReg aPortStatus (s.reg aPortStatus &&& 0x0000FFFF)
  { s1 with pins := { s1.pins with ethTx := true },
            port := { s1.port with training := [(0, true)], lanes := SMap.erase s1.port.lanes 8, pauses := [], xoff := [], held := [] } }

/-- The ROM starts, where nothing holds the device in reset (R104) and no thermal trip has halted it (R76): a cold boot is counted, the
Dome cache is run as plain SRAM (R101), and without a flash the device enters RECOVERY (R108). -/
def State.startBoot (s : State) : State :=
  if s.devState != stReset || !s.pins.pwrGood || !s.pins.resetN || s.pins.tapHold || s.boot.warmEntry then s
  else
    let s0 := if s.boot.cold then s.countColdBoot else s
    let s1 := { s0 with dome := { s0.dome with stage := some [] } }
    if s.boot.flashFound then s1.setDevState stBoot else s1.enterRecovery 0x1

/-- The link goes down with a reset (R163, R88): sub-ports, lanes and both locks are lost, every pause of either side lapses, and what
waited to leave or to be taken up is lost. The PTP offset last measured stands (R158). -/
def State.dropLink (s : State) : State :=
  let s1 := s.setReg aPortStatus (s.reg aPortStatus &&& 0x0000FF00)
  { s1 with
    pins := { s1.pins with ethTx := false }, ptp := s1.ptp.unlocked,
    port := { s1.port with training := [], macsec := [], pauses := [], xoff := [], held := [], rx := [] } }

/-- Work in the units ends without a trace in memory: cores, engines, streams, waiters and ready lists are empty, and their memories
and the sync counters are cleared (R88). -/
def State.clearUnits (s : State) : State :=
  { s with
    cores := [], icache := [], dmem := {}, mem := s.mem.clearRange storeBase (storeBase + 2 ^ 29), ctrs := [], clrDue := 0, waiters := [],
    poolHeld := [], ready := [], qos := {}, ops := [], served := [], streams := [], reqs := [], arr := [], scales := {},
    gscales := {}, batches := [], exch := [], rounds := [], lookups := [], form := none, starts := [], fanouts := [], tests := [] }.updateBp

/-- Every session closes (R88); a peer group no longer stands. -/
def State.closeAll (s : State) : State :=
  let s1 := (s.sess.map (·.1)).foldl State.closeSession s
  (s1.setPeerState 0 false).setF (aPeer 0x14) 0 9 0

/-- Signing, attestation and the feeding of replay records do not outlast a reset. -/
def State.dropJobs (s : State) : State :=
  let s1 := ({ s with smd := { s.smd with sign := none, att := none } }.setB (aDet 0x158) 31 false).setB (aSec 0x06C) 31 false
  (if s1.replaying then s1.setRpl 0 else s1).setB (aErr 0x01C) 31 false

/-- Entry to a warm reset (R85, R87): messages stop, sessions close, RUN and every EN are remembered (R107), the units are cleared
(R88) and the warm-entry steps begin. MAINT and the cause of an earlier RECOVERY stay (log entry 119), and a maintenance operation of
the Dome cache is overtaken by the invalidation to come. Before the training of a cold boot it is a cold reset instead. -/
def State.warmReset (s : State) (source : Nat) : State :=
  if s.boot.cold && !s.boot.trained then (s.coldReset 0x9).startBoot
  else
    let en := (List.range 16).foldl (fun n c => if s.ctxEn c then n ||| 2 ^ c else n) 0
    let s1 := (((s.lifeAdd 0x7 3 1).lifeFlush.dropLink).setF aDevStatus 12 4 source).setDevState stReset
    let s2 := (List.range 16).foldl (fun t c => t.setB (aCtxCtl c) 0 false) s1
    let s3 := ((s2.setB aDevCtl 0 false).closeAll.clearUnits.dropJobs.setReg aDevFwLo 0).setReg aDevFwHi 0
    { s3.setB aDomeStatus 2 false with
      loads := [], rgnChange := none,
      boot := { ({} : Boot) with
        cold := false, warmEntry := true, trained := false, flashFound := s.boot.flashFound,
        flashQuad := s.boot.flashQuad, savedRun := s.rb aDevCtl 0 || s.boot.savedRun,
        savedEn := en ||| s.boot.savedEn, popOk := s.boot.popOk, dimms := s.boot.dimms } }

/-- VAUX comes up (R89, R44): ticks start at 0, the fuses are sensed as they were made (R5) and the straps sampled; MRAM and flash hold
what they held. -/
def execVauxRise (straps : BitVec 2) (s : State) : Out :=
  if s.pins.vaux then .next s
  else
    let d := s.powerDown
    .next ({ d with
      tick := 0,
      pins := { ({} : Pins) with vaux := true, pwrGood := false, straps := straps } }.lifeAdd 0x7 1 1)

/-- VAUX is removed (R89, R73, R899): the tick counter, the THERM_TRIP_N latch and lifetime counts not yet in MRAM are
lost. -/
def execVauxLoss (s : State) : Out :=
  if !s.pins.vaux then .next s
  else
    let d := s.powerDown
    .next { d with
      tick := 0, pins := { ({} : Pins) with vaux := false, pwrGood := false },
      boot := { d.boot with tripped := false }, smd := { d.smd with lifeNew := [], lifeSec := [] } }

/-- PWR_GOOD rises (R81, R73, R114): a cold reset, and a thermal trip's latch is released once PWR_GOOD has fallen since the trip. A
trip that came while PWR_GOOD was low still stands: the device is HALTED (R76; log entry 121). The board holds DEV_RESET_N low (R53). -/
def execPwrGoodRise (s : State) : Out :=
  if !s.pins.vaux || s.pins.pwrGood then .next s
  else
    let c := s.coldReset (if s.boot.tripped then 0x8 else 0x0)
    let d := { c with pins := { c.pins with pwrGood := true, resetN := false } }
    .next (if s.pins.thermTrip && !s.pins.tripFell then d.setDevState stHalted
      else { d with pins := { d.pins with thermTrip := false, tripFell := false }, boot := { d.boot with tripped := false } })

/-- PWR_GOOD falls (R55): the device stops at once and stays in reset (R54). -/
def execPwrGoodFall (s : State) : Out :=
  if !s.pins.pwrGood then .next s
  else
    let c := s.lifeFlush.powerDown
    .next { c with pins := { c.pins with pwrGood := false, resetN := false, tripFell := s.pins.thermTrip, tapHold := false,
                                         tap := .testLogicReset } }

/-- DEV_RESET_N falls (R82): a warm reset, unless the pulse is shorter than 1 µs; ignored while PWR_GOOD is low (R54), and
after a thermal trip only the pin changes (R76). -/
def execDevResetNFall (short : Bool) (s : State) : Out :=
  if short || !s.pins.pwrGood || !s.pins.resetN then .next s
  else
    let p := { s with pins := { s.pins with resetN := false } }
    if p.devState = stHalted then .next p
    else
      let w := p.warmReset 0x3
      .next { w with boot := { w.boot with warmByPin := true } }

/-- DEV_RESET_N is still low 20 ms after its fall: the warm reset becomes a cold one (R83). -/
def execDevResetNLongHold (s : State) : Out :=
  if s.pins.pwrGood && !s.pins.resetN && s.boot.warmByPin && s.devState != stHalted then .next (s.coldReset 0x1)
  else .next s

/-- DEV_RESET_N rises (R104, R100): the ROM discovers the flash and the boot begins. -/
def execDevResetNRise (probe : FlashProbe) (s : State) : Out :=
  if !s.pins.pwrGood || s.pins.resetN then .next s
  else
    let p := { s with pins := { s.pins with resetN := true },
                      boot := { s.boot with flashFound := probe.found, flashQuad := probe.quad, warmByPin := false } }
    if p.devState = stReset then .next p.startBoot else .next p

/-- The warm-entry steps end (R87, R105): every dirty line has been written back, both tiers are in self-refresh, and the warm boot
begins. -/
def execWarmEntryComplete (s : State) : Out :=
  if !s.boot.warmEntry then .next s
  else
    let f := s.settleAll fun _ => true
    let c := f.evictAll (f.dome.lines.map (·.1))
    let u := { c with dome := { ({} : Dome) with served := c.dome.served } }
    .next { u with
      pins := { u.pins with nearSelfRefresh := true, glacierSelfRefresh := true },
      boot := { u.boot with warmEntry := false } }.startBoot

/-- REFCLK is lost (R47): the timebase changes to the SMD's oscillator and the event is reported. -/
def execRefclkLoss (s : State) : Out :=
  if s.port.refclkLost then .next s
  else .next ({ s with port := { s.port with refclkLost := true } }.report
    { cls := clsTimebase, origin := 0x0595, reporter := 0x0595 })

/-- REFCLK returns (R954): the tick leaves holdover. -/
def execRefclkRestore (s : State) : Out := .next { s with port := { s.port with refclkLost := false } }

/-! The power manager and the fast guards. -/

/-- A quadrant's throttle gap: the larger of the power manager's and the fast guard's (R62, R64). -/
def State.gap (s : State) (q : Nat) : Nat :=
  max (max s.power.commonGap (SMap.get s.power.hotGap 0 q)) (SMap.get s.power.guardGap 0 q)

/-- A quadrant's VCORE setpoint in mV; it powers up at 720 (R50). -/
def State.setpoint (s : State) (q : Nat) : Nat := SMap.get s.power.setpoint 720 q

/-- PWR_STATUS.THROTTLE follows the gaps (R67). -/
def State.throttleBit (s : State) : State := s.setB aPwrStatus 31 ((List.range 4).any fun q => decide (0 < s.gap q))

/-- The common setpoint and common gap after a pass (R62): p is the package power in W. -/
def commonPass (p limit vmin vmax common gap : Nat) : Nat × Nat :=
  let c := min (max common vmin) vmax
  if limit < p then (if vmin < c then (c - 5, gap) else (c, min (gap + 1) 63))
  else if p + 30 < limit then
    (if 0 < gap then (c, gap - 1) else if c < vmax then (c + 5, gap) else (c, gap))
  else (c, gap)

/-- One quadrant's setpoint and hot gap after a pass (R62). -/
def quadPass (tj : Int) (vmin common sp gap : Nat) : Nat × Nat :=
  let r :=
    if 90 < tj then (if vmin < sp then (max vmin (sp - 5), gap) else (sp, min (gap + 1) 63))
    else if 0 < gap then (sp, gap - 1)
    else if sp < common then (sp + 5, gap)
    else (sp, gap)
  (max vmin (min r.1 common), r.2)

/-- PWR_STATUS.AT_FLOOR follows the setpoints and VMIN, where the SMD firmware holds the setpoints (R67). -/
def State.floorBit (s : State) : State :=
  s.setB aPwrStatus 30 ((List.range 4).all fun q => s.setpoint q == 5 * s.rf aPwrCtl 0 8)

/-- The rows of R57: VCORE in mV and pace in M steps/s at 75 °C. -/
def paceRows : List (Nat × Nat) :=
  [(550, 950), (600, 1110), (650, 1270), (720, 1500), (750, 1580), (800, 1720), (850, 1850)]

/-- Pace at 75 °C along the rows from (v0, p0) on, linear in VCORE between two rows (R57). -/
def paceAlong (v v0 p0 : Nat) : List (Nat × Nat) → Rat
  | [] => p0
  | (v1, p1) :: t => if v ≤ v1 then p0 + (p1 - p0 : Rat) * (v - v0) / (v1 - v0) else paceAlong v v1 p1 t

/-- A quadrant's pace in M steps/s at its setpoint in mV and its junction temperature (R57, R58); the fraction is dropped (log entry
122). -/
def paceOf (mv : Nat) (tj : Int) : Nat :=
  (paceAlong mv 550 950 paceRows.tail * (1 - 8 / 10000 * (tj - 75 : Rat))).floor.toNat

/-- A quadrant's part of a pass: setpoint, gap and AVSBus write (R59, R62). -/
def State.quadStep (s : State) (q : Nat) (tj : Int) (vmin : Nat) : State :=
  let (sp, hg) := quadPass tj vmin s.power.common (s.setpoint q) (SMap.get s.power.hotGap 0 q)
  { s with power := { s.power with
    setpoint := SMap.set s.power.setpoint 720 q sp, hotGap := SMap.set s.power.hotGap 0 q hg,
    avs := s.power.avs ++ [(q, sp)] } }

/-- A quadrant's live fields of PACE_Qq: junction temperature, setpoint and pace (R68). -/
def State.quadLive (s : State) (q : Nat) (tj : Int) : State :=
  let sp := s.setpoint q
  s.setReg (aPace q) (BitVec.ofNat 32 (wrapInt 8 tj * 2 ^ 24 + sp / 5 % 256 * 2 ^ 16 + paceOf sp tj % 2 ^ 16))

/-- The live fields of every quadrant and PWR_STATUS.PKG_W (R67, R68). -/
def State.livePower (s : State) (smp : PowerSample) : State :=
  ((((s.quadLive 0 smp.tj0).quadLive 1 smp.tj1).quadLive 2 smp.tj2).quadLive 3 smp.tj3).setF aPwrStatus 0 16 smp.pkgW

/-- One pass of the power manager (R60–R62, R67, R68). In BOOT and RECOVERY no firmware runs (R951): the pass only measures, so that
the live fields hold their first measurement within 100,000 ticks of the release of reset (R68). -/
def execPowerManagerPass (smp : PowerSample) (s : State) : Out :=
  if s.devState = stReset || s.devState = stHalted then .next s
  else if !s.fwRuns then .next (s.livePower smp)
  else
    let vmin := 5 * s.rf aPwrCtl 0 8
    let vmax := 5 * s.rf aPwrCtl 8 8
    let (c, g) := commonPass smp.pkgW (s.rf aPwrLimit 0 16) vmin vmax s.power.common s.power.commonGap
    let s0 := { s with power := { s.power with common := c, commonGap := g } }
    let s1 := (((s0.quadStep 0 smp.tj0 vmin).quadStep 1 smp.tj1 vmin).quadStep 2 smp.tj2 vmin).quadStep 3 smp.tj3 vmin
    let s2 := s1.livePower smp
    let s4 := s2.floorBit.setB aPwrStatus 29 (decide (90 < smp.tj0) || decide (90 < smp.tj1) || decide (90 < smp.tj2)
      || decide (90 < smp.tj3))
    .next s4.throttleBit

/-- A quadrant's current estimate exceeds 400 A (R63): the guard gaps its array issue. -/
def execFastGuardTrip (q : Fin 4) (amps : Nat) (gap : Nat) (s : State) : Out :=
  if amps ≤ 400 then .next s
  else .next ({ s with power := { s.power with
    guardGap := SMap.set s.power.guardGap 0 q.val (min (max gap 1) 63) } }.throttleBit)

/-- The estimate falls below 380 A (R63): the guard releases its gap. -/
def execFastGuardRelease (q : Fin 4) (amps : Nat) (s : State) : Out :=
  if 380 ≤ amps then .next s
  else .next ({ s with power := { s.power with guardGap := SMap.erase s.power.guardGap q.val } }.throttleBit)

/-- A junction crosses 95 °C (R70): the causes of ALERT_N change, and an excess is reported as THERMAL. -/
def execJunctionOverLimit (unit : Nat) (hot : Bool) (s : State) : Out :=
  let rest := s.pins.overLimit.filter (· != unit)
  if hot then
    .next ({ s with pins := { s.pins with overLimit := unit :: rest } }.report
      { cls := clsThermal, origin := unit, reporter := unit })
  else .next { s with pins := { s.pins with overLimit := rest } }

/-- A sensor reaches 110 °C (R71, R72, R75): THERM_TRIP_N is latched, with or without the main rails (R77). With them every island
holds as it stands (State.works), STATE is HALTED, Ethernet falls silent, so that every session ends, and the glacier tier goes into self-refresh if VDDQ_DDR is good; without
them the device is in RESET already. -/
def execThermalTrip (unit : Nat) (vddqGood : Bool) (s : State) : Out :=
  if !s.pins.vaux || s.pins.thermTrip then .next s
  else
    let c := s.lifeAdd 0x7 4 1
    let t := { c with pins := { c.pins with thermTrip := true, tripFell := false, overLimit := unit :: c.pins.overLimit },
                      boot := { c.boot with tripped := true } }
    if !s.pins.pwrGood then .next t.lifeFlush
    else
      let h := t.lifeFlush.dropLink.closeAll.dropJobs.setDevState stHalted
      .next { h with
        pins := { h.pins with glacierSelfRefresh := vddqGood || h.pins.glacierSelfRefresh },
        boot := { h.boot with warmEntry := false, updOwner := none } }

/-! The boot sequence. -/

/-- What the ROM stages (R101, R102): the image in flash, or its header alone where its length does not fit in 48 MiB. -/
def State.flashImage (s : State) : List Byte :=
  let len := getLe (Mem.readN s.flash 0 4096) 0x10 8
  Mem.readN s.flash 0 (if 48 * 2 ^ 20 < 0x1000 + len + fwSigLen then 4096 else 0x1000 + len + fwSigLen)

/-- The check of a staged image (R102, R103, R907): the cause code of the first condition that fails, or 0. -/
def imageCause (f : Fuses) (img : List Byte) : Nat :=
  let h := slice img 0 4096
  let len := getLe h 0x10 8
  if getLe h 0 4 ≠ 0x57464C4E ∨ getLe h 4 4 ≠ 1 ∨ ¬ zeroAt h 0x18 8 ∨ ¬ zeroAt h 0x40 4032 then 0x2
  else if 48 * 2 ^ 20 < 0x1000 + len + fwSigLen ∨ 0x00A1 < getLe h 0x0E 2 then 0x3
  else if !xmssVerify (vendorPub f) h (slice img (0x1000 + len) fwSigLen) then 0x4
  else if shake256 (slice img 0x1000 len) 32 ≠ slice h 0x20 32 then 0x5
  else 0

/-- The firmware of a staged image starts (R104, R162, R105): STATE is TRAINING, its version is shown, the Dome cache is no longer plain
SRAM, link training begins, and on a warm boot both tiers leave self-refresh. The DIMMs leave reset now (log entry 120). -/
def State.firmwareStart (s : State) (img : List Byte) : State :=
  let h := slice img 0 0x40
  let s1 := ((s.setReg aDevFwLo (BitVec.ofNat 32 (getLe h 8 2 * 2 ^ 16 + getLe h 10 2))).setReg aDevFwHi
    (BitVec.ofNat 32 (getLe h 12 2))).setDevState stTraining
  { s1 with
    pins := { s1.pins with ethTx := true, ddrResetN := true, nearSelfRefresh := false, glacierSelfRefresh := false },
    port := { s1.port with training := (subports s1.split).map fun p => (p, true) },
    smd := { s1.smd with block := none },
    dome := { s1.dome with stage := none },
    boot := { s1.boot with fwStart := s1.tick, fwDigest := slice h 0x20 32 } }

/-- The image is staged in the Dome cache and verified (R101–R103): the firmware starts, or the device enters RECOVERY (R108). -/
def execImageStagingComplete (s : State) : Out :=
  if s.devState ≠ stBoot then .next s
  else
    let img := s.flashImage
    let t := { s with dome := { s.dome with stage := some img } }
    let c := imageCause s.fuses img
    .next (if c = 0 then t.firmwareStart img else t.enterRecovery c)

/-- The firmware fails to reach TRAINING within 200 ms of starting (R108). -/
def execTrainingTimeout (s : State) : Out :=
  if s.devState = stBoot then .next (s.enterRecovery 0x6) else .next s

/-- The SMD firmware watchdog sees no service for 1 s (R84). -/
def execWatchdogExpiry (s : State) : Out := if s.fwRuns then .next (s.warmReset 0x5) else .next s

/-- The glacier-tier mode that the populated channels' DIMMs match: its MODE code, or 0 (R249). Their speed is the data rate of the mode's row
(log entry 159). -/
def popMode (chans : List (Nat × DimmPop)) : Nat :=
  match chans with
  | [] => 0
  | (_, d) :: _ =>
    let alike := chans.all fun e => e.2 == d && e.2.uniform
    let both := (chans.any fun e => decide (e.1 < 8)) && (chans.any fun e => decide (8 ≤ e.1))
    if !alike || !both || d.gib < 32 || 256 < d.gib then 0
    else if d.mrdimm then (if d.count = 1 && d.mts = 8800 then 1 else 0)
    else if d.mts ≠ 6400 then 0
    else if d.count = 1 then 2
    else if d.count = 2 then 3
    else 0

/-- The lowest set bit of a mask within [lo, hi); d where there is none (for the journal's channels: log entry 160). -/
def lowestIn (mask lo hi d : Nat) : Nat :=
  ((List.range 64).find? fun i => decide (lo ≤ i) && decide (i < hi) && mask.testBit i).getD d

/-- What training of a cold boot settles (R106, R239, R249–R254, R260, R204): the mode follows from every populated channel, the tiers are
formed from what trained, and a stack or populated channel that failed leaves service (R883, R884; log entry 124). -/
def State.trainCold (s : State) (tr : Training) : State :=
  let present8 := tr.stackOk.toNat
  let ns := popCount 8 present8
  let pop := (List.range 16).filterMap fun i =>
    match tr.dimms[i]? with
    | some d => if 0 < d.count then some (i, d) else none
    | none => none
  let chans := (pop.map (·.1)).filter fun i => tr.chanOk.getLsbD i
  let failed := ((List.range 8).filter fun i => !tr.stackOk.getLsbD i)
    ++ ((pop.map (·.1)).filter fun i => !tr.chanOk.getLsbD i).map (8 + ·)
  let present := chans.foldl (fun n i => n ||| 2 ^ i) 0
  let mode := popMode pop
  let u := if mode = 0 then 0 else match pop with
    | [] => 0
    | (_, d) :: _ => d.count * d.gib - 1
  let total := chans.length * u
  let ja := if present.testBit 3 then 3 else lowestIn present 0 8 3
  let jb := if present.testBit 12 then 12 else lowestIn present 8 16 12
  let s1 := s.setReg aMemNear (BitVec.ofNat 32 (present8 * 2 ^ 24 + s.fuses.stackGib % 256 * 2 ^ 8))
  let s2 := s1.setReg aMemGlacier (BitVec.ofNat 32 (mode * 2 ^ 30 + ja * 2 ^ 24 + jb * 2 ^ 20 + present))
  let s3 := s2.setReg aMemCap (BitVec.ofNat 32 (u * 2 ^ 16 + total))
  let s4 := ((s3.setReg (aRgn 0) (BitVec.ofNat 32 (2 ^ 31 + present8 * 2 ^ 16))).setReg (aRgn 0 + 4)
    (BitVec.ofNat 32 (ns * s.fuses.stackGib))).setReg (aRgn 0 + 8) 0
  let s5 := (List.range 15).foldl (fun t n => t.setB (aRgn (n + 1)) 31 false) s4
  let g := min (s5.rf aMemGrsv 0 16) (total / 4)
  let s6 := s5.setF aMemGrsv 0 16 g
  let r := s6.rf (aDet 0x108) 0 16
  let s7 := if g < r + 2 then s6.setF (aDet 0x108) 0 16 ((g - 1) / 2) else s6
  failed.foldl State.removeMem
    { s7 with boot := { s7.boot with popOk := decide (mode ≠ 0), dimms := tr.dimms }, journal := { ({} : Journal) with a := ja, b := jb } }

/-- Training ends (R104, R106): on a cold boot the tiers take their shape; on a warm boot the stored values are restored
and nothing moves. -/
def execMemoryTrainingComplete (tr : Training) (s : State) : Out :=
  if s.devState ≠ stTraining || s.boot.trained then .next s
  else
    let t := if s.boot.cold then s.trainCold tr else s
    .next { t with boot := { t.boot with trained := true } }

/-- Units are enumerated (R104, R6, R440, R394): enabled Spires come into service unless they failed, fused-off ones are
absent, and each row-engine unit shows whether its stack or channel is present. -/
def execEnumerationComplete (s : State) : Out :=
  if s.devState ≠ stTraining || !s.boot.trained || s.boot.enumerated then .next s
  else
    let t := (List.range 64).foldl (fun u i =>
      u.setF (aSpire i 0) 28 4
        (if !s.fuses.spires.getLsbD i then 0 else if u.rf (aSpire i 0) 28 4 = 5 then 5 else 1)) s
    let v := (List.range 8).foldl (fun u i => u.setB (aRe i 4) 31 (u.rf aMemNear 24 8 |>.testBit i)) t
    let w := (List.range 16).foldl (fun u i => u.setB (aRe (8 + i) 4) 31 (u.rf aMemGlacier 0 16 |>.testBit i)) v
    .next { w with boot := { w.boot with enumerated := true } }

/-- A warm boot restores one context's EN through the enable check; a refused one stays disabled, and its tasks wait (R107). -/
def State.restoreCtx (s : State) (c : Nat) : State := (s.enableCtx c (rputBit (s.reg (aCtxCtl c)) 0 true) { source := 0x0B }).2

/-- A warm boot restores RUN, then each EN in context order (R107, R953). -/
def State.warmRestore (s : State) : State :=
  let s1 := if s.boot.savedRun then
      (let t := s.answerRun { source := 0x0B }
       if s.checkRun = 0 then (t.setB aDevCtl 0 true).setDevState stRun else t)
    else s
  let en := s1.boot.savedEn
  let s2 := { s1 with ctxHeld := s1.ctxHeld ||| en, boot := { s1.boot with savedRun := false, savedEn := 0 } }
  (bitsSet 16 en).foldl State.restoreCtx s2

/-- INVALIDATE_ALL is done and caching begins (R104): STATE is READY, and a warm boot restores RUN and each EN through
the enable check (R107). -/
def execBootReady (s : State) : Out :=
  if s.devState ≠ stTraining || !s.boot.enumerated || (!s.boot.cold && !s.boot.scanned) then .next s
  else
    let t := { s with dome := { s.dome with lines := [], under := [], stale := [], fresh := [], fills := [] } }
    let t1 := ((t.setB aDomeCtl 0 true).setB aDomeStatus 0 false).setDevState stReady
    .next (if s.boot.cold then t1 else t1.warmRestore)

/-! Context and Spire resets. -/

/-- CONTEXT_RESET_PERFORM (R93, R88): once no accepted task of the context is uncommitted, its counters are cleared, its CTX block
takes its Reset values and its program is unloaded. -/
def execContextResetPerform (c : Fin 16) (s : State) : Out :=
  if !s.works then .next s else
  let k := c.val
  if !s.rb (aCtxStatus k) 2 || s.tasks.any (fun t => t.ctx == k) then .next s
  else
    let t := (s.clearCtxCtrs k).resetRegs (aCtx k 0) (aCtx k 0x1000)
    .next { t with progs := SMap.erase t.progs k, ctxHeld := nsetBit t.ctxHeld k false, clrDue := nsetBit t.clrDue k false }

/-- What a Spire's islands hold is cleared; its sync unit stays in service (R88, R94, R95). -/
def State.clearSpire (s : State) (sp : Nat) : State :=
  let lo := storeBase + sp * 2 ^ 23
  { s with
    cores := s.cores.filter fun e => e.1 / 16 != sp,
    icache := s.icache.filter fun e => e.1 / 4096 != sp,
    dmem := s.dmem.clearRange (sp * 16 * 32768) ((sp + 1) * 16 * 32768),
    mem := s.mem.clearRange lo (lo + 2 ^ 23),
    scales := s.scales.clearRange (sp * 256 * 16) ((sp + 1) * 256 * 16),
    gscales := s.gscales.clearRange (sp * 65536) ((sp + 1) * 65536),
    ops := s.ops.filter fun o => o.core / 16 != sp,
    arr := s.arr.filter fun e => !s.ops.any fun o => o.id == e.1 && o.core / 16 == sp,
    served := s.served.filter fun e => e.1 / 4 != sp }

/-- SPIRE_RESET (R94): firmware resets a drained Spire. -/
def execSpireReset (sp : Fin 64) (s : State) : Out := .next (if s.works && s.spireState sp.val == 3 then s.clearSpire sp.val else s)

/-! The TAP. -/

/-- The state with an instruction in the TAP and its controller left in a stable state; Test-Logic-Reset selects IDCODE (R932). -/
def State.tapLoad (s : State) (code : Nat) (park : TapState) : State :=
  { s with pins := { s.pins with tapIr := if park = .testLogicReset then 0x01 else code, tap := park } }

/-- The TAP enters Test-Logic-Reset (R933): IDCODE is selected, and a device that the TAP held in RESET boots. -/
def State.tapReset (s : State) : State :=
  let p := s.tapLoad 0x01 .testLogicReset
  if s.pins.tapHold then { p with pins := { p.pins with tapHold := false } }.startBoot else p

/-- A TAP instruction that performs a cold reset is loaded (R933): the device stays in RESET until the TAP enters
Test-Logic-Reset. A thermal trip takes precedence (R76). -/
def State.tapHoldReset (s : State) (code : Nat) (park : TapState) : State :=
  if !s.tapPowered then s
  else
    let p := s.leavePark.tapLoad code park
    if s.devState = stHalted then p
    else
      let h := ({ p with pins := { p.pins with tapHold := true } } : State).coldReset 0x7
      if park = .testLogicReset then h.tapReset else h

/-- A TAP instruction that performs a cold reset and selects the boundary register is loaded (R45, R933). -/
def State.tapHoldScan (s : State) (code : Nat) (x : BoundaryScan) (park : TapState) : State :=
  let t := s.tapHoldReset code park
  if s.tapPowered then t.scanDr x else t

/-- EXTEST (R933). -/
def execExtest (x : BoundaryScan) (park : TapState) (s : State) : Out := .next (s.tapHoldScan 0x00 x park)
/-- CLAMP (R933). -/
def execClamp (park : TapState) (s : State) : Out := .next (s.tapHoldReset 0x04 park)
/-- HIGHZ (R933). -/
def execHighz (park : TapState) (s : State) : Out := .next (s.tapHoldReset 0x05 park)
/-- EXTEST_PULSE (R933). -/
def execExtestPulse (x : BoundaryScan) (park : TapState) (s : State) : Out := .next (s.tapHoldScan 0x06 x park)
/-- EXTEST_TRAIN (R933). -/
def execExtestTrain (x : BoundaryScan) (park : TapState) (s : State) : Out := .next (s.tapHoldScan 0x07 x park)

/-- A TAP instruction without an effect on the device is loaded (R932). -/
def State.tapQuiet (s : State) (code : Nat) (park : TapState) : State :=
  if !s.tapPowered then s else if park = .testLogicReset then s.leavePark.tapReset else s.leavePark.tapLoad code park

/-- IDCODE reads 0x1900_9A6B where the controller goes on to Shift-DR, in which TDO drives (R45, R934). -/
def execIdcode (park : TapState) (s : State) : Out :=
  let t := s.tapQuiet 0x01 park
  .next (if s.tapPowered && park == .shiftDr then t.emit (.tdo 0x19009A6B) else t)

/-- SAMPLE/PRELOAD captures the level of every signal land (R45, R932); parked outside a data scan, its walk has passed Update-DR, and the
cells hold what it captured. -/
def execSamplePreload (x : BoundaryScan) (park : TapState) (s : State) : Out :=
  let t := s.tapQuiet 0x02 park
  .next (if !s.tapPowered then t
    else if park = .shiftDr ∨ park = .pauseDr then t.scanDr x
    else { t with pins := { t.pins with boundary := (s.leavePark.tapLoad 0x02 .runTestIdle).capture x.levels }, draws := t.draws + 1 })

/-- BYPASS, which every unlisted code acts as (R932). -/
def execBypass (park : TapState) (s : State) : Out := .next (s.tapQuiet 0xFF park)

/-- TEST_LOGIC_RESET (R933), by TMS or by TRST_N. -/
def execTestLogicReset (s : State) : Out := .next (if s.tapPowered then s.leavePark.tapReset else s)

end Sys2Proof.Machine
end

