-- ==== Sys2Proof/Machine/RegWrite.lean ====
section
/-! DEFINITION. Register writes (R15, R196, R938–R949): what a write of each register does, who may write it, and the sequence of a
CONTROL_WR. -/

namespace Sys2Proof.Machine

/-! The DEV block. -/

/-- The reset that a write of DEV_CTL.RESET requests (R81, R84, R113). -/
def State.ctlReset (s : State) (v : W32) : State :=
  if rfld v 8 4 = 0x5 then s.warmReset 0x4
  else if rfld v 8 4 = 0xA then (s.coldReset 0x2).startBoot
  else s

/-- Setting DEV_CTL.RUN (R97). -/
def State.runSet (s : State) (key : Option Nat) : WRes :=
  if s.devState ≠ stReady ∧ s.devState ≠ stRun then .nak s nkState
  else
    let t := s.answerRun { source := 0x01, key := key }
    if s.checkRun ≠ 0 then .nak t s.checkRun else .ok ((t.setB aDevCtl 0 true).setDevState stRun)

/-- Clearing DEV_CTL.RUN (R97). -/
def State.runClear (s : State) : State :=
  let t := s.setB aDevCtl 0 false
  if t.devState = stRun && t.tasks.isEmpty then t.setDevState stReady else t

/-- Setting DEV_CTL.MAINT (R98). -/
def State.maintSet (s : State) : WRes :=
  if s.devState ≠ stReady then .nak s nkState
  else if !s.tasks.isEmpty then .nak s nkBusy
  else .ok ((s.setB aDevCtl 1 true).setDevState stMaint)

/-- Clearing DEV_CTL.MAINT (R98). -/
def State.maintClear (s : State) : State :=
  let t := s.setB aDevCtl 1 false
  if t.devState = stMaint then t.setDevState stReady else t

/-- A write of DEV_CTL (R97, R98, R113). -/
def State.wDevCtl (s : State) (key : Option Nat) (v : W32) : WRes :=
  let run := rbit v 0 != s.rb aDevCtl 0
  let maint := rbit v 1 != s.rb aDevCtl 1
  let r : WRes :=
    if run && maint then .nak s nkMalformed
    else if run then (if rbit v 0 then s.runSet key else .ok s.runClear)
    else if maint then (if rbit v 1 then s.maintSet else .ok s.maintClear)
    else .ok s
  match r with
  | .ok t => .ok (t.ctlReset v)
  | x => x

/-- A write of PWR_CTL: each field is held within its limits, and VMIN above VMAX is refused (R66). -/
def State.wPwrCtl (s : State) (v : W32) : WRes :=
  let lo := max 110 (rfld v 0 8)
  let hi := min 170 (rfld v 8 8)
  if hi < lo then .nak s nkMalformed else .ok (s.setReg aPwrCtl (BitVec.ofNat 32 (hi * 256 + lo))).floorBit

/-- A write of a DEV register. -/
def State.wDev (s : State) (key : Option Nat) (a : Nat) (v : W32) : WRes :=
  if a = aDevCtl then s.wDevCtl key v
  else if a = aPwrLimit then .ok (s.setReg a (BitVec.ofNat 32 (max 600 (min 1500 (rfld v 0 16)))))
  else if a = aPwrCtl then s.wPwrCtl v
  else .ok (s.put a v)

/-! The CTX blocks. -/

/-- A write of CTX_CTL (R92, R99, R117): a request for a context reset is one where EN is 0 after the write. -/
def State.wCtxCtl (s : State) (key : Option Nat) (c : Nat) (v : W32) : WRes :=
  let a := aCtxCtl c
  let modes := (s.reg a ^^^ v) &&& 0x1C != 0
  let rst := fun (t : State) => if rbit v 1 && !rbit v 0 then t.setB (aCtxStatus c) 2 true else t
  if modes && s.ctxLocked c then .nak s nkBusy
  else if rbit v 0 then
    (if s.ctxEn c then .ok s
     else
       let (code, t) := s.enableCtx c v { source := 0x02, key := key }
       if code ≠ 0 then .nak t code else .ok t)
  else .ok (rst (s.setReg a (v &&& 0x1C)))

/-- LOG2N of a trace ring is one that R493 and R730 allow. -/
def ringOk (n : Nat) : Bool := n == 0 || (decide (7 ≤ n) && decide (n ≤ 24))

/-- The counter-map entry k of a context keeps R739. -/
def State.cmapOk (s : State) (c k : Nat) : Bool :=
  let a := aCmap c k
  let grp := s.rb a 30
  let vb := s.rf a 0 16
  let len := s.rf (a + 4) 16 16
  let pb := s.rf (a + 4) 0 15
  let span := if grp then 1 else len
  decide (0 < len) && (grp || decide (len ≤ 32768)) && (grp || decide (vb + len ≤ 65536)) && decide (pb + len ≤ 32768)
    && (!grp || (decide (len ≤ 256) && pb / 512 == (pb + len - 1) / 512))
    && (List.range 64).all (fun sp => s.fuses.spires.getLsbD sp || !overlaps pb len (512 * sp) 512)
    && (List.range 32).all fun j =>
      let b := aCmap c j
      j == k || !s.rb b 31 || !overlaps vb span (s.rf b 0 16) (if s.rb b 30 then 1 else s.rf (b + 4) 16 16)

/-- Entry k shares a physical counter with another valid entry of its context (R740). -/
def State.cmapShares (s : State) (c k : Nat) : Bool :=
  let a := aCmap c k
  (List.range 32).any fun j =>
    let b := aCmap c j
    j != k && s.rb b 31
      && overlaps (s.rf (a + 4) 0 15) (s.rf (a + 4) 16 16) (s.rf (b + 4) 0 15) (s.rf (b + 4) 16 16)

/-- A write of a counter-map register (R117, R739, R740). -/
def State.wCmap (s : State) (c a : Nat) (v : W32) : WRes :=
  let t := s.put a v
  let k := (a - aCtx c 0x100) / 8
  if t.reg a = s.reg a then .ok s
  else if s.ctxLocked c then .nak s nkBusy
  else if !t.rb (aCmap c k) 31 then .ok t
  else if !t.cmapOk c k then .nak s nkMalformed
  else if t.cmapShares c k then .nak s nkConflict
  else .ok t

/-- A write of CTX_SHAPE (R833, R837). -/
def State.wShape (s : State) (c : Nat) (v : W32) : WRes :=
  let a := aCtx c 0x020
  let pin := rbit v 15
  let n := rfld v 0 7
  if pin && (n == 0 || decide (64 < n)) then .nak s nkMalformed
  else
    .ok ((s.put a v).setF a 16 7 (if pin then n else SMap.get s.enSpires 0 c))

/-- A write of a register of context c that EN locks (R411, R493, R636, R732, R837). -/
def State.wLocked (s : State) (c off : Nat) (v : W32) : WRes :=
  let a := aCtx c off
  if s.ctxLocked c then .nak s nkBusy
  else if off = 0x010 then (if 32 < rfld v 0 5 + rfld v 8 6 then .nak s nkMalformed else .ok (s.put a v))
  else if off = 0x014 then (if 256 < rfld v 0 8 + rfld v 16 9 then .nak s nkMalformed else .ok (s.put a v))
  else if off = 0x020 then s.wShape c v
  else if off = 0x038 then
    (if !ringOk (rfld v 0 5) then .nak s nkMalformed
     else .ok ((s.setReg a (v &&& 0x1F)).setReg (aCtx c 0x03C) 0))
  else .ok (s.put a v)

/-- A write of a register of context c's CTX block. -/
def State.wCtx (s : State) (key : Option Nat) (c off : Nat) (v : W32) : WRes :=
  if off = 0x000 then s.wCtxCtl key c v
  else if (0x010 ≤ off ∧ off ≤ 0x020) ∨ (0x030 ≤ off ∧ off ≤ 0x03C) then s.wLocked c off v
  else if off = 0x08C then s.wTblCmd key c v
  else if 0x100 ≤ off then s.wCmap c (aCtx c off) v
  else .ok (s.put (aCtx c off) v)

/-! The other blocks. -/

/-- A write of a PORT register; QP_IDX to QP_CMD take only the whole command (R958). -/
def State.wPort (s : State) (key : Option Nat) (a : Nat) (v : W32) : WRes :=
  if a = aPortCfg then s.wPortCfg key v
  else if a = aKsess then s.wKsess v
  else if a = aPortCtl then .ok (s.wPortCtl v)
  else if 0x10100 ≤ a ∧ a ≤ 0x10144 then .nak s nkMalformed
  else .ok (s.put a v)

/-- A write of a DOME register. -/
def State.wDome (s : State) (key : Option Nat) (off : Nat) (v : W32) : WRes :=
  if off = 0x000 then s.wDomeCtl key v
  else if off = 0x008 then s.wWaymask v
  else if off = 0x020 then s.wMnt v
  else if 0x100 ≤ off ∧ off < 0x180 then .ok (s.wSeed ((off - 0x100) / 4) v)
  else .ok (s.put (aDomeCtl + off) v)

/-- A write of a MEM register. -/
def State.wMem (s : State) (r : Req) (wait : Bool) (a : Nat) (v : W32) : WRes :=
  let o := a - 0x50000
  if o < 0x100 then (if o % 16 = 0 then s.wRgnA r (o / 16) v wait else s.wRgnBC (o / 16) a v)
  else if a = aMemGrsv then s.wGrsv v
  else if 0x8000 ≤ o then s.wWindow ((o - 0x8000) / 0x400) ((o - 0x8000) % 0x400 / 16) a v
  else .ok (s.put a v)

/-- A write of an RE register: the two CNT_CLR (R393, R963, R964). -/
def State.wRe (s : State) (o : Nat) (v : W32) : State :=
  if o = 0xC000 then s.cntClr v 0 [aDropRange, aDropMissing]
  else if o < 0xC000 ∧ o % 0x800 = 0 then s.cntClr v 0 (regRange (aRe (o / 0x800) 0x100) (aRe (o / 0x800) 0x118))
  else s

/-- A write of a register of Spire sp: SPIRE_ENG_CTL.CNT_CLR (R566). -/
def State.wSpire (s : State) (sp off : Nat) (v : W32) : State :=
  if off = 0x0F0 then s.cntClr v 0 (regRange (aSpire sp 0x100) (aSpire sp 0x11C)) else s

/-- A write of a SYNC register (R767). -/
def State.wSync (s : State) (off : Nat) (v : W32) : WRes :=
  if off = 0x000 then .ok (s.cntClr v 0 (regRange (aSync 0x100) (aSync 0x110)))
  else if off = 0x004 then (if s.anyLocked then .nak s nkBusy else .ok (s.setReg (aSync off) (if v = 0 then 1 else v)))
  else .ok (s.put (aSync off) v)

/-- Spires in service or draining, but for one. -/
def State.otherSpires (s : State) (sp : Nat) : Bool :=
  (List.range 64).any fun i => i != sp && (s.spireState i == 1 || s.spireState i == 2)

/-- A drain begins (R716–R719). -/
def State.drainStart (s : State) (sp : Nat) : State := ((s.setSpireState sp 2).withdrawSpire sp).checkDrained

/-- A drain is refused (R719). -/
def State.drainBad (s : State) (sp : Nat) : Bool := s.spireState sp != 1 || !s.otherSpires sp

/-- A write of DISP_DRAIN (R716, R719, R720, R728). -/
def State.wDrain (s : State) (v : W32) : WRes :=
  let sp := rfld v 0 6
  if rfld v 8 2 = 1 then (if s.drainBad sp then .nak s nkBusy else .ok (s.drainStart sp))
  else if rfld v 8 2 = 2 then (if s.spireState sp ≠ 3 then .nak s nkBusy else .ok (s.setSpireState sp 1))
  else .ok s

/-- A write of DISP_CALVE_THRESHOLD or DISP_FRAGMENT (R705, R727). -/
def State.wCalve (s : State) (off : Nat) (v : W32) : WRes :=
  let t := s.put (aDisp off) v
  let thr := (t.reg (aDisp 0x008)).toNat
  let frag := t.rf (aDisp 0x00C) 0 21
  if s.anyLocked then .nak s nkBusy
  else if frag < 256 ∨ 1048576 < frag ∨ thr < frag then .nak s nkMalformed
  else .ok t

/-- A share that stores 1 where 0 is written (R683, R729). -/
def State.wShare (s : State) (a : Nat) (v : W32) : State := s.setReg a (BitVec.ofNat 32 (max 1 (rfld v 0 8)))

/-- A write of a DISP register. -/
def State.wDisp (s : State) (off : Nat) (v : W32) : WRes :=
  if off = 0x000 then .ok (s.cntClr v 0 (regRange (aDisp 0x100) (aDisp 0x118)))
  else if off = 0x008 ∨ off = 0x00C then s.wCalve off v
  else if off = 0x010 then s.wDrain v
  else if 0x020 ≤ off ∧ off ≤ 0x03C then .ok (s.wShare (aDisp off) v)
  else if off = 0x058 then
    (if !ringOk (rfld v 0 5) then .nak s nkMalformed
     else .ok ((s.setReg (aDisp off) (v &&& 0xF01F)).setReg (aDisp 0x05C) 0))
  else .ok (s.put (aDisp off) v)

/-- A write of a STRM register. -/
def State.wStrm (s : State) (off : Nat) (v : W32) : State :=
  if off ≤ 0x01C then s.wShare (aStrm off) v
  else if off = 0x020 then s.cntClr v 0 (regRange (aStrm 0x100) (aStrm 0x110))
  else s.put (aStrm off) v

/-- A write of a QNT or SPS register (R630, R631, R963). -/
def State.wQnt (s : State) (off : Nat) (v : W32) : WRes :=
  if off = 0x000 then
    (if s.anyLocked && rfld v 0 12 != s.rf aQntCtl 0 12 then .nak s nkBusy
     else .ok ((s.put aQntCtl v).cntClr v 12 ((List.range 6).map aQnt)))
  else if off = 0x200 then .ok (s.cntClr v 0 [aSps 1])
  else .ok (s.put (aDet off) v)

/-- An online test of a Spire starts (R894). -/
def State.testSpire (s : State) (sp : Nat) (auto : Bool) : State :=
  { s.setF (aSpire sp 0) 28 4 4 with tests := s.tests ++ [SelfTest.spire sp auto (s.spireState sp == 5)] }.setB (aErr 0x01C) 31 true

/-- The full self-test starts (R896): the Dome cache is cleaned and invalidated. -/
def State.testFull (s : State) : State :=
  let t := s.settleAll fun _ => true
  { (t.evictAll (t.dome.lines.map fun (e : Nat × Line) => e.1)) with tests := t.tests ++ [SelfTest.full] }.setB (aErr 0x01C) 31 true

/-- A write of ERR_TEST (R894, R896). -/
def State.wTest (s : State) (v : W32) : WRes :=
  let sp := rfld v 0 6
  if rfld v 8 2 = 1 then
    (if s.spireState sp != 3 && s.spireState sp != 5 then .nak s nkBusy else .ok (s.testSpire sp (rbit v 7)))
  else if rfld v 8 2 = 2 then
    (if s.devState != stMaint then .nak s nkBusy else .ok s.testFull)
  else .ok s

/-- A write of ERR_ACK (R893). -/
def State.ack (s : State) (v : W32) : State :=
  s.setReg (aErr 0x010) (s.reg (aErr 0x010) + BitVec.ofNat 32 (min (rfld v 0 13) s.unread))

/-- A write of an ERR register (R893, R894, R902). -/
def State.wErr (s : State) (off : Nat) (v : W32) : WRes :=
  if off = 0x000 then .ok (s.cntClr v 0 (regRange (aErr 0x100) (aErr 0x11C)))
  else if off = 0x004 then .ok (s.setReg (aErr off) (atLeast1 (s.mixed (aErr off) v) 0 4))
  else if off = 0x014 then .ok (s.ack v)
  else if off = 0x018 then s.wTest v
  else .ok (s.put (aErr off) v)

/-! One write. -/

/-- A write of a register that its writer may write. msg tells that a CONTROL_WR carries it, group that this CONTROL_WR is the
whole key command of R918. -/
def State.writeReg (s : State) (r : Req) (msg group : Bool) (a : Nat) (v : W32) : WRes :=
  let key := s.keyOf r.who
  if a < 0x10000 then s.wDev key a v
  else if a < 0x20000 then s.wPort key a v
  else if a < 0x28000 then s.wSess ((a - 0x20000) / 0x1000) ((a - 0x20000) % 0x1000) v
  else if a < 0x30000 then s.wPeer r msg (a - 0x28000) v
  else if a < 0x40000 then s.wCtx key ((a - 0x30000) / 0x1000) ((a - 0x30000) % 0x1000) v
  else if a < 0x50000 then s.wDome key (a - 0x40000) v
  else if a < 0x60000 then s.wMem r (!msg) a v
  else if a < 0x80000 then .ok (s.wRe (a - 0x60000) v)
  else if a < 0xC0000 then .ok (s.wSpire ((a - 0x80000) / 0x1000) ((a - 0x80000) % 0x1000) v)
  else if a < 0xD0000 then s.wSync (a - 0xC0000) v
  else if a < 0xE0000 then s.wDisp (a - 0xD0000) v
  else if a < 0xF0000 then .ok (s.wStrm (a - 0xE0000) v)
  else if a < 0x100000 then
    (if 0xF0100 ≤ a ∧ a < 0xF0200 then s.wDet (a - 0xF0000) v else s.wQnt (a - 0xF0000) v)
  else if a < 0x110000 then s.wErr (a - 0x100000) v
  else if 0x120000 ≤ a ∧ a < 0x130000 then s.wSec r group (a - 0x120000) v
  else .ok (s.put a v)

/-- The rights of R946 for a session that does not hold an owner key. -/
def State.sessRight (s : State) (k : Fin 8) (a : Nat) (v : W32) : Bool :=
  let w : Who := .sess k
  let own := s.slotKey k.val
  if 0x30000 ≤ a ∧ a < 0x40000 then s.mayCtx w ((a - 0x30000) / 0x1000)
  else if 0x58000 ≤ a ∧ a < 0x5C000 then s.mayCtx w ((a - 0x58000) / 0x400)
  else if 0x10100 ≤ a ∧ a ≤ 0x10144 then true
  else if a = aDet 0x154 then rfld v 4 4 == own && s.mayCtx w (rfld v 0 4)
  else if aDet 0x140 ≤ a ∧ a ≤ aDet 0x158 then s.rf (aDet 0x154) 4 4 == own && s.mayCtx w (s.rf (aDet 0x154) 0 4)
  else if a = aSec 0x068 then s.mayCtx w (rfld v 0 4)
  else if aSec 0x040 ≤ a ∧ a < aSec 0x068 then s.mayCtx w (s.rf (aSec 0x068) 0 4)
  else a == aLife 0 || a == aSync 0x008

/-- I3C reaches these registers for writing (R949). -/
def i3cWrites (a : Nat) : Bool := a == aLife 0 || (decide (aSec 0x010 ≤ a) && decide (a ≤ aSec 0x030))

/-- The requester may write the register (R946, R949). -/
def State.mayWrite (s : State) (w : Who) (a : Nat) (v : W32) : Bool :=
  match w with
  | .sess k => s.isOwner k.val || s.sessRight k a v
  | .i3c => i3cWrites a
  | .peer _ => false

/-- A write as its requester makes it (R121, R196, R940, R946), with its replay record where a CONTROL_WR makes it (R844): the nine words
of a key command stand in one record, so that they can be fed as one (R918). -/
def State.ctlWrite (s : State) (r : Req) (msg group : Bool) (a : Nat) (v : W32) : WRes :=
  if (regInfo a).isNone then .nak s nkMalformed
  else if !s.mayWrite r.who a v then .nak s nkPermission
  else if !s.rb (aDet 0x100) 1 || r.who == .i3c || (group && a != aSec 0x030) then s.writeReg r msg group a v
  else match s.writeReg r msg group a v with
    | .nak t n => .nak t n
    | _ =>
      let b := if group then natLe 4 (aSec 0x010) ++ natLe 4 9 ++ s.keyWords ++ natLe 4 v.toNat else natLe 4 a ++ natLe 4 1 ++ natLe 4 v.toNat
      (s.record 0x05 (s.recKey r.who) 0 r.seq none b).writeReg r msg group a v

/-! Sequences. -/

/-- What a sequence of writes answers: all took effect; one was refused, with its reason and address; or one waits. -/
inductive SeqRes where
  | done (s : State)
  | stop (s : State) (reason value : Nat)
  | wait (s : State)
deriving DecidableEq, Repr

/-- The writes of one CONTROL_WR in register order (R196, R942). A write that resets the device ends the sequence; one that forms the
peer group keeps the rest until formation ends (R788). -/
def State.ctlRun (s : State) (r : Req) (group : Bool) : List (Nat × W32) → SeqRes
  | [] => .done s
  | (a, v) :: t =>
    match s.ctlWrite r true group a v with
    | .nak s1 n => .stop s1 n a
    | .pend s1 => .wait { s1 with form := s1.form.map fun f => { f with rest := t } }
    | .ok s1 => if r.who = .i3c || (s1.ses (whoIdx r.who)).isOpen then s1.ctlRun r group t else .done s1

/-- A queue-pair command with the 72 bytes that its CONTROL_WR carries (R958), and its replay record (R844). -/
def State.ctlQp (s : State) (r : Req) (b : List Byte) : SeqRes :=
  let go := fun (t : State) => t.qpCmd r.who (BitVec.ofNat 32 (getLe b 0 4)) (slice b 4 64) (BitVec.ofNat 32 (getLe b 68 4))
  match go s with
  | .nak t n => .stop t n 0x10144
  | _ => match go (s.record 0x05 (s.recKey r.who) 0 r.seq none (natLe 4 0x10100 ++ natLe 4 18 ++ b)) with
    | .nak t n => .stop t n 0x10144
    | .ok t => .done t
    | .pend t => .done t

/-- The writes that a CONTROL_WR of count words from a register names. -/
def ctlPairs (a : Nat) : List Byte → Nat → List (Nat × W32)
  | _, 0 => []
  | b, n + 1 => (a, BitVec.ofNat 32 (getLe b 0 4)) :: ctlPairs (a + 4) (b.drop 4) n

/-- Another message's register writes wait while a sequence has writes to come (R942), or a region change is under way (R243). -/
def State.ctlHeld (s : State) : Bool :=
  s.rgnChange.isSome || (match s.form with | some f => !f.rest.isEmpty | none => false)

/-- Messages received before wait: one of the session's own (R179), or one whose enable check is due (R119). -/
def State.waitsBehind (s : State) (k : Nat) : Bool := (s.ses k).head?.isSome || s.checksDue || s.port.rx.any rxHello

/-- The gate of a single register write of a session or of I3C: it is answered at all, at its turn (R119), and it is not refused outright
(R109, R850, R945). none: no answer. -/
def State.regGate (s : State) (r : Req) (a : Nat) : Option Nat :=
  match r.who with
  | .i3c => if s.pins.vaux && i3cWrites a then some 0 else none
  | .peer _ => none
  | .sess k =>
    if !(s.ses k.val).isOpen || s.ctlHeld || s.waitsBehind k.val then none
    else if s.devState = stRecovery then some nkState
    else if s.replaying && !(decide (0xF0100 ≤ a) && decide (a < 0xF0200)) then some nkState
    else some 0

/-- A refused register write is answered by a NAK that names the register (R196); I3C has no answer (R949). -/
def State.nakReg (s : State) (r : Req) (reason a : Nat) : State :=
  if r.who = .i3c then s else s.refuse r tyControlWr reason a

/-- One register write, as the rows of register writes command it. -/
def State.regRow (s : State) (r : Req) (a : Nat) (v : W32) : State :=
  match s.regGate r a with
  | none => s
  | some n =>
    if n ≠ 0 then s.nakReg r n a
    else match s.ctlWrite r false false a v with
      | .ok t => t
      | .pend t => t
      | .nak t m => t.nakReg r m a

/-- The answer of a sequence that a row commands. -/
def State.seqAnswer (r : Req) : SeqRes → State
  | .done t => t
  | .wait t => t
  | .stop t n a => t.nakReg r n a

/-- A sequence of writes as a row commands it: its gate is that of its last register. -/
def State.seqRow (s : State) (r : Req) (a : Nat) (f : State → SeqRes) : State :=
  match s.regGate r a with
  | none => s
  | some n => if n ≠ 0 then s.nakReg r n a else State.seqAnswer r (f s)

end Sys2Proof.Machine
end

