-- ==== Sys2Proof/Machine/RegRows.lean ====
section
/-! DEFINITION. The rows of the operation table that are one register access: each writes its register as RegWrite.lean says. A row
whose operands do not spell its event changes nothing (log entry 4). -/

namespace Sys2Proof.Machine

/-- DEV_CTL.RESET = 0x5 (R84, R113). -/
def execDevCtlResetWarm (r : Req) (v : W32) (s : State) : Out := .next (if rfld v 8 4 = 0x5 then s.regRow r aDevCtl v else s)

/-- DEV_CTL.RESET = 0xA (R81, R113). -/
def execDevCtlResetCold (r : Req) (v : W32) (s : State) : Out := .next (if rfld v 8 4 = 0xA then s.regRow r aDevCtl v else s)

/-- Setting DEV_CTL.RUN (R97). -/
def execDevCtlRunSet (r : Req) (v : W32) (s : State) : Out :=
  .next (if rbit v 0 && !s.rb aDevCtl 0 then s.regRow r aDevCtl v else s)

/-- Clearing DEV_CTL.RUN (R97). -/
def execDevCtlRunClear (r : Req) (v : W32) (s : State) : Out :=
  .next (if !rbit v 0 && s.rb aDevCtl 0 then s.regRow r aDevCtl v else s)

/-- Setting DEV_CTL.MAINT (R98). -/
def execDevCtlMaintSet (r : Req) (v : W32) (s : State) : Out :=
  .next (if rbit v 1 && !s.rb aDevCtl 1 then s.regRow r aDevCtl v else s)

/-- Clearing DEV_CTL.MAINT (R98). -/
def execDevCtlMaintClear (r : Req) (v : W32) (s : State) : Out :=
  .next (if !rbit v 1 && s.rb aDevCtl 1 then s.regRow r aDevCtl v else s)

/-- Setting CTX_CTL.EN while it is 0 (R117). -/
def execCtxCtlEnSet (r : Req) (c : Fin 16) (v : W32) (s : State) : Out :=
  .next (if rbit v 0 && !s.ctxEn c.val then s.regRow r (aCtxCtl c.val) v else s)

/-- Clearing CTX_CTL.EN (R99). -/
def execCtxCtlEnClear (r : Req) (c : Fin 16) (v : W32) (s : State) : Out :=
  .next (if !rbit v 0 && s.ctxEn c.val then s.regRow r (aCtxCtl c.val) v else s)

/-- Requesting a context reset (R92, R93). -/
def execCtxCtlReset (r : Req) (c : Fin 16) (v : W32) (s : State) : Out :=
  .next (if rbit v 1 && !rbit v 0 then s.regRow r (aCtxCtl c.val) v else s)

/-- Writing EXACT, REALTIME or T7SYNC (R117). -/
def execCtxCtlModeWrite (r : Req) (c : Fin 16) (v : W32) (s : State) : Out :=
  .next (if (v ^^^ s.reg (aCtxCtl c.val)) &&& 0x1C != 0 then s.regRow r (aCtxCtl c.val) v else s)

/-- A write of any register (R15, R196). -/
def execRegisterWrite (r : Req) (addr : Nat) (v : W32) (s : State) : Out := .next (s.regRow r addr v)

/-- A write of PORT_CFG (R131). -/
def execPortModeWrite (r : Req) (v : W32) (s : State) : Out := .next (s.regRow r aPortCfg v)

/-- Setting a region's VALID (R242, R243). -/
def execRegionValidate (r : Req) (n : Fin 16) (v : W32) (s : State) : Out :=
  .next (if rbit v 31 && !s.rb (aRgn n.val) 31 then s.regRow r (aRgn n.val) v else s)

/-- Clearing a region's VALID (R243). -/
def execRegionInvalidate (r : Req) (n : Fin 16) (v : W32) (s : State) : Out :=
  .next (if !rbit v 31 && s.rb (aRgn n.val) 31 then s.regRow r (aRgn n.val) v else s)

/-- A write of register w of window n of context c (R265, R266). -/
def execWindowWrite (r : Req) (c : Fin 16) (n : Fin 64) (w : Fin 4) (v : W32) (s : State) : Out :=
  .next (s.regRow r (aWin c.val n.val + 4 * w.val) v)

/-- A write of DOME_SEEDk (R290). -/
def execDomeSeedWrite (r : Req) (n : Fin 32) (v : W32) (s : State) : Out := .next (s.regRow r (aDomeSeed n.val) v)

/-- A write of DOME_WAYMASK (R291). -/
def execDomeWaymaskWrite (r : Req) (v : W32) (s : State) : Out := .next (s.regRow r aDomeWaymask v)

/-- Clearing DOME_CTL.EN (R297). -/
def execDomeDisable (r : Req) (v : W32) (s : State) : Out := .next (if !rbit v 0 then s.regRow r aDomeCtl v else s)

/-- Setting DOME_CTL.EN (R301, R302). -/
def execDomeEnable (r : Req) (v : W32) (s : State) : Out := .next (if rbit v 0 then s.regRow r aDomeCtl v else s)

/-- DOME_CTL.CNT_CLR (R318). -/
def execDomeCntClr (r : Req) (v : W32) (s : State) : Out := .next (if rbit v 1 then s.regRow r aDomeCtl v else s)

/-- CLEAN (R303). -/
def execClean (r : Req) (v : W32) (s : State) : Out := .next (if rfld v 0 4 = 1 then s.regRow r (aDomeCtl + 0x020) v else s)

/-- INVALIDATE (R303, R306). -/
def execInvalidate (r : Req) (v : W32) (s : State) : Out := .next (if rfld v 0 4 = 2 then s.regRow r (aDomeCtl + 0x020) v else s)

/-- CLEAN_INVALIDATE (R303). -/
def execCleanInvalidate (r : Req) (v : W32) (s : State) : Out :=
  .next (if rfld v 0 4 = 3 then s.regRow r (aDomeCtl + 0x020) v else s)

/-- INVALIDATE_ALL (R305). -/
def execInvalidateAll (r : Req) (v : W32) (s : State) : Out := .next (if rfld v 0 4 = 4 then s.regRow r (aDomeCtl + 0x020) v else s)

/-- RE_CTL.CNT_CLR of a unit (R393). -/
def execReCntClr (r : Req) (u : Fin 24) (s : State) : Out := .next (s.regRow r (aRe u.val 0) 1)

/-- RE_GLB_CTL.CNT_CLR (R963). -/
def execReGlbCntClr (r : Req) (s : State) : Out := .next (s.regRow r aReGlb 1)

/-- STRM_CTL.CNT_CLR (R684). -/
def execStrmCntClr (r : Req) (s : State) : Out := .next (s.regRow r (aStrm 0x020) 1)

/-- SYNC_CTL.CNT_CLR (R767). -/
def execSyncCntClr (r : Req) (s : State) : Out := .next (s.regRow r (aSync 0) 1)

/-- DISP_CTL.CNT_CLR (R726). -/
def execDispCntClr (r : Req) (s : State) : Out := .next (s.regRow r (aDisp 0) 1)

/-- SPS_CTL.CNT_CLR (R963). -/
def execSpsCntClr (r : Req) (s : State) : Out := .next (s.regRow r (aSps 0) 1)

/-- SPIRE_ENG_CTL.CNT_CLR (R566). -/
def execSpireEngCntClr (r : Req) (sp : Fin 64) (s : State) : Out := .next (s.regRow r (aSpire sp.val 0x0F0) 1)

/-- ERR_CTL.CNT_CLR (R902). -/
def execErrCntClr (r : Req) (s : State) : Out := .next (s.regRow r (aErr 0) 1)

/-- PORT_CTL.CNT_CLR (R956). -/
def execPortCntClr (r : Req) (s : State) : Out := .next (s.regRow r aPortCtl 1)

/-- QNT_CTL.CNT_CLR (R630, R631). -/
def execQntCntClr (r : Req) (v : W32) (s : State) : Out := .next (if rbit v 12 then s.regRow r aQntCtl v else s)

/-- DET_CTL.CNT_CLR (R857). -/
def execDetCntClr (r : Req) (v : W32) (s : State) : Out := .next (if rbit v 0 then s.regRow r (aDet 0x100) v else s)

/-- DISP_DRAIN with OP drain (R716–R719). -/
def execDispDrain (r : Req) (v : W32) (s : State) : Out := .next (if rfld v 8 2 = 1 then s.regRow r (aDisp 0x010) v else s)

/-- DISP_DRAIN with OP return (R720). -/
def execDispReturn (r : Req) (v : W32) (s : State) : Out := .next (if rfld v 8 2 = 2 then s.regRow r (aDisp 0x010) v else s)

/-- A write of DISP_TRACE_CFG (R730). -/
def execDispTraceCfgWrite (r : Req) (v : W32) (s : State) : Out := .next (s.regRow r (aDisp 0x058) v)

/-- A write of CTX_PTRACE_CFG (R493). -/
def execCtxPtraceCfgWrite (r : Req) (c : Fin 16) (v : W32) (s : State) : Out := .next (s.regRow r (aCtx c.val 0x038) v)

/-- Table SWITCH (R776, R777). -/
def execSwitch (r : Req) (c : Fin 16) (t : Fin 4096) (s : State) : Out :=
  .next (s.regRow r (aCtx c.val 0x08C) (BitVec.ofNat 32 (1 * 2 ^ 28 + t.val)))

/-- Table RETIRE (R773, R775). -/
def execRetire (r : Req) (c : Fin 16) (t : Fin 4096) (s : State) : Out :=
  .next (s.regRow r (aCtx c.val 0x08C) (BitVec.ofNat 32 (2 * 2 ^ 28 + t.val)))

/-- Table QUERY (R773, R819). -/
def execQuery (r : Req) (c : Fin 16) (t : Fin 4096) (s : State) : Out :=
  .next (s.regRow r (aCtx c.val 0x08C) (BitVec.ofNat 32 (3 * 2 ^ 28 + t.val)))

/-- Table RECLAIM (R773, R778). -/
def execReclaim (r : Req) (c : Fin 16) (t : Fin 4096) (s : State) : Out :=
  .next (s.regRow r (aCtx c.val 0x08C) (BitVec.ofNat 32 (4 * 2 ^ 28 + t.val)))

/-- PEER_CTL.FORM (R786, R788). -/
def execForm (r : Req) (s : State) : Out := .next (s.regRow r (aPeer 0) 1)

/-- PEER_CTL.DISSOLVE (R790). -/
def execDissolve (r : Req) (s : State) : Out := .next (s.regRow r (aPeer 0) 2)

/-- DET_RPL_CMD START (R849). -/
def execReplayStart (r : Req) (s : State) : Out := .next (s.regRow r (aDet 0x128) 1)

/-- DET_RPL_CMD STOP (R857). -/
def execReplayStop (r : Req) (s : State) : Out := .next (s.regRow r (aDet 0x128) 2)

/-- DET_SIGN_CMD.GO (R855, R856). -/
def execDetSignGo (r : Req) (v : W32) (s : State) : Out := .next (if rbit v 31 then s.regRow r (aDet 0x154) v else s)

/-- A write of ERR_ACK (R893). -/
def execErrAck (r : Req) (v : W32) (s : State) : Out := .next (s.regRow r (aErr 0x014) v)

/-- ERR_TEST with OP 0b01 (R894). -/
def execSpireTest (r : Req) (v : W32) (s : State) : Out := .next (if rfld v 8 2 = 1 then s.regRow r (aErr 0x018) v else s)

/-- ERR_TEST with OP 0b10 (R896). -/
def execFullTest (r : Req) (v : W32) (s : State) : Out := .next (if rfld v 8 2 = 2 then s.regRow r (aErr 0x018) v else s)

/-- Key ERASE (R917, R919, R920). -/
def execErase (r : Req) (slot : Fin 16) (s : State) : Out :=
  .next (s.regRow r (aSec 0x030) (BitVec.ofNat 32 (2 * 2 ^ 30 + slot.val)))

/-- Key ERASE_ALL (R917, R920). -/
def execEraseAll (r : Req) (s : State) : Out := .next (s.regRow r (aSec 0x030) (BitVec.ofNat 32 (3 * 2 ^ 30)))

/-- SEC_ATT_CMD.GO (R930, R931). -/
def execAttestationGo (r : Req) (v : W32) (s : State) : Out := .next (if rbit v 31 then s.regRow r (aSec 0x068) v else s)

/-- The nine words of an INSTALL command. -/
def installPairs (slot : Nat) (owner : Bool) (w : List Byte) : List (Nat × W32) :=
  ctlPairs (aSec 0x010) (w ++ zeros 32) 8 ++ [(aSec 0x030, BitVec.ofNat 32 (2 ^ 30 + (if owner then 256 else 0) + slot))]

/-- Key INSTALL: over DWP one CONTROL_WR of W0–W7 and SEC_KEY_CMD, over I3C the same nine registers (R917, R918). -/
def execInstall (r : Req) (slot : Fin 16) (owner : Bool) (wrapped : List Byte) (s : State) : Out :=
  .next (s.seqRow r (aSec 0x030) fun t => t.ctlRun r true (installPairs slot.val owner wrapped))

/-- The 72 bytes of a queue-pair command. -/
def qpBytes (idx : W32) (b : List Byte) (op : Nat) : List Byte := natLe 4 idx.toNat ++ (b ++ zeros 64).take 64 ++ natLe 4 op

/-- Queue-pair CREATE (R958, R960). -/
def execCreate (r : Req) (idx : W32) (b : List Byte) (s : State) : Out :=
  .next (s.seqRow r 0x10144 fun t => t.ctlQp r (qpBytes idx b 1))

/-- Queue-pair DESTROY (R961). -/
def execDestroy (r : Req) (idx : W32) (s : State) : Out := .next (s.seqRow r 0x10144 fun t => t.ctlQp r (qpBytes idx [] 2))

/-- Queue-pair QUERY (R962). -/
def execQpQuery (r : Req) (idx : W32) (s : State) : Out := .next (s.seqRow r 0x10144 fun t => t.ctlQp r (qpBytes idx [] 3))

/-- The registers that I3C may read (R949). -/
def i3cReads (a : Nat) : Bool :=
  decide (a < 0x10000) || (decide (aLife 0 ≤ a) && decide (a ≤ aLife 8)) || a == aErr 0x008 || a == aSec 0
    || (decide (aSec 0x010 ≤ a) && decide (a ≤ aSec 0x030)) || a == aTime 0x004

/-- Registers of units that need the main rails (R949): ERR_STATUS of the compute die, and what the power manager reads of the package and
its quadrants (log entry 144). -/
def mainRail (a : Nat) : Bool := a == aErr 0x008 || a == aPwrStatus || (decide (aPace 0 ≤ a) && decide (a ≤ aPace 3))

/-- A register read over I3C (R948, R949): the 4 bytes that follow, least significant first. -/
def State.i3cRead (s : State) (addr : Nat) : State :=
  if i3cReads addr && (s.pins.pwrGood || !mainRail addr) then
    let (v, t) := s.readReg .i3c addr
    t.emit (.i3c (natLe 4 v.toNat))
  else s.emit (.i3c (zeros 4))

/-- I3C_REGISTER_READ (R44, R948, R949): the private write of REG[23:0], then the read of 4 bytes. A transfer to another address is not
answered, and a private write of another length names no register (log entry 144). -/
def execI3cRegisterRead (dest : I3cDest) (wr : List Byte) (s : State) : Out :=
  .next (if s.i3cAnswers dest && wr.length == 3 then s.i3cRead (leNat wr) else s)

/-- I3C_REGISTER_WRITE (R44, R948, R949): a private write of REG[23:0] and the register's 4 bytes; it has no answer. -/
def execI3cRegisterWrite (dest : I3cDest) (wr : List Byte) (s : State) : Out :=
  .next (if s.i3cAnswers dest && wr.length == 7 then
    s.regRow { who := .i3c, seq := 0 } (getLe wr 0 3) (BitVec.ofNat 32 (getLe wr 3 4)) else s)

/-- A read of a sampled pair's _LO register by a session or by I3C (R943). -/
def execSampledPairRead (w : Who) (addr : Nat) (s : State) : Out :=
  match w, s.sampledValue addr with
  | .i3c, some _ => .next (if s.pins.vaux then s.i3cRead addr else s)
  | .sess k, some _ => .next (if (s.ses k.val).isOpen then (s.readReg w addr).2 else s)
  | _, _ => .next s

end Sys2Proof.Machine
end

