-- ==== Sys2Proof/Machine/Faults.lean ====
section
/-! DEFINITION. Faults and what follows them (chapter "Faults, retries and degraded operation"): link replays, parity in stored
state, memory errors, patrol scrub, closing error records, self-tests, and the lifetime store. -/

namespace Sys2Proof.Machine

/-- A task that a fault can still stop (R871, R872). -/
def State.stoppable (s : State) (key asn : Nat) : Bool :=
  match s.task? key asn with
  | some t => !s.recorded t && !t.ended && !t.retryDue && t.status.isNone
  | none => false

/-- A fault whose origin is unit u stops a task, which is retried (R866, R867); the stop counts against the unit (R883). -/
def State.faultStop (s : State) (u : Nat) (x : Nat × Nat) : State :=
  if s.stoppable x.1 x.2 then (s.retryTask x.1 x.2 u).noteFault u else s

/-! Links (R861–R863). -/

/-- Unit numbers of links (R859, R863): base-die links, channel links, mesh segments, the multicast tree and the IOD fabrics. -/
def isLink (u : Nat) : Bool :=
  (decide (0x560 ≤ u) && decide (u < 0x578)) || (decide (0x520 ≤ u) && decide (u < 0x530)) || [0x592, 0x593, 0x596].contains u

/-- A transfer is lost with its eighth replay (R863): its owners stop and are retried, everyone who waited for it reports, and a base-die
or channel link takes its unit out of service. -/
def State.linkLost (s : State) (link receiver : Nat) (owners : List (Nat × Nat)) (waiters : List Nat) : State :=
  let s1 := s.bump (aErr 0x104)
  let s2 := owners.foldl (fun (t : State) x => if t.stoppable x.1 x.2 then t.retryTask x.1 x.2 link else t) s1
  let s3 := { s2 with stops := s2.stops ++ [(s2.tick, link)] }
  let say := fun (t : State) (w : Nat) =>
    t.report { cls := clsLinkExhausted, origin := link, reporter := w, found := some s.tick }
  let s4 := (if waiters.isEmpty then [receiver] else waiters).foldl say s3
  if 0x560 ≤ link ∧ link < 0x578 then s4.removeMem (link - 0x560) else s4

/-- TRANSFER_PARITY_ERROR (R861–R863): receiver finds bad parity on a transfer of a link that has been replayed n times already. Up to the
eighth time it is replayed; then it is lost. -/
def execTransferParityError (link receiver : Nat) (n : Fin 9) (owners : List (Nat × Nat)) (waiters : List Nat) (s : State) : Out :=
  if !isLink link || !isUnit receiver || !waiters.all isUnit then .next s
  else if n.val < 8 then
    .next (((s.bump (aErr 0x100)).lifeAdd 0x4 receiver 1).report { cls := clsLinkReplay, origin := link, reporter := receiver })
  else .next (s.linkLost link receiver owners waiters)

/-! Stored state (R864–R866). -/

/-- STATE_PARITY_ERROR (R866): a word of unit u's stored state, read on behalf of a task, has bad parity. The record is made whether
the task can still be stopped or stands before a retry already (R871, R882). -/
def execStateParityError (u key asn : Nat) (s : State) : Out :=
  match s.task? key asn with
  | none => .next s
  | some t =>
    if !isUnit u then .next s
    else
      let p := (if s.stoppable key asn then { s with stops := s.stops ++ [(s.tick, failKey u)] } else s).persists u
      .next ((s.report { cls := clsStateParity, origin := u, reporter := u, ctx := t.ctx, key := key, asn := asn, persist := p }).faultStop u
        (key, asn))

/-- A corrected error is counted and reported (R864, R865, R878). -/
def State.corrected (s : State) (u a : Nat) : State :=
  let (d, s0) := s.draw
  ((s0.bump (aErr 0x110)).lifeAdd 0x3 u 1).report
    { cls := clsMemCe, origin := u, reporter := u, addr := a,
      body := natLe 8 (s.place a).offset ++ natLe 4 (Config.freeNat d) ++ zeros 4 }

/-- A byte of the tiers that is there and whose unit serves. -/
def State.tierAt (s : State) (a : Nat) : Bool := cacheable a && !s.unbackedAt a && !s.lostAt a

/-- CORRECTED_ERROR (R864, R865, R878): of a copy, counter or dirty line in a unit, or of the memory at an address. -/
def execCorrectedError (unit : Option Nat) (a : Nat) (s : State) : Out :=
  match unit with
  | some u => .next (if isUnit u then s.corrected u a else s)
  | none => .next (if s.tierAt a then s.corrected (s.place a).unit a else s)

/-! Uncorrectable errors (R879–R882). -/

/-- The line of an address holds bytes that no read corrects (R880). -/
def State.spoil (s : State) (a : Nat) : State :=
  s.setTierBad (a / 128) (2 ^ 128 - 1)

/-- An uncorrectable error that no task has read is counted and reported (R275, R881). -/
def State.ueFound (s : State) (u a : Nat) : State :=
  let (d, s0) := s.draw
  ((s0.bump (aErr 0x114)).lifeAdd 0x7 5 1).report
    { cls := clsMemUe, origin := u, reporter := u, addr := a,
      body := natLe 8 (s.place a).offset ++ natLe 4 (Config.freeNat d) ++ zeros 4 }

/-- UNCORRECTABLE_ERROR (R879–R882). A read that a slice serves with good bytes meets no error of the tier (R282). -/
def execUncorrectableError (e : UeSite) (s : State) : Out :=
  match e with
  | .read a key asn =>
    .next (if s.tierAt a && !s.heldGood (a / 128) && (s.task? key asn).isSome then (s.spoil a).dataError key asn a else s)
  | .dirty a =>
    let l := a / 128
    match s.findWay l with
    | none => .next s
    | some w =>
      match SMap.find s.dome.lines (wayKey l w) with
      | none => .next s
      | some x => .next (if x.dirty then ((((s.writeBack (wayKey l w)).spoil a).putLine (wayKey l w) { x with dirty := false, bad := 2 ^ 128 - 1 }).noteFault
          (0x500 + lineSlice l)).ueFound (0x500 + lineSlice l) (l * 128) else s)
  | .journal key asn =>
    .next (match s.task? key asn with
      | none => s
      | some t =>
        if s.recorded t || !t.accepted then s
        else
          let lost := (s.ueFound (0x568 + s.journal.a) 0).loseTask key asn
          if s.stoppable key asn then lost.noteFault (0x568 + s.journal.a) else lost)

/-- PATROL_SCRUB (R271, R274, R275): a line of a tier out of self-refresh is read and checked. -/
def execPatrolScrub (a : Nat) (r : ScrubResult) (s : State) : Out :=
  let idle := if a < glacierBase then s.pins.nearSelfRefresh else s.pins.glacierSelfRefresh
  if !s.tierAt a || idle then .next s
  else if s.tierBad (a / 128) ≠ 0 ∨ r = .uncorrectable then
    .next (((if s.tierBad (a / 128) = 0 then s.spoil a else s).ueFound (s.place a).unit a).noteFault (s.place a).unit)
  else if r == .corrected then .next (s.corrected (s.place a).unit a)
  else .next s

/-! Error records (R891). -/

/-- RECORD_CLOSE (R891): 1,000,000 ticks after it opened, the record that opened first closes. -/
def execRecordClose (seq : Nat) (s : State) : Out :=
  match s.errs.find? fun (e : ErrRec) => e.isOpen with
  | none => .next s
  | some e =>
    if e.seq ≠ seq then .next s
    else .next { s.passTo (e.first + errWindow) with errs := closeRec s.errs e }

/-! Self-tests (R894–R897). -/

/-- A failure of a self-test is counted and reported (R894, R898). -/
def State.testFailed (s : State) (u n : Nat) : State :=
  (s.lifeAdd 0x7 8 1).report { cls := clsSelfTest, origin := u, reporter := u, body := natLe 4 n ++ zeros 4 }

/-- A unit that failed the full test leaves service (R883, R896). -/
def State.removeUnit (s : State) (u : Nat) : State :=
  match unitSpire u with
  | some sp => s.removeSpire sp u
  | none =>
    if 0x560 ≤ u ∧ u < 0x578 then s.removeMem (u - 0x560)
    else if 0x580 ≤ u ∧ u < 0x588 then s.loseLane (u - 0x580)
    else s

/-- ERR_TEST_STATUS once a test has ended. -/
def State.testStatus (s : State) (pass : Bool) : State :=
  ({ s with tests := s.tests.drop 1 }.setB (aErr 0x01C) 31 (1 < s.tests.length)).setB (aErr 0x01C) 30 pass

/-- A Spire's test ends (R894, R895): fails are the units of it that failed, each of them the origin of its report. -/
def State.spireTested (s : State) (sp : Nat) (auto out : Bool) (fails : List Nat) (n : Nat) : State :=
  let u := 0x400 + 4 * sp
  let s1 := ((s.loseSpireMem sp).testStatus fails.isEmpty).setF (aErr 0x01C) 0 6 sp
  if fails.isEmpty then s1.setF (aSpire sp 0) 28 4 (if auto then 1 else 3)
  else
    let s2 := (fails.foldl (fun (t : State) f => t.testFailed f n) s1).setSpireState sp 5
    if out then s2 else (s2.lifeAdd 0x6 u 1).report { cls := clsUnitOut, origin := u, reporter := u }

/-- SELF_TEST_COMPLETE (R894–R896) of the test that started first: the failing units, of those tested, and the number of the test that
failed. -/
def execSelfTestComplete (fails : List Nat) (n : Nat) (s : State) : Out :=
  if !s.works then .next s else
  match s.tests with
  | [] => .next s
  | .spire sp auto out :: _ => .next ((s.lifeAdd 0x7 7 1).spireTested sp auto out (fails.filter fun u => unitSpire u == some sp) n)
  | .full :: _ =>
    let s1 := (s.lifeAdd 0x7 7 1).testStatus fails.isEmpty
    .next ((fails.filter isUnit).foldl (fun (t : State) u => (t.testFailed u n).removeUnit u) s1)

/-- The Spires in index order from one on, cyclically, without those that are not there. -/
def State.spiresFrom (s : State) (n : Nat) : List Nat :=
  ((List.range 64).map fun i => (n + i) % 64).filter fun sp => s.spireState sp != 0

/-- The automatic test of a Spire starts once it is drained; the next one's turn follows (R897). -/
def State.autoTest (s : State) (sp : Nat) : State :=
  if s.spireState sp = 3 then { (s.testSpire sp true) with autoNext := (sp + 1) % 64, autoDrain := false } else s

/-- AUTOTEST_TIMER (R897): the next Spire is drained and tested, or skipped; a Spire that has begun to drain is tested when it is
drained. -/
def execAutotestTimer (s : State) : Out :=
  if s.rf (aErr 0x004) 16 16 = 0 || !s.fwRuns || !s.tests.isEmpty then .next s
  else match s.spiresFrom s.autoNext with
    | [] => .next s
    | sp :: _ =>
      if s.autoDrain && (s.spireState sp = 2 || s.spireState sp = 3) then .next (s.autoTest sp)
      else if s.drainBad sp then .next { s with autoNext := (sp + 1) % 64, autoDrain := false }
      else .next ({ s with autoNext := sp, autoDrain := true }.drainStart sp |>.autoTest sp)

/-! The lifetime store (R898, R899). -/

/-- The second that each quadrant has spent at its junction temperature, supply voltage and pace (R898). -/
def State.lifeQuad (s : State) (q : Nat) : State :=
  let r := s.reg (aPace q)
  let tj := max 0 (min 165 (sext 8 (rfld r 24 8) + 40))
  let v := min 60 (rfld r 16 8 - 110)
  ((s.lifeAdd 0x0 (256 * q + tj.toNat) 1).lifeAdd 0x1 (64 * q + v) 1).lifeAdd 0x2 (128 * q + min (rfld r 0 16 / 20) 127) 1

/-- LIFETIME_ACCUMULATE (R899): the SMD adds a second's counts; the quadrants have theirs while the main rails are up (log entry 145). -/
def execLifetimeAccumulate (s : State) : Out :=
  if !s.pins.vaux then .next s
  else
    let s1 := if s.pins.pwrGood then (List.range 4).foldl State.lifeQuad s else s
    let s2 := s1.lifeAdd 0x7 0 1
    .next { s2 with smd := { s2.smd with
      lifeNew := s2.smd.lifeSec.foldl (fun (m : SMap Nat) (e : Nat × Nat) => SMap.set m 0 e.1 (SMap.get m 0 e.1 + e.2)) s2.smd.lifeNew,
      lifeSec := [] } }

/-- LIFETIME_MRAM_WRITE (R899). -/
def execLifetimeMramWrite (s : State) : Out := .next (if s.pins.vaux then s.lifeFlush else s)

end Sys2Proof.Machine
end

