-- ==== Sys2Proof/Machine/Messages.lean ====
section
/-! DEFINITION. Requests of the wire protocol that need no journal (R190–R198, R217–R223, R810–R815, R939–R945): memory, results,
registers, signals, timed starts, telemetry and firmware. -/

namespace Sys2Proof.Machine

/-- The refusal that comes before every check of a message (R109, R850): a NAK reason, or 0. held tells that a replay refuses the
message. -/
def State.gate (s : State) (held : Bool) : Nat :=
  if s.devState = stRecovery then nkState else if held && s.replaying then nkState else 0

/-! Memory. -/

/-- A WRITE's refusal (R173, R190, R192, R946): a NAK reason, or 0. -/
def State.writeRefusal (s : State) (w : Who) (p : List Byte) : Nat :=
  let c := getLe p 0 1
  let n := p.length - 16
  if p.length < 16 ∨ 15 < c ∨ !zeroAt p 1 7 then nkMalformed
  else if !s.mayCtx w c || (s.checkAcc c (getLe p 8 8) n .wr).isSome then nkPermission
  else if s.inUse (getLe p 8 8) n false then nkInUse
  else 0

/-- A partner's write of memory, with its replay record (R844, R880). -/
def State.storeData (s : State) (key c ref a : Nat) (d : List Byte) : State :=
  (s.record 0x03 key c ref (some d) (natLe 1 c ++ zeros 7 ++ natLe 8 a ++ natLe 8 d.length)).writeTier a d

/-- A WRITE (R190, R192, R193). -/
def State.writeMsg (s : State) (r : Req) (p : List Byte) : State :=
  let n := s.writeRefusal r.who p
  if n ≠ 0 then s.refuse r tyWrite n 0
  else s.storeData (s.recKey r.who) (getLe p 0 1) r.seq (getLe p 8 8) (p.drop 16)

/-- A READ (R190–R192, R267). -/
def State.readMsg (s : State) (r : Req) (p : List Byte) : State :=
  let c := getLe p 0 1
  let a := getLe p 8 8
  let n := getLe p 0x10 4
  let bad := s.checkAcc c a n .rd
  let no := fun (t : State) m => t.refuse r tyRead m 0
  if s.gate false ≠ 0 then no s nkState
  else if p.length ≠ 0x18 ∨ 15 < c ∨ !zeroAt p 1 7 ∨ n = 0 ∨ 1048576 < n then no s nkMalformed
  else if !s.mayCtx r.who c then no s nkPermission
  else if bad.isSome then no (s.noteBad c (s.keyOf r.who) bad) nkPermission
  else if s.inUse a n true then no s nkInUse
  else
    let (b, t) := s.readTier a n
    t.sendReadData (whoIdx r.who) (getLe p 0x14 4) b

/-- READ (R191). -/
def execRead (r : Req) (p : List Byte) (s : State) : Out := .next (s.onMsg r tyRead p fun t => t.readMsg r p)

/-! Results. -/

/-- RESULT messages with the slot header and data from an offset on, as large as MAXPAY allows (R216, R218). -/
def sendResults : Nat → State → Nat → List Byte → List Byte → State
  | 0, s, _, _, _ => s
  | n + 1, s, i, h, d =>
    let k := s.maxPay i - 64
    let s1 := s.answer i tyResult (h ++ d.take k)
    if d.length ≤ k then s1 else sendResults n s1 i h (d.drop k)

/-- GET_RESULT (R212, R217–R219). -/
def State.getResult (s : State) (r : Req) (p : List Byte) : State :=
  let i := whoIdx r.who
  let q := s.key (s.ses i).key
  let asn := getLe p 0 8
  let off := getLe p 8 4
  let no := fun m v => s.refuse r tyGetResult m v
  if s.gate false ≠ 0 then no nkState 0
  else if p.length ≠ 16 then no nkMalformed 0
  else if (s.task? (s.ses i).key asn).isSome then no nkNotReady q.lastCommitted
  else if !q.unreleased.contains asn || s.lostAt (s.rslotAt i asn) then no nkNoResult 0
  else
    let (h, t) := s.readTier (s.rslotAt i asn) 64
    let stop := min (off + getLe p 12 4) (getLe h 0x14 4)
    let (d, u) := t.readTier (s.rslotAt i asn + 64 + off) (stop - off)
    sendResults (d.length + 1) u i h d

/-- GET_RESULT (R218). -/
def execGetResult (r : Req) (p : List Byte) (s : State) : Out := .next (s.onMsg r tyGetResult p fun t => t.getResult r p)

/-- The results of a range are released: COMMIT_SEQ is cleared in their slots (R220, R221). -/
def State.freeResults (s : State) (k asn count : Nat) : State :=
  let v := s.key k
  let hit := fun (n : Nat) => decide (asn ≤ n) && decide (n < asn + count)
  (s.clearSlots k (v.unreleased.filter hit)).setKey k { v with unreleased := v.unreleased.filter fun n => !hit n }

/-- Why a range cannot be released (R220): a NAK reason and VALUE. -/
def KeySlot.releaseRefusal (v : KeySlot) (asn count : Nat) : Option (Nat × Nat) :=
  if max asn (v.lastCommitted + 1) ≤ min (asn + count - 1) v.lastIssued then some (nkNotReady, v.lastCommitted)
  else if v.lastIssued < asn + count - 1 then some (nkNoResult, max asn (v.lastIssued + 1))
  else none

/-- A RELEASE of key k, with its replay record. -/
def State.releaseOf (s : State) (k ref asn count : Nat) : State :=
  (s.record 0x09 k 0 ref none (natLe 8 asn ++ natLe 4 count)).freeResults k asn count

/-- RELEASE (R212, R220). -/
def State.releaseMsg (s : State) (r : Req) (p : List Byte) : State :=
  let k := (s.ses (whoIdx r.who)).key
  let asn := getLe p 0 8
  let count := getLe p 8 4
  if s.gate false ≠ 0 then s.refuse r tyRelease nkState 0
  else if p.length ≠ 16 ∨ count = 0 ∨ !zeroAt p 12 4 then s.refuse r tyRelease nkMalformed 0
  else match (s.key k).releaseRefusal asn count with
    | some (n, v) => s.refuse r tyRelease n v
    | none => s.releaseOf k r.seq asn count

/-- RELEASE (R220). -/
def execRelease (r : Req) (p : List Byte) (s : State) : Out := .next (s.onMsg r tyRelease p fun t => t.releaseMsg r p)

/-- An uncommitted task is cancelled (R222, R873): its record is marked, its items stop, and it will commit ABORTED_BY_PARTNER. -/
def State.cancelTask (s : State) (key asn : Nat) : State :=
  ((s.modTask key asn fun t => { t with cancelled := true, retryDue := false, status := some (stAborted, 0) }).stopTask key asn).endTask
    key asn

/-- CANCEL (R222, R223); an ASN that was never issued has no result. -/
def State.cancelMsg (s : State) (r : Req) (p : List Byte) : State :=
  let k := (s.ses (whoIdx r.who)).key
  let asn := getLe p 0 8
  let no := fun m => s.refuse r tyCancel m 0
  if s.gate false ≠ 0 then no nkState
  else if p.length ≠ 8 then no nkMalformed
  else if ((s.task? k asn).any fun t => !s.recorded t) then (s.record 0x08 k 0 r.seq none (natLe 8 asn)).cancelTask k asn
  else if 1 ≤ asn ∧ asn ≤ (s.key k).lastIssued then no nkCommitted
  else no nkNoResult

/-- CANCEL (R222). -/
def execCancel (r : Req) (p : List Byte) (s : State) : Out := .next (s.onMsg r tyCancel p fun t => t.cancelMsg r p)

/-! Registers. -/

/-- The registers that a CONTROL_RD or CONTROL_WR names lie outside the register space (R939). -/
def ctlRange (reg n : Nat) : Bool := reg % 4 != 0 || decide (0x140000 < reg + 4 * n)

/-- CONTROL_RD (R939–R941, R945). -/
def State.controlRd (s : State) (r : Req) (p : List Byte) : State :=
  let reg := getLe p 0 4
  let n := getLe p 4 2
  let no := fun m v => s.refuse r tyControlRd m v
  if s.devState = stRecovery ∧ 0x10000 < reg + 4 * n then no nkState 0
  else if p.length ≠ 12 ∨ !zeroAt p 6 2 ∨ n = 0 ∨ 256 < n then no nkMalformed 0
  else if ctlRange reg n then no nkMalformed reg
  else
    let (b, t) := s.readRegs n r.who reg
    t.sendReadData (whoIdx r.who) (getLe p 8 4) b

/-- CONTROL_RD (R941). -/
def execControlRd (r : Req) (p : List Byte) (s : State) : Out := .next (s.onMsg r tyControlRd p fun t => t.controlRd r p)

/-- The DET block holds every register of a CONTROL_WR (R850). -/
def inDet (reg n : Nat) : Bool := decide (0xF0100 ≤ reg) && decide (reg + 4 * n ≤ 0xF0200)

/-- CONTROL_WR (R196, R850, R918, R939, R942, R945, R958): the key command and the queue-pair command take their whole message. -/
def State.controlWr (s : State) (r : Req) (p : List Byte) : State :=
  let reg := getLe p 0 4
  let n := getLe p 4 2
  let no := fun m v => s.refuse r tyControlWr m v
  if s.gate (!inDet reg n) ≠ 0 then no nkState 0
  else if p.length ≠ 8 + 4 * n ∨ !zeroAt p 6 2 ∨ n = 0 ∨ 256 < n then no nkMalformed 0
  else if ctlRange reg n then no nkMalformed reg
  else if reg = 0x10100 ∧ n = 18 then State.seqAnswer r (s.ctlQp r (p.drop 8))
  else State.seqAnswer r (s.ctlRun r (reg = 0x120010 ∧ n = 9) (ctlPairs reg (p.drop 8) n))

/-- CONTROL_WR (R942): it waits while another message's sequence of writes has not ended. -/
def execControlWr (r : Req) (p : List Byte) (s : State) : Out :=
  .next (if s.ctlHeld then s else s.onMsg r tyControlWr p fun t => t.controlWr r p)

/-- The CONTROL_WR that formed the group has been answered and is done, where its session still stands (R788). -/
def State.finishForm (s : State) (r : Req) : State :=
  let v := s.ses (whoIdx r.who)
  if v.isOpen && (v.head?.any fun m => m.seq == r.seq && m.typ == tyControlWr) && !s.waits r then s.finish (whoIdx r.who) else s

/-- Formation has ended: the write of FORM is answered, or the writes after it go on (R196, R788). -/
def formEnd (f : Formation) (w : WRes) : State :=
  let say := fun (t : State) n a =>
    (if (t.ses (whoIdx f.req.who)).isOpen && f.req.seq != 0 then t.nakReg f.req n a else t)
  match w with
  | .nak t n => (say t n (aPeer 0)).finishForm f.req
  | .ok t | .pend t =>
    match t.ctlRun f.req false f.rest with
    | .done u => u.finishForm f.req
    | .wait u => u
    | .stop u n a => (say u n a).finishForm f.req

/-- PEER_FORMATION_COMPLETE (R788, R789): every rank's exchange is complete. mixed: a lower rank reports another firmware version. -/
def execPeerFormationComplete (mixed : Bool) (s : State) : Out :=
  match s.form with
  | none => .next s
  | some f =>
    if !s.allReached || s.peerState != 1 then .next s
    else .next (formEnd f (s.formDone f (mixed && decide (0 < s.myRank))))

/-- PEER_FORMATION_TIMEOUT (R788): 10 s have passed, and formation fails where some rank has not completed its exchange. -/
def execPeerFormationTimeout (s : State) : Out :=
  match s.form with
  | none => .next s
  | some f => if s.peerState = 1 && s.allReached then .next s else .next (formEnd f (s.formFail f))

/-! Signals and timed starts. -/

/-- The checks of R811 on CONTEXT, VC and VALUE: a NAK reason, or 0. -/
def State.signalRefusal (s : State) (w : Who) (c vc v : Nat) (rsvOk : Bool) : Nat :=
  let partner := match w with | .sess _ => true | _ => false
  if v = 0 ∨ 15 < c ∨ !rsvOk then nkMalformed
  else if partner && !s.mayCtx w c then nkPermission
  else if !s.ctxEn c then nkCtxDisabled
  else match s.translate c vc with
    | some (.ctr _) => 0
    | _ => nkPermission

/-- An addition from outside any task, through the context's map (R738, R811, R813). -/
def State.addFrom (s : State) (c vc v : Nat) : State :=
  match s.translate c vc with
  | some (.ctr p) => s.addCtr c 0xFF 0 vc p v
  | _ => s

/-- SIGNAL (R810–R812). -/
def State.signalMsg (s : State) (r : Req) (p : List Byte) : State :=
  let c := getLe p 0 1
  let vc := getLe p 2 2
  let v := getLe p 4 4
  let n := s.signalRefusal r.who c vc v (zeroAt p 1 1)
  if s.gate true ≠ 0 then s.refuse r tySignal nkState 0
  else if p.length ≠ 8 then s.refuse r tySignal nkMalformed 0
  else if n ≠ 0 then s.refuse r tySignal n 0
  else (s.record 0x06 (s.recKey r.who) c r.seq none p).addFrom c vc v

/-- SIGNAL (R811). -/
def execSignal (r : Req) (p : List Byte) (s : State) : Out := .next (s.onMsg r tySignal p fun t => t.signalMsg r p)

/-- The timebase lacks a lock that a timed start needs (R161, R814). -/
def State.timeUnlocked (s : State) : Bool := !s.rb aPortStatus 7 || (s.rb aPortCfg 3 && !s.rb aPortStatus 6)

/-- Ticks from now to a PTP time, by the TIME block's offset (R158, R813). -/
def State.untilPtp (s : State) (at' : Nat) : Int := sext 64 (wrapInt 64 ((at' : Int) - s.ptp.offset.toNat - s.tick))

/-- The ranks to which a START_AT with FANOUT goes on (R815). -/
def State.fanRanks (s : State) (p : List Byte) : List Nat := if nbit (getLe p 1 1) 0 && s.groupFormed then s.otherRanks else []

/-- A START_AT goes on to the other ranks, with FANOUT cleared (R815); a rank without a session refuses. -/
def State.fanOut (s : State) (r : Req) (p : List Byte) : State :=
  let ranks := s.fanRanks p
  if ranks.isEmpty then s
  else
    let go := fun (q : Nat) => (s.ses (16 + q)).isOpen
    let f : Fanout := { req := r, due := (ranks.filter go).map fun q => (q, (s.ses (16 + q)).txNext),
                        refused := (ranks.filter fun q => !go q).map fun q => (q, nkState) }
    (ranks.filter go).foldl (fun t q => t.sendSeq (16 + q) tyStartAt (putBytes p 1 (natLe 1 (getLe p 1 1 - 1))))
      { s with fanouts := s.fanouts ++ [f] }

/-- START_AT (R813–R815): the timebase is the enable check's TIMEBASE_UNLOCKED. A refusal on this rank names it where FANOUT is set. -/
def State.startAt (s : State) (r : Req) (p : List Byte) : State :=
  let c := getLe p 0 1
  let vc := getLe p 2 2
  let v := getLe p 4 4
  let n := s.signalRefusal r.who c vc v (decide (getLe p 1 1 < 2))
  let no := fun (t : State) m => t.refuse r tyStartAt m (if (s.fanRanks p).isEmpty then 0 else s.myRank)
  if s.gate true ≠ 0 then s.refuse r tyStartAt nkState 0
  else if p.length ≠ 16 then s.refuse r tyStartAt nkMalformed 0
  else if n ≠ 0 then no s n
  else
    let code := if s.timeUnlocked then rcTime else 0
    let s1 := s.answerCtx c code { source := 0x07, key := s.keyOf r.who }
    let d := s1.untilPtp (getLe p 8 8)
    if code ≠ 0 then no s1 code
    else if d < 10000 then no s1 nkState
    else if 64 ≤ s1.starts.length then no s1 nkBusy
    else
      let x : TStart := { tick := s1.tick + d.toNat, ctx := c, vc := vc, value := v }
      let s2 := s1.record 0x07 (s1.recKey r.who) c r.seq none p
      { s2 with starts := s2.starts ++ [x] }.fanOut r p

/-- START_AT (R814). -/
def execStartAt (r : Req) (p : List Byte) (s : State) : Out := .next (s.onMsg r tyStartAt p fun t => t.startAt r p)

/-- TIMED_START_FIRE (R813): the tick counter reaches the tick of pending start n, none of which is due earlier. -/
def execTimedStartFire (n : Nat) (s : State) : Out :=
  if !s.works then .next s else
  match s.starts[n]? with
  | none => .next s
  | some x =>
    if s.starts.any fun (y : TStart) => decide (y.tick < x.tick) then .next s
    else .next ({ s.passTo x.tick with starts := s.starts.eraseIdx n }.addFrom x.ctx x.vc x.value)

/-! Telemetry and firmware. -/

/-- The registers of each telemetry set (log entry 20). -/
def telRegs (set : Nat) : List Nat :=
  (if nbit set 0 then regRange 0x100 0x11C else []) ++ (if nbit set 1 then regRange 0x10000 0x10014 else [])
    ++ (if nbit set 2 then regRange (aErr 0x008) (aErr 0x010) else []) ++ (if nbit set 3 then regRange (aDisp 0x100) (aDisp 0x118) else [])

/-- TELEMETRY from a partner. -/
def State.telemetry (s : State) (r : Req) (p : List Byte) : State :=
  let i := whoIdx r.who
  let per := getLe p 0 8
  let v := s.ses i
  if s.gate false ≠ 0 then s.refuse r tyTelemetry nkState 0
  else if p.length ≠ 12 ∨ (per ≠ 0 ∧ per < 1000000) ∨ 15 < getLe p 8 4 then s.refuse r tyTelemetry nkMalformed 0
  else s.setSes i { v with telPeriod := per, telSet := getLe p 8 4, telDue := s.tick + per }

/-- TELEMETRY (R170). -/
def execTelemetry (r : Req) (p : List Byte) (s : State) : Out := .next (s.onMsg r tyTelemetry p fun t => t.telemetry r p)

/-- The values of registers, each read at its own moment. -/
def State.readList (s : State) (w : Who) : List Nat → List Byte × State
  | [] => ([], s)
  | a :: l =>
    let (v, s1) := s.readReg w a
    let (b, s2) := s1.readList w l
    (natLe 4 v.toNat ++ b, s2)

/-- TELEMETRY_REPORT (R170): a session's telemetry period ends and its sets are sent. -/
def execTelemetryReport (k : Fin 8) (s : State) : Out :=
  let v := s.ses k.val
  if !v.isOpen || v.telPeriod = 0 then .next s
  else
    let s0 := s.passTo v.telDue
    let s1 := s0.setSes k.val { v with telDue := s0.tick + v.telPeriod }
    let (b, s2) := s1.readList (.sess k) (telRegs v.telSet)
    .next (s2.sendSeq k.val tyTelemetry (natLe 8 s0.tick ++ natLe 4 v.telSet ++ b))

/-- A FIRMWARE message's refusal (R110, R173, R198): a NAK reason, or 0. -/
def State.fwRefusal (s : State) (r : Req) (p : List Byte) : Nat :=
  let off := getLe p 0 8
  let k := match r.who with | .sess k => some k | _ => none
  if p.length < 16 ∨ 1 < getLe p 8 4 ∨ !zeroAt p 12 4 then nkMalformed
  else if !s.isOwner (whoIdx r.who) then nkPermission
  else if s.devState ≠ stReady ∧ s.devState ≠ stMaint ∧ s.devState ≠ stRecovery then nkState
  else if off ≠ 0 ∧ (s.boot.updOwner ≠ k ∨ off ≠ s.boot.updNext) then nkState
  else 0

/-- Image bytes: the first 4 KiB are held in the SMD, the rest goes to flash; the message with OFFSET 0 erases the header's sector first
(R111, R198). -/
def State.fwData (s : State) (r : Req) (off : Nat) (d : List Byte) : State :=
  let k := match r.who with | .sess k => some k | _ => none
  let old := if off = 0 then [] else s.boot.updHead
  let f0 := if off = 0 then Mem.writeN s.flash 0 (List.replicate 4096 0xFF) else s.flash
  { s with
    flash := Mem.writeN f0 (max off 4096) (d.drop (4096 - off)),
    boot := { s.boot with updOwner := k, updNext := off + d.length, updHead := old ++ d.take (4096 - off) } }

/-- FIRMWARE (R110–R112, R198): with LAST the header is written, and a cold reset follows. -/
def State.firmware (s : State) (r : Req) (p : List Byte) : State :=
  let n := s.fwRefusal r p
  if n ≠ 0 then s.refuse r tyFirmware n 0
  else
    let s1 := s.fwData r (getLe p 0 8) (p.drop 16)
    if nbit (getLe p 8 4) 0 then
      ({ s1 with flash := Mem.writeN s1.flash 0 s1.boot.updHead }.coldReset 0x6).startBoot
    else s1

/-- FIRMWARE (R198). -/
def execFirmware (r : Req) (p : List Byte) (s : State) : Out := .next (s.onMsg r tyFirmware p fun t => t.firmware r p)

end Sys2Proof.Machine
end

