-- ==== Sys2Proof/Machine/Submit.lean ====
section
/-! DEFINITION. Accepted work from SUBMIT to commit (R199–R216, R415, R678, R679, R828–R830, R847, R854): loading programs, admission,
the journal and the commit of a task. -/

namespace Sys2Proof.Machine

/-! Programs. -/

/-- Why an image cannot be a program (R413–R415): MALFORMED, UNSUPPORTED or 0. -/
def State.imageRefusal (s : State) (b : List Byte) : Nat :=
  let p : Program := { image := b }
  let secs := [(0, 0x40 + 8 * p.nEntry), (p.codeOff, p.codeLen), (p.descOff, p.descLen)]
  let apart := secs.Pairwise fun x y => !overlaps x.1 x.2 y.1 y.2
  if getLe b 0 4 ≠ 0x50534E53 then nkMalformed
  else if getLe b 4 2 ≠ s.fwMajor then nkUnsupported
  else if b.length < 0x40 ∨ 2 ^ 24 < b.length ∨ p.nEntry = 0 ∨ 256 < p.nEntry ∨ p.codeOff % 128 ≠ 0 ∨ p.codeLen % 8 ≠ 0
      ∨ p.descOff % 64 ≠ 0 ∨ p.descLen % 64 ≠ 0 ∨ getLe b 0x18 8 ≠ b.length ∨ !zeroAt b 0x20 32
      ∨ (secs.any fun x => decide (b.length < x.1 + x.2)) ∨ ¬ apart
      ∨ ((List.range p.nEntry).any fun n => p.entryPc n % 8 != 0 || decide (p.codeLen ≤ p.entryPc n)) then nkMalformed
  else 0

/-- Bytes of a tier written through the Dome cache, granule by granule: what would go to a failed stack or channel is lost (R257). -/
def State.putOwn (s : State) (a : Nat) (b : List Byte) : State :=
  (granules a b.length).foldl (fun u g =>
    let lo := max g a
    if u.unbackedAt g || u.lostAt g then u else u.writeTier lo (slice b (lo - a) (min (g + 4096) (a + b.length) - lo))) s

/-- The image's bytes are written in the glacier area, every one of them (R412, R967). -/
def State.storeImage (s : State) (c : Nat) (b : List Byte) : State := s.putOwn (s.imageAddr c) b

/-- A program is installed in a context (R116, R418, R755, R967), with its replay record; every installation switches the context. -/
def State.installProgram (s : State) (c key ref : Nat) (b : List Byte) : State :=
  let s1 := ((s.record 0x04 key c ref (some b) (shake256 b 32)).setB (aCtxStatus c) 1 true).storeImage c b
  { s1 with progs := SMap.put s1.progs c { image := b }, icache := s1.icache.filter fun e => e.2.tag % 16 != c }.ctxSwitch c

/-- A LOAD_PROGRAM message's refusal before its bytes are looked at (R173, R195, R946): a NAK reason, or 0. -/
def State.loadRefusal (s : State) (w : Who) (p : List Byte) : Nat :=
  let c := getLe p 0 1
  if p.length < 16 ∨ 15 < c ∨ 1 < getLe p 1 1 ∨ !zeroAt p 2 6 then nkMalformed
  else if !s.mayCtx w c then nkPermission
  else if s.ctxActive c then nkBusy
  else 0

/-- The key of the bytes that a session slot has loaded for a context. The manual does not say whether they outlast the session: a later
session on the slot may go on with them (log entry 134). -/
def loadKey (w : Who) (c : Nat) : Nat := 16 * whoIdx w + c

/-- The bytes of an image so far with a message's; none where OFFSET does not continue them (R194) or the image grows too large. -/
def State.loadBytes (s : State) (w : Who) (p : List Byte) : Option (List Byte) :=
  let have_ := if getLe p 8 8 = 0 then [] else SMap.get s.loads [] (loadKey w (getLe p 0 1))
  if getLe p 8 8 ≠ have_.length ∨ 2 ^ 24 < have_.length + (p.length - 16) then none else some (have_ ++ p.drop 16)

/-- LAST of LOAD_PROGRAM. -/
def loadLast (p : List Byte) : Bool := nbit (getLe p 1 1) 0

/-- The image that LAST completes is checked and installed (R194, R415); a refusal leaves the bytes before it, so that the message may come
again (R121). -/
def State.loadImage (s : State) (r : Req) (c : Nat) (b : List Byte) : State :=
  let n := s.imageRefusal b
  if n ≠ 0 then s.refuse r tyLoad n 0
  else
    let code := s.checkLoad c { image := b }
    let s1 := s.answerCtx c code { source := 0x04, key := s.keyOf r.who }
    if code ≠ 0 then s1.refuse r tyLoad code 0
    else { s1 with loads := SMap.erase s1.loads (loadKey r.who c) }.installProgram c (s1.recKey r.who) r.seq b

/-- LOAD_PROGRAM (R194, R195, R415). -/
def State.loadMsg (s : State) (r : Req) (p : List Byte) : State :=
  let c := getLe p 0 1
  let n := s.loadRefusal r.who p
  if n ≠ 0 then s.refuse r tyLoad n 0
  else match s.loadBytes r.who p with
    | none => s.refuse r tyLoad nkMalformed 0
    | some b =>
      if loadLast p then s.loadImage r c b
      else { s with loads := SMap.put s.loads (loadKey r.who c) b }

/-! SUBMIT. -/

/-- The buffer entries of a SUBMIT. -/
def subBufs (p : List Byte) : List Buf :=
  (List.range (getLe p 0x1C 1)).map fun i =>
    { addr := getLe p (0x30 + 16 * i) 8, len := getLe p (0x38 + 16 * i) 6, kind := getLe p (0x3E + 16 * i) 1 }

/-- A SUBMIT is well formed (R202). -/
def subOk (p : List Byte) : Bool :=
  let n := getLe p 0x1C 1
  decide (1 ≤ n) && decide (n ≤ 32) && p.length == 0x30 + 16 * n && decide (getLe p 0 1 < 16) && decide (getLe p 1 1 < 8)
    && decide (getLe p 2 2 < 16) && getLe p 8 8 != 0 && decide (1 ≤ getLe p 0x18 4) && zeroAt p 0x1D 3 && zeroAt p 0x2C 4
    && (subBufs p).all (fun b => decide (b.kind < 3)) && (List.range n).all fun i => zeroAt p (0x3F + 16 * i) 1

/-- A buffer lies in a window that grants what its kind needs. -/
def State.bufInWindow (s : State) (c : Nat) (b : Buf) : Bool :=
  (List.range 64).any fun w => s.winCovers c w b.addr b.len && s.winGrants c w (if b.kind = 0 then .rd else .wr)

/-- An output buffer overlaps another input buffer; an in-out buffer is both, and is compared with the other entries alone (log entry
154). -/
def bufClash (l : List Buf) : Bool :=
  let n := l.length
  (List.range n).any fun i => (List.range n).any fun j =>
    match l[i]?, l[j]? with
    | some a, some b => i != j && a.kind != 0 && b.kind != 1 && overlaps a.addr a.len b.addr b.len
    | _, _ => false

/-- The check of SUBMIT (R118): OUTPUT_OVERLAPS_INPUT, DEADLINE_NOT_REALTIME or 0. -/
def State.subCode (s : State) (p : List Byte) : Nat :=
  lowestCode [
    (rcOut, !nbit (getLe p 2 2) 0 && bufClash (subBufs p)),
    (rcDeadline, nbit (getLe p 2 2) 2 && !s.rb (aCtxCtl (getLe p 0 1)) 3)]

/-- Admission checks of R202 after the token test, up to the check of SUBMIT: a NAK reason, or 0. -/
def State.subRefusal (s : State) (may : Bool) (p : List Byte) : Nat :=
  let c := getLe p 0 1
  if !may then nkPermission
  else if s.devState ≠ stRun ∨ !s.rb aDevCtl 0 ∨ s.journal.single then nkState
  else if !s.ctxEn c || s.rb (aCtxStatus c) 2 then nkCtxDisabled
  else if (subBufs p).any fun b => !s.bufInWindow c b then nkPermission
  else 0

/-- Admission checks of R202 on the result slot of key k: a NAK reason and VALUE; i is the session slot. -/
def State.slotRefusal (s : State) (k i : Nat) (p : List Byte) : Option (Nat × Nat) :=
  let q := s.key k
  let n := q.lastIssued + 1
  if s.rslotSize i < getLe p 0x28 4 + 64 then some (nkTooLarge, 0)
  else match q.unreleased.filter fun a => a % s.rslots i == n % s.rslots i with
    | [] => none
    | a :: l => some (nkSlotBusy, l.foldl min a)

/-- The bits of CTX_CTL that a task keeps, as the special register MODE shows them (R821). -/
def State.modeOf (s : State) (c : Nat) : Nat :=
  (if s.rb (aCtxCtl c) 4 then 1 else 0) + (if s.rb (aCtxCtl c) 3 then 2 else 0) + (if s.rb (aCtxCtl c) 2 then 4 else 0)

/-- The task that a SUBMIT makes (R203, R704, R821, R832, R847): asn of the key, answered on session sess as message seq. -/
def State.newTask (s : State) (key asn sess seq : Nat) (p : List Byte) : Task :=
  let c := getLe p 0 1
  let bufs := subBufs p
  { key := key, asn := asn, token := getLe p 8 8, ctx := c, prio := getLe p 1 1, flags := getLe p 2 2, entry := getLe p 4 4,
    itemSrc := getLe p 0x10 8, itemCount := getLe p 0x18 4, bufs := bufs, deadline := getLe p 0x20 8,
    resultMax := getLe p 0x28 4, tick := s.tick, payload := p, mode := s.modeOf c, sess := sess, seq := seq,
    lspires := s.rf (aCtx c 0x020) 16 7, group := if s.groupFormed then s.groupSize else 1,
    calve := (s.reg (aDisp 0x008)).toNat, fragment := s.rf (aDisp 0x00C) 0 21,
    inDigests := (bufs.filter fun b => b.kind != 1).map fun b => shake256 (s.peek b.addr b.len) 32 }

/-- The input and in-out buffers of a SUBMIT are read through the Dome cache for their digests (R33, R847). -/
def State.readInputs (s : State) (p : List Byte) : State :=
  ((subBufs p).filter fun b => b.kind != 1).foldl (fun t b => t.touchRange b.addr b.len) s

/-- A task is admitted under the next ASN of its key (R27, R199, R203), with its replay record. -/
def State.enrol (s : State) (key sess seq : Nat) (p : List Byte) : State :=
  let q := s.key key
  let asn := q.lastIssued + 1
  let s1 := (s.readInputs p).record 0x01 key (getLe p 0 1) asn none p
  let s2 := { s1 with tasks := s1.tasks ++ [s1.newTask key asn sess seq p] }
  s2.setKey key { q with lastIssued := asn, tokenAccepted := max q.tokenAccepted (getLe p 8 8), unreleased := q.unreleased ++ [asn] }

/-- The ACCEPT payload. -/
def acceptPayload (t : Task) : List Byte := natLe 8 t.token ++ natLe 8 t.asn ++ natLe 8 t.tick

/-- A SUBMIT whose task is journaled already is answered with its ACCEPT, once its journal writes are complete (R201, R203). -/
def State.reAccept (s : State) (r : Req) (t : Task) : State :=
  if t.accepted then s.answer (whoIdx r.who) tyAccept (acceptPayload t)
  else s.modTask t.key t.asn fun x => { x with sess := whoIdx r.who, seq := r.seq }

/-- No task is admitted for now: the journal is full, or its mirror is being copied (R204, R207). -/
def State.admitHeld? (s : State) : Bool := s.journalFull || s.journal.mirroring

/-- The checks of R202 in their order, and the admission. -/
def State.submitNow (s : State) (r : Req) (p : List Byte) : State :=
  let i := whoIdx r.who
  let k := (s.ses i).key
  let c := getLe p 0 1
  let no := fun (t : State) n v => t.refuse r tySubmit n v
  if !subOk p then no s nkMalformed 0
  else match s.tasks.find? fun t => t.key == k && t.token == getLe p 8 8 with
    | some t => s.reAccept r t
    | none =>
      if getLe p 8 8 ≤ (s.key k).tokenAccepted then no s nkDuplicate 0
      else if s.subRefusal (s.mayCtx r.who c) p ≠ 0 then no s (s.subRefusal (s.mayCtx r.who c) p) 0
      else
        let code := s.subCode p
        let s1 := s.answerCtx c code { source := 0x05, key := s.keyOf r.who }
        if code ≠ 0 then no s1 code 0
        else match s1.slotRefusal k i p with
          | some (n, v) => no s1 n v
          | none => s1.enrol k i r.seq p

/-- SUBMIT (R109, R202, R207, R850). -/
def State.submitMsg (s : State) (r : Req) (p : List Byte) : State :=
  let i := whoIdx r.who
  if s.gate true ≠ 0 then s.refuse r tySubmit nkState 0
  else if s.admitHeld? then s.setSes i { s.ses i with held := true }
  else s.submitNow r p

/-- SUBMIT (R202). -/
def execSubmit (r : Req) (p : List Byte) (s : State) : Out := .next (s.onMsg r tySubmit p fun t => t.submitMsg r p)

/-- HELD_SUBMIT_ADMIT (R207): a journal record is free, and the SUBMIT that session k holds is processed. -/
def execHeldSubmitAdmit (k : Fin 8) (s : State) : Out :=
  let v := s.ses k.val
  match v.head? with
  | some m =>
    if !v.isOpen || !v.held || !s.works || s.admitHeld? || m.typ ≠ tySubmit then .next s
    else .next ((s.setSes k.val { v with held := false }).onMsg { who := .sess k, seq := m.seq } tySubmit m.payload fun t =>
      t.submitMsg { who := .sess k, seq := m.seq } m.payload)
  | none => .next s

/-- The session slot whose index stands for a task's session. -/
def whoOf (i : Nat) : Who := if h : i < 8 then .sess ⟨i, h⟩ else .peer (i - 16)

/-- A task is accepted: it takes its place after the tasks accepted before it, and before those that are only admitted (R692). -/
def State.acceptTask (s : State) (key asn : Nat) : State :=
  match s.task? key asn with
  | none => s
  | some t =>
    let others := s.tasks.filter fun x => !(x.key == key && x.asn == asn)
    { s with tasks := others.filter (·.accepted) ++ { t with accepted := true } :: others.filter fun x => !x.accepted }

/-- JOURNAL_WRITE_COMPLETE (R25, R203; log entry 129): the task is accepted, after those admitted before it under its key, and its ACCEPT
leaves where its session still stands. SINGLE does not keep back a task that was admitted before it (log entry 162). -/
def execJournalWriteComplete (key : Fin 16) (asn : Nat) (s : State) : Out :=
  match s.task? key.val asn with
  | none => .next s
  | some t =>
    if !s.works || t.accepted || s.journal.mirroring || s.tasks.any (fun x => x.key == t.key && !x.accepted && decide (x.asn < t.asn)) then .next s
    else
      let s1 := s.acceptTask key.val asn
      let v := s1.ses t.sess
      let head := v.isOpen && (v.head?.any fun m => m.seq == t.seq && m.typ == tySubmit)
      .next (if decide (t.sess < 8) && head then ((s1.answer t.sess tyAccept (acceptPayload t)).finish t.sess).settleFanouts else s1)

/-- JOURNAL_MIRROR_COMPLETE (R204): the new mirror holds every live record, and admission resumes. -/
def execJournalMirrorComplete (s : State) : Out :=
  if !s.works || !s.journal.mirroring then .next s
  else .next (({ s with journal := { s.journal with mirroring := false } }.setF aMemGlacier 24 4 s.journal.a).setF aMemGlacier 20 4
    s.journal.b)

/-! The write log of an exact-mode task. -/

/-- An entry's key as one number (R826). -/
def LogEntry.order (e : LogEntry) : Nat := (e.item * 2 ^ 64 + e.frag) * 2 ^ 64 + e.req

/-- The entries of one row in key order. -/
def logOrder (l : List LogEntry) : List LogEntry := sortKey LogEntry.order l

/-- The entries after the last SCATTER, and that SCATTER's row (R828). -/
def logBase (l : List LogEntry) : Option (List Nat) × List LogEntry :=
  l.foldl (fun (acc : Option (List Nat) × List LogEntry) e => if e.add then (acc.1, acc.2 ++ [e]) else (some e.vals, [])) (none, [])

/-- The new value of a row with its entries applied, and the row (R828): none where the row no longer exists. -/
def State.newRow (s : State) (c : Nat) (h : LogEntry) (l : List LogEntry) : RowM (Option (Nat × List Byte) × State) := do
  let t := h.desc
  let (loc, s1) ← s.locate c h.unit t { pos := 0, unit := h.unit, idx := h.row, hot := false }
  match loc with
  | none => .ok (none, s1)
  | some a =>
    let (base, adds) := logBase (logOrder l)
    let (old, s2) ← match base with
      | some v => (Except.ok (v, s1) : RowM (List Nat × State))
      | none => s1.readRow c h.unit (tdDim t) a
    let vals := if adds.isEmpty then old else List.zipWith addF old (treeRows 1 (adds.map (·.vals)))
    let (b, sat) := encodeRow a.tier (tdDim t) vals
    .ok (some (a.addr, b), s2.reBump h.unit 0x110 sat)

/-- Two entries of a log stand for one row. -/
def LogEntry.sameRow (e h : LogEntry) : Bool := e.desc == h.desc && e.row == h.row

/-- The row's new bytes are recorded in the entries of the log that stand for it (R829); no bytes for a row that takes none. -/
def State.noteRow (s : State) (key asn : Nat) (h : LogEntry) (r : Nat × List Byte) : State :=
  s.modTask key asn fun x => { x with log := x.log.map fun e => if e.sameRow h then { e with new := some r } else e }

/-- Steps that a fault can interrupt: .error holds the state at which they stand. -/
abbrev StepM := Except State State

/-- What a fault in the application of a log leaves (R872): the task's status stays, the fault is counted and reported as any of its class, and the
step is to be repeated. A row in a lost stack or channel is gone and takes nothing (log entry 85). -/
def State.applyFault (s : State) (t : Task) (u : Nat) : RowErr → Bool × State
  | .entry => (false, s.bump (aRe u 0x114))
  | .acc (.perm _) => (false, s)
  | .acc (.data a) => (s.lostAt a, s.dataError t.key t.asn a)

/-- The new bytes of one row go to the log, unless it holds them (R828, R829). -/
def State.recordRow (s : State) (t : Task) (l : List LogEntry) : StepM :=
  match l with
  | [] => .ok s
  | h :: _ =>
    if h.new.isSome then .ok s
    else match s.newRow t.ctx h l with
      | .ok (r, s1) => .ok (s1.noteRow t.key t.asn h (r.getD (0, [])))
      | .error (e, s1) =>
        let (gone, s2) := s1.applyFault t h.unit e
        if gone then .ok (s2.noteRow t.key t.asn h (0, [])) else .error s2

/-- One row takes the new bytes that the log holds, and its replicas after it (R356, R828, R829). -/
def State.rewriteRow (s : State) (t : Task) (l : List LogEntry) : StepM :=
  match l.head?.bind fun h => h.new.map fun r => (h, r) with
  | none => .ok s
  | some (h, a, b) =>
    if b.isEmpty then .ok s
    else
      let copies := if h.row < tdHot h.desc then s.rowCopies h.desc { addr := a, tier := 0 } b else []
      ({ stack := h.unit, addr := a, bytes := b } :: copies).foldlM (fun (u : State) x =>
        match u.writeRowBytes t.ctx x.stack none x.addr x.bytes with
        | .ok v => .ok v
        | .error (e, v) =>
          let (gone, w) := v.applyFault t x.stack e
          if gone then .ok w else .error w) s

/-- The entries of a log by row. -/
def logRows : Nat → List LogEntry → List (List LogEntry)
  | 0, _ => []
  | _ + 1, [] => []
  | n + 1, e :: t => (e :: t.filter fun x => x.sameRow e) :: logRows n (t.filter fun x => !x.sameRow e)

/-- The rows of a task's log as it stands. -/
def State.rowsOf (s : State) (t : Task) : List (List LogEntry) :=
  ((s.task? t.key t.asn).map fun x => logRows x.log.length x.log).getD []

/-- A committed task's log is applied (R828–R830, R872): the new bytes of every row are in the log before the first row is written, so that
its writes take effect entirely or not at all. -/
def State.applyLog (s : State) (t : Task) : StepM := do
  let s1 ← (s.rowsOf t).foldlM (fun (u : State) l => u.recordRow t l) s
  (s1.rowsOf t).foldlM (fun (u : State) l => u.rewriteRow t l) s1

/-! Commit. -/

/-- STATUS and DETAIL of a task that commits at a tick (R678, R679). -/
def Task.outcome (t : Task) (now : Nat) : Nat × Nat :=
  match t.status with
  | some x => x
  | none => (if t.late || (nbit t.flags 2 && decide (t.deadline < now)) then 1 else 0, 0)

/-- Ranges without the bytes of [a, b). -/
def rangesLess (l : List (Nat × Nat)) (a b : Nat) : List (Nat × Nat) :=
  l.flatMap fun r => [(r.1, min r.2 a), (max r.1 b, r.2)].filter fun x => x.1 < x.2

/-- What a failed task leaves in its buffers (R213, R877): IN_PLACE buffers hold their accepted contents, and every byte of the others that
lies in none of those is left without a value. -/
def State.undoTask (s : State) (t : Task) : State :=
  let kept := t.bufs.filter fun b => b.kind == 2 && t.inPlace
  let out := (t.bufs.filter fun b => b.kind == 1 || (b.kind == 2 && !t.inPlace)).map fun b => (b.addr, b.addr + b.len)
  let free := kept.foldl (fun l b => rangesLess l b.addr (b.addr + b.len)) out
  (free.filter fun r => r.1 < r.2).foldl (fun (u : State) r => u.scramble r.1 r.2) (s.restoreShadows t)

/-- The shape descriptor (R832). -/
def Task.shape (t : Task) : List Byte := natLe 2 t.lspires ++ natLe 2 t.group ++ natLe 4 t.calve ++ natLe 4 t.fragment ++ zeros 4

/-- The digest of record (R854): resDig is the digest of the result data. -/
def State.digestOfRecord (s : State) (t : Task) (status : Nat) (resDig : List Byte) : List Byte :=
  shake256 (((ascii "NLT9-DOR-1") ++ zeros 6) ++ natLe 2 s.fwMajor ++ natLe 2 s.fwMinor ++ t.shape ++ natLe 1 (t.mode % 2)
    ++ shake256 (s.prog t.ctx).image 32 ++ natLe 4 t.entry ++ t.inDigests.flatten ++ resDig
    ++ ((t.bufs.filter fun b => b.kind != 0).flatMap fun b => shake256 (s.peek b.addr b.len) 32) ++ natLe 2 status) 32

/-- A replayed task's commit is compared with the COMMIT record of its SUBMIT (R853). -/
def State.compareCommit (s : State) (t : Task) (status : Nat) (resDig : List Byte) : State :=
  let st := s.rf (aDet 0x12C) 28 4
  if st = 0 ∨ st = 4 then s
  else match s.replay.asns.find? fun e => e.1 == t.key && e.2.1 == t.asn with
    | none => s
    | some e =>
      match s.replay.ring.find? fun r => r.kind == 0x02 && r.key == t.key && r.ref == e.2.2 && decide (r.rseq ≤ s.replay.stop) with
      | none => s
      | some r =>
        let n := 32 * t.inDigests.length
        if getLe r.body 8 2 = status ∧ slice r.body 0x10 n = t.inDigests.flatten ∧ slice r.body (0x10 + n) 32 = resDig then s
        else (s.setRpl 4).setPair (aDet 0x130) r.rseq

/-- The slot header without COMMIT_SEQ. -/
def slotHead (t : Task) (st : Nat × Nat) (len tick : Nat) (digest : List Byte) : List Byte :=
  natLe 8 t.token ++ natLe 2 st.1 ++ natLe 2 st.2 ++ natLe 4 len ++ natLe 8 tick ++ digest

/-- The last accepted task has committed after RUN was cleared (R97). -/
def State.runToReady (s : State) : State :=
  if s.devState = stRun && !s.rb aDevCtl 0 && s.tasks.isEmpty then s.setDevState stReady else s

/-- Step 6 of R214: RESULT on the open session of the key (R189, R216). -/
def State.sendResult (s : State) (t : Task) (j len : Nat) (h : List Byte) : State :=
  if (s.ses j).isOpen && (s.ses j).key == t.key then
    let n := if nbit t.flags 3 then min len (s.maxPay j - 64) else 0
    let (b, s1) := s.readTier (s.rslotAt j t.asn + 64) n
    s1.sendSeq j tyResult (h ++ b)
  else s

/-- RESULT_LEN, which the manual gives to no one: a free function of the task's mode and shape, its program, its inputs and what it has
written, so that no timing changes it but through them (R28, R35; log entry 8). -/
def State.resultLen (s : State) (t : Task) : Nat :=
  let outs := (t.bufs.filter fun b => b.kind != 0).flatMap fun b => shake256 (s.peek b.addr b.len) 32
  Config.resultLen (natLe 4 t.mode ++ t.shape ++ natLe 4 t.entry ++ natLe 4 t.itemCount ++ t.inDigests.flatten ++ outs
    ++ (s.prog t.ctx).image) % (t.resultMax + 1)

/-- The outputs and the result of a task are read through the Dome cache for its digest of record (R33, R854). -/
def State.readResults (s : State) (t : Task) (a len : Nat) : State :=
  ((t.bufs.filter fun b => b.kind != 0).foldl (fun u b => u.touchRange b.addr b.len) s).touchRange (a + 64) len

/-- Steps 5 to 7 of R214 of a recorded task whose slot header is h, with the application of its log before them (R828): where a fault
interrupts it, the step stays due (R872). No session's area is left to write where no slot names the key any more. -/
def State.finishCommit (s : State) (t : Task) (h : List Byte) : State :=
  match (if t.status.isNone then s.applyLog t else .ok s) with
  | .error u => u
  | .ok u =>
    let v := match u.slotOfKey t.key with
      | some j => (u.putResult t.ctx (u.rslotAt j t.asn) (natLe 8 t.asn)).sendResult t j (getLe h 12 4) (natLe 8 t.asn ++ h)
      | none => u
    { v with tasks := v.tasks.filter fun (x : Task) => !(x.key == t.key && x.asn == t.asn) }.runToReady

/-- Steps 2 to 4 of R214 for a task with its outcome, and those that follow. -/
def State.commitTask (s : State) (t : Task) (j : Nat) : State :=
  let st := t.outcome s.tick
  let s0 := if t.status.isSome then s.undoTask t else s
  let len := s0.resultLen t
  let a := s0.rslotAt j t.asn
  let s1 := s0.readResults t a len
  let resDig := shake256 (s1.peek (a + 64) len) 32
  let dor := s1.digestOfRecord t st.1 resDig
  let h := slotHead t st len s1.tick (if nbit t.flags 1 then dor else zeros 32)
  let s2 := s1.putResult t.ctx (a + 8) h
  let q := s2.key t.key
  let s3 := (s2.setKey t.key { q with lastCommitted := t.asn, tokenCommitted := t.token }).record 0x02 t.key t.ctx t.asn none
    (natLe 8 t.asn ++ natLe 2 st.1 ++ natLe 2 st.2 ++ natLe 4 len ++ t.inDigests.flatten ++ resDig ++ dor)
  let s4 := s3.compareCommit t st.1 resDig
  (s4.modTask t.key t.asn fun x => { x with head := some h }).finishCommit t h

/-- TASK_COMMIT (R209, R213, R214): the next task of its queue has ended, nothing of it is still under way, and it commits; one whose commit a
fault has interrupted after step 4 goes on with it (R872). A task whose key no slot names waits (log entry 150). -/
def execTaskCommit (key : Fin 16) (asn : Nat) (s : State) : Out :=
  match s.task? key.val asn with
  | none => .next s
  | some t =>
    if !s.works || s.tasks.any (fun x => x.key == t.key && decide (x.asn < t.asn)) then .next s
    else match t.head, s.slotOfKey key.val with
      | some h, _ => .next (s.finishCommit t h)
      | none, some j =>
        if !t.accepted || !t.ended || asn ≠ (s.key key.val).lastCommitted + 1 || s.underWay key.val asn then .next s
        else .next (s.commitTask t j)
      | none, none => .next s

/-! The journal after a warm boot. -/

/-- A task whose commit MRAM records finishes it (R215): its rows take the bytes that its log holds (R829), COMMIT_SEQ is written and the
record freed. -/
def State.finishRecorded (s : State) : State :=
  (s.tasks.filter s.recorded).foldl (fun (u : State) t => u.finishCommit t (t.head.getD [])) s

/-- A journaled task starts again (R91, R215): what it wrote to IN_PLACE buffers goes back, and nothing of its first run counts. A
task marked cancelled does not run again (R222). -/
def Task.rewind (t : Task) : Task :=
  if t.cancelled then t
  else { t with accepted := true, status := none, expanded := 0, spawned := 0, ended := false, retryDue := false, log := [], logSpace := 0,
                late := false, t7 := [] }

/-- The journal has been scanned on a warm boot (R105, R215, R91): tasks recorded in MRAM finish their commit, the
others will run again from their journal records, unless no copy of the journal remains: those end as R969 says. -/
def execJournalScanComplete (s : State) : Out :=
  if s.devState ≠ stTraining || s.boot.cold || !s.boot.trained || s.boot.scanned then .next s
  else
    let t := s.finishRecorded
    let u := (t.tasks.filter fun x => !t.recorded x).foldl State.restoreShadows t
    .next { u with tasks := if u.journal.lost then u.tasks else u.tasks.map fun x => if u.recorded x then x else x.rewind,
                   boot := { u.boot with scanned := true } }

end Sys2Proof.Machine
end

