-- ==== Sys2Proof/Machine/Transport.lean ====
section
/-! DEFINITION. The wire protocol's transport (R169–R187, R922, R924) and the RoCEv2 subset (R224–R229, R958–R962): datagrams as they
arrive, acknowledgements, retransmission, and RDMA. -/

namespace Sys2Proof.Machine

/-! Acknowledgement and retransmission of the device's messages. -/

/-- A header's ACK and credit (R181, R182, R184): messages it covers are forgotten, ACK's progress clears the counts of timeouts but leaves
doubled timeouts as they are (R187; log entry 140), and waiting messages leave as far as the credit reaches. -/
def State.onHeader (s : State) (i ack credit : Nat) : State :=
  let v := s.ses i
  let acked := fun (m : TxMsg) => m.sent.isSome && decide (m.seq ≤ ack)
  let rest := v.txBuf.filter fun m => !acked m
  let buf := if v.txBuf.any acked then rest.map fun m => { m with timeouts := 0 } else rest
  (s.setSes i { v with txBuf := buf, txLimit := max v.txLimit (ack + credit) }).pump i

/-- A message is sent again with RETX set, and counted in SESS_RETX (R170, R186). -/
def State.resend (s : State) (i : Nat) (m : TxMsg) : State :=
  let v := s.ses i
  let s1 := s.setSes i { v with txBuf := v.txBuf.map fun x =>
    (if x.seq = m.seq then { m with sent := some s.tick, resent := some s.tick } else x) }
  (if i < 8 then s1.bump (aSess i 0x024) else s1).emitDwp i m.typ 4 m.seq m.payload

/-- A selective map shows a message three or more above m as received, m itself not, and m has not been sent again within its timeout
period (R186). -/
def State.fastDue (s : State) (got : List Nat) (m : TxMsg) : Bool :=
  m.sent.isSome && !got.contains m.seq && (got.any fun q => decide (m.seq + 3 ≤ q))
    && match m.resent with | some t => decide (t + m.timeout ≤ s.tick) | none => true

/-- DONE from peer rank q (R185, R810, R815): a SIGNAL's exchange is over, and a START_AT sent on has been processed. -/
def State.onDone (s : State) (q done : Nat) : State :=
  { s with
    fanouts := s.fanouts.map fun (f : Fanout) => { f with due := f.due.filter fun d => !(d.1 == q && decide (d.2 ≤ done)) },
    exch := s.exch.map fun (x : Exch) =>
      (if x.kind = 4 ∧ x.needs q then { x with due := x.due.filter fun n => decide (done < n) } else x) }

/-- An ACK message (R184, R186). -/
def State.onAck (s : State) (i : Nat) (p : List Byte) : State :=
  let base := getLe p 0 8
  let s1 := s.onHeader i (base - 1) 0
  let got := (bitsSet 256 (getLe p 8 32)).map fun n => base + 1 + n
  let s2 := ((s1.ses i).txBuf.filter (s1.fastDue got)).foldl (fun t m => t.resend i m) s1
  if i < 16 then s2 else (s2.onDone (i - 16) (getLe p 0x28 8)).checkExch.settleFanouts

/-- ACK (R186). -/
def execAck (w : Who) (p : List Byte) (s : State) : Out :=
  .next (if (s.ses (whoIdx w)).isOpen && p.length == 0x30 then s.onAck (whoIdx w) p else s)

/-- ACK_TIMER_EXPIRY (R184). -/
def execAckTimerExpiry (w : Who) (s : State) : Out :=
  let v := s.ses (whoIdx w)
  match v.ackDue with
  | some t => .next (if v.isOpen then (s.passTo t).sendAck (whoIdx w) else s)
  | none => .next s

/-- A session is lost (R187, R817). -/
def State.loseSession (s : State) (i : Nat) : State :=
  let t := (s.closeSession i).pfcSync
  if i < 16 then t else ((t.lostRank (i - 16)).countReached).settleFanouts

/-- RETRANSMIT_TIMEOUT (R186, R187): the message leaves again with its timeout doubled; the sixteenth timeout loses the session. -/
def execRetransmitTimeout (w : Who) (seq : Nat) (s : State) : Out :=
  let i := whoIdx w
  match (s.ses i).txBuf.find? fun m => m.seq == seq with
  | none => .next s
  | some m =>
    match m.sent with
    | none => .next s
    | some t =>
      let s1 := s.passTo (t + m.timeout)
      if 15 ≤ m.timeouts then .next (s1.loseSession i)
      else .next (s1.resend i { m with timeout := min (2 * m.timeout) 4000000, timeouts := m.timeouts + 1 })

/-! Datagrams. -/

/-- A dropped datagram is counted (R171); a peer session has no register for it. -/
def State.authDrop (s : State) (i : Nat) : State := if i < 8 then s.bump (aSess i 0x020) else s

/-- TYPE -/
def hType (b : List Byte) : Nat := getLe b 1 1
/-- FLAGS -/
def hFlags (b : List Byte) : Nat := getLe b 2 2
/-- SESSION -/
def hSession (b : List Byte) : Nat := getLe b 4 4
/-- SEQ -/
def hSeq (b : List Byte) : Nat := getLe b 8 8
/-- ACK -/
def hAck (b : List Byte) : Nat := getLe b 0x10 8
/-- CREDIT -/
def hCredit (b : List Byte) : Nat := getLe b 0x18 4
/-- LENGTH -/
def hLen (b : List Byte) : Nat := getLe b 0x1C 4
/-- The payload of a tagged message. -/
def body (b : List Byte) : List Byte := (b.take (b.length - 16)).drop 32

/-- The tag of a received message verifies under a session key (R170, R922). -/
def State.tagOk (s : State) (i : Nat) (ks b : List Byte) : Bool :=
  decide (48 ≤ b.length) && kmac256 ks (s.dirIn i :: b.take (b.length - 16)) 16 "NLT9 DWP" == b.drop (b.length - 16)

/-- A message outside a session: HELLO and PROVE (R170, R173, R174, R177). -/
def State.handshake (s : State) (w : Who) (src : NetAddr) (b : List Byte) : State :=
  let i := whoIdx w
  let p := b.drop 32
  let bad := 8 ≤ hFlags b ∨ !nbit (hFlags b) 1 ∨ hSeq b ≠ 0 ∨ hLen b ≠ p.length
  if hType b = tyNak ∧ 16 ≤ i then s
  else if hType b ≠ tyHello ∧ hType b ≠ tyProve then s.authDrop i
  else if !s.hellos i then s
  else if bad then s.nakPlain i src (hType b) nkMalformed
  else if hType b = tyHello then s.hello w src p
  else s.onProve w src (hAck b + hCredit b) p

/-- KEYCONFIRM from a higher rank (R786, R922): its tag and the message's must both verify. -/
def State.keyconfirm (s : State) (q : Nat) (b : List Byte) : State :=
  let i := 16 + q
  match (s.ses i).transcript with
  | none => s
  | some t =>
    let ks := sessionKey (s.key (s.keyNo i)).key (t.take 120) (t.drop 120) (hSession b)
    if s.tagOk i ks b then s.onConfirm q (hSession b) (getLe (body b) 0x40 4) (body b) else s

/-- What a sender may send as sequenced messages: a partner, or a peer. A known TYPE that only the device sends is refused as an unknown one
(log entry 81). -/
def mayType (i typ : Nat) : Bool :=
  if i < 16 then seqTypes.contains typ && typ != tyExchange else [tySignal, tyExchange, tyStartAt, tyNak].contains typ

/-- An EXCHANGE payload from rank q is well formed, as far as its part header says (R796). -/
def exchPayloadOk (q : Nat) (p : List Byte) : Bool :=
  let k := getLe p 8 1
  let n := p.length - 32
  decide (32 ≤ p.length) && [1, 2, 3, 0x81, 0x82, 0x83].contains k && decide (getLe p 9 1 < 32) && zeroAt p 0x0F 1 && zeroAt p 0x1C 4
    && getLe p 0x0E 1 == q
    && (if k = 1 then n == getLe p 0x14 4 * (if nbit (getLe p 9 1) 1 then 8 else 4)
        else if k = 0x82 then n == 0 && getLe p 0x14 4 == 0 else true)

/-- The reason that R173 gives a sequenced message for its header, or 0. -/
def State.headerBad (s : State) (i : Nat) (b : List Byte) : Nat :=
  if 8 ≤ hFlags b ∨ hLen b ≠ (body b).length ∨ (i < 16 ∧ s.maxPay i < hLen b) then nkMalformed
  else if 16 ≤ i ∧ hType b = tyExchange ∧ !exchPayloadOk (i - 16) (body b) then nkMalformed
  else if mayType i (hType b) then 0
  else nkUnsupported

/-- The highest SEQ below which every message has been received. -/
def ackUpTo : Nat → Nat → List Nat → Nat
  | 0, a, _ => a
  | n + 1, a, l => if l.contains (a + 1) then ackUpTo n (a + 1) l else a

/-- An ACK message is due within 2,000 ticks (R184). -/
def State.ackSoon (s : State) (i : Nat) : State :=
  let v := s.ses i
  s.setSes i { v with ackDue := some (match v.ackDue with | some t => min t (s.tick + 2000) | none => s.tick + 2000) }

/-- Messages that are now received without a gap take their places in the order of arrival (R119). -/
def numberArrivals (last upTo next : Nat) (l : List Msg) : List Msg :=
  l.map fun m => if last < m.seq ∧ m.seq ≤ upTo then { m with arrival := next + (m.seq - last) } else m

/-- A sequenced message is queued for its turn (R119, R179, R180, R183). -/
def State.queueMsg (s : State) (i : Nat) (b : List Byte) : State :=
  let v := s.ses i
  let q := hSeq b
  if q ≤ v.rxAck || v.rxBuf.any (fun m => m.seq == q) then s.ackSoon i
  else if v.rxLimit < q then s
  else
    let m : Msg := { seq := q, typ := hType b, payload := body b, bad := s.headerBad i b }
    let l := v.rxBuf ++ [m]
    let a := ackUpTo l.length v.rxAck (l.map (·.seq))
    let s0 := s.setSes i { v with rxBuf := numberArrivals v.rxAck a s.arrivals l, rxAck := a }
    let t := ({ s0 with arrivals := s.arrivals + (a - v.rxAck) }.ackSoon i).pfcSync
    (if (t.ses i).held then t else State.skipBad l.length t i).settleFanouts

/-- An unsequenced message of an open session: ACK, or one that is refused at once (R170, R173). -/
def State.unsequenced (s : State) (i : Nat) (b : List Byte) : State :=
  let typ := hType b
  let ok := hFlags b < 8 ∧ nbit (hFlags b) 1 ∧ hSeq b = 0 ∧ hLen b = (body b).length
  if typ = tyAck ∧ ok ∧ hLen b = 0x30 then s.onAck i (body b)
  else
    let known := typ == tyHello || typ == tyProve || typ == tyAck || mayType i typ
    s.sendSeq i tyNak (nakPayload (hSeq b) typ (if known then nkMalformed else nkUnsupported) 0)

/-- The SESSION field of messages that a session's other end sends. -/
def State.sessionIn (s : State) (i : Nat) : Nat := sessionWord i (i - 16) (s.ses i).epoch

/-- A message that names a session (R148, R171, R173, R184). Its header's ACK, CREDIT and congestion echo take effect whatever becomes of
the message (log entry 155). -/
def State.inSession (s : State) (w : Who) (b : List Byte) : State :=
  let i := whoIdx w
  if !(s.ses i).isOpen || hSession b ≠ s.sessionIn i || !s.tagOk i (s.ses i).ks b then s.authDrop i
  else
    let s1 := s.onHeader i (hAck b) (hCredit b)
    let s2 := if nbit (hFlags b) 0 && decide (i < 8) then s1.ecnCut i else s1
    let unseq := nbit (hFlags b) 1 || [tyHello, tyProve, tyKeyconfirm, tyAck].contains (hType b)
    if unseq then s2.unsequenced i b
    else if hSeq b = 0 then s2.sendSeq i tyNak (nakPayload 0 (hType b) nkMalformed 0)
    else s2.queueMsg i b

/-- A message as it arrives on a session or at the peer port (R168–R173). One too short for a header cannot be verified: it is dropped and
counted as R171 states (log entry 81). -/
def State.datagram (s : State) (w : Who) (src : NetAddr) (b : List Byte) : State :=
  let i := whoIdx w
  if b.length < 32 then s.authDrop i
  else if getLe b 0 1 ≠ 1 then
    (if hType b = tyHello && s.hellos i then s.nakPlain i src tyHello nkUnsupported else s)
  else if hSession b = 0 then s.handshake w src b
  else if hType b = tyKeyconfirm && decide (16 ≤ i) && !(s.ses i).isOpen && s.hellos i then s.keyconfirm (i - 16) b
  else s.inSession w b

/-- The port's map key of a sender's datagrams: a session slot, or 16 for the peer port. -/
def rxSlot (w : Who) : Nat := if 16 ≤ whoIdx w then 16 else whoIdx w

/-- A datagram is a partner's HELLO, whose processing runs the check of KEY_MISSING (R124). -/
def isHello (w : Who) (b : List Byte) : Bool := rxHello (whoIdx w, {}, b)

/-- A datagram that waits is taken up (R168–R173): a HELLO waits for the checks of messages received before it, and datagrams received
after it wait for the HELLO (R119). -/
def State.takeUp (s : State) (w : Who) (e : Nat × NetAddr × List Byte) : State :=
  if (isHello w e.2.2 && s.checksDue) || (s.port.rx.takeWhile (· != e)).any rxHello then s
  else ({ s with port := { s.port with rx := s.port.rx.erase e } }.datagram w e.2.1 e.2.2).pfcSync

/-- DWP_DATAGRAM_RECEIVE (R139): a datagram that the port has matched is taken up. -/
def execDwpDatagramReceive (w : Who) (dg : List Byte) (s : State) : Out :=
  match s.port.rx.find? fun e => e.1 == rxSlot w && e.2.2 == dg with
  | none => .next s
  | some e => .next (s.takeUp w e)

/-! RoCEv2. -/

/-- A packet's R_Key names a valid window of the queue pair's context with the present generation, which covers the access and grants
its permission, over memory that is there (R226, R267, R959). -/
def State.rkeyOk (s : State) (x : Qp) (rkey : W32) (a n : Nat) (p : Perm) : Bool :=
  let c := rfld rkey 28 4
  let w := rfld rkey 20 8
  c == x.ctx && decide (w < 64) && s.winCovers c w a n && s.winGrants c w p && s.rf (aWin c w + 12) 12 20 == rfld rkey 0 20
    && (n == 0 || !(granules a n).any fun g => s.unbackedAt g || s.lostAt g)

/-- Packets of a message at the path MTU of 4,096 bytes (R224). -/
def packets (n : Nat) : Nat := max 1 (ceilDiv n 4096)

/-- A queue pair that answers, and its next expected PSN after packets of n bytes. -/
def State.stepQp (s : State) (q n : Nat) : State :=
  match s.qp? q with
  | some x => { s with qps := SMap.set s.qps none q (some { x with rq := (x.rq + packets n) % 2 ^ 24 }) }
  | none => s

/-- A queue pair that is valid and not in the error state, on a device that takes messages: none does while it is in reset or halted, nor
before it is ready (R87, R72, R962). -/
def State.liveQp (s : State) (q : Nat) : Option Qp :=
  if stReady ≤ s.devState ∧ s.devState ≤ stRecovery then (s.qp? q).filter fun x => !x.err else none

/-- How a request's PSN stands to the one expected (R224, by the InfiniBand Architecture Specification): 0 it is expected, 1 the request is a
duplicate, within 2^23 before, and 2 requests before it are missing. -/
def psnCase (x : Qp) (psn : Nat) : Nat :=
  if psn = x.rq then 0 else if (x.rq + 2 ^ 24 - psn) % 2 ^ 24 ≤ 2 ^ 23 then 1 else 2

/-- A request is answered as its PSN asks (R224): an expected one by f; a duplicate of a request that changed state is acknowledged again with
the last PSN received, and one of a READ is executed again by f; after a gap the expected PSN is asked for. -/
def State.byPsn (s : State) (q : Nat) (x : Qp) (psn : BitVec 24) (again : Bool) (f : State) : State :=
  match psnCase x psn.toNat with
  | 0 => f
  | 1 => if again then f else s.send {} (.roceAck q ((x.rq + 2 ^ 24 - 1) % 2 ^ 24))
  | _ => s.send {} (.roceSequence q x.rq)

/-- RDMA_WRITE (R224, R226, R228, R229, R844, R850): refused in RECOVERY, where no work is taken (R109). -/
def execRdmaWrite (q : Fin 4096) (psn : BitVec 24) (rkey : W32) (addr : Nat) (data : List Byte) (s : State) : Out :=
  match s.liveQp q.val with
  | none => .next s
  | some x =>
    let bad := !s.works || !s.rkeyOk x rkey addr data.length .rwr || s.inUse addr data.length false || s.replaying
    .next (s.byPsn q.val x psn false
      (if bad then s.send {} (.roceError q.val psn.toNat)
       else ((s.storeData (s.slotKey x.sess) x.ctx 0 addr data).stepQp q.val data.length).send {}
         (.roceAck q.val ((psn.toNat + packets data.length - 1) % 2 ^ 24))))

/-- RDMA_READ (R224, R226, R267, R879): refused in RECOVERY, where no work is taken (R109). -/
def execRdmaRead (q : Fin 4096) (psn : BitVec 24) (rkey : W32) (addr len : Nat) (s : State) : Out :=
  match s.liveQp q.val with
  | none => .next s
  | some x =>
    let bad := if len = 0 then none else s.firstBad addr len true
    let go :=
      if !s.works || !s.rkeyOk x rkey addr len .rrd then s.send {} (.roceError q.val psn.toNat)
      else if bad.isSome then
        (s.noteBad x.ctx (some (s.slotKey x.sess)) (bad.map Bad.data)).send {} (.roceError q.val psn.toNat)
      else
        let (b, t) := s.readTier addr len
        (if psnCase x psn.toNat = 0 then t.stepQp q.val len else t).send {} (.roceReadResponse q.val psn.toNat b)
    .next (s.byPsn q.val x psn true go)

/-- SEND (R224, R227): the DWP message it carries comes as if by UDP on the queue pair's session, and is taken up where it need not wait. -/
def execSend (q : Fin 4096) (psn : BitVec 24) (dg : List Byte) (s : State) : Out :=
  match s.liveQp q.val with
  | none => .next s
  | some x =>
    let s1 := (s.stepQp q.val dg.length).send {} (.roceAck q.val ((psn.toNat + packets dg.length - 1) % 2 ^ 24))
    let e := (rxSlot (whoOf x.sess), (s1.ses x.sess).src, dg)
    let s2 := { s1 with port := { s1.port with rx := s1.port.rx ++ [e] } }.pfcSync
    .next (s.byPsn q.val x psn false (s2.takeUp (whoOf x.sess) e))

/-- LOCAL_ACK_TIMEOUT (R958, R962): once RETRY attempts are spent the queue pair enters the error state. -/
def execLocalAckTimeout (q : Fin 4096) (s : State) : Out :=
  match s.liveQp q.val with
  | none => .next s
  | some x =>
    let y := if getLe x.words 0x2B 1 ≤ x.retries then { x with err := true } else { x with retries := x.retries + 1 }
    .next { s with qps := SMap.set s.qps none q.val (some y) }

end Sys2Proof.Machine
end

