-- ==== Sys2Proof/Machine/Exchange.lean ====
section
/-! DEFINITION. Exchanges between the devices of a peer group (R791–R812, R817, R818): look-ups, update rounds and their refreshes,
and signals, at the requester and at the owner of a row. -/

namespace Sys2Proof.Machine

/-! Part headers and row blocks (R796, R797). -/

/-- An EXCHANGE message. -/
structure PartMsg where
  xid : Nat
  kind : Nat
  flags : Nat
  table : Nat
  batch : Nat
  gen : Nat
  count : Nat := 0
  first : Nat := 0
  body : List Byte := []
deriving DecidableEq, Repr

/-- An EXCHANGE payload as a message. -/
def partOf (p : List Byte) : PartMsg :=
  { xid := getLe p 0 8, kind := getLe p 8 1, flags := getLe p 9 1, table := getLe p 0x0A 2, batch := getLe p 0x0C 2,
    gen := getLe p 0x10 4, count := getLe p 0x14 4, first := getLe p 0x18 4, body := p.drop 32 }

/-- The part header. -/
def PartMsg.head (h : PartMsg) (rank : Nat) : List Byte :=
  natLe 8 h.xid ++ natLe 1 h.kind ++ natLe 1 h.flags ++ natLe 2 h.table ++ natLe 2 h.batch ++ natLe 1 rank ++ zeros 1
    ++ natLe 4 h.gen ++ natLe 4 h.count ++ natLe 4 h.first ++ zeros 4

/-- LAST -/
def PartMsg.last (h : PartMsg) : Bool := nbit h.flags 0

/-- A row block of codes in a format (R797). -/
def rowBlock (fmt : Nat) (l : List Nat) : List Byte := encodeBlock fmt (l ++ List.replicate ((128 - l.length % 128) % 128) 0)

/-- The row block at the front of some bytes: its format, its codes and the bytes after it; none where it is malformed (R545). -/
def takeBlock (dim : Nat) (b : List Byte) : Option (Nat × List Nat × List Byte) :=
  let fmt := getLe b 1 1
  let len := 16 + hdrLen b
  if b.length < 16 ∨ b.length < len ∨ (fmt ≠ 8 ∧ fmt ≠ 9) then none
  else (decodeBlock fmt (ceilDiv dim 128 * 128) (b.take len)).map fun l => (fmt, l.take dim, b.drop len)

/-- The row blocks of a reply. -/
def takeBlocks : Nat → Nat → List Byte → Option (List (Nat × List Nat))
  | 0, _, b => if b.isEmpty then some [] else none
  | n + 1, dim, b =>
    match takeBlock dim b with
    | some (f, l, t) => (takeBlocks n dim t).map fun r => (f, l) :: r
    | none => none

/-- The entries of an update part or a refresh: index and FP32 row. -/
def takeEntries : Nat → Nat → List Byte → Option (List (Nat × List Nat))
  | 0, _, b => if b.isEmpty then some [] else none
  | n + 1, dim, b =>
    match takeBlock dim (b.drop 8) with
    | some (9, l, t) => (takeEntries n dim t).map fun r => (getLe b 0 8, l) :: r
    | _ => none

/-- An entry of an update part or a refresh. -/
def entryBytes (e : Nat × List Nat) : List Byte := natLe 8 e.1 ++ rowBlock 9 e.2

/-- Entries in runs of at most lim bytes, a longer entry on its own (R796). -/
def packGroups (lim : Nat) (l : List (List Byte)) : List (List (List Byte)) :=
  let (gs, g, _) := l.foldl (fun (acc : List (List (List Byte)) × List (List Byte) × Nat) b =>
    if acc.2.1.isEmpty || decide (acc.2.2 + b.length ≤ lim) then (acc.1, acc.2.1 ++ [b], acc.2.2 + b.length)
    else (acc.1 ++ [acc.2.1], [b], b.length)) ([], [], 0)
  gs ++ [g]

/-- The messages of a part, LAST on the final one where the part ends with it. -/
def sendGroups (last : Bool) : List (List (List Byte)) → State → Nat → PartMsg → State
  | [], s, _, _ => s
  | g :: t, s, q, h =>
    let h1 := { h with count := g.length, flags := h.flags + if t.isEmpty && last then 1 else 0 }
    sendGroups last t (s.sendSeq (16 + q) tyExchange (h1.head s.myRank ++ g.flatten)) q { h with first := h.first + g.length }

/-- A part with its entries goes to rank q: bodies of at most 8,224 bytes (R796). -/
def State.sendPart (s : State) (q : Nat) (h : PartMsg) (last : Bool) (es : List (List Byte)) : State :=
  sendGroups last (packGroups 8224 es) s q h

/-! The row engines' part. -/

/-- A failure of a row engine: the unit that met it, what it met, and the state after. -/
structure UnitErr where
  unit : Nat
  err : RowErr
  after : State

/-- The live version of a table with a generation, and the context that owns the table. -/
def State.xVersion (s : State) (t gen : Nat) : Option (Nat × List Byte) :=
  match SMap.find s.tables t, s.versionOf t gen with
  | some x, some v => if v.dist then some (x.owner, v.bytes) else none
  | _, _ => none

/-- A row engine's failure outside any task is recorded (R343, R879). -/
def UnitErr.note (e : UnitErr) (c : Nat) : State :=
  match e.err with
  | .entry => (e.after.bump (aRe e.unit 0x114)).report
      { cls := clsRowFault, origin := reUnitNo e.unit, reporter := reUnitNo e.unit, ctx := c, body := natLe 1 3 ++ zeros 15 }
  | .acc b => e.after.noteBad c none (some b)

/-- Increments of the sketches for indices that units have served: unit and index (R382–R386). -/
def State.sketchServed (s : State) (c : Nat) (t : List Byte) (l : List (Nat × Nat)) : State :=
  if !tdSketchEn t then s
  else
    (List.range 24).foldl (fun (u : State) k =>
      let mine := l.filter fun e => e.1 == k
      if mine.isEmpty then u
      else if u.sketchWritable c t k then mine.foldl (fun (w : State) e => w.sketchAdd t k e.2) u
      else u.bump (aRe k 0x118)) s

/-- A global index that this device owns, as the index of its own rows (R791). -/
def State.ownIndex (s : State) (t : List Byte) (i : Nat) : Option Nat :=
  let j := vrLocal t s.groupSize i
  if vrGlobal t ≤ i ∨ vrOwner t s.groupSize i ≠ s.myRank ∨ tdRows t ≤ j then none else some j

/-- The unit that serves a local index, or why none does (R327). -/
def State.homeUnit (s : State) (c : Nat) (t : List Byte) (j : Nat) : Except UnitErr Nat :=
  match s.unitAt (homeAddr t j) with
  | some u => .ok u
  | none => .error ⟨0, .acc ((s.checkAcc c (homeAddr t j) 8 .rd).getD (.perm 0xFFFF)), s⟩

/-- The row of a global index at its owner, with the unit and the index it served; none where it does not exist (R799). -/
def State.ownerRow (s : State) (c : Nat) (t : List Byte) (i : Nat) : Except UnitErr (Option (Nat × Nat × List Nat) × State) :=
  match s.ownIndex t i with
  | none => .ok (none, s.bump aDropMissing)
  | some j => do
    let u ← s.homeUnit c t j
    Except.mapError (fun e => UnitErr.mk u e.1 e.2) (do
      let (l, s1) ← s.rowLoc c u t j (decide (i < tdHot t)) none
      match l with
      | none => .ok (none, s1.bump aDropMissing)
      | some a =>
        let (v, s2) ← s1.readRow c u (tdDim t) a
        .ok (some (u, j, v), s2.countIdx u false 1))

/-- The rows of a list of global indices at their owner, as far as it gets. -/
def State.ownerRows (c : Nat) (t : List Byte) : List Nat → State → List (Option (Nat × Nat × List Nat)) × Except UnitErr State
  | [], s => ([], .ok s)
  | i :: l, s =>
    match s.ownerRow c t i with
    | .error e => ([], .error e)
    | .ok (v, s1) =>
      let (r, z) := State.ownerRows c t l s1
      (v :: r, z)

/-- What was served before a failure has raised its sketches too (R382). -/
def sketched (c : Nat) (t : List Byte) (sk : List (Nat × Nat)) : Except UnitErr State → Except UnitErr State
  | .ok s => .ok (s.sketchServed c t sk)
  | .error e => .error { e with after := e.after.sketchServed c t sk }

/-- The owner's service of a list of indices, with its sketches. -/
def State.serveOwn (s : State) (c : Nat) (t : List Byte) (l : List Nat) :
    Except UnitErr (List (Option (Nat × Nat × List Nat)) × State) := do
  let (r, z) := State.ownerRows c t l s
  let s1 ← sketched c t (r.filterMap fun o => o.map fun e => (e.1, e.2.1)) z
  .ok (r, s1)

/-- A hot index served from this device's replicas (R353, R354, R798). -/
def State.hotRow (s : State) (c : Nat) (t : List Byte) (st i : Nat) : Except UnitErr (Option (Nat × Nat × List Nat) × State) :=
  Except.mapError (fun e => UnitErr.mk st e.1 e.2) (do
    let (l, s1) ← s.rowLoc c st t i true (some (st, i))
    match l with
    | none => .ok (none, s1.bump aDropMissing)
    | some a =>
      let (v, s2) ← s1.readRow c st (tdDim t) a
      .ok (some (st, i, v), s2.countIdx st true 1))

/-- FP32 values in a format (R349), with the saturations. -/
def rowIn (fmt : Nat) (l : List Nat) : List Byte × Nat :=
  let (b, _, n) := outRowOf (if fmt = 8 then 1 else 0) l
  (b, n)

/-- Codes of a received block in the requester's own format. -/
def rowFrom (fmt f : Nat) (l : List Nat) : List Byte := if f = fmt then pack (fmtW f) l else (rowIn fmt (l.map (codeF f))).1

/-! The requester: common parts. -/

/-- XID of an exchange (R796). -/
def State.xidOf (s : State) (e : Exch) : Nat := e.op.asn % 2 ^ 50 * 2 ^ 14 + (s.physStrm e.op.ctx (sdId e.op.desc)).getD 0

/-- The exchange that an XID names. -/
def State.exchOfXid (s : State) (xid : Nat) : Option Exch := s.exch.find? fun (e : Exch) => e.started && s.xidOf e == xid

/-- The part header of an exchange's messages. -/
def State.partFor (s : State) (e : Exch) (flags : Nat) : PartMsg :=
  { xid := s.xidOf e, kind := e.kind, flags := flags, table := e.table, batch := e.batch, gen := e.gen }

/-- A rank that an exchange needs cannot be reached (R817). -/
def State.unreachable (s : State) (q : Nat) : Bool := q != s.myRank && !(s.ses (16 + q)).isOpen

/-- An exchange ends its task for a lost rank or an owner's lost row (R817). -/
def State.failLost (s : State) (o : Op) : State := s.failTask o.key o.asn stDataLost 0xFFFB

/-- The global index of each list position: none for the sentinel and for one at or above GLOBAL_ROWS, counted (R327, R798). -/
def State.xIndices (s : State) (e : Exch) (a : Nat) : Except State (List (Option Nat) × State) := do
  let k := if sdIdx64 e.op.desc then 8 else 4
  let (b, s1) ← s.opRead e.op a (k * sdRows e.op.desc)
  let l := unpack (8 * k) (sdRows e.op.desc) b
  let gone := l.filter (· == 2 ^ (8 * k) - 1)
  let above := l.filter fun i => i != 2 ^ (8 * k) - 1
    && (decide (vrGlobal e.record ≤ i) || decide (s1.groupSize ≤ vrOwner e.record s1.groupSize i))
  let s2 := if gone.isEmpty then s1 else s1.bump aDropMissing gone.length
  let s3 := if above.isEmpty then s2 else s2.bump aDropRange above.length
  .ok (l.map fun i => if gone.contains i || above.contains i then none else some i, s3)

/-- Numbers in rising order, each once. -/
def rising (l : List Nat) : List Nat :=
  (sortKey id l).foldl (fun (acc : List Nat) i => if acc.getLast? = some i then acc else acc ++ [i]) []

/-- The distinct indices that one owner is asked for, in rising order (R798). -/
def State.askOf (s : State) (e : Exch) (q : Nat) : List Nat :=
  rising (e.idx.filterMap fun o => o.filter fun i => vrOwner e.record s.groupSize i == q)

/-- Rows are put at every list position that names their index (R800). -/
def Exch.place (e : Exch) (l : List (Nat × List Byte)) : Exch :=
  { e with rows := l.foldl (fun (m : SMap (List Byte)) (x : Nat × List Byte) =>
      (List.zip (List.range e.idx.length) e.idx).foldl (fun (m : SMap (List Byte)) p =>
        if p.2 = some x.1 then SMap.put m p.1 x.2 else m) m) e.rows }

/-- The EXCHANGE arm of a kind that runs on physical stream p and has not begun. -/
def State.freshExch (s : State) (p kind : Nat) : Option (Strm × Exch) :=
  match s.strm? p with
  | none => none
  | some x =>
    if x.state = 2 ∧ x.passOn ∧ sdIsX x.desc kind then
      match s.exch? x.arm.id with
      | some e => if e.started then none else some (x, e)
      | none => none
    else none

/-! LOOKUP (R798–R800). -/

/-- The list positions that the requester fills itself: dropped ones with +0, and hot ones from its replicas (R353, R798, R800). -/
def State.localRows (c : Nat) (t : List Byte) (fmt : Nat) :
    List (Nat × Option Nat) → State → Exch → Exch × List (Nat × Nat) × Except UnitErr State
  | [], s, e => (e, [], .ok s)
  | (p, none) :: l, s, e =>
    State.localRows c t fmt l s { e with rows := SMap.put e.rows p (zeros (sdRowBytes e.op.desc)) }
  | (p, some i) :: l, s, e =>
    match (if i < tdHot t then s.replicaStack none i else none) with
    | none => State.localRows c t fmt l s e
    | some st =>
      match s.hotRow c t st i with
      | .error x => (e, [], .error x)
      | .ok (v, s1) =>
        let (b, n) := match v with | some x => rowIn fmt x.2.2 | none => (zeros (sdRowBytes e.op.desc), 0)
        let e1 := { e with rows := SMap.put e.rows p b, idx := lset e.idx p none }
        let (f, sk, z) := State.localRows c t fmt l (s1.reBump st 0x110 n) e1
        (f, if v.isSome then (st, i) :: sk else sk, z)

/-- The owner's rows of this device's own indices reach the exchange without a message (R798). -/
def State.lookupSelf (s : State) (e : Exch) (c fmt : Nat) : Except UnitErr (Exch × State) := do
  let l := s.askOf e s.myRank
  let (r, s1) ← s.serveOwn c e.record l
  let n := sdRowBytes e.op.desc
  let rows := r.map fun o => match o with | some x => (rowIn fmt x.2.2).1 | none => zeros n
  let s2 := r.foldl (fun (u : State) o => match o with | some x => u.reBump x.1 0x110 (rowIn fmt x.2.2).2 | none => u) s1
  .ok (e.place (List.zip l rows), s2)

/-- A LOOKUP arm routes its indices (R798). -/
def State.startLookup (s : State) (e : Exch) : State :=
  let fmt := sdXfmt e.op.desc
  let c := e.op.ctx
  match s.xIndices e (sdSrc e.op.desc) with
  | .error t => t
  | .ok (l, s1) =>
    let (e1, sk, z) := State.localRows c e.record fmt (List.zip (List.range l.length) l) s1 { e with idx := l, started := true }
    match sketched c e.record sk z with
    | .error ⟨u, .entry, t⟩ => (t.bump (aRe u 0x114)).rowFault e.op (reUnitNo u) 3
    | .error ⟨_, .acc b, t⟩ => t.failAcc e.op.key e.op.asn b
    | .ok s3 =>
      let asked := (List.range s3.groupSize).filter fun q => !(s3.askOf e1 q).isEmpty
      if !s3.groupFormed || asked.any s3.unreachable then s3.failLost e.op
      else match s3.lookupSelf e1 c fmt with
        | .error x => (x.note c).failLost e.op
        | .ok (e2, s4) =>
          let due := asked.filter fun q => q != s4.myRank
          let k := if sdIdx64 e.op.desc then 8 else 4
          let s5 := s4.modExch e.op.id fun _ => { e2 with due := due }
          due.foldl (fun (u : State) q =>
            u.sendPart q (u.partFor e2 (if sdIdx64 e.op.desc then 2 else 0)) true ((u.askOf e2 q).map (natLe k))) s5

/-- EXCHANGE_LOOKUP on stream n (R798). -/
def execExchangeLookup (n : Fin 16384) (s : State) : Out :=
  if !s.works then .next s else
  match s.freshExch n.val 1 with
  | some (_, e) => .next (s.startLookup e)
  | none => .next s

/-- The format in which the rows of a reply travel: the FMT of the arm that rank and XID name (R797). No message carries it, and how the
owner knows it the manual does not say (log entry 16). -/
def replyFmt (rank xid : Nat) : Nat := 8 + Config.armFmt rank xid % 2

/-- A look-up is in flight from its first message to its last (R778). -/
def State.noteLookup (s : State) (q : Nat) (h : PartMsg) : State :=
  let l : PeerLookup := { rank := q, xid := h.xid, table := h.table, gen := h.gen }
  { s with lookups := s.lookups.filter (· != l) ++ if h.last then [] else [l] }

/-- An owner serves a LOOKUP part (R799). -/
def State.lookupPart (s0 : State) (q : Nat) (h : PartMsg) : State :=
  let rep : PartMsg := { h with kind := 0x81, flags := 0, count := 0, body := [] }
  let s := s0.noteLookup q h
  let f := replyFmt q h.xid
  match s.xVersion h.table h.gen with
  | none => s.sendPart q { rep with flags := 4 } h.last []
  | some (c, t) =>
    match s.serveOwn c t (unpack (if nbit h.flags 1 then 64 else 32) h.count h.body) with
    | .error x => (x.note c).sendPart q { rep with flags := 8 } h.last []
    | .ok (r, s1) =>
      let row := fun (o : Option (Nat × Nat × List Nat)) => match o with
        | some x => (if f = 8 then x.2.2.map fun v => (toBf16 v).1 else x.2.2)
        | none => List.replicate (tdDim t) 0
      let s2 := r.foldl (fun (u : State) o => match o with
        | some x => u.reBump x.1 0x110 (rowIn f x.2.2).2
        | none => u) s1
      s2.sendPart q rep h.last (r.map fun o => rowBlock f (row o))

/-- Processing an EXCHANGE message of a kind from a peer, in its turn (R179, R109). -/
def State.onPart (s : State) (r : Req) (p : List Byte) (kinds : List Nat) (f : State → Nat → PartMsg → State) : State :=
  if kinds.contains (partOf p).kind && decide (16 ≤ whoIdx r.who) then
    s.onMsg r tyExchange p fun t =>
      (if t.gate false ≠ 0 then t.refuse r tyExchange nkState 0 else f t (whoIdx r.who - 16) (partOf p)).checkExch
  else s

/-- LOOKUP_PART (R799). -/
def execLookupPart (r : Req) (p : List Byte) (s : State) : Out := .next (s.onPart r p [1] State.lookupPart)

/-- What an owner reports ends the task (R817): NOTLIVE, LOST or BADBLOCK. -/
def State.ownerFailed (s : State) (o : Op) (flags : Nat) : Option State :=
  if nbit flags 2 then some (s.failTask o.key o.asn stPerm 0xFFFC)
  else if nbit flags 3 then some (s.failLost o)
  else if nbit flags 4 then some (s.sparseFault o)
  else none

/-- Returned rows land at the requester (R800). -/
def State.lookupReply (s : State) (q : Nat) (h : PartMsg) : State :=
  match s.exchOfXid h.xid with
  | none => s
  | some e =>
    if e.kind ≠ 1 ∨ !e.due.contains q then s
    else match s.ownerFailed e.op h.flags with
      | some t => t
      | none =>
        match takeBlocks h.count (tdDim e.record) h.body with
        | none => s.sparseFault e.op
        | some l =>
          let ids := ((s.askOf e q).drop h.first).take h.count
          let e1 := e.place (List.zip ids (l.map fun x => rowFrom (sdXfmt e.op.desc) x.1 x.2))
          s.modExch e.op.id fun _ => { e1 with due := if h.last then e.due.filter (· != q) else e.due }

/-- LOOKUP_REPLY (R800). -/
def execLookupReply (r : Req) (p : List Byte) (s : State) : Out := .next (s.onPart r p [0x81] State.lookupReply)

/-! Update rounds at the owner (R802–R808, R818). -/

/-- A hot row is written into this device's replica in every present stack, in stack order (R356, R805). -/
def State.refreshRow (s : State) (c : Nat) (t : List Byte) (i : Nat) (vals : List Nat) : State :=
  s.stacksUp.foldl (fun (u : State) st =>
    let go : RowM State := do
      let (l, u1) ← u.rowLoc c st t i true (some (st, i))
      match l with
      | none => .ok (u1.bump aDropMissing)
      | some a =>
        let (b, sat) := encodeRow a.tier (tdDim t) vals
        (u1.reBump st 0x110 sat).writeRowBytes c st none a.addr b
    match go with
    | .ok v => v
    | .error e => (UnitErr.mk st e.1 e.2).note c) s

/-- The encoded row is handed to the HRE of each present stack in turn, which writes its replica (R356); a failure is noted, and the others
are written. -/
def State.copyOut (s : State) (c : Nat) (l : List Copy) : State :=
  l.foldl (fun (u : State) x => match u.writeRowBytes c x.stack none x.addr x.bytes with
    | .ok v => v
    | .error e => (UnitErr.mk x.stack e.1 e.2).note c) s

/-- The combined value of an index is applied at its owner as SCATTER or SCATTER_ADD, its replicas included (R804): encoded once, and handed
on as it is (R356, R376). The new row where the index is hot. -/
def State.applyAt (s : State) (c : Nat) (t : List Byte) (set : Bool) (i : Nat) (vals : List Nat) :
    Except UnitErr (Option (List Nat) × State) :=
  let hot := decide (i < tdHot t)
  match s.ownIndex t i with
  | none => .ok (none, s.bump aDropMissing)
  | some j => do
    let u ← s.homeUnit c t j
    Except.mapError (fun e => UnitErr.mk u e.1 e.2) (do
      let (l, s1) ← s.rowLoc c u t j hot none
      match l with
      | none => .ok (none, s1.bump aDropMissing)
      | some a =>
        let (old, s2) ← if set then (Except.ok ([], s1) : RowM (List Nat × State)) else s1.readRow c u (tdDim t) a
        let new := if set then vals else List.zipWith addF old vals
        let (b, sat) := encodeRow a.tier (tdDim t) new
        let s3 := ((s2.countIdx u false 1).reBump u 0x110 sat).sketchServed c t [(u, j)]
        let s4 ← s3.writeRowBytes c u none a.addr b
        .ok (if hot then some new else none, if hot then s4.copyOut c (s4.rowCopies t a b) else s4))

/-- One application within a round, with its failure noted. -/
def State.roundApply (s : State) (c : Nat) (t : List Byte) (ro : Round) (i : Nat) (vals : List Nat) : Round × State :=
  match s.applyAt c t ro.set i vals with
  | .error x => ({ ro with lost := true }, x.note c)
  | .ok (some v, s1) => ({ ro with hot := SMap.put ro.hot i v }, s1)
  | .ok (none, s1) => (ro, s1)

/-- EAGER: an entry is applied as it is processed; one that reaches an index of the round again counts in DET_TDC (R807). -/
def State.eagerApply (s : State) (c : Nat) (t : List Byte) (ro : Round) (e : Nat × List Nat) : Round × State :=
  let s1 := if ro.touched.contains e.1 then s.bump (aDet 0x104) else s
  s1.roundApply c t { ro with touched := e.1 :: ro.touched } e.1 e.2

/-- The contributions to an index, in the order in which the parts were processed: rank and row. -/
def Round.given (ro : Round) (i : Nat) : List (Nat × List Nat) :=
  ro.parts.filterMap fun (p : UPart) => (p.entries.find? fun e => e.1 == i).map fun e => (p.rank, e.2)

/-- The combined value of an index (R802). -/
def Round.combine (ro : Round) (exact : Bool) (i : Nat) : List Nat :=
  let l := ro.given i
  let k := if exact then sortKey (fun (e : Nat × List Nat) => e.1) l else l
  let rows := k.map (·.2)
  if ro.set then rows.getLast?.getD [] else if exact then treeRows 1 rows else foldRows rows

/-- The indices of a round, rising. -/
def Round.indices (ro : Round) : List Nat := rising (ro.parts.flatMap fun (p : UPart) => p.entries.map (·.1))

/-- A round is applied (R802–R804). -/
def State.applyRound (s : State) (c : Nat) (t : List Byte) (ro : Round) : Round × State :=
  let exact := s.rb (aCtxCtl c) 4
  ro.indices.foldl (fun (acc : Round × State) i =>
    let s1 := if !exact && decide (2 ≤ (ro.given i).length) then acc.2.bump (aDet 0x104) else acc.2
    s1.roundApply c t acc.1 i (ro.combine exact i)) (ro, s)

/-- A replay record of an applied part (R844). -/
def State.recordPart (s : State) (c q seq : Nat) (h : PartMsg) (b : List Byte) : State := s.record 0x0A 0xFF c seq (some b) (h.head q)

/-- The records of a round's parts from peers, in the order in which they were processed. -/
def State.recordParts (s : State) (c : Nat) (ro : Round) : State :=
  ro.parts.foldl (fun (u : State) (p : UPart) =>
    if p.rank = u.myRank then u
    else u.recordPart c p.rank p.seq { xid := p.xid, kind := if ro.set then 3 else 2, flags := 1, table := ro.table, batch := ro.batch,
                                       gen := ro.gen, count := p.entries.length } (p.entries.flatMap entryBytes)) s

/-- An UPDATE_DONE at the requester (R806, R817). -/
def State.updateDone (s : State) (q : Nat) (h : PartMsg) : State :=
  match s.exchOfXid h.xid with
  | none => s
  | some e =>
    if (e.kind ≠ 2 ∧ e.kind ≠ 3) ∨ !e.due.contains q then s
    else match s.ownerFailed e.op h.flags with
      | some t => t
      | none => s.modExch e.op.id fun x => { x with due := x.due.filter (· != q) }

/-- An UPDATE_DONE leaves for rank q. -/
def State.sayDone (s : State) (q : Nat) (h : PartMsg) (flags : Nat) : State :=
  let d : PartMsg := { h with kind := 0x82, flags := flags, count := 0, first := 0, body := [] }
  if q = s.myRank then s.updateDone q d else s.sendPart q d true []

/-- A REFRESH part and an UPDATE_DONE for an applied round leave for rank q (R804, R808). This device's own replicas have taken the rows as
they were applied (R356). -/
def State.answerRound (s : State) (a : Applied) (q xid : Nat) : State :=
  let h : PartMsg := { xid := xid, kind := 0x83, flags := 0, table := a.table, batch := a.batch, gen := a.gen }
  let s1 := if q = s.myRank then s else s.sendPart q h true (a.hot.map entryBytes)
  s1.sayDone q h (if a.lost then 8 else 0)

/-- The record of a round that has been applied; the last 1,024 of a table are kept (R808). -/
def State.keepApplied (s : State) (a : Applied) : State :=
  let l := s.applied ++ [a]
  let n := (l.filter fun (x : Applied) => x.table == a.table).length
  { s with applied := if n ≤ 1024 then l else l.eraseP fun (x : Applied) => x.table == a.table }

/-- A round of the identity that a part names. -/
def Round.isOf (ro : Round) (h : PartMsg) : Bool :=
  ro.table == h.table && ro.gen == h.gen && ro.batch == h.batch && ro.set == (h.kind == 3)

/-- The round that a part belongs to, as far as it has come. -/
def State.roundOf (s : State) (h : PartMsg) : Round :=
  (s.rounds.find? fun (ro : Round) => ro.isOf h).getD
    { table := h.table, gen := h.gen, batch := h.batch, set := h.kind == 3 }

/-- The state with a round replaced. -/
def State.putRound (s : State) (h : PartMsg) (ro : Round) : State :=
  { s with rounds := (s.rounds.filter fun (x : Round) => !x.isOf h) ++ [ro] }

/-- A message of rank q joins its part: parts stand in the order in which they came to their end. A message that the part holds already
changes only where the answer goes. -/
def Round.join (ro : Round) (q seq : Nat) (h : PartMsg) (es : List (Nat × List Nat)) : Option Round :=
  let p := (ro.parts.find? fun (p : UPart) => p.rank == q).getD { rank := q, xid := h.xid }
  let others := ro.parts.filter fun (p : UPart) => p.rank != q
  if p.last || decide (h.first ≠ p.entries.length) then none
  else some { ro with parts := others ++ [{ p with xid := h.xid, seq := seq, last := h.last, entries := p.entries ++ es }] }

/-- The part of rank q answers to an XID. -/
def Round.retarget (ro : Round) (q xid : Nat) : Round :=
  { ro with parts := ro.parts.map fun (p : UPart) => (if p.rank = q then { p with xid := xid } else p) }

/-- A message of an update part is processed at the owner (R802, R807, R808, R817). One of a round that has been applied is answered as
before, whatever has become of its version since (R808). -/
def State.updatePart (s : State) (q seq : Nat) (h : PartMsg) (es : Option (List (Nat × List Nat))) : State :=
  match s.applied.find? fun (a : Applied) => a.table == h.table && a.gen == h.gen && a.batch == h.batch with
  | some a => if h.last then s.answerRound a q h.xid else s
  | none =>
    match s.xVersion h.table h.gen with
    | none => s.sayDone q h 4
    | some (c, t) =>
      match es with
      | none => s.sayDone q h 16
      | some l =>
        match (s.roundOf h).join q seq h l with
        | none => s.putRound h ((s.roundOf h).retarget q h.xid)
        | some ro =>
          if vrEager t then
            let s1 := if q = s.myRank then s else s.recordPart c q seq h h.body
            let (ro2, s2) := l.foldl (fun (acc : Round × State) e => acc.2.eagerApply c t acc.1 e) (ro, s1)
            s2.putRound h ro2
          else s.putRound h ro

/-- The entries of an update part's message, where its table is live and its blocks are well formed. -/
def State.partEntries (s : State) (h : PartMsg) : Option (List (Nat × List Nat)) :=
  match s.xVersion h.table h.gen with
  | some (_, t) => takeEntries h.count (tdDim t) h.body
  | none => none

/-- UPDATE_PART (R802). -/
def execUpdatePart (r : Req) (p : List Byte) (s : State) : Out :=
  .next (s.onPart r p [2, 3] fun t q h => t.updatePart q r.seq h (t.partEntries h))

/-- Every rank's part of a round has come to its end. -/
def State.roundFull (s : State) (ro : Round) : Bool :=
  (List.range s.groupSize).all fun q => ro.parts.any fun (p : UPart) => p.rank == q && p.last

/-- The rank and XID of each part, in rank order. -/
def Round.asks (ro : Round) : List (Nat × Nat) := sortKey (fun e => e.1) (ro.parts.map fun (p : UPart) => (p.rank, p.xid))

/-- A full round is applied, remembered, and answered (R802–R804, R808). -/
def State.closeRound (s : State) (ro : Round) : State :=
  let s0 := { s with rounds := s.rounds.erase ro }
  let h : PartMsg := { xid := 0, kind := 2, flags := 0, table := ro.table, batch := ro.batch, gen := ro.gen }
  match s0.xVersion ro.table ro.gen with
  | none => ro.asks.foldl (fun (u : State) e => u.sayDone e.1 { h with xid := e.2 } 4) s0
  | some (c, t) =>
    let (ro1, s1) := if vrEager t then (ro, s0) else (s0.recordParts c ro).applyRound c t ro
    let a : Applied := { table := ro.table, gen := ro.gen, batch := ro.batch, hot := ro1.hot, lost := ro1.lost }
    ro.asks.foldl (fun (u : State) e => u.answerRound a e.1 e.2) (s1.keepApplied a)

/-- UPDATE_ROUND_APPLY (R804): the round of a table, generation and batch of which every rank's part has ended. -/
def execUpdateRoundApply (t : Fin 4096) (gen batch : Nat) (s : State) : Out :=
  if !s.works then .next s else
  match s.rounds.find? fun (ro : Round) => ro.table == t.val && ro.gen == gen && ro.batch == batch && s.roundFull ro with
  | some ro => .next (if s.groupFormed then (s.closeRound ro).checkExch else s)
  | none => .next s

/-! Updates at the requester (R801, R805, R806). -/

/-- The rows of each distinct valid index combined, in rising order of index (R801). -/
def Exch.combined (e : Exch) : List (Nat × List Nat) :=
  let dim := tdDim e.record
  let f := sdXfmt e.op.desc
  let pairs := (List.zip (List.range e.idx.length) e.idx).filterMap fun p => p.2.map fun i =>
    (i, (unpack (fmtW f) dim ((SMap.find e.rows p.1).getD [])).map fun c => if f = 9 then c else codeF f c)
  (rising (pairs.map (·.1))).map fun i =>
    let rows := (pairs.filter fun x => x.1 == i).map (·.2)
    (i, if e.kind = 3 then rows.getLast?.getD [] else foldRows rows)

/-- An UPDATE arm has its source rows and sends its parts (R801). -/
def State.startUpdate (s : State) (x : Strm) (e : Exch) : State :=
  if x.row < s.passRows x then s
  else match s.xIndices e (sdDst e.op.desc) with
    | .error t => t
    | .ok (l, s1) =>
      let ranks := List.range s1.groupSize
      if !s1.groupFormed || ranks.any s1.unreachable then s1.failLost e.op
      else
        let e1 := { e with idx := l, started := true, due := ranks }
        let all := e1.combined
        let h := s1.partFor e1 (if sdIdx64 e.op.desc then 2 else 0)
        let s2 := s1.modExch e.op.id fun _ => e1
        (ranks.foldl (fun (u : State) q =>
          let mine := all.filter fun y => vrOwner e1.record u.groupSize y.1 == q
          if q = u.myRank then
            u.updatePart q 0 { h with flags := h.flags + 1, count := mine.length } (some mine)
          else u.sendPart q h true (mine.map entryBytes)) s2).checkExch

/-- EXCHANGE_UPDATE_ADD on stream n (R801). -/
def execExchangeUpdateAdd (n : Fin 16384) (s : State) : Out :=
  if !s.works then .next s else
  match s.freshExch n.val 2 with
  | some (x, e) => .next (s.startUpdate x e)
  | none => .next s

/-- EXCHANGE_UPDATE_SET on stream n (R801). -/
def execExchangeUpdateSet (n : Fin 16384) (s : State) : Out :=
  if !s.works then .next s else
  match s.freshExch n.val 3 with
  | some (x, e) => .next (s.startUpdate x e)
  | none => .next s

/-- A REFRESH part reaches this device's replicas (R805); a malformed block ends the task that it answers (R817). -/
def State.refreshPart (s : State) (h : PartMsg) : State :=
  match s.xVersion h.table h.gen with
  | none => s
  | some (c, t) =>
    match takeEntries h.count (tdDim t) h.body with
    | some l => l.foldl (fun (u : State) e => if e.1 < tdHot t then u.refreshRow c t e.1 e.2 else u) s
    | none => match s.exchOfXid h.xid with
      | some e => s.sparseFault e.op
      | none => s

/-- REFRESH (R805). -/
def execRefresh (r : Req) (p : List Byte) (s : State) : Out := .next (s.onPart r p [0x83] fun t _ h => t.refreshPart h)

/-- UPDATE_DONE (R806). -/
def execUpdateDone (r : Req) (p : List Byte) (s : State) : Out := .next (s.onPart r p [0x82] State.updateDone)

/-! Signals (R810). -/

/-- A SIGNAL arm sends its SIGNAL; to this device itself the addition is made at once (R810, R811). -/
def State.startSignal (s : State) (e : Exch) : State :=
  let d := sdSrc e.op.desc
  let q := nbits d 0 8
  let c := nbits d 8 4
  let vc := nbits d 16 16
  let v := sdRows e.op.desc
  if !s.groupFormed || s.unreachable q then s.failLost e.op
  else if q = s.myRank then
    let s1 := s.modExch e.op.id fun x => { x with started := true }
    (if s1.signalRefusal (.peer q) c vc v true = 0 then s1.addFrom c vc v else s1).checkExch
  else
    let n := (s.ses (16 + q)).txNext
    (s.modExch e.op.id fun x => { x with started := true, due := [n] }).sendSeq (16 + q) tySignal
      (natLe 1 c ++ zeros 1 ++ natLe 2 vc ++ natLe 4 v)

/-- EXCHANGE_SIGNAL on stream n (R810). -/
def execExchangeSignal (n : Fin 16384) (s : State) : Out :=
  if !s.works then .next s else
  match s.freshExch n.val 4 with
  | some (_, e) => .next (s.startSignal e)
  | none => .next s

end Sys2Proof.Machine
end

