-- ==== Sys2Proof/Machine/Feed.lean ====
section
/-! DEFINITION. Replay (R849–R853): feeding its records, and the WRITE and LOAD_PROGRAM messages, which supply the data that a record
lacks. -/

namespace Sys2Proof.Machine

/-- The record that a replay has reached. -/
def State.rplRec (s : State) : Option RplRec := s.replay.ring.find? fun r => r.rseq == s.replay.next

/-- The record that waits for its data (R852). -/
def State.awaited (s : State) : Option RplRec := if s.rf (aDet 0x12C) 28 4 = 2 then s.rplRec else none

/-- The bytes of a record's body before its event's data. -/
def RplRec.headLen (r : RplRec) : Nat := if r.kind = 0x03 then 0x18 else if r.kind = 0x04 then 32 else if r.kind = 0x0A then 32 else r.body.length

/-- A record whose data must be supplied (R852). -/
def RplRec.lacks (r : RplRec) : Bool := (r.kind == 0x03 || r.kind == 0x04 || r.kind == 0x0A) && !r.full

/-- A replayed ASN: the one that the replayed SUBMIT took (R851). -/
def State.asnNow (s : State) (k asn : Nat) : Nat :=
  match s.replay.asns.find? fun e => e.1 == k && e.2.2 == asn with
  | some e => e.2.1
  | none => asn

/-- The writes of a CONTROL record; those of DET_RPL_CMD do nothing. -/
def feedWrites (r : Req) (group : Bool) : List (Nat × W32) → State → State
  | [], s => s
  | (a, v) :: l, s =>
    if a = aDet 0x128 then feedWrites r group l s
    else match s.writeReg r true group a v with
      | .ok t => feedWrites r group l t
      | .pend t => feedWrites r group l t
      | .nak t _ => feedWrites r group l t

/-- A CONTROL record (R844, R851): its rights were judged when it was written. -/
def State.feedControl (s : State) (x : RplRec) : State :=
  let r : Req := { who := whoOf ((s.slotOfKey x.key).getD 0), seq := x.ref }
  let a := getLe x.body 0 4
  let n := getLe x.body 4 4
  let b := x.body.drop 8
  let s1 := s.record 0x05 x.key 0 x.ref none x.body
  if a = 0x10100 ∧ n = 18 then
    match s1.qpCmd r.who (BitVec.ofNat 32 (getLe b 0 4)) (slice b 4 64) (BitVec.ofNat 32 (getLe b 68 4)) with
    | .ok t | .pend t | .nak t _ => t
  else feedWrites r (a = 0x120010 ∧ n = 9) (ctlPairs a b n) s1

/-- A PEER record: a part's message from the rank that its header names (R851). -/
def State.feedPart (s : State) (x : RplRec) (d : List Byte) : State :=
  let h : PartMsg := { partOf x.body with body := d }
  (s.updatePart (getLe x.body 0x0E 1) x.ref h (s.partEntries h)).checkExch

/-- A SUBMIT record (R851): the checks of R202 but for the token's, and the rights of the slot that binds the key; one that fails admits
nothing, and nobody is answered. -/
def State.feedSubmit (s : State) (x : RplRec) : State :=
  let c := getLe x.body 0 1
  match s.slotOfKey x.key with
  | none => s
  | some i =>
    if !subOk x.body || s.subRefusal ((s.key x.key).owner || s.rb (aSessMask i) c) x.body ≠ 0 then s
    else
      let s1 := s.answerCtx c (s.subCode x.body) { source := 0x05, key := some x.key }
      if s.subCode x.body ≠ 0 || (s1.slotRefusal x.key i x.body).isSome then s1
      else
        let t := s1.enrol x.key 0xFFFF 0 x.body
        { t with replay := { t.replay with asns := t.replay.asns ++ [(x.key, (t.key x.key).lastIssued, x.ref)] } }

/-- A record with its data is processed as if its event had come from its key or peer (R851). -/
def State.feedEvent (s : State) (x : RplRec) (d : List Byte) : State :=
  if x.kind = 0x01 then s.feedSubmit x
  else if x.kind = 0x03 then s.storeData x.key x.ctx x.ref (getLe x.body 8 8) d
  else if x.kind = 0x04 then s.installProgram x.ctx x.key x.ref d
  else if x.kind = 0x05 then s.feedControl x
  else if x.kind = 0x06 then (s.record 0x06 x.key x.ctx x.ref none x.body).addFrom x.ctx (getLe x.body 2 2) (getLe x.body 4 4)
  else if x.kind = 0x07 then (s.record 0x07 x.key x.ctx x.ref none x.body).addFrom x.ctx (getLe x.body 2 2) (getLe x.body 4 4)
  else if x.kind = 0x08 then
    let asn := s.asnNow x.key (getLe x.body 0 8)
    (if ((s.task? x.key asn).any fun t => !s.recorded t) then (s.record 0x08 x.key 0 x.ref none x.body).cancelTask x.key asn else s)
  else if x.kind = 0x09 then s.releaseOf x.key x.ref (s.asnNow x.key (getLe x.body 0 8)) (getLe x.body 8 4)
  else if x.kind = 0x0A then s.feedPart x d
  else s

/-- A record can not be processed yet: a SUBMIT finds no room (R207), or the task of a COMMIT record has not committed. -/
def State.feedHeld (s : State) (x : RplRec) : Bool :=
  if x.kind = 0x01 then s.admitHeld?
  else if x.kind = 0x02 then
    s.replay.asns.any fun e => e.1 == x.key && e.2.2 == x.ref && decide ((s.key x.key).lastCommitted < e.2.1)
  else false

/-- The replay moves on to its next record, or is over (R849). -/
def State.feedNext (s : State) : State :=
  let n := s.replay.next + 1
  let t := { s with replay := { s.replay with next := n } }
  if !t.replaying then t else if t.replay.stop < n then t.setRpl 3 else t.setRpl 1

/-- REPLAY_RECORD_FEED (R851, R852). -/
def execReplayRecordFeed (s : State) : Out :=
  if s.rf (aDet 0x12C) 28 4 ≠ 1 then .next s
  else match s.rplRec with
    | none => .next (s.setRpl 5)
    | some x =>
      if x.lacks then .next (s.setRpl 2)
      else if s.feedHeld x then .next s
      else .next (s.feedEvent x (x.body.drop x.headLen)).feedNext

/-- The data of the record that waits has been supplied: it is compared, and the replay goes on or has diverged (R852, R853). -/
def State.supply (s : State) (x : RplRec) (d : List Byte) : State :=
  if shake256 d 32 = x.digest then (s.feedEvent x d).feedNext else (s.setRpl 4).setPair (aDet 0x130) x.rseq

/-- The address and length of the WRITE that supplies a record's data; a part's data are written to the address that its XID gives. -/
def RplRec.target (x : RplRec) : Option (Nat × Nat) :=
  if x.kind = 0x03 then some (getLe x.body 8 8, getLe x.body 0x10 8)
  else if x.kind = 0x0A then some (getLe x.body 0 8, 0)
  else none

/-- A WRITE supplies the data that a record waits for (R850, R852). -/
def RplRec.takes (x : RplRec) (p : List Byte) : Bool :=
  match x.target with
  | some (a, n) => decide (16 ≤ p.length) && getLe p 0 1 == x.ctx && getLe p 8 8 == a && (x.kind == 0x0A || p.length - 16 == n)
  | none => false

/-- A WRITE while a replay runs (R850, R852). -/
def State.writeReplay (s : State) (r : Req) (p : List Byte) : State :=
  match s.awaited with
  | none => s.refuse r tyWrite nkState 0
  | some x =>
    if !x.takes p then s.refuse r tyWrite nkState 0
    else
      let n := if x.kind = 0x03 then s.writeRefusal r.who p
        else if !zeroAt p 1 7 then nkMalformed else if !s.mayCtx r.who x.ctx then nkPermission else 0
      if n ≠ 0 then s.refuse r tyWrite n 0 else s.supply x (p.drop 16)

/-- WRITE (R190, R192, R193, R850, R852). -/
def execWrite (r : Req) (p : List Byte) (s : State) : Out :=
  .next (s.onMsg r tyWrite p fun t =>
    if t.gate false ≠ 0 then t.refuse r tyWrite nkState 0
    else if t.replaying then t.writeReplay r p else t.writeMsg r p)

/-- A LOAD_PROGRAM while a replay runs: it supplies the image that a record waits for (R850, R852). -/
def State.loadReplay (s : State) (r : Req) (p : List Byte) : State :=
  match s.awaited with
  | none => s.refuse r tyLoad nkState 0
  | some x =>
    if x.kind ≠ 0x04 ∨ getLe p 0 1 ≠ x.ctx then s.refuse r tyLoad nkState 0
    else
      let n := s.loadRefusal r.who p
      if n ≠ 0 then s.refuse r tyLoad n 0
      else match s.loadBytes r.who p with
        | none => s.refuse r tyLoad nkMalformed 0
        | some b =>
          if loadLast p then { s with loads := SMap.erase s.loads (loadKey r.who x.ctx) }.supply x b
          else { s with loads := SMap.put s.loads (loadKey r.who x.ctx) b }

/-- LOAD_PROGRAM (R194, R195, R415, R850, R852). -/
def execLoadProgram (r : Req) (p : List Byte) (s : State) : Out :=
  .next (s.onMsg r tyLoad p fun t =>
    if t.gate false ≠ 0 then t.refuse r tyLoad nkState 0
    else if t.replaying then t.loadReplay r p else t.loadMsg r p)

end Sys2Proof.Machine
end

