-- ==== Sys2Proof/Machine/Stall.lean ====
section
/-! DEFINITION. The stall limit (R682, R701, R750, R764, R765, R827): what a core holds for, the dependency snapshot, and the end of a task
that has held too long. -/

namespace Sys2Proof.Machine

/-- One hold of a core in a dependency snapshot (R765). -/
structure SnapHold where
  core : Nat
  kind : Nat
  value : Nat
  target : Nat
  since : Nat
  vc : Nat
  phys : Nat
  lane : Nat := 0xFF
deriving DecidableEq, Repr

/-- The 32-byte snapshot entry. -/
def SnapHold.bytes (h : SnapHold) : List Byte :=
  natLe 8 h.value ++ natLe 8 h.target ++ natLe 8 h.since ++ natLe 2 h.vc ++ natLe 2 h.phys ++ natLe 1 h.kind
    ++ natLe 1 (h.core / 16) ++ natLe 1 (h.core % 16) ++ natLe 1 h.lane

/-- A held wait: of its own kind, or 7 where list and pool are full. -/
def State.waitSnap (s : State) (w : Waiter) (full : Bool) : SnapHold :=
  { core := w.core, kind := if full then 7 else w.kind, value := s.waitValue w, target := w.target, since := w.since,
    vc := w.vc, phys := w.phys + (if w.kind = 3 then 2 ^ 15 else 0),
    lane := if w.kind = 3 then (s.leastLane w.phys w.lanes).2 else 0xFF }

/-- The value, identifier and physical index of an arm's counter; of an arm with INC 0, what its identifier names now (R476, R765). -/
def State.armSnap (s : State) (core kind target since : Nat) (o : Op) : SnapHold :=
  let at_ := if o.inc ≠ 0 then some o.phys else match s.translate o.ctx o.vc with | some (.ctr p) => some p | _ => none
  { core := core, kind := kind, value := (at_.map s.ctr).getD 0, target := target, since := since, vc := o.vc, phys := at_.getD 0 }

/-- A list with the place of each member. -/
def placed {α : Type} (l : List α) : List (Nat × α) := (List.range l.length).zip l

/-- The slot that a waiting strm.adv waits for (R765; log entry 135): k advances that the same consumer issued wait before it. On an
inbound stream it is the Spire's next slot to be filled; on an outbound one the slot whose draining frees the position to hand over. -/
def Strm.awaited (x : Strm) (sp k : Nat) : Nat := if sdOutbound x.desc then x.handed + k - 2 else x.freedBy sp + k

/-- The advances that wait on a stream before a Spire's own count: all of them on an outbound stream, the Spire's on an inbound one. -/
def Strm.advsOf (x : Strm) (sp : Nat) : List (Nat × Op) :=
  placed (x.advs.filter fun o => sdOutbound x.desc || o.core / 16 == sp)

/-- The loader of an mma needs more bytes of its weight stream (R512, R515): a latch is free for its next tile, as far as its class is
known, and not all of that tile has been read. -/
def State.wantsBytes (s : State) (o : Op) : Bool :=
  let b := (s.run o.id).buf
  if mmHdrless o.desc then
    let cls := (hdrlessTile o.opc (mmW o.desc)).1
    s.hasLatch o cls && decide (b.length < tileBody cls (mmW o.desc))
  else if b.length < 16 then true
  else match headerTile o.desc (s.run o.id).afmt (b.take 16) with
    | some (cls, _, n) => s.hasLatch o cls && decide (b.length < 16 + n)
    | none => false

/-- An mma of core k whose loader waits for a slot of stream p (R682): tiles are still to be loaded, and no slot is full. -/
def State.starved (s : State) (k p : Nat) (x : Strm) (o : Op) : Bool :=
  o.core == k && o.started && o.weightStrm? s == some p && !s.tilesIn o && s.wantsBytes o && decide (x.filled ≤ x.freedBy (k / 16))

/-- The consumers of a core's item that an empty slot holds (R682): a strm.adv, and an mma loader whose weight stream has no full slot. -/
def State.slotHolds (s : State) (k : Nat) : List SnapHold :=
  s.streams.flatMap fun (p, x) =>
    ((x.advsOf (k / 16)).filter fun e => e.2.core == k).map
        (fun e => s.armSnap k 5 (x.awaited (k / 16) e.1) e.2.since x.arm)
      ++ (s.ops.filter (s.starved k p x)).map
          (fun o => s.armSnap k 5 (x.freedBy (k / 16)) (max o.since (SMap.get s.arr {} o.id).since) x.arm)

/-- The unfinished passes of a stream in order (R656, R659, R968; log entry 135): the number of each, the operation that completes with it
or is its request, and the arm whose counter stands for it; then again for a pending close, which waits for each of them. -/
def State.passesOf (s : State) (x : Strm) : List (Nat × Op × Op) :=
  let n := if x.passOn then x.passNo else x.passNo + 1
  let l := (if x.armOpen then [(n, x.arm, x.arm)] else [])
    ++ ((placed x.reqs).filterMap fun e => (s.req? e.2).map fun r => (n + e.1, r.op, x.arm))
    ++ (match x.rearm with | some o => [(if x.passOn || x.armOpen then n + 1 else n, o, o)] | none => [])
  l ++ (match x.close with | some o => l.map fun e => (e.1, o, e.2.2) | none => [])

/-- The unfinished passes that hold a core's end, each once (R682): passes of its own arms and re-arms, of its requests, and those that its
close waits for. -/
def State.passHolds (s : State) (k : Nat) : List SnapHold :=
  let c := s.core k
  if c.hold = some .ending then
    s.streams.flatMap fun (_, x) =>
      let l := (s.passesOf x).filter fun e => e.2.1.core == k && decide (c.opBase ≤ e.2.1.id)
      (l.map (·.1)).eraseDups.filterMap fun n =>
        (l.find? fun e => e.1 == n).map fun e => s.armSnap k 6 n c.since e.2.2
  else []

/-- A request that a core holds at issue for want of log space (R827). The manual gives no kind, value or identifier for its entry (log
entry 29). -/
def State.logHolds (s : State) (k : Nat) : List SnapHold :=
  match s.heldOp k with
  | none => []
  | some o =>
    if o.opc = 0x5C && s.logShort o then
      [{ core := k, kind := Config.unstated 6 0 % 256, value := Config.unstated 6 1 % 2 ^ 64, target := Config.unstated 6 2 % 2 ^ 64,
         since := (s.core k).since, vc := Config.unstated 6 3 % 2 ^ 16, phys := Config.unstated 6 4 % 2 ^ 16 }]
    else []

/-- What a core holds for, where it runs an item. -/
def State.coreHolds (s : State) (k : Nat) : List SnapHold :=
  let c := s.core k
  (if c.hold = some .wait then
    ((s.waiters.filter fun w => w.core == k && !w.woken).map fun w => s.waitSnap w false)
      ++ (s.poolHeld.filter fun w => w.core == k).map fun w => s.waitSnap w true
   else [])
  ++ (if c.hold = some .spawn && s.freeEntries = 0 then
    [{ core := k, kind := 4, value := 0, target := 0, since := c.since, vc := 0xFFFF, phys := 0 }] else [])
  ++ s.logHolds k ++ s.slotHolds k ++ s.passHolds k

/-- The dependency snapshot is written to the SYNC_SNAP registers (R765, R769). -/
def State.putSnap (s : State) (t : Task) (hs : List SnapHold) : State :=
  let s1 := s.setPair (aSync 0x3F0) t.asn
  let s2 := s1.setReg (aSync 0x3F8) (BitVec.ofNat 32 (t.ctx * 2 ^ 12 + t.key * 2 ^ 8 + min hs.length 255))
  let bytes := (hs.take 16).flatMap SnapHold.bytes ++ zeros (32 * (16 - hs.length))
  (List.range 128).foldl (fun u i => u.setReg (aSync (0x400 + 4 * i)) (BitVec.ofNat 32 (getLe bytes (4 * i) 4))) s2

/-- The cores that run items of a task, in order. -/
def State.taskCores (s : State) (key asn : Nat) : List Nat :=
  (s.cores.filter fun e => match e.2.run with | some i => i.of key asn | none => false).map (·.1)

/-- A core's wait or hold has lasted SYNC_STALL_LIMIT (R764): the snapshot is written, and the task ends with
FAILED_SYNC_STALL. -/
def execStallLimitExpiry (k : CoreRef) (s : State) : Out :=
  if !s.works then .next s else
  let n := coreIdx k
  match (s.core n).run, sortKey (fun (h : SnapHold) => h.since) (s.coreHolds n) with
  | some it, h :: rest =>
    match s.task? it.key it.asn with
    | none => .next s
    | some t =>
      let s0 := s.passTo (h.since + 1000 * (s.reg (aSync 0x004)).toNat)
      let others := (s0.taskCores it.key it.asn).flatMap fun j => if j = n then [] else s0.coreHolds j
      let hs := h :: rest ++ others
      let s1 := ((s0.putSnap t hs).bump (aSync 0x108)).report
        { cls := clsSyncStall, origin := n, reporter := n, ctx := it.ctx, key := it.key, asn := it.asn, status := stStall,
          detail := h.vc,
          body := natLe 1 (min hs.length 255) ++ zeros 15 ++ (hs.take 16).flatMap SnapHold.bytes
            ++ zeros (32 * (16 - hs.length)) }
      .next (s1.failTask it.key it.asn stStall h.vc)
  | _, _ => .next s

end Sys2Proof.Machine
end

