-- ==== Sys2Proof/Machine/All.lean ====
section
/-! DEFINITION. Every family of meanings, for Dispatch to import. -/
end

