-- ==== Sys2Proof/Machine/Dispatch.lean ====
section
/-! DEFINITION. exec: one arm per command, each one direct call of that command's meaning. -/

namespace Sys2Proof.Machine

def exec (i : Instr) (s : State) : Host.Outcome State Fault Refusal :=
  match i with
  | .vauxRise straps => Sys2Proof.Machine.execVauxRise straps s
  | .vauxLoss => Sys2Proof.Machine.execVauxLoss s
  | .pwrGoodRise => Sys2Proof.Machine.execPwrGoodRise s
  | .pwrGoodFall => Sys2Proof.Machine.execPwrGoodFall s
  | .devResetNFall short => Sys2Proof.Machine.execDevResetNFall short s
  | .devResetNLongHold => Sys2Proof.Machine.execDevResetNLongHold s
  | .devResetNRise probe => Sys2Proof.Machine.execDevResetNRise probe s
  | .refclkLoss => Sys2Proof.Machine.execRefclkLoss s
  | .powerManagerPass smp => Sys2Proof.Machine.execPowerManagerPass smp s
  | .fastGuardTrip q amps gap => Sys2Proof.Machine.execFastGuardTrip q amps gap s
  | .fastGuardRelease q amps => Sys2Proof.Machine.execFastGuardRelease q amps s
  | .junctionOverLimit unit hot => Sys2Proof.Machine.execJunctionOverLimit unit hot s
  | .thermalTrip unit vddqGood => Sys2Proof.Machine.execThermalTrip unit vddqGood s
  | .imageStagingComplete => Sys2Proof.Machine.execImageStagingComplete s
  | .trainingTimeout => Sys2Proof.Machine.execTrainingTimeout s
  | .watchdogExpiry => Sys2Proof.Machine.execWatchdogExpiry s
  | .memoryTrainingComplete tr => Sys2Proof.Machine.execMemoryTrainingComplete tr s
  | .enumerationComplete => Sys2Proof.Machine.execEnumerationComplete s
  | .bootReady => Sys2Proof.Machine.execBootReady s
  | .journalScanComplete => Sys2Proof.Machine.execJournalScanComplete s
  | .devCtlResetWarm r v => Sys2Proof.Machine.execDevCtlResetWarm r v s
  | .devCtlResetCold r v => Sys2Proof.Machine.execDevCtlResetCold r v s
  | .devCtlRunSet r v => Sys2Proof.Machine.execDevCtlRunSet r v s
  | .devCtlRunClear r v => Sys2Proof.Machine.execDevCtlRunClear r v s
  | .devCtlMaintSet r v => Sys2Proof.Machine.execDevCtlMaintSet r v s
  | .devCtlMaintClear r v => Sys2Proof.Machine.execDevCtlMaintClear r v s
  | .ctxCtlEnSet r c v => Sys2Proof.Machine.execCtxCtlEnSet r c v s
  | .ctxCtlEnClear r c v => Sys2Proof.Machine.execCtxCtlEnClear r c v s
  | .ctxCtlReset r c v => Sys2Proof.Machine.execCtxCtlReset r c v s
  | .ctxCtlModeWrite r c v => Sys2Proof.Machine.execCtxCtlModeWrite r c v s
  | .contextResetPerform c => Sys2Proof.Machine.execContextResetPerform c s
  | .spireReset sp => Sys2Proof.Machine.execSpireReset sp s
  | .registerWrite r addr v => Sys2Proof.Machine.execRegisterWrite r addr v s
  | .portModeWrite r v => Sys2Proof.Machine.execPortModeWrite r v s
  | .subportLinkUp p => Sys2Proof.Machine.execSubportLinkUp p s
  | .laneFailure l => Sys2Proof.Machine.execLaneFailure l s
  | .frameReceive f => Sys2Proof.Machine.execFrameReceive f s
  | .pfcPauseReceive p prio ticks => Sys2Proof.Machine.execPfcPauseReceive p prio ticks s
  | .ecnRateCut tgt => Sys2Proof.Machine.execEcnRateCut tgt s
  | .ecnRateRecovery tgt => Sys2Proof.Machine.execEcnRateRecovery tgt s
  | .macsecRekey p => Sys2Proof.Machine.execMacsecRekey p s
  | .ptpSyncReceive smp => Sys2Proof.Machine.execPtpSyncReceive smp s
  | .ptpLockAcquire => Sys2Proof.Machine.execPtpLockAcquire s
  | .ptpLockLoss missed => Sys2Proof.Machine.execPtpLockLoss missed s
  | .synceLockChange lock => Sys2Proof.Machine.execSynceLockChange lock s
  | .dwpDatagramReceive w dg => Sys2Proof.Machine.execDwpDatagramReceive w dg s
  | .hello w src p => Sys2Proof.Machine.execHello w src p s
  | .prove w src p => Sys2Proof.Machine.execProve w src p s
  | .write r p => Sys2Proof.Machine.execWrite r p s
  | .read r p => Sys2Proof.Machine.execRead r p s
  | .loadProgram r p => Sys2Proof.Machine.execLoadProgram r p s
  | .submit r p => Sys2Proof.Machine.execSubmit r p s
  | .journalWriteComplete key asn => Sys2Proof.Machine.execJournalWriteComplete key asn s
  | .heldSubmitAdmit k => Sys2Proof.Machine.execHeldSubmitAdmit k s
  | .getResult r p => Sys2Proof.Machine.execGetResult r p s
  | .release r p => Sys2Proof.Machine.execRelease r p s
  | .cancel r p => Sys2Proof.Machine.execCancel r p s
  | .signal r p => Sys2Proof.Machine.execSignal r p s
  | .startAt r p => Sys2Proof.Machine.execStartAt r p s
  | .timedStartFire n => Sys2Proof.Machine.execTimedStartFire n s
  | .controlRd r p => Sys2Proof.Machine.execControlRd r p s
  | .controlWr r p => Sys2Proof.Machine.execControlWr r p s
  | .telemetry r p => Sys2Proof.Machine.execTelemetry r p s
  | .telemetryReport k => Sys2Proof.Machine.execTelemetryReport k s
  | .firmware r p => Sys2Proof.Machine.execFirmware r p s
  | .ack w p => Sys2Proof.Machine.execAck w p s
  | .ackTimerExpiry w => Sys2Proof.Machine.execAckTimerExpiry w s
  | .retransmitTimeout w seq => Sys2Proof.Machine.execRetransmitTimeout w seq s
  | .taskCommit key asn => Sys2Proof.Machine.execTaskCommit key asn s
  | .journalMirrorComplete => Sys2Proof.Machine.execJournalMirrorComplete s
  | .rdmaWrite q psn rkey addr data => Sys2Proof.Machine.execRdmaWrite q psn rkey addr data s
  | .rdmaRead q psn rkey addr len => Sys2Proof.Machine.execRdmaRead q psn rkey addr len s
  | .send q psn dg => Sys2Proof.Machine.execSend q psn dg s
  | .regionValidate r n v => Sys2Proof.Machine.execRegionValidate r n v s
  | .regionInvalidate r n v => Sys2Proof.Machine.execRegionInvalidate r n v s
  | .windowWrite r c n w v => Sys2Proof.Machine.execWindowWrite r c n w v s
  | .hbmRefresh stack bank => Sys2Proof.Machine.execHbmRefresh stack bank s
  | .hbmPhyRetrain stack => Sys2Proof.Machine.execHbmPhyRetrain stack s
  | .patrolScrub a r => Sys2Proof.Machine.execPatrolScrub a r s
  | .glacierRefresh chan bank => Sys2Proof.Machine.execGlacierRefresh chan bank s
  | .dqsOscillatorTracking chan => Sys2Proof.Machine.execDqsOscillatorTracking chan s
  | .glacierRetrain chan => Sys2Proof.Machine.execGlacierRetrain chan s
  | .domeAccess id addr len data => Sys2Proof.Machine.execDomeAccess id addr len data s
  | .domeFillComplete line => Sys2Proof.Machine.execDomeFillComplete line s
  | .domeSeedWrite r n v => Sys2Proof.Machine.execDomeSeedWrite r n v s
  | .domeWaymaskWrite r v => Sys2Proof.Machine.execDomeWaymaskWrite r v s
  | .wayPowerDownComplete => Sys2Proof.Machine.execWayPowerDownComplete s
  | .domeDisable r v => Sys2Proof.Machine.execDomeDisable r v s
  | .domeBypassEnter => Sys2Proof.Machine.execDomeBypassEnter s
  | .domeEnable r v => Sys2Proof.Machine.execDomeEnable r v s
  | .clean r v => Sys2Proof.Machine.execClean r v s
  | .invalidate r v => Sys2Proof.Machine.execInvalidate r v s
  | .cleanInvalidate r v => Sys2Proof.Machine.execCleanInvalidate r v s
  | .invalidateAll r v => Sys2Proof.Machine.execInvalidateAll r v s
  | .maintenanceComplete => Sys2Proof.Machine.execMaintenanceComplete s
  | .domeCntClr r v => Sys2Proof.Machine.execDomeCntClr r v s
  | .gather k g e => Sys2Proof.Machine.execGather k g e s
  | .gatherReduce k g e => Sys2Proof.Machine.execGatherReduce k g e s
  | .gatherAmax k g e => Sys2Proof.Machine.execGatherAmax k g e s
  | .scatter k g e => Sys2Proof.Machine.execScatter k g e s
  | .scatterAdd k g e => Sys2Proof.Machine.execScatterAdd k g e s
  | .prefetchBatch k g e => Sys2Proof.Machine.execPrefetchBatch k g e s
  | .splitterAccept id => Sys2Proof.Machine.execSplitterAccept id s
  | .unitRequestStart id u => Sys2Proof.Machine.execUnitRequestStart id u s
  | .unitPartialCombine id seg => Sys2Proof.Machine.execUnitPartialCombine id seg s
  | .replicaWrite id => Sys2Proof.Machine.execReplicaWrite id s
  | .sketchFlush id u => Sys2Proof.Machine.execSketchFlush id u s
  | .reCntClr r u => Sys2Proof.Machine.execReCntClr r u s
  | .reGlbCntClr r => Sys2Proof.Machine.execReGlbCntClr r s
  | .issueAccept k => Sys2Proof.Machine.execIssueAccept k s
  | .operationStart sp u => Sys2Proof.Machine.execOperationStart sp u s
  | .operationComplete id => Sys2Proof.Machine.execOperationComplete id s
  | .tileLoadComplete sp => Sys2Proof.Machine.execTileLoadComplete sp s
  | .tileApply sp => Sys2Proof.Machine.execTileApply sp s
  | .nextSlotFill k => Sys2Proof.Machine.execNextSlotFill k s
  | .itemStart k => Sys2Proof.Machine.execItemStart k s
  | .endI k g => Sys2Proof.Machine.execEndI k g s
  | .itemEnd k => Sys2Proof.Machine.execItemEnd k s
  | .loadComplete k => Sys2Proof.Machine.execLoadComplete k s
  | .taskRetry key asn => Sys2Proof.Machine.execTaskRetry key asn s
  | .add k g a b c => Sys2Proof.Machine.execAdd k g a b c s
  | .sub k g a b c => Sys2Proof.Machine.execSub k g a b c s
  | .and k g a b c => Sys2Proof.Machine.execAnd k g a b c s
  | .or k g a b c => Sys2Proof.Machine.execOr k g a b c s
  | .xor k g a b c => Sys2Proof.Machine.execXor k g a b c s
  | .shl k g a b c => Sys2Proof.Machine.execShl k g a b c s
  | .shr k g a b c => Sys2Proof.Machine.execShr k g a b c s
  | .sra k g a b c => Sys2Proof.Machine.execSra k g a b c s
  | .mul k g a b c => Sys2Proof.Machine.execMul k g a b c s
  | .mulhu k g a b c => Sys2Proof.Machine.execMulhu k g a b c s
  | .mulh k g a b c => Sys2Proof.Machine.execMulh k g a b c s
  | .divu k g a b c => Sys2Proof.Machine.execDivu k g a b c s
  | .remu k g a b c => Sys2Proof.Machine.execRemu k g a b c s
  | .div k g a b c => Sys2Proof.Machine.execDiv k g a b c s
  | .rem k g a b c => Sys2Proof.Machine.execRem k g a b c s
  | .minu k g a b c => Sys2Proof.Machine.execMinu k g a b c s
  | .maxu k g a b c => Sys2Proof.Machine.execMaxu k g a b c s
  | .min k g a b c => Sys2Proof.Machine.execMin k g a b c s
  | .max k g a b c => Sys2Proof.Machine.execMax k g a b c s
  | .popc k g a b => Sys2Proof.Machine.execPopc k g a b s
  | .clz k g a b => Sys2Proof.Machine.execClz k g a b s
  | .addi k g a b imm => Sys2Proof.Machine.execAddi k g a b imm s
  | .andi k g a b imm => Sys2Proof.Machine.execAndi k g a b imm s
  | .ori k g a b imm => Sys2Proof.Machine.execOri k g a b imm s
  | .xori k g a b imm => Sys2Proof.Machine.execXori k g a b imm s
  | .shli k g a b imm => Sys2Proof.Machine.execShli k g a b imm s
  | .shri k g a b imm => Sys2Proof.Machine.execShri k g a b imm s
  | .srai k g a b imm => Sys2Proof.Machine.execSrai k g a b imm s
  | .muli k g a b imm => Sys2Proof.Machine.execMuli k g a b imm s
  | .li k g a imm => Sys2Proof.Machine.execLi k g a imm s
  | .lih k g a b imm => Sys2Proof.Machine.execLih k g a b imm s
  | .cmp k g cd p b c => Sys2Proof.Machine.execCmp k g cd p b c s
  | .cmpi k g cd p b imm => Sys2Proof.Machine.execCmpi k g cd p b imm s
  | .pand k g p b c => Sys2Proof.Machine.execPand k g p b c s
  | .por k g p b c => Sys2Proof.Machine.execPor k g p b c s
  | .pxor k g p b c => Sys2Proof.Machine.execPxor k g p b c s
  | .pandn k g p b c => Sys2Proof.Machine.execPandn k g p b c s
  | .fadd k g bf a b c => Sys2Proof.Machine.execFadd k g bf a b c s
  | .fsub k g bf a b c => Sys2Proof.Machine.execFsub k g bf a b c s
  | .fmul k g bf a b c => Sys2Proof.Machine.execFmul k g bf a b c s
  | .fdiv k g bf a b c => Sys2Proof.Machine.execFdiv k g bf a b c s
  | .fsqrt k g bf a b => Sys2Proof.Machine.execFsqrt k g bf a b s
  | .fmin k g bf a b c => Sys2Proof.Machine.execFmin k g bf a b c s
  | .fmax k g bf a b c => Sys2Proof.Machine.execFmax k g bf a b c s
  | .ffma k g bf a b c => Sys2Proof.Machine.execFfma k g bf a b c s
  | .fabs k g bf a b => Sys2Proof.Machine.execFabs k g bf a b s
  | .fneg k g bf a b => Sys2Proof.Machine.execFneg k g bf a b s
  | .fcvtSL k g a b => Sys2Proof.Machine.execFcvtSL k g a b s
  | .fcvtLS k g a b => Sys2Proof.Machine.execFcvtLS k g a b s
  | .fcvtBfS k g a b => Sys2Proof.Machine.execFcvtBfS k g a b s
  | .fcvtSBf k g a b => Sys2Proof.Machine.execFcvtSBf k g a b s
  | .fcmp k g cd p b c => Sys2Proof.Machine.execFcmp k g cd p b c s
  | .ld k g sz sign sp a b off => Sys2Proof.Machine.execLd k g sz sign sp a b off s
  | .st k g sz sp b c off => Sys2Proof.Machine.execSt k g sz sp b c off s
  | .b k g imm => Sys2Proof.Machine.execB k g imm s
  | .bcc k g cd b c imm => Sys2Proof.Machine.execBcc k g cd b c imm s
  | .jal k g a imm => Sys2Proof.Machine.execJal k g a imm s
  | .jr k g b imm => Sys2Proof.Machine.execJr k g b imm s
  | .dset k g sz d b byte => Sys2Proof.Machine.execDset k g sz d b byte s
  | .dget k g sz a d byte => Sys2Proof.Machine.execDget k g sz a d byte s
  | .dclr k g d => Sys2Proof.Machine.execDclr k g d s
  | .dmov k g d e => Sys2Proof.Machine.execDmov k g d e s
  | .dld k g sp d b off => Sys2Proof.Machine.execDld k g sp d b off s
  | .dst k g sp d b off => Sys2Proof.Machine.execDst k g sp d b off s
  | .mmaD k g e => Sys2Proof.Machine.execMmaD k g e s
  | .mmaS k g e => Sys2Proof.Machine.execMmaS k g e s
  | .spcmp k g e => Sys2Proof.Machine.execSpcmp k g e s
  | .segred k g e => Sys2Proof.Machine.execSegred k g e s
  | .combine k g e => Sys2Proof.Machine.execCombine k g e s
  | .ewiseCopy k g e => Sys2Proof.Machine.execEwiseCopy k g e s
  | .ewiseAdd k g e => Sys2Proof.Machine.execEwiseAdd k g e s
  | .ewiseSub k g e => Sys2Proof.Machine.execEwiseSub k g e s
  | .ewiseMul k g e => Sys2Proof.Machine.execEwiseMul k g e s
  | .ewiseDiv k g e => Sys2Proof.Machine.execEwiseDiv k g e s
  | .ewiseMin k g e => Sys2Proof.Machine.execEwiseMin k g e s
  | .ewiseMax k g e => Sys2Proof.Machine.execEwiseMax k g e s
  | .ewiseFma k g e => Sys2Proof.Machine.execEwiseFma k g e s
  | .ewiseScale k g e => Sys2Proof.Machine.execEwiseScale k g e s
  | .ewiseRelu k g e => Sys2Proof.Machine.execEwiseRelu k g e s
  | .ewiseGelu k g e => Sys2Proof.Machine.execEwiseGelu k g e s
  | .ewiseSilu k g e => Sys2Proof.Machine.execEwiseSilu k g e s
  | .ewiseSigmoid k g e => Sys2Proof.Machine.execEwiseSigmoid k g e s
  | .ewiseTanh k g e => Sys2Proof.Machine.execEwiseTanh k g e s
  | .ewiseExp k g e => Sys2Proof.Machine.execEwiseExp k g e s
  | .ewiseLog k g e => Sys2Proof.Machine.execEwiseLog k g e s
  | .ewiseRsqrt k g e => Sys2Proof.Machine.execEwiseRsqrt k g e s
  | .ewiseAbs k g e => Sys2Proof.Machine.execEwiseAbs k g e s
  | .ewiseOr k g e => Sys2Proof.Machine.execEwiseOr k g e s
  | .ewiseAnd k g e => Sys2Proof.Machine.execEwiseAnd k g e s
  | .smBlock k g e => Sys2Proof.Machine.execSmBlock k g e s
  | .smRescale k g e => Sys2Proof.Machine.execSmRescale k g e s
  | .smFinal k g e => Sys2Proof.Machine.execSmFinal k g e s
  | .smMerge k g e => Sys2Proof.Machine.execSmMerge k g e s
  | .segSoftmax k g e => Sys2Proof.Machine.execSegSoftmax k g e s
  | .optstep k g e => Sys2Proof.Machine.execOptstep k g e s
  | .scan k g e => Sys2Proof.Machine.execScan k g e s
  | .derive k g e => Sys2Proof.Machine.execDerive k g e s
  | .qscanLoad k g e => Sys2Proof.Machine.execQscanLoad k g e s
  | .qscanStore k g e => Sys2Proof.Machine.execQscanStore k g e s
  | .qconv k g e => Sys2Proof.Machine.execQconv k g e s
  | .strmArm k g e => Sys2Proof.Machine.execStrmArm k g e s
  | .strmRearm k g e => Sys2Proof.Machine.execStrmRearm k g e s
  | .strmAdv k g e => Sys2Proof.Machine.execStrmAdv k g e s
  | .strmClose k g e => Sys2Proof.Machine.execStrmClose k g e s
  | .bufferGrant n => Sys2Proof.Machine.execBufferGrant n s
  | .slotFillComplete n => Sys2Proof.Machine.execSlotFillComplete n s
  | .slotDrainComplete n => Sys2Proof.Machine.execSlotDrainComplete n s
  | .granuleComplete n => Sys2Proof.Machine.execGranuleComplete n s
  | .requestPassStart n => Sys2Proof.Machine.execRequestPassStart n s
  | .strmCntClr r => Sys2Proof.Machine.execStrmCntClr r s
  | .sig k g o => Sys2Proof.Machine.execSig k g o s
  | .waitGe k g o => Sys2Proof.Machine.execWaitGe k g o s
  | .waitC k g o => Sys2Proof.Machine.execWaitC k g o s
  | .arrive k g o => Sys2Proof.Machine.execArrive k g o s
  | .waitB k g o => Sys2Proof.Machine.execWaitB k g o s
  | .cread k g a o => Sys2Proof.Machine.execCread k g a o s
  | .waitRetire k => Sys2Proof.Machine.execWaitRetire k s
  | .fenceSpire k g => Sys2Proof.Machine.execFenceSpire k g s
  | .fenceDev k g => Sys2Proof.Machine.execFenceDev k g s
  | .fenceSys k g => Sys2Proof.Machine.execFenceSys k g s
  | .spawn k g d => Sys2Proof.Machine.execSpawn k g d s
  | .spawnAccept k => Sys2Proof.Machine.execSpawnAccept k s
  | .csrr k g a sel => Sys2Proof.Machine.execCsrr k g a sel s
  | .csrw k g b sel => Sys2Proof.Machine.execCsrw k g b sel s
  | .trace k g b tag => Sys2Proof.Machine.execTrace k g b tag s
  | .stallLimitExpiry k => Sys2Proof.Machine.execStallLimitExpiry k s
  | .syncCntClr r => Sys2Proof.Machine.execSyncCntClr r s
  | .taskExpand key asn => Sys2Proof.Machine.execTaskExpand key asn s
  | .dispDrain r v => Sys2Proof.Machine.execDispDrain r v s
  | .dispReturn r v => Sys2Proof.Machine.execDispReturn r v s
  | .dispCntClr r => Sys2Proof.Machine.execDispCntClr r s
  | .dispTraceCfgWrite r v => Sys2Proof.Machine.execDispTraceCfgWrite r v s
  | .ctxPtraceCfgWrite r c v => Sys2Proof.Machine.execCtxPtraceCfgWrite r c v s
  | .switch r c t => Sys2Proof.Machine.execSwitch r c t s
  | .retire r c t => Sys2Proof.Machine.execRetire r c t s
  | .query r c t => Sys2Proof.Machine.execQuery r c t s
  | .reclaim r c t => Sys2Proof.Machine.execReclaim r c t s
  | .versionReclaim t gen => Sys2Proof.Machine.execVersionReclaim t gen s
  | .form r => Sys2Proof.Machine.execForm r s
  | .peerFormationComplete mixed => Sys2Proof.Machine.execPeerFormationComplete mixed s
  | .peerFormationTimeout => Sys2Proof.Machine.execPeerFormationTimeout s
  | .dissolve r => Sys2Proof.Machine.execDissolve r s
  | .exchangeLookup n => Sys2Proof.Machine.execExchangeLookup n s
  | .exchangeUpdateAdd n => Sys2Proof.Machine.execExchangeUpdateAdd n s
  | .exchangeUpdateSet n => Sys2Proof.Machine.execExchangeUpdateSet n s
  | .exchangeSignal n => Sys2Proof.Machine.execExchangeSignal n s
  | .lookupPart r p => Sys2Proof.Machine.execLookupPart r p s
  | .lookupReply r p => Sys2Proof.Machine.execLookupReply r p s
  | .updatePart r p => Sys2Proof.Machine.execUpdatePart r p s
  | .updateRoundApply t gen batch => Sys2Proof.Machine.execUpdateRoundApply t gen batch s
  | .refresh r p => Sys2Proof.Machine.execRefresh r p s
  | .updateDone r p => Sys2Proof.Machine.execUpdateDone r p s
  | .replayStart r => Sys2Proof.Machine.execReplayStart r s
  | .replayStop r => Sys2Proof.Machine.execReplayStop r s
  | .replayRecordFeed => Sys2Proof.Machine.execReplayRecordFeed s
  | .detSignGo r v => Sys2Proof.Machine.execDetSignGo r v s
  | .batchRootSignComplete => Sys2Proof.Machine.execBatchRootSignComplete s
  | .detCntClr r v => Sys2Proof.Machine.execDetCntClr r v s
  | .qntCntClr r v => Sys2Proof.Machine.execQntCntClr r v s
  | .spsCntClr r => Sys2Proof.Machine.execSpsCntClr r s
  | .spireEngCntClr r sp => Sys2Proof.Machine.execSpireEngCntClr r sp s
  | .transferParityError link receiver n owners waiters => Sys2Proof.Machine.execTransferParityError link receiver n owners waiters s
  | .stateParityError u key asn => Sys2Proof.Machine.execStateParityError u key asn s
  | .correctedError unit a => Sys2Proof.Machine.execCorrectedError unit a s
  | .uncorrectableError e => Sys2Proof.Machine.execUncorrectableError e s
  | .recordClose seq => Sys2Proof.Machine.execRecordClose seq s
  | .errAck r v => Sys2Proof.Machine.execErrAck r v s
  | .spireTest r v => Sys2Proof.Machine.execSpireTest r v s
  | .fullTest r v => Sys2Proof.Machine.execFullTest r v s
  | .selfTestComplete fails n => Sys2Proof.Machine.execSelfTestComplete fails n s
  | .autotestTimer => Sys2Proof.Machine.execAutotestTimer s
  | .errCntClr r => Sys2Proof.Machine.execErrCntClr r s
  | .lifetimeAccumulate => Sys2Proof.Machine.execLifetimeAccumulate s
  | .lifetimeMramWrite => Sys2Proof.Machine.execLifetimeMramWrite s
  | .install r slot owner wrapped => Sys2Proof.Machine.execInstall r slot owner wrapped s
  | .erase r slot => Sys2Proof.Machine.execErase r slot s
  | .eraseAll r => Sys2Proof.Machine.execEraseAll r s
  | .attestationGo r v => Sys2Proof.Machine.execAttestationGo r v s
  | .attestationComplete => Sys2Proof.Machine.execAttestationComplete s
  | .extest x park => Sys2Proof.Machine.execExtest x park s
  | .idcode park => Sys2Proof.Machine.execIdcode park s
  | .samplePreload x park => Sys2Proof.Machine.execSamplePreload x park s
  | .clamp park => Sys2Proof.Machine.execClamp park s
  | .highz park => Sys2Proof.Machine.execHighz park s
  | .extestPulse x park => Sys2Proof.Machine.execExtestPulse x park s
  | .extestTrain x park => Sys2Proof.Machine.execExtestTrain x park s
  | .bypass park => Sys2Proof.Machine.execBypass park s
  | .testLogicReset => Sys2Proof.Machine.execTestLogicReset s
  | .i3cRegisterRead dest wr => Sys2Proof.Machine.execI3cRegisterRead dest wr s
  | .i3cRegisterWrite dest wr => Sys2Proof.Machine.execI3cRegisterWrite dest wr s
  | .sampledPairRead w addr => Sys2Proof.Machine.execSampledPairRead w addr s
  | .create r idx b => Sys2Proof.Machine.execCreate r idx b s
  | .destroy r idx => Sys2Proof.Machine.execDestroy r idx s
  | .qpQuery r idx => Sys2Proof.Machine.execQpQuery r idx s
  | .portCntClr r => Sys2Proof.Machine.execPortCntClr r s
  | .refclkRestore => Sys2Proof.Machine.execRefclkRestore s
  | .pfcPauseExpiry p prio => Sys2Proof.Machine.execPfcPauseExpiry p prio s
  | .localAckTimeout q => Sys2Proof.Machine.execLocalAckTimeout q s
  | .illegalInstruction k => Sys2Proof.Machine.execIllegalInstruction k s
  | .regionChangeComplete n => Sys2Proof.Machine.execRegionChangeComplete n s
  | .warmEntryComplete => Sys2Proof.Machine.execWarmEntryComplete s

end Sys2Proof.Machine
end

