-- ==== Sys2Proof/Machine/Step.lean ====
section
/-! DEFINITION. One step of the block: the command at the front of the queue is carried out on the state with the queue's
rest. On an empty queue a tick passes while VAUX is up (R89; log entry 1). -/

namespace Sys2Proof.Machine

/-- A step with nothing to carry out: the tick counter counts (R18, R89). -/
def State.idle (s : State) : State := if s.pins.vaux then s.passTo (s.tick + 1) else s

/-- One step. -/
def step (s : State) : Host.Outcome State Fault Refusal :=
  match s.pending with
  | [] => .next s.idle
  | c :: t => exec c { s with pending := t }

/-- The state with the command that a word spells at the front of its queue; no word of this block spells one. -/
def State.withFetchWord (s : State) (nbits w : Nat) : State :=
  match decodeTableWord nbits w with
  | some c => { s with pending := c :: s.pending }
  | none => s

end Sys2Proof.Machine
end

