-- ==== Sys2Proof/Safety.lean ====
section
/-! DEFINITION. The words the statements are written in: what a sound state is, what it is for a command to be carried out, when
a core executes its instruction, and what else a command leaves as it was. -/

namespace Sys2Proof.Machine

/-- Every byte memory has its canonical form. -/
def State.memOk (s : State) : Bool := s.mem.wf && s.dmem.wf && s.flash.wf && s.scales.wf && s.gscales.wf

/-- A step that answers a next state: neither a fault nor a refusal. -/
def State.steps (s : State) : Bool :=
  match step s with
  | .next _ => true
  | _ => false

/-- The command is carried out: it answers a next state, and P holds of that state. -/
def Runs (i : Instr) (s : State) (P : State → Prop) : Prop := ∃ t, exec i s = .next t ∧ P t

/-! Cores. -/

/-- The core that a command names. -/
def State.coreOf (s : State) (k : CoreRef) : Core := s.core (coreIdx k)

/-- Core k executes instruction i now, for item it: an item runs and nothing holds it, its Spire serves its items (R441), the
word at its PC can be fetched (R967) and is i, the guard g holds (R454), and none of the registers gs and ds waits for a load
(R420, R444). -/
structure Fires (s : State) (i : Instr) (k : CoreRef) (g : Guard) (gs : List Reg) (ds : List DReg) (it : Item) : Prop where
  item : (s.coreOf k).run = some it
  free : (s.coreOf k).hold = none
  serves : s.spireRuns k.spire.val = true
  fetched : s.fetchLost (coreIdx k) it.ctx (s.coreOf k).pc = false
  word : s.at? k (s.coreOf k) it.ctx i = true
  guard : (s.coreOf k).guardHolds g = true
  regs : ∀ r ∈ gs, (s.coreOf k).pending false r.val = false
  descs : ∀ d ∈ ds, (s.coreOf k).pending true d.val = false

/-- No fill of the Dome cache is in flight, and no way under power-down holds a line older than memory (R299, R310): the memory field is
then what both the cache and the tiers hold. -/
def State.calm (s : State) : Prop := s.dome.fills = [] ∧ s.dome.fresh = []

/-- The registers that count the Dome cache's accesses, and its choice of ways: the only ones that a fetch moves. -/
def domeRegs : List Nat := (List.range 8).map aDomeCnt

/-- The state in which core k has fetched the word at its PC for item it: a line that the instruction cache did not hold came through the
Dome cache (R417). FetchLeaves says what that leaves. -/
def State.fetched (s : State) (k : CoreRef) (it : Item) : State := s.icFetch (coreIdx k) it.ctx (s.coreOf k).pc

/-- The same for the item that core k runs. -/
def State.fetchedNow (s : State) (k : CoreRef) : State :=
  match (s.coreOf k).run with
  | some it => s.fetched k it
  | none => s

/-- Nothing but core k differs from the state with the word at its PC fetched: memories, registers, counters, tasks and every other core
are as they were. -/
def OnlyCore (s t : State) (k : CoreRef) : Prop :=
  (∃ cs, t = { s.fetchedNow k with cores := cs }) ∧ ∀ n, n ≠ coreIdx k → t.core n = s.core n

/-- Core k wrote v to general register a, where a write of g0 is discarded (R442), and went on to the next word: every other general
register, the predicates, the descriptor registers, FPFLAGS and everything outside the core are as they were. -/
def WritesGpr (s t : State) (k : CoreRef) (a : Reg) (v : W64) : Prop :=
  OnlyCore s t k
    ∧ (∀ r, (t.coreOf k).rd r = if r = a ∧ a ≠ 0 then v else (s.coreOf k).rd r)
    ∧ t.coreOf k = { s.coreOf k with g := (t.coreOf k).g, pc := (s.coreOf k).pc + 8 }

/-- Core k wrote b to predicate p, where a write of p0 is discarded (R442), and went on to the next word, with everything else as it
was. -/
def WritesPred (s t : State) (k : CoreRef) (p : PReg) (b : Bool) : Prop :=
  OnlyCore s t k
    ∧ (∀ q, (t.coreOf k).rp q = if q = p ∧ p ≠ 0 then b else (s.coreOf k).rp q)
    ∧ t.coreOf k = { s.coreOf k with p := (t.coreOf k).p, pc := (s.coreOf k).pc + 8 }

/-- Core k wrote descriptor register d, byte j taking v j, and went on to the next word, with everything else as it was. -/
def WritesDesc (s t : State) (k : CoreRef) (d : DReg) (v : Nat → Byte) : Prop :=
  OnlyCore s t k
    ∧ (∀ e, e ≠ d → (t.coreOf k).rdd e = (s.coreOf k).rdd e)
    ∧ (∀ j, j < 64 → (descBytes ((t.coreOf k).rdd d)).getD j 0 = v j)
    ∧ t.coreOf k = { s.coreOf k with d := (t.coreOf k).d, pc := (s.coreOf k).pc + 8 }

/-- Core k's PC became pc; nothing else changed. -/
def JumpsTo (s t : State) (k : CoreRef) (pc : Nat) : Prop :=
  OnlyCore s t k ∧ t.coreOf k = { s.coreOf k with pc := pc }

/-- A register function of R452's table: instruction i writes a value that stands in relation f to the values of B and C. -/
def RegFn (i : CoreRef → Guard → Reg → Reg → Reg → Instr) (f : W64 → W64 → W64 → Prop) : Prop :=
  ∀ (s : State) (k : CoreRef) (g : Guard) (a b c : Reg) (it : Item), Fires s (i k g a b c) k g [a, b, c] [] it →
    ∃ v, f ((s.coreOf k).rd b) ((s.coreOf k).rd c) v ∧ Runs (i k g a b c) s (WritesGpr s · k a v)

/-- The same of an instruction with register B alone. -/
def RegFn1 (i : CoreRef → Guard → Reg → Reg → Instr) (f : W64 → W64 → Prop) : Prop :=
  ∀ (s : State) (k : CoreRef) (g : Guard) (a b : Reg) (it : Item), Fires s (i k g a b) k g [a, b] [] it →
    ∃ v, f ((s.coreOf k).rd b) v ∧ Runs (i k g a b) s (WritesGpr s · k a v)

/-- The same of an instruction with register B and an immediate. -/
def ImmFn (i : CoreRef → Guard → Reg → Reg → W32 → Instr) (f : W64 → W32 → W64 → Prop) : Prop :=
  ∀ (s : State) (k : CoreRef) (g : Guard) (a b : Reg) (imm : W32) (it : Item), Fires s (i k g a b imm) k g [a, b] [] it →
    ∃ v, f ((s.coreOf k).rd b) imm v ∧ Runs (i k g a b imm) s (WritesGpr s · k a v)

/-- The comparisons of the compare-condition table, between 64-bit values. -/
def CondTrue : Cond → W64 → W64 → Prop
  | .eq, x, y => x = y
  | .ne, x, y => x ≠ y
  | .lt, x, y => x.toInt < y.toInt
  | .ge, x, y => y.toInt ≤ x.toInt
  | .ltu, x, y => x.toNat < y.toNat
  | .geu, x, y => y.toNat ≤ x.toNat

/-- What core n's fetch of the word at pc of context c's program leaves (R417): its line in the instruction cache, which a hit changes
nothing for; else the line came through the Dome cache. -/
def FetchLeaves (s : State) (n c pc : Nat) : Prop :=
  let t := s.icFetch n c pc
  (s.icHit n c (s.icLine c pc) = true → t = s) ∧ t.icHit n c (s.icLine c pc) = true
    ∧ (∃ ic d rg dm bad m, t = { s with icache := ic, draws := d, regs := rg, dome := dm, badBytes := bad, mem := m })
    ∧ (∀ a, a ∉ domeRegs → (∀ j, j < 32 → a ≠ aDomeSeed j) → t.reg a = s.reg a)
    ∧ (s.bypass = true → ∃ ic d, t = { s with icache := ic, draws := d })
    ∧ (s.calm → t.mem = s.mem ∧ t.calm)

/-! Floating point. -/

/-- Core k wrote the floating-point result r to general register a, its flags joined FPFLAGS, and it went on to the next word, with
everything else as it was. -/
def WritesFpr (s t : State) (k : CoreRef) (a : Reg) (r : Nat × FFlags) : Prop :=
  OnlyCore s t k
    ∧ (∀ x, (t.coreOf k).rd x = if x = a ∧ a ≠ 0 then BitVec.ofNat 64 r.1 else (s.coreOf k).rd x)
    ∧ t.coreOf k = { s.coreOf k with
        g := (t.coreOf k).g, fpflags := (s.coreOf k).fpflags ||| r.2.bits, pc := (s.coreOf k).pc + 8 }

/-- A floating-point instruction on A, B and C: its operands are the low 16 or 32 bits of the registers. -/
def FpFn (i : CoreRef → Guard → Bool → Reg → Reg → Reg → Instr) (f : FFmt → Nat → Nat → Nat → Nat × FFlags) : Prop :=
  ∀ (s : State) (k : CoreRef) (g : Guard) (bf : Bool) (a b c : Reg) (it : Item),
    Fires s (i k g bf a b c) k g [a, b, c] [] it →
    Runs (i k g bf a b c) s (WritesFpr s · k a
      (f (if bf then bf16 else fp32) (((s.coreOf k).rd a).toNat % if bf then 2 ^ 16 else 2 ^ 32)
        (((s.coreOf k).rd b).toNat % if bf then 2 ^ 16 else 2 ^ 32) (((s.coreOf k).rd c).toNat % if bf then 2 ^ 16 else 2 ^ 32)))

/-- A floating-point instruction on B alone. -/
def FpFn1 (i : CoreRef → Guard → Bool → Reg → Reg → Instr) (f : FFmt → Nat → Nat × FFlags) : Prop :=
  ∀ (s : State) (k : CoreRef) (g : Guard) (bf : Bool) (a b : Reg) (it : Item), Fires s (i k g bf a b) k g [a, b] [] it →
    Runs (i k g bf a b) s (WritesFpr s · k a
      (f (if bf then bf16 else fp32) (((s.coreOf k).rd b).toNat % if bf then 2 ^ 16 else 2 ^ 32)))

/-- A conversion: its operand is the low w bits of B. -/
def FpCvt (i : CoreRef → Guard → Reg → Reg → Instr) (f : W64 → Nat × FFlags) : Prop :=
  ∀ (s : State) (k : CoreRef) (g : Guard) (a b : Reg) (it : Item), Fires s (i k g a b) k g [a, b] [] it →
    Runs (i k g a b) s (WritesFpr s · k a (f ((s.coreOf k).rd b)))

/-- The number that a finite value is; 0 for infinities and NaNs. -/
def FVal.toRat : FVal → Rat
  | .fin n m e => (if n then -1 else 1) * m * (2 : Rat) ^ e
  | _ => 0

/-- The value is a number. -/
def FVal.isFin : FVal → Bool
  | .fin .. => true
  | _ => false

/-- The magnitude from which rounding to nearest gives infinity: half a last place above the greatest finite number. -/
def FFmt.overflowAt (f : FFmt) : Rat := (2 ^ (f.mb + 2) - 1) * (2 : Rat) ^ (f.bias - f.mb - 1)

/-- Code r is q rounded to nearest in format f, ties to even, with overflow to infinity (R457). -/
def FFmt.Nearest (f : FFmt) (q : Rat) (r : Nat) : Prop :=
  if f.overflowAt ≤ |q| then r = (if q < 0 then f.signBit else 0) + f.infCode
  else (f.decode r).isFin = true
    ∧ ∀ d, d < 2 ^ (f.mb + f.eb + 1) → (f.decode d).isFin = true →
        |(f.decode r).toRat - q| ≤ |(f.decode d).toRat - q|
        ∧ (|(f.decode r).toRat - q| = |(f.decode d).toRat - q| → (f.decode d).toRat = (f.decode r).toRat ∨ r % 2 = 0)

/-- Code r is the root of q > 0 rounded to nearest in format f, ties to even (R457): the midpoint between r and any other number lies on
that number's side of the root. -/
def FFmt.NearestRoot (f : FFmt) (q : Rat) (r : Nat) : Prop :=
  (f.decode r).isFin = true ∧ 0 ≤ (f.decode r).toRat
    ∧ ∀ d, d < 2 ^ (f.mb + f.eb + 1) → (f.decode d).isFin = true → 0 ≤ (f.decode d).toRat →
        let mid := ((f.decode r).toRat + (f.decode d).toRat) / 2
        ((f.decode d).toRat < (f.decode r).toRat → mid ^ 2 ≤ q ∧ (mid ^ 2 = q → r % 2 = 0))
        ∧ ((f.decode r).toRat < (f.decode d).toRat → q ≤ mid ^ 2 ∧ (mid ^ 2 = q → r % 2 = 0))

/-- Value x lies below y; a NaN is not below anything, nor anything below it. -/
def FVal.Below : FVal → FVal → Prop
  | .nan _, _ => False
  | _, .nan _ => False
  | .inf n, .inf m => n = true ∧ m = false
  | .inf n, .fin .. => n = true
  | .fin .., .inf m => m = false
  | .fin n m e, .fin n' m' e' => (FVal.fin n m e).toRat < (FVal.fin n' m' e').toRat

/-! Tasks that a fault ends, and accesses of a core. -/

/-- A task that a fault can still end: it exists, nothing has given it a status, and it neither has ended nor waits for a retry nor
is recorded (R495, R871, R872). -/
def State.canFail (s : State) (key asn : Nat) : Prop :=
  ∃ x, s.task? key asn = some x ∧ s.recorded x = false ∧ x.ended = false ∧ x.retryDue = false ∧ x.status = none

/-- The task has ended with this status and DETAIL. -/
def State.endedWith (s : State) (key asn status detail : Nat) : Prop :=
  ∃ x, s.task? key asn = some x ∧ x.status = some (status, detail) ∧ x.ended = true

/-- The address that a memory instruction computes: g[B] + OFF modulo 2^64 (R462). -/
def State.addrOf (s : State) (k : CoreRef) (b : Reg) (off : W32) : Nat := memAddr (s.coreOf k) b off

/-- Core k goes on with the next word, and a load in flight will write v to general register a, or to descriptor register a (R420);
no byte of memory reads differently where the Dome cache is calm. -/
def LoadsLater (s t : State) (k : CoreRef) (desc : Bool) (a v : Nat) : Prop :=
  t.coreOf k = { s.coreOf k with pc := (s.coreOf k).pc + 8, pend := (s.coreOf k).pend ++ [{ desc := desc, num := a, val := v }] }
    ∧ (∀ n, n ≠ coreIdx k → t.core n = s.core n) ∧ t.dmem = s.dmem ∧ t.ctrs = s.ctrs ∧ t.tasks = s.tasks
    ∧ (s.calm → ∀ x, Mem.read t.mem x = Mem.read s.mem x)

/-- The number that the n bytes of a load stand for in its register (R465). -/
def LoadedAs (sign : Bool) (n v : Nat) (w : W64) : Prop := if sign then w.toInt = sext (8 * n) v else w.toNat = v % 2 ^ 64

/-- A tier access of n bytes by core k for item it may go on: its windows grant it and no byte of it is lost (R263, R267, R423). -/
def State.tierOk (s : State) (k : CoreRef) (it : Item) (a n : Nat) (p : Perm) : Prop :=
  a < 2 ^ 48 ∧ (a < storeBase ∨ storeBase + 2 ^ 29 ≤ a) ∧ (s.fetched k it).checkAcc it.ctx a n p = none

/-- Core k wrote bytes b at address a of memory and went on with the next word: every other byte of memory reads as after the fetch of the
word, and no register of any core changed but k's PC. -/
def StoresMem (s t : State) (k : CoreRef) (a : Nat) (b : List Byte) : Prop :=
  Mem.readN t.mem a b.length = b ∧ (∀ x, (x < a ∨ a + b.length ≤ x) → Mem.read t.mem x = Mem.read (s.fetchedNow k).mem x)
    ∧ t.coreOf k = { s.coreOf k with pc := (s.coreOf k).pc + 8 } ∧ (∀ n, n ≠ coreIdx k → t.core n = s.core n)
    ∧ t.dmem = s.dmem ∧ t.ctrs = s.ctrs

/-- The same of core k's own data memory, whose offset a stands at 32,768 × core + a. -/
def StoresData (s t : State) (k : CoreRef) (a : Nat) (b : List Byte) : Prop :=
  Mem.readN t.dmem (coreIdx k * 32768 + a) b.length = b
    ∧ (∀ x, (x < coreIdx k * 32768 + a ∨ coreIdx k * 32768 + a + b.length ≤ x) → Mem.read t.dmem x = Mem.read s.dmem x)
    ∧ t.coreOf k = { s.coreOf k with pc := (s.coreOf k).pc + 8 } ∧ (∀ n, n ≠ coreIdx k → t.core n = s.core n)
    ∧ t.mem = (s.fetchedNow k).mem ∧ t.ctrs = s.ctrs ∧ t.regs = (s.fetchedNow k).regs ∧ t.tasks = s.tasks

/-! Synchronisation. -/

/-- The identifier that an S- or E-format instruction of core k names (R449). -/
def State.vcAt (s : State) (k : CoreRef) (vc : BitVec 16) (vcreg : Bool) (b : Reg) : Nat := vcOf (s.coreOf k) vc vcreg b

/-- The value of an S-format instruction of core k: IMMV or g[C]. -/
def State.sval (s : State) (k : CoreRef) (o : SOp) : Nat := sopValue (s.coreOf k) o

/-- No waiter that an addition to the counter could wake subtracts from it: none of them is a wait.c. -/
def State.noTaker (s : State) (p : Nat) : Prop := ∀ w ∈ s.waiters, w.on p = true → w.kind ≠ 2

/-- A waiter that has not been woken finds its condition met where counter p stands at x and every other as in s (R479, R745). -/
def State.finds (s : State) (p x : Nat) (w : Waiter) : Prop :=
  w.woken = false ∧ if w.kind = 3 then ∀ j, j < w.lanes → w.target ≤ (if w.phys + j = p then x else s.ctr (w.phys + j)) else w.target ≤ x

/-- The waiters of a list look at counter p one after the other, the first finding x: one whose condition is met is woken, a wait.c taking its
value off (R751, R760); the others stay as they were, and p ends at what the last one left. -/
def WokenInOrder (s t : State) (p : Nat) : List Waiter → Nat → Prop
  | [], x => t.ctr p = x
  | w :: l, x =>
    (s.finds p x w → { w with woken := true } ∈ t.waiters ∧ WokenInOrder s t p l (if w.kind = 2 then x - w.target else x))
    ∧ (¬ s.finds p x w → w ∈ t.waiters ∧ WokenInOrder s t p l x)

/-- Counter p was raised to x, and its waiters looked at it in the order in which they registered; no other counter or waiter changed. -/
def Wakes (s t : State) (p x : Nat) : Prop :=
  WokenInOrder s t p (s.waiters.filter fun w => w.on p) x ∧ (∀ q, q ≠ p → t.ctr q = s.ctr q)
    ∧ t.waiters.map (fun w => w.core) = s.waiters.map (fun w => w.core) ∧ ∀ w ∈ s.waiters, w.on p = false → w ∈ t.waiters

/-- A wait held for want of an entry looks again (R748–R750, R760): it retires where its condition is met; otherwise it takes an entry of its
list of 32, else of its home's pool of 1,024, else it stays held. -/
def LooksAgain (w : Waiter) (s u : State) : Prop :=
  let met : Prop := if w.kind = 3 then ∀ j, j < w.lanes → w.target ≤ s.ctr (w.phys + j) else w.target ≤ s.ctr w.phys
  let rest := s.poolHeld.filter fun x => x.core != w.core
  let own := (s.waiters.filter fun x => !x.pooled && x.phys == w.phys && x.lanes == w.lanes).length
  let pool := (s.waiters.filter fun x => x.pooled && x.phys / 512 == w.phys / 512).length
  (met → u.waiters = s.waiters ∧ u.poolHeld = rest ∧ u.core w.core = { s.core w.core with pc := (s.core w.core).pc + 8, hold := none }
    ∧ (∀ n, n ≠ w.core → u.core n = s.core n) ∧ ∀ p, u.ctr p = if w.kind = 2 ∧ p = w.phys then s.ctr p - w.target else s.ctr p)
  ∧ (¬ met → (∀ n, u.core n = s.core n) ∧ (∀ p, u.ctr p = s.ctr p)
    ∧ (own < 32 → u.waiters = s.waiters ++ [w] ∧ u.poolHeld = rest)
    ∧ (32 ≤ own → pool < 1024 → u.waiters = s.waiters ++ [{ w with pooled := true }] ∧ u.poolHeld = rest)
    ∧ (32 ≤ own → 1024 ≤ pool → u.waiters = s.waiters ∧ u.poolHeld = s.poolHeld))

/-- The waits of a list look again one after the other. -/
def LookAgain : List Waiter → State → State → Prop
  | [], s, t => t = s
  | w :: l, s, t => ∃ u, LooksAgain w s u ∧ LookAgain l u t

/-- Core k holds at its wait, and its waiter stands at the counter's or group's home with its target, or waits for an entry
(R479, R748–R750). -/
def HoldsAt (s t : State) (k : CoreRef) (it : Item) (kind vc phys lanes target : Nat) : Prop :=
  t.coreOf k = { s.coreOf k with hold := some .wait, since := s.tick } ∧ (∀ p, t.ctr p = s.ctr p)
    ∧ ∃ w : Waiter, (t.waiters = s.waiters ++ [w] ∨ t.poolHeld = s.poolHeld ++ [w]) ∧ w.core = coreIdx k ∧ w.key = it.key
        ∧ w.asn = it.asn ∧ w.kind = kind ∧ w.vc = vc ∧ w.phys = phys ∧ w.lanes = lanes ∧ w.target = target ∧ w.woken = false

/-! Items. -/

/-- Nothing that belongs to a core changed but core k's own state c; where the Dome cache is calm, no memory. -/
def CoreBecomes (s t : State) (k : CoreRef) (c : Core) : Prop :=
  t.coreOf k = c ∧ (∀ n, n ≠ coreIdx k → t.core n = s.core n) ∧ (s.calm → t.mem = s.mem) ∧ t.dmem = s.dmem ∧ t.ctrs = s.ctrs

/-! Dispatch. -/

/-- The dispatcher's trace ring is disabled (R725), so its decisions write no memory. -/
def State.traceOff (s : State) : Prop := s.rf (aDisp 0x058) 0 5 = 0

/-- Register a rose by n, saturating at 0xFFFF_FFFF. -/
def Counted (s t : State) (a : Nat) (n : Nat := 1) : Prop := (t.reg a).toNat = min ((s.reg a).toNat + n) (2 ^ 32 - 1)

/-- Every core but k is as it was. -/
def OtherCores (s t : State) (k : CoreRef) : Prop := ∀ n, n ≠ coreIdx k → t.core n = s.core n

/-- A spawn that found no free entry begins to hold, and is marked as counted (R487, R731); anything else stays. -/
def SpawnNoted (s : State) (c c' : Core) : Prop :=
  c' = c ∨ (c.hold = some .spawn ∧ c.counted = false ∧ c' = { c with since := s.tick, counted := true })

/-- Every core but k is as it was, but for a spawn that begins to hold. -/
def OtherCoresSpawn (s t : State) (k : CoreRef) : Prop := ∀ n, n ≠ coreIdx k → SpawnNoted s (s.core n) (t.core n)

/-- Records of task x's item array entered the ready lists behind the others, in array order from where its expansion stood (R688, R692),
unless a fault stopped the task; quiet says that no fill of the Dome cache and no trace changes memory meanwhile. -/
def Expands (s t : State) (x : Task) (quiet : Prop) : Prop :=
  ∃ y, t.task? x.key x.asn = some y ∧ (y.status = none → y.retryDue = false →
    ∃ es : List Entry, t.ready = s.ready ++ es ∧ y.expanded = x.expanded + es.length
      ∧ ∀ j e, es[j]? = some e → e.key = x.key ∧ e.asn = x.asn ∧ e.ctx = x.ctx ∧ e.prio = x.prio ∧ e.num = x.expanded + j
          ∧ (quiet → e.words = Mem.readN s.mem (x.itemSrc + 64 * (x.expanded + j)) 64))

/-! Engine issue. -/

/-- Core k handed operation o to its unit and went on with the next word (R397): the operation stands last among those accepted, a
row-engine request also among the requests, and its task takes the space of its log entries (R827); no memory, counter or other core changed. -/
def HandedOver (s t : State) (k : CoreRef) (o : Op) : Prop :=
  t.ops = s.ops ++ [o] ∧ t.opSeq = s.opSeq + 1
    ∧ t.coreOf k = { s.coreOf k with
        pc := (s.coreOf k).pc + 8, hold := none, reqs := (s.coreOf k).reqs + if o.opc = 0x5C then 1 else 0 }
    ∧ OtherCores s t k ∧ t.mem = s.mem ∧ t.dmem = s.dmem ∧ t.ctrs = s.ctrs
    ∧ (o.opc ≠ 0x5C ∨ s.logNeed o = 0 → t.tasks = s.tasks)
    ∧ (o.opc = 0x5C → ∀ y, s.task? o.key o.asn = some y → t.task? o.key o.asn = some { y with logSpace := y.logSpace + s.logNeed o })
    ∧ t.reqs = s.reqs ++ (if o.opc = 0x5C then [{ op := o }] else [])
    ∧ (o.opc ≠ 0x5C → o.opc ≠ 0x5D → t.streams = s.streams)

/-- An engine-issue instruction (R397, R398, R403, R483): with a counter of the context for its increment, room in its unit's queue and no
core of the Spire waiting for that unit, the operation is handed over as the unit accepts it, and the task ends as the unit refuses
its descriptor; with the queue full or a core waiting the core holds; without a translation the task ends. u is the state in which
the core has fetched the word. -/
def IssueRow (i : CoreRef → Guard → EOp → Instr) (opc func : Nat) : Prop :=
  ∀ (s : State) (k : CoreRef) (g : Guard) (e : EOp) (it : Item),
    Fires s (i k g e) k g (if e.vcreg then [e.b] else []) [e.a] it →
    let u := s.fetched k it
    let refused : Prop := s.canFail it.key it.asn → Runs (i k g e) s fun t => t.endedWith it.key it.asn 0x0105 (coreIdx k)
    let held : Prop := Runs (i k g e) s fun t => OnlyCore s t k
      ∧ t.coreOf k = { s.coreOf k with hold := some .issue, since := s.tick }
    (u.issueCtr (s.coreOf k) it.ctx e = none → refused)
    ∧ ∀ ctr, u.issueCtr (s.coreOf k) it.ctx e = some ctr →
      let o := u.opOf (coreIdx k) (s.coreOf k) it e opc func ctr
      let turn : Prop := u.hasRoom k.spire.val (unitOf opc) = true
        ∧ ∀ j, j < 16 → u.waitsFor (unitOf opc) (16 * k.spire.val + j) = false
      (¬ turn → held) ∧ (turn → u.verdict o = .hold → held) ∧ (turn → ∀ r, u.verdict o = .refuse r → refused)
        ∧ (turn → u.verdict o = .accept → Runs (i k g e) s (HandedOver u · k o))

/-- Operation o is marked as started at the present tick. -/
def State.withStarted (s : State) (o : Op) : State :=
  { s with ops := s.ops.map fun x => if x.id == o.id then { x with started := true, since := s.tick } else x }

/-! What engine operations write. -/

/-- Memory reads b at address a, and every other byte as before. -/
def WritesMem (s t : State) (a : Nat) (b : List Byte) : Prop :=
  Mem.readN t.mem a b.length = b ∧ ∀ x, (x < a ∨ a + b.length ≤ x) → Mem.read t.mem x = Mem.read s.mem x

/-- Operation o, of opcode opc, runs as number id in a device that works (R72; log entry 118). -/
structure Doing (s : State) (id : Nat) (o : Op) (opc : Nat) : Prop where
  works : s.works = true
  op : s.op? id = some o
  started : o.started = true
  opc : o.opc = opc

/-- Code k of an array at address a, of a format of at least 8 bits. -/
def State.codeAt (s : State) (fmt a k : Nat) : Nat := leNat (Mem.readN s.mem (a + k * (fmtW fmt / 8)) (fmtW fmt / 8))

/-- Its value in FP32 (R347, R548). -/
def State.valAt (s : State) (fmt a k : Nat) : Nat := codeF fmt (s.codeAt fmt a k)

/-- m codes f k of a format of at least 8 bits stand from address a. -/
def State.shows (t : State) (fmt a m : Nat) (f : Nat → Nat) : Prop := ∀ k, k < m → t.codeAt fmt a k = f k % 2 ^ fmtW fmt

/-- The same, and every byte outside them reads as before. -/
def Puts (s t : State) (fmt a m : Nat) (f : Nat → Nat) : Prop :=
  t.shows fmt a m f ∧ ∀ x, (x < a ∨ a + m * (fmtW fmt / 8) ≤ x) → Mem.read t.mem x = Mem.read s.mem x

/-- The scale register that an operation names as n became r, and every other one is as it was (R579, R581). -/
def ScaleBecomes (s t : State) (o : Op) (n : Nat) (r : Scale) : Prop :=
  let a := 16 * s.scaleIdx o.ctx (o.core / 16) n
  t.scale o n = r ∧ ∀ x, (x < a ∨ a + 16 ≤ x) → Mem.read t.scales x = Mem.read s.scales x

/-- amax is the largest magnitude of a list's numbers: +0 where it holds none but NaN (R588). -/
def IsAmax (l : List Nat) (amax : Nat) : Prop :=
  (∀ x ∈ l, isNanF x = false → ltF amax (absF x) = false)
    ∧ (amax = 0 ∨ ∃ x ∈ l, isNanF x = false ∧ absF x = amax)

/-- The largest magnitude that each target format of a tensor scale emits, but for UINT4 (R589). -/
def qmaxTable : List (Nat × Nat) := [(0, 6), (1, 7), (3, 1), (4, 1), (5, 448), (6, 57344), (7, 127)]

/-- The scale of amax under qmax q (R589). -/
def scaleFor (amax q : Nat) : Nat := maxF (divNatF (if amax = infF then 0x7F7FFFFF else amax) q) 0x00800000

/-- What a qscan writes to VALUE beside scale in QDIV (R590, R593). -/
def State.withCarry (s : State) (o : Op) (scale : Nat) : Nat :=
  (if qsCarry o.desc then mulF scale (s.scale o (qsCreg o.desc)).value else scale) % 2 ^ 32

/-- A qscan derived scale and zero point zp for SREG (R590, R591); flat says that the range was degenerate. -/
def Derives (s t : State) (o : Op) (scale zp : Nat) (flat : Bool) : Prop :=
  ScaleBecomes s t o (qsReg o.desc)
      { value := s.withCarry o scale, qdiv := scale % 2 ^ 32, tag := if flat then 32 else 0, zp := zp,
        pbuf := (s.scale o (qsReg o.desc)).pbuf }
    ∧ (if flat then Counted s t (aQnt 2) else t.reg (aQnt 2) = s.reg (aQnt 2))

/-- The divisor of element k of a qconv's tensor under register x (R598). -/
def State.divisorOf (s : State) (o : Op) (x : Scale) (k : Nat) : FVal :=
  let n := qcN o.desc
  if x.gscaled then ((e8m0 (s.gs o (qcBase o.desc + k / n * ceilDiv n x.gsize + k % n / x.gsize))).mul (fp32.decode x.qdiv)).1
  else fp32.decode x.qdiv

/-! Units. -/

/-- Counter p rose by inc, saturating, where no wait.c stands on it; with an increment of 0 no counter changed (R474, R476). -/
def Incremented (s t : State) (p inc : Nat) : Prop :=
  if inc = 0 then t.ctrs = s.ctrs
  else s.noTaker p → ∀ q, t.ctr q = if q = p then min (s.ctr q + inc) (2 ^ 64 - 1) else s.ctr q

/-- Stream n became x, and every other stream is as it was. -/
def StrmBecomes (s t : State) (n : Nat) (x : Strm) : Prop := t.strm? n = some x ∧ ∀ p, p ≠ n → t.strm? p = s.strm? p

/-- Request id does no more than its copies and increments that are under way: it takes no further part in its pass, and its operation has
left (R355, R385; log entry 126). -/
def State.reqGone (t : State) (id : Nat) : Prop :=
  t.op? id = none ∧ ∀ r, t.req? id = some r → r.accepted = false ∧ r.passOn = false ∧ r.routes = []

/-- A request whose copies or increments have been made: it stays while its operation or more of them is there. -/
def State.reqKept (s : State) (q : RowReq) : Option RowReq :=
  if s.op? q.op.id = none ∧ q.copies = [] ∧ q.sketch = [] then none else some q

/-- No byte of line l has an error, in the tier or in a slice (R880, R881). -/
def State.lineGood (s : State) (l : Nat) : Prop := s.tierBad l = 0 ∧ ∀ e ∈ s.dome.lines, lineOf e.1 e.2.tag = l → e.2.bad = 0

/-- Context c may read n bytes at a, and no error in them is known (R263, R267, R879). -/
def State.granted (s : State) (c a n : Nat) : Prop := n = 0 ∨ (s.access c a n .rd = .ok ∧ ∀ l ∈ linesOf a n, s.lineGood l)

/-- The tier side of the stream's next k rows can be reached: rows of a request or an exchange, or rows that are not compressed, in a
Spire's store or where the windows grant it (R263, R267). -/
def State.rowsGo (s : State) (x : Strm) (k : Nat) : Prop :=
  sdType x.desc = 3 ∨ sdType x.desc = 5 ∨ (sdComp x.desc = false ∧ ∀ i, i < k →
    let a := sdTierBase x.desc + (x.row + i) * sdTierStride x.desc
    (isStore a = true ∧ s.unbackedAt a = false)
      ∨ if sdOutbound x.desc then s.access x.arm.ctx a (sdRowBytes x.desc) .wr = .ok else s.granted x.arm.ctx a (sdRowBytes x.desc))

/-- The splitter can read a request's offsets, weights and index list (R263, R267, R391). -/
def State.listsGo (s : State) (o : Op) : Prop :=
  (rqHasSeg o.desc = true → s.granted o.ctx (rqSeg o.desc) (4 * (rqNseg o.desc + 1)))
    ∧ (rqHasWgt o.desc = true → s.granted o.ctx (rqWgt o.desc) (rqWgtBytes o.desc * rqCount o.desc))
    ∧ s.granted o.ctx (rqIdx o.desc) (rqIdxBytes o.desc * rqCount o.desc)

/-- The splitter has taken request id up with version v and what it read (R327, R329, R335): each index in range is sent, each other one
dropped. Of offsets that break R336 it has taken those ahead of the bad one (R338; log entry 164). -/
def SplitInto (t : State) (id : Nat) (o : Op) (v : Version) (x : Operands) : Prop :=
  ∃ q, t.req? id = some q ∧ q.accepted = true ∧ q.op = o ∧ q.gen = v.gen ∧ q.weights = x.weights ∧ q.badOff = x.bad
    ∧ q.offs = x.offs.take (x.bad.getD x.offs.length)
    ∧ ∀ p i, x.idx[p]? = some i →
      (p ∈ q.dropped ↔ i = 2 ^ (8 * rqIdxBytes o.desc) - 1 ∨ tdRows v.bytes ≤ i)
      ∧ (p ∉ q.dropped → ∃ r ∈ q.routes, r.pos = p ∧ r.idx = i ∧ r.done = false)

/-- The row of a route stands where R341 lets it, and its bytes can be read, in a table without a directory. -/
def State.rowStands (s : State) (c u : Nat) (t : List Byte) (r : Route) : Prop :=
  let a := s.rowNamed t u r
  tdDirless t = true ∧ s.rowPlaced u t (decide (r.idx < tdHot t)) (if r.hot then tdAreaAt t u + tdSpan t else tdData t) a = true
    ∧ s.granted c a.addr (storedBytes a.tier (tdDim t))

/-- Request q's routes at unit u that are in rs have been served. -/
def ServedFrom (t : State) (q : RowReq) (u : Nat) (rs : List Route) : Prop :=
  ∃ q', t.req? q.op.id = some q' ∧ q'.routes = q.routes.map fun r => if r.unit = u ∧ r ∈ rs then { r with done := true } else r

/-! What the array and the aggregate unit compute. -/

/-- Activation codes of row i over the K range of tile x, as the operation has them since its start (R503). -/
def State.actAt (s : State) (o : Op) (x : Tile) (i : Nat) : List Nat :=
  let r := s.run o.id
  let w := fmtW r.afmt
  unpack w x.kl (Mem.readN s.mem (r.act + (i * mmK o.desc + x.k0) * w / 8) (x.kl * w / 8))

/-- The accumulator of row i and column n as the next tile finds it (R519, R524). -/
def State.accAt (s : State) (o : Op) (i n : Nat) : Int :=
  let r := s.run o.id
  let d := o.desc
  let c := s.codeAt 9 (mmOut d) (i * mmN d + 128 * r.nApply + n)
  if r.kApply ≠ 0 then r.acc.getD (128 * i + n) 0
  else if mmAcc d = false then 0
  else if fmtInt (mmW d) then sext 32 c
  else if isNanF c then (nanF : Nat) else (posZero c : Nat)

/-- The same once tile x, of codes ws, has been applied without group scales: every product added exactly in the integer family (R524),
and the exact sum of each step's products with one rounding in the floating family (R520). -/
def State.accNext (s : State) (o : Op) (x : Tile) (ws : List Nat) (i n : Nat) : Int :=
  let f := (s.run o.id).afmt
  let a := s.actAt o x i
  let w := fun (j : Nat) => ws.getD (n * x.kl + j) 0
  if fmtInt (mmW o.desc) then
    s.accAt o i n + ((List.range x.kl).map fun j => codeInt f (a.getD j 0) * codeInt x.fmt (w j)).sum
  else
    let step := stepK (rateClass f (mmW o.desc)) (x.cls == 2)
    let part := fun (q : Nat) => ((List.range step).map fun j =>
      exMul (codeVal f (a.getD (q * step + j) 0)) (codeVal x.fmt (w (q * step + j)))).foldl ExSum.add {}
    (((List.range (x.kl / step)).foldl (fun (acc : Nat) q => accAdd acc (part q).value) (s.accAt o i n).toNat : Nat) : Int)

/-- Tile x of a running mma brings its products alone: it is no ZERO tile, ws are its codes, no zero-block map and no group scale stands
with it, its activations lie in the context's banks, and the accumulators are whole. -/
structure PlainTile (s : State) (o : Op) (x : Tile) (ws : List Nat) : Prop where
  tile : x.cls ≠ 0 ∧ x.codes = some ws ∧ ws.length = 128 * x.kl
  steps : x.kl % stepK (rateClass (s.run o.id).afmt (mmW o.desc)) (x.cls == 2) = 0
  map : mmZin o.desc = 0
  scales : mmAgs o.desc = false ∧ (if mmHdrless o.desc then mmWgs o.desc else x.gscale) = false
  banks : ∀ i, i < mmRows o.desc → s.opBanks o ((s.run o.id).act + (i * mmK o.desc + x.k0) * fmtW (s.run o.id).afmt / 8)
    (x.kl * fmtW (s.run o.id).afmt / 8) = true
  whole : (s.run o.id).kApply = 0 ∨ ((s.run o.id).acc.length = mmRows o.desc * 128
    ∧ (s.run o.id).part = List.replicate (mmRows o.desc * 128) {} ∧ (s.run o.id).opened.length = mmRows o.desc)

/-- A ZERO or DENSE tile of K length kl (R534). -/
def plainTile (fmt fl ref kl : Nat) (l : List Nat) : List Byte :=
  if l.all (· == 0) then tileHeader 0 fmt fl ref kl 0 else tileHeader 1 fmt fl ref kl (tileBody 1 fmt) ++ pack (fmtW fmt) l

/-- The tiles of a panel whose codes stand in the flat order of R533, without a mask (R534). -/
def panelTiles (fmt fl ref : Nat) (l : List Nat) : List Byte :=
  let half := fun (k0 : Nat) => (List.range 16384).map fun p => l.getD (p / 128 * 256 + k0 + p % 128) 0
  if l.all (· == 0) then tileHeader 0 fmt fl ref 256 0
  else if fmt = 3 ∨ fmt = 4 then plainTile fmt fl ref 256 l
  else if fmt ∈ [0, 1, 5, 6, 7] ∧ ∀ g, g < 8192 → ((List.range 4).filter fun i => l.getD (4 * g + i) 0 != 0).length ≤ 2 then
    tileHeader 2 fmt fl ref 256 (tileBody 2 fmt) ++ body24 (fmtW fmt) l
  else plainTile fmt fl ref 128 (half 0) ++ plainTile fmt fl ref 128 (half 128)

/-- The codes of source panel i of an spcmp, in the flat order of the output panel (R533). -/
def State.panelAt (s : State) (d : List Byte) (i : Nat) : List Nat :=
  let n := 4096 * fmtW (spFmt d)
  let l := unpack (fmtW (spFmt d)) 32768 (Mem.readN s.mem (spSrc d + i * n) n)
  if spTrans d then (List.range 32768).map fun p => l.getD (p % 256 * 128 + p / 256) 0 else l

/-- Element j of a tensor of n elements with a scale section (R621). -/
def State.scaledAt (s : State) (fmt a n j : Nat) : Nat :=
  mulF (codeF fmt ((unpack (fmtW fmt) n (Mem.readN s.mem (a + up16 (n / 32)) (n * fmtW fmt / 8))).getD j 0))
    (fp32.encode (e8m0 (Mem.read s.mem (a + j / 32)).toNat)).1

/-- The tensor at a holds the groups of 32 of values f j, each with the exponent of R592 and codes by R571–R573 (R624). -/
def State.showsScaled (t : State) (fmt emax a n : Nat) (f : Nat → Nat) : Prop :=
  ∀ q, q < n / 32 → (∀ i, i < 32 → isNanF (f (32 * q + i)) = false) →
    let e := groupExp emax ((List.range 32).map fun i => f (32 * q + i))
    (Mem.read t.mem (a + q)).toNat = e ∧ ∀ i, i < 32 →
      (unpack (fmtW fmt) n (Mem.readN t.mem (a + up16 (n / 32)) (n * fmtW fmt / 8))).getD (32 * q + i) 0
        = (toNarrow fmt 0 (fp32.decode (f (32 * q + i))) (e8m0 e)).1

/-- The word of a query row's state (R558): 0 m, 1 sh, 2 sc, 3 the factor. With FIRST m is −infinity and the sums are +0. -/
def State.smAt (s : State) (a : Nat) (first : Bool) (r i : Nat) : Nat :=
  if first = true ∧ i = 0 then 0xFF800000 else if first = true ∧ i < 3 then 0 else s.codeAt 9 a (4 * r + i)

/-- Sums sh and sc with b added by compensated addition (R559): the new sh and sc. -/
def compensated (sh sc b : Nat) : Nat × Nat :=
  let y := subF b sc
  let t := addF sh y
  (t, subF (subF t sh) y)

/-- Columns of segments (R550, R336): segment g takes rows offs g to offs (g + 1) - 1, and the offsets rise from 0 to the row count. -/
def offsetsRise (offs : Nat → Nat) (nseg rows : Nat) : Prop :=
  offs 0 = 0 ∧ offs nseg = rows ∧ ∀ g, g < nseg → offs g ≤ offs (g + 1)

/-! Registers. -/

/-- A register write that takes effect: the device answers its sender and is in a state that lets it write (R109, R850, R942), the
sender may write that register (R946, R949), and no replay record is due (R844). -/
structure TakesWrite (s : State) (r : Req) (a : Nat) (v : W32) : Prop where
  gate : s.regGate r a = some 0
  right : s.mayWrite r.who a v = true
  quiet : s.rb (aDet 0x100) 1 = false

/-- Nothing changed but registers, and of those only the ones in the list. -/
def RegsOnly (s t : State) (l : List Nat) : Prop := t = { s with regs := t.regs } ∧ ∀ a, a ∉ l → t.reg a = s.reg a

/-- Nothing changed but registers of the list, and the pauses that the port asks of its partner (R147): PFC frames that left, and what they
asked. -/
def RegsPfc (s t : State) (l : List Nat) : Prop :=
  (∃ w x, t = { s with regs := t.regs, port := { s.port with wire := s.port.wire ++ w, xoff := x } } ∧ ∀ f ∈ w, f.isPfc = true)
    ∧ ∀ a, a ∉ l → t.reg a = s.reg a

/-- Every logical port's priority stands at XOFF exactly where R147 asks for it. -/
def XoffAsDue (t : State) : Prop :=
  ∀ k, k < 8 → let key := t.lportKey k
    (SMap.get t.port.xoff false key = true ↔ t.subUp (key / 8) = true
      ∧ ¬ (t.macsecOn (key / 8) = true ∧ t.muted (key / 8) = true) ∧ ∃ j, j < 8 ∧ t.rb (aSessCfg j) 0 = true ∧ t.pfcOn j = true
      ∧ t.lportKey j = key ∧ (t.rb (aDisp 0x004) 31 = true ∨ t.rxFull j = true))

/-- Every register of the list reads 0, and nothing else changed. -/
def Cleared (s t : State) (l : List Nat) : Prop :=
  t = { s with regs := t.regs } ∧ ∀ a, t.reg a = if a ∈ l then 0 else s.reg a

/-- The rights that the table of R946 gives a partner session k that does not hold an owner key. -/
def State.partnerMay (s : State) (k : Fin 8) (a : Nat) (v : W32) : Prop :=
  let bit := fun (c : Nat) => s.rb (aSessMask k.val) c = true
  let own := s.rf (aSessCfg k.val) 4 4
  (∃ c, c < 16 ∧ bit c ∧ (aCtx c 0 ≤ a ∧ a < aCtx c 0x1000 ∨ aWin c 0 ≤ a ∧ a < aWin c 64))
    ∨ (0x10100 ≤ a ∧ a ≤ 0x10144)
    ∨ (a = aDet 0x154 ∧ rfld v 4 4 = own ∧ bit (rfld v 0 4))
    ∨ (aDet 0x140 ≤ a ∧ a ≤ aDet 0x158 ∧ a ≠ aDet 0x154 ∧ s.rf (aDet 0x154) 4 4 = own ∧ bit (s.rf (aDet 0x154) 0 4))
    ∨ (a = aSec 0x068 ∧ bit (rfld v 0 4))
    ∨ (aSec 0x040 ≤ a ∧ a < aSec 0x068 ∧ bit (s.rf (aSec 0x068) 0 4))
    ∨ a = aLife 0 ∨ a = aSync 0x008

/-- Registers whose writes do nothing but what R15 says: address, RW bits and W1C bits, from the register tables. -/
def plainRegs : List (Nat × Nat × Nat) :=
  [(aTime 0, 0xFF, 0), (aLife 0, 0xF000FFFF, 0), (aSync 0x008, 0x7FFF, 0), (aDisp 0x050, 0xFFFFF000, 0), (aDisp 0x054, 0xFFFF, 0),
   (aDisp 0x060, 0xFFE, 0), (aDet 0x120, 0xFFFFFFFF, 0), (aDet 0x124, 0xFFFFFFFF, 0), (aDet 0x140, 0xFFFFFFFF, 0),
   (aDet 0x144, 0xFFFFFFFF, 0), (aDet 0x148, 0x1FFFF, 0), (aDet 0x14C, 0xFFFFFFC0, 0), (aDet 0x150, 0xFFFF, 0),
   (aPortStatus, 0, 0xFF00), (aMemFail, 0, 0xFFFFFF), (aDomeCtl + 0x010, 0xFFFFFF80, 0), (aDomeCtl + 0x014, 0xFFFF, 0),
   (aDomeCtl + 0x018, 0xFFFFFFFF, 0), (aDomeCtl + 0x01C, 0xFF, 0), (aSec 0x060, 0xFFFFFFC0, 0), (aSec 0x064, 0xFFFF, 0)]
    ++ ((List.range 8).map fun i => (aSec (0x040 + 4 * i), 0xFFFFFFFF, 0))
    ++ ((List.range 16).map fun c => (aCtx c 0x080, 0xFFFFFFC0, 0)) ++ ((List.range 16).map fun c => (aCtx c 0x084, 0xFFFF, 0))
    ++ ((List.range 16).map fun c => (aCtx c 0x088, 0xFFFFFFFF, 0))

/-- The register at a after a plain write of v (R15). -/
def Plain (s t : State) (a rw wc : Nat) (v : W32) : Prop :=
  ∀ n, n < 32 → (t.reg a).getLsbD n = if rw.testBit n then v.getLsbD n else (s.reg a).getLsbD n && !(wc.testBit n && v.getLsbD n)

/-- Registers of a block from address a upwards, n of them. -/
def regBlock (a n : Nat) : List Nat := (List.range n).map fun i => a + 4 * i

/-! Resets. -/

/-- What the Reset-coverage table of R88 leaves of the device after a cold reset: registers at their Reset values but for DEV_STATUS,
nothing in flight, the Spire stores clear; the keys, the partner queues' committed ends, the flash and the signature reserve as they
were. -/
structure ColdLeft (s t : State) : Prop where
  regs : ∀ a, a ≠ aDevStatus → t.reg a = regReset a
  idle : t.tasks = [] ∧ t.sess = [] ∧ t.cores = [] ∧ t.ctrs = [] ∧ t.streams = [] ∧ t.ready = [] ∧ t.waiters = [] ∧ t.ops = []
    ∧ t.reqs = [] ∧ t.arr = [] ∧ t.scales = {} ∧ t.gscales = {}
  held : t.progs = [] ∧ t.tables = [] ∧ t.batches = [] ∧ t.qps = [] ∧ t.dome.lines = []
  flash : t.flash = s.flash
  keys : ∀ k, k < 16 → t.key k = { s.key k with
    lastIssued := (s.key k).lastCommitted, tokenAccepted := (s.key k).tokenCommitted, unreleased := [], cleared := false }
  reserve : t.smd.nextResv = s.smd.nextResv
  stores : ∀ x, storeBase ≤ x → x < storeBase + 2 ^ 29 → Mem.read t.mem x = 0

/-- LAST_RESET -/
def State.lastReset (s : State) : Nat := s.rf aDevStatus 12 4

/-- What a warm reset leaves (R85, R87, R88, R107): RESET with its source, RUN and every EN at 0 and remembered, sessions closed, the
units and their memories clear, the warm-entry steps under way; keys, accepted tasks and the tiers' bytes as they were. -/
structure WarmLeft (s t : State) (source : Nat) : Prop where
  status : t.devState = 0 ∧ t.lastReset = source
  run : t.reg aDevCtl = rputBit (s.reg aDevCtl) 0 false ∧ t.rb aDomeStatus 2 = false ∧ ∀ c, c < 16 → t.ctxEn c = false
  saved : t.boot.savedRun = (s.rb aDevCtl 0 || s.boot.savedRun) ∧ t.boot.warmEntry = true ∧ t.boot.cold = false
    ∧ ∀ c, c < 16 → t.boot.savedEn.testBit c = (s.ctxEn c || s.boot.savedEn.testBit c)
  closed : ∀ i, (t.ses i).isOpen = false
  units : t.cores = [] ∧ t.ctrs = [] ∧ t.streams = [] ∧ t.ready = [] ∧ t.waiters = [] ∧ t.ops = [] ∧ t.reqs = [] ∧ t.arr = []
    ∧ t.scales = {} ∧ t.gscales = {} ∧ t.dmem = {}
  tasks : t.tasks.map (fun x => (x.key, x.asn, x.payload)) = s.tasks.map (fun x => (x.key, x.asn, x.payload))
  kept : t.keys = s.keys ∧ t.progs = s.progs ∧ t.tables = s.tables ∧ t.qps = s.qps
  mem : s.traceOff → ∀ x, Mem.read t.mem x = if storeBase ≤ x ∧ x < storeBase + 2 ^ 29 then 0 else Mem.read s.mem x

/-! The Dome cache. -/

/-- The way of key k holds line entry e. -/
def State.holdsAt (s : State) (k : Nat) (e : Line) : Prop := SMap.find s.dome.lines k = some e

/-- The line that an entry of way k holds lies in the bytes from lo to hi - 1 by its first byte. -/
def lineIn (lo hi k : Nat) (e : Line) : Prop := lo ≤ lineOf k e.tag * 128 ∧ lineOf k e.tag * 128 < hi

/-- The access waits with the fill of its line: a read's requester among the readers, a write's bytes among the writes (R310). -/
def Fill.joined (f : Fill) (id a n : Nat) (data : Option (List Byte)) : Fill :=
  match data with
  | some b => { f with writes := f.writes ++ [(a, b)] }
  | none => { f with readers := f.readers ++ [(id, a, n)] }

/-- The SMD takes signature index i: the next of the reserved block, or the first of a new one, whose reservation is recorded before
(R912–R914). -/
def TakesIndex (s t : State) (i : Nat) : Prop :=
  (∀ n e, s.smd.block = some (n, e) → n < e → i = n ∧ t.smd.block = some (n + 1, e) ∧ t.smd.nextResv = s.smd.nextResv)
  ∧ ((∀ n e, s.smd.block = some (n, e) → e ≤ n) →
      i = s.smd.nextResv ∧ t.smd.block = some (i + 1, i + 4096) ∧ t.smd.nextResv = i + 4096 ∧ i + 4096 ≤ 2 ^ 40)

/-- The Dome cache's bookkeeping of reads of bytes that a command makes, which changes no byte that an access sees (R33, R281). -/
def ReadsLeave (s t : State) : Prop :=
  (∃ rg dm bad m, t = { s with regs := rg, dome := dm, badBytes := bad, mem := m })
    ∧ (∀ a, a ∉ domeRegs → (∀ j, j < 32 → a ≠ aDomeSeed j) → t.reg a = s.reg a) ∧ (s.calm → t.mem = s.mem)

/-- No signature index can be had (R915): none is left, or the MRAM write of its reservation fails (log entry 69). -/
def State.noIndex (s : State) : Prop :=
  (∀ n e, s.smd.block = some (n, e) → e ≤ n) ∧ (2 ^ 40 < s.smd.nextResv + 4096 ∨ Config.mramFails s.draws = true)

/-- A key slot as a key command leaves it (R920): the new key or none, and a partner queue that starts again; a sub-port that R929 silenced
stays silent until a new key comes. -/
def KeySlot.began (v : KeySlot) (present owner : Bool) (key : List Byte) : KeySlot :=
  { present := present, owner := owner, key := key, cleared := v.cleared, mute := if present then [] else v.mute }

/-- What a key operation leaves of the slot's past (R427, R919, R920): tasks admitted only are gone, no data memory belongs to one of its tasks,
and nothing seen from its partners is known. -/
def QueueRestarts (s t : State) (k : Nat) : Prop :=
  t.tasks = s.tasks.filter (fun x => x.key != k || x.accepted)
  ∧ (∀ m, t.core m = { s.core m with owner := if (s.core m).owner.1 = k then (0, 0) else (s.core m).owner })
  ∧ ∀ p, p < 8 → (t.macsec p).rx = (s.macsec p).rx.filter fun w => w.key != k

/-! Boot, port, messages and work. -/

/-- A record of this class and origin is open (R888). -/
def Reported (t : State) (cls origin : Nat) : Prop := ∃ e ∈ t.errs, e.cls = cls ∧ e.origin = origin ∧ e.isOpen = true

/-- What the boundary cells hold once the walk has left the state in which the last command parked the TAP (R45). -/
def State.cells (s : State) : List (Signal × Bool) :=
  if (s.pins.tap = .shiftDr ∨ s.pins.tap = .pauseDr) ∧ s.pins.tapIr ∈ [0x00, 0x02, 0x06, 0x07] then s.pins.shift else s.pins.boundary

/-- c is what Capture-DR takes in state v (R45): one level for every signal land, the device's own where the state decides it, else the
board's where the command gives it. -/
def Captures (v : State) (l : BoundaryScan) (c : List (Signal × Bool)) : Prop :=
  c.map (·.1) = signalLands ∧ ∀ e ∈ c, (∀ b, v.heldLevel e.1 = some b → e.2 = b)
    ∧ (v.heldLevel e.1 = none → ∀ b, levelIn l.levels e.1 = some b → e.2 = b)

/-- One quadrant after a pass of the power manager (R62): its setpoint and hot gap before and after, its junction, VMIN and the
common setpoint. -/
def QuadPass (tj : Int) (vmin common sp gap sp' gap' : Nat) : Prop :=
  let held := fun (x : Nat) => max vmin (min x common)
  (90 < tj → vmin < sp → sp' = held (max vmin (sp - 5)) ∧ gap' = gap)
  ∧ (90 < tj → sp ≤ vmin → sp' = held sp ∧ gap' = min (gap + 1) 63)
  ∧ (tj ≤ 90 → 0 < gap → sp' = held sp ∧ gap' = gap - 1)
  ∧ (tj ≤ 90 → gap = 0 → sp < common → sp' = held (sp + 5) ∧ gap' = 0)
  ∧ (tj ≤ 90 → gap = 0 → common ≤ sp → sp' = held sp ∧ gap' = 0)

/-- The common setpoint and the common gap after a pass (R62). -/
def CommonPass (p limit vmin vmax common gap common' gap' : Nat) : Prop :=
  let c := min (max common vmin) vmax
  (limit < p → vmin < c → common' = c - 5 ∧ gap' = gap)
  ∧ (limit < p → c ≤ vmin → common' = c ∧ gap' = min (gap + 1) 63)
  ∧ (p + 30 < limit → 0 < gap → common' = c ∧ gap' = gap - 1)
  ∧ (p + 30 < limit → gap = 0 → c < vmax → common' = c + 5 ∧ gap' = 0)
  ∧ (p + 30 < limit → gap = 0 → vmax ≤ c → common' = c ∧ gap' = 0)
  ∧ (p ≤ limit → limit ≤ p + 30 → common' = c ∧ gap' = gap)

/-- Some quadrant has a throttle gap or a fast-guard gap (R62, R63, R67). -/
def State.throttled (s : State) : Prop :=
  ∃ q, q < 4 ∧ (0 < s.power.commonGap ∨ 0 < SMap.get s.power.hotGap 0 q ∨ 0 < SMap.get s.power.guardGap 0 q)

/-- Boots where nothing holds the device in RESET: BOOT, or RECOVERY where no flash answered (R104, R108). -/
def State.boots (s : State) : Prop := s.pins.pwrGood = true ∧ s.pins.tapHold = false ∧ s.boot.warmEntry = false

/-- Sub-port p takes the next GEN of its key, or falls silent past 65,535 until a new key comes (R926, R929); nothing else changes. -/
def NextGen (s t : State) (p : Nat) : Prop :=
  let k := s.macsecKey p
  let g := SMap.get (s.key k).genTx 0 p + 1
  t = { s with keys := t.keys, port := { s.port with macsec := t.port.macsec } }
  ∧ (s.muted p = true → t = s)
  ∧ (s.muted p = false → 65535 < g → t.key k = { s.key k with mute := p :: (s.key k).mute } ∧ t.macsec p = s.macsec p)
  ∧ (s.muted p = false → g ≤ 65535 → SMap.get (t.key k).genTx 0 p = g ∧ t.macsec p = { s.macsec p with txGen := g, txPn := 0 })
  ∧ (∀ q, q ≠ p → t.macsec q = s.macsec q) ∧ ∀ j, j ≠ k → t.key j = s.key j

/-- The MACsec tag x of frame f is refused at sub-port p (R927): a bad integrity value, a GEN below the one recorded of that partner, a packet
number seen before or 64 or more below the highest. -/
def State.tagRefused (s : State) (p : Nat) (f : Frame) (x : MacsecTag) : Prop :=
  let mac := x.sci.toNat / 65536
  let gen := x.sci.toNat % 65536
  let known := SMap.get (s.key (s.macsecKey p)).genRx 0 (p + 8 * mac)
  let w := s.rxChannel p mac
  let pn := s.pnOf p x
  s.icvOk f x pn = false ∨ gen < known ∨ (gen ≤ w.gen ∧ gen ≤ known ∧ (pn + 64 ≤ w.top ∨ pn ∈ w.seen))

/-- Only what the port shows of a frame that leaves, and of one that waits, may differ. -/
def PortOnly (s t : State) : Prop :=
  t.port = { s.port with wire := t.port.wire, held := t.port.held, macsec := t.port.macsec }

/-- Message m left the device last, in a frame to dst: a received pause of the frame's priority holds it (R145, R151); else it is on the
wire of a sub-port that is up and without MACsec (R136, R152). -/
def Leaves (s t : State) (dst : NetAddr) (m : OutMsg) : Prop :=
  t.tx = s.tx ++ [m] ∧ PortOnly s t ∧ ∀ f, s.frameOf dst m = some f →
    let m0 := s.macsec f.sub
    let keys := s.ownSak f.sub
    let held : Prop := ∃ p, f.prio = some p ∧ (SMap.find s.port.pauses (8 * f.sub + p)).isSome = true
    (held → t.port = { s.port with held := s.port.held ++ [f] })
    ∧ (¬ held → t.port.held = s.port.held)
    ∧ (¬ held → s.subUp f.sub = true → s.macsecOn f.sub = false → t.port = { s.port with wire := s.port.wire ++ [f] })
    ∧ (¬ held → s.subUp f.sub = true → s.macsecOn f.sub = true → s.muted f.sub = false → f.isPfc = false →
        (t.macsec f.sub).txPn = m0.txPn + 1 ∧ ∃ x : OutTag, t.port.wire = s.port.wire ++ [{ f with tag := some x }]
          ∧ x.an = m0.txGen % 4 ∧ x.pn = m0.txPn + 1 ∧ x.sci = s.ownSci f.sub
          ∧ x.data = gcmCrypt keys.1 (macsecIv keys.2 1 x.pn) f.bytes
          ∧ x.icv = macsecIcv keys 1 x.pn x.sci x.an f.dst.mac f.srcMac x.data)
    ∧ (s.subUp f.sub = false ∨ (s.macsecOn f.sub = true ∧ s.muted f.sub = true) → t.port.wire = s.port.wire)

/-- Of the frames that waited, those that no pause holds any more have left, in their order; the others still wait (R151). -/
def Released (s t : State) : Prop :=
  t.port.held = s.port.held.filter t.paused
    ∧ (∃ w, t.port.wire = s.port.wire ++ w ∧ ∀ f ∈ w, ∃ g ∈ s.port.held, t.paused g = false ∧ f = { g with tag := f.tag })
    ∧ ((∀ g ∈ s.port.held, s.subUp g.sub = true ∧ s.macsecOn g.sub = false) →
        t.port.wire = s.port.wire ++ s.port.held.filter fun (g : OutFrame) => !t.paused g)

/-- A message outside a session left the device last, with the congestion echo that its logical port owed (R148). -/
def SaysPlain (s t : State) (i : Nat) (dst : NetAddr) (typ : Nat) (p : List Byte) : Prop :=
  Leaves s t dst (.dwp i typ ((if typ = tyNak then 0 else 2) + (if (s.ses i).ceEcho then 1 else 0)) 0 0 0 0 p [])

/-- Only session i differs among the sessions, and it is v. -/
def SessionBecomes (s t : State) (i : Nat) (v : Session) : Prop := t.ses i = v ∧ ∀ j, j ≠ i → t.ses j = s.ses j

/-- Datagram b is the next sequenced message of open session i, which has nothing in flight: its header names the session, its tag
verifies, and its form is good (R170, R173, R179, R183). -/
structure NextMessage (s : State) (i : Nat) (b : List Byte) : Prop where
  size : 48 ≤ b.length ∧ getLe b 0 1 = 1 ∧ hLen b = b.length - 48 ∧ hLen b ≤ s.maxPay i
  named : hSession b ≠ 0 ∧ (s.ses i).isOpen = true ∧ hSession b = sessionWord i 0 (s.ses i).epoch
  tagged : kmac256 (s.ses i).ks ((0 : Byte) :: b.take (b.length - 16)) 16 "NLT9 DWP" = b.drop (b.length - 16)
  kind : hFlags b = 0 ∧ hType b ∈ seqTypes ∧ hType b ≠ tyExchange
  next : hSeq b = (s.ses i).rxAck + 1 ∧ (s.ses i).rxDone = (s.ses i).rxAck ∧ (s.ses i).rxAck < (s.ses i).rxLimit
  quiet : (s.ses i).rxBuf = [] ∧ (s.ses i).txBuf = [] ∧ s.fanouts = [] ∧ (s.ses i).held = false

/-- That message waits for its turn, as the latest that the device received (R119), and an ACK is due within 2,000 ticks (R184). -/
def Queued (s t : State) (i : Nat) (b : List Byte) : Prop :=
  (t.ses i).rxBuf = [{ seq := hSeq b, typ := hType b, payload := (b.drop 32).take (b.length - 48), arrival := s.arrivals + 1 }]
    ∧ t.arrivals = s.arrivals + 1 ∧ (t.ses i).rxAck = hSeq b ∧ ∃ d, (t.ses i).ackDue = some d ∧ d ≤ s.tick + 2000

/-- A quadrant's pace at mv millivolts and a junction of tj degrees: R57's table, linear between its rows, with R58's factor; the fraction
is dropped (log entry 122). -/
def PaceAt (mv : Nat) (tj : Int) (n : Nat) : Prop :=
  ∀ v0 p0 v1 p1 : Nat, ((v0, p0), (v1, p1)) ∈ paceRows.zip paceRows.tail → v0 ≤ mv → mv ≤ v1 →
    n = ((p0 + (p1 - p0 : Rat) * (mv - v0) / (v1 - v0)) * (1 - 8 / 10000 * ((tj : Rat) - 75))).floor.toNat % 2 ^ 16

/-- A message left the device last, with these fields. -/
def Sent (s t : State) (dest typ flags seq : Nat) (payload : List Byte) : Prop :=
  ∃ ce session ack credit tag, ce ≤ 1 ∧ t.tx = s.tx ++ [.dwp dest typ (flags + ce) session seq ack credit payload tag]

/-- An R_Key grants a packet's access (R226, R267, R959): it names a valid window of the queue pair's context with its present
generation, which covers the access and grants the permission, over memory that is there. -/
def State.rkeyGrants (s : State) (x : Qp) (rkey : W32) (a n : Nat) (p : Perm) : Prop :=
  let c := rfld rkey 28 4
  let w := rfld rkey 20 8
  c = x.ctx ∧ w < 64 ∧ s.winValid c w = true ∧ s.winBase c w ≤ a ∧ a + n ≤ s.winBase c w + s.winLen c w ∧ s.winGrants c w p = true
    ∧ s.rf (aWin c w + 12) 12 20 = rfld rkey 0 20 ∧ (n ≠ 0 → ∀ g ∈ granules a n, s.unbackedAt g = false ∧ s.lostAt g = false)

/-! Messages of a session. -/

/-- A message with this SEQ, type and payload is the one session k has reached, alone in its queue and not yet taken up (R179);
no check of a message received before it is still to run (R119), and no START_AT waits for other ranks. -/
structure Turn (s : State) (k : Fin 8) (n typ : Nat) (p : List Byte) : Prop where
  isOpen : (s.ses k.val).isOpen = true
  next : n = (s.ses k.val).rxDone + 1
  alone : ∃ a, (s.ses k.val).rxBuf = [{ seq := n, typ := typ, payload := p, arrival := a }]
  turn : s.inTurn { who := .sess k, seq := n } = true
  free : s.waits { who := .sess k, seq := n } = false
  calm : s.fanouts = []

/-- Session k's message n is processed (R185), and XON goes out where its receive space was full (R147). -/
def State.took (s : State) (k : Fin 8) (n : Nat) : State := (s.setSes k.val { s.ses k.val with rxDone := n, rxBuf := [] }).pfcSync

/-- Session k has processed message n and holds no other. -/
def Took (t : State) (k : Fin 8) (n : Nat) : Prop := (t.ses k.val).rxDone = n ∧ (t.ses k.val).rxBuf = []

/-- The message is refused by a NAK with this reason and VALUE, and has no other effect (R173, R230). -/
def Refused (i : Instr) (s : State) (k : Fin 8) (n typ reason value : Nat) : Prop :=
  exec i s = .next ((s.nak k.val n typ reason value).took k n)

/-- The credit of session k lets its next message leave at once (R181). -/
def State.credit (s : State) (k : Nat) : Prop := (s.ses k).txNext ≤ (s.ses k).txLimit

/-- The rights of R946 for context c: an owner key, or the context's bit of SESS_CTXMASK. -/
def State.mayUse (s : State) (k : Fin 8) (c : Nat) : Prop := s.isOwner k.val = true ∨ s.rb (aSessMask k.val) c = true

/-- Why CONTEXT, VC and VALUE of a SIGNAL or START_AT are refused (R811), in the order of its checks. -/
def SignalBad (s : State) (k : Fin 8) (c vc v : Nat) (rsvOk : Bool) (reason : Nat) : Prop :=
  let formed : Prop := v ≠ 0 ∧ c < 16 ∧ rsvOk = true
  (¬ formed ∧ reason = nkMalformed) ∨ (formed ∧ ¬ s.mayUse k c ∧ reason = nkPermission)
    ∨ (formed ∧ s.mayUse k c ∧ s.ctxEn c = false ∧ reason = nkCtxDisabled)
    ∨ (formed ∧ s.mayUse k c ∧ s.ctxEn c = true ∧ (∀ q, s.translate c vc ≠ some (.ctr q)) ∧ reason = nkPermission)

/-- CONTEXT, VC and VALUE of a SIGNAL or START_AT are good, and name physical counter q. -/
def SignalGood (s : State) (k : Fin 8) (c vc v : Nat) (rsvOk : Bool) (q : Nat) : Prop :=
  v ≠ 0 ∧ c < 16 ∧ rsvOk = true ∧ s.mayUse k c ∧ s.ctxEn c = true ∧ s.translate c vc = some (.ctr q)

/-- Every check of R202 lets a SUBMIT of session k pass. -/
structure Admissible (s : State) (k : Fin 8) (p : List Byte) : Prop where
  formed : subOk p = true
  fresh : (∀ y ∈ s.tasks, y.key = (s.ses k.val).key → y.token ≠ getLe p 8 8) ∧ (s.key (s.ses k.val).key).tokenAccepted < getLe p 8 8
  may : s.mayUse k (getLe p 0 1)
  runs : s.devState = stRun ∧ s.rb aDevCtl 0 = true ∧ s.journal.single = false
  on : s.ctxEn (getLe p 0 1) = true ∧ s.rb (aCtxStatus (getLe p 0 1)) 2 = false
  covered : ∀ b ∈ subBufs p, s.bufInWindow (getLe p 0 1) b = true
  checked : s.subCode p = 0
  fits : getLe p 0x28 4 + 64 ≤ s.rslotSize k.val
  slot : ∀ a ∈ (s.key (s.ses k.val).key).unreleased,
    a % s.rslots k.val ≠ ((s.key (s.ses k.val).key).lastIssued + 1) % s.rslots k.val

/-- The SUBMIT's task stands under the next ASN of session k's key (R27, R199, R203), and is not accepted yet. -/
def Enrolled (s t : State) (k : Fin 8) (p : List Byte) : Prop :=
  let key := (s.ses k.val).key
  let q := s.key key
  (∃ y : Task, t.tasks = s.tasks ++ [y] ∧ y.key = key ∧ y.asn = q.lastIssued + 1 ∧ y.token = getLe p 8 8 ∧ y.ctx = getLe p 0 1
    ∧ y.prio = getLe p 1 1 ∧ y.flags = getLe p 2 2 ∧ y.entry = getLe p 4 4 ∧ y.itemSrc = getLe p 0x10 8 ∧ y.itemCount = getLe p 0x18 4
    ∧ y.deadline = getLe p 0x20 8 ∧ y.resultMax = getLe p 0x28 4 ∧ y.bufs = subBufs p ∧ y.tick = s.tick ∧ y.accepted = false
    ∧ y.status = none ∧ y.ended = false)
  ∧ t.key key = { q with lastIssued := q.lastIssued + 1, tokenAccepted := getLe p 8 8, unreleased := q.unreleased ++ [q.lastIssued + 1] }
  ∧ (∀ j, j ≠ key → t.key j = s.key j) ∧ t.tx = s.tx ∧ t.sess = s.sess ∧ (s.calm → t.mem = s.mem)

/-! Exchanges and faults. -/

/-- An EXCHANGE message with this SEQ and payload is the one that the session of peer rank q has reached, alone in its queue,
and no check of a message received before it is still to run. -/
structure PeerTurn (s : State) (q n : Nat) (p : List Byte) : Prop where
  isOpen : (s.ses (16 + q)).isOpen = true
  next : n = (s.ses (16 + q)).rxDone + 1
  alone : ∃ a, (s.ses (16 + q)).rxBuf = [{ seq := n, typ := tyExchange, payload := p, arrival := a }]
  turn : s.inTurn { who := .peer q, seq := n } = true
  free : s.waits { who := .peer q, seq := n } = false
  calm : s.fanouts = []

/-- The message is processed with the effect that P describes; then the passes of EXCHANGE streams that are over end, and the message is
done (R185). -/
def PartDone (i : Instr) (s : State) (q n : Nat) (P : State → Prop) : Prop :=
  ∃ u : State, P u ∧ exec i s = .next (u.checkExch.setSes (16 + q) { u.checkExch.ses (16 + q) with rxDone := n, rxBuf := [] }).pfcSync

/-- Stream n is in a pass of an EXCHANGE arm of this kind that has not begun (R795). -/
structure Arm (s : State) (n kind : Nat) (x : Strm) (e : Exch) : Prop where
  strm : s.strm? n = some x
  active : x.state = 2
  pass : x.passOn = true
  kind : sdIsX x.desc kind = true
  exch : s.exch? x.arm.id = some e
  fresh : e.started = false

/-- An exchange's index list of n bytes can be read at a: it lies in a Spire's store, or windows and memory grant the read (R263, R267). -/
def State.listReads (s : State) (e : Exch) (a : Nat) : Prop :=
  (isStore a = true ∧ s.unbackedAt a = false)
    ∨ s.checkAcc e.op.ctx a ((if sdIdx64 e.op.desc then 8 else 4) * sdRows e.op.desc) .rd = none

/-- The indices of that list: none for the sentinel and for one that no rank has a row for (R327, R798). -/
def State.listOf (s : State) (e : Exch) (a : Nat) : List (Option Nat) :=
  let k := if sdIdx64 e.op.desc then 8 else 4
  (unpack (8 * k) (sdRows e.op.desc) (Mem.readN s.mem a (k * sdRows e.op.desc))).map fun i =>
    if i = 2 ^ (8 * k) - 1 ∨ vrGlobal e.record ≤ i ∨ s.groupSize ≤ vrOwner e.record s.groupSize i then none else some i

/-- The exchange has read its list: l, in the state u, with every session as it was. -/
def State.hasList (s : State) (e : Exch) (a : Nat) (l : List (Option Nat)) (u : State) : Prop :=
  s.xIndices e a = .ok (l, u) ∧ u.sess = s.sess ∧ (s.calm → l = s.listOf e a ∧ u.mem = s.mem)

/-- Every rank of the list is this device or has an open session. -/
def State.reaches (s : State) (l : List Nat) : Prop := ∀ q ∈ l, q = s.myRank ∨ (s.ses (16 + q)).isOpen = true

/-- The task will be retried (R866–R868). -/
def State.willRetry (s : State) (key asn : Nat) : Prop := ∃ y, s.task? key asn = some y ∧ y.retryDue = true

/-- The unit never leaves service: it is neither in a Spire nor a stack or channel (R883, R887). -/
def stays (u : Nat) : Prop := unitSpire u = none ∧ (u < 0x560 ∨ 0x578 ≤ u)

/-- A fault of unit u does not take the last copy of the journal with it (R205, R969): u holds none, both copies stand, or they are lost
already. -/
def State.journalStays (s : State) (u : Nat) : Prop :=
  s.journal.lost = true ∨ (s.journal.single = false ∧ s.journal.mirroring = false) ∨ (u ≠ 0x568 + s.journal.a ∧ u ≠ 0x568 + s.journal.b)

/-! The invariant. -/

/-- The memories and the register space stand in their canonical form: addresses rise strictly, and nothing is listed at the value that it
reads as when unlisted. -/
def State.Canonical (s : State) : Prop := s.memOk = true ∧ SMap.wf regReset s.regs = true

end Sys2Proof.Machine
end

