-- ==== Sys2Proof/Certificates/Slice0/Obligations.lean ====
section
/-! DEFINITION. The statements for the provers. -/

open Sys2Proof Sys2Proof.Machine

/-- A step carries out the command at the front of the queue on the state with the queue's rest; an empty queue lets one tick pass while VAUX is up (the model's choice: log entry 1). -/
def Obligations.StepRunsFront : Prop :=
  (∀ (c : Instr) (q : List Instr) (s : State), step { s with pending := c :: q } = exec c { s with pending := q })
    ∧ ∀ (s : State), s.pending = [] →
      step s = .next (if s.pins.vaux then { s with tick := min (s.tick + 1) (2 ^ 64 - 1) } else s)

/-- Every command is carried out in every state: none faults and none is refused. -/
def Obligations.EveryCommandIsCarriedOut : Prop :=
  ∀ (i : Instr) (s : State), ∃ t, exec i s = .next t

/-- Encoding and then decoding a well-formed Spaner instruction gives it back: no bit of an encoding is dropped. -/
def Obligations.SpanerEncodeThenDecode : Prop :=
  ∀ (i : Instr) (k : CoreRef) (b0 b1 : Nat), i.core? = some k → i.wf = true → rowSelected b0 b1 i = true →
    encodeSpaner i < 2 ^ 64 ∧ decodeSpaner k b0 b1 (encodeSpaner i) = some i

/-- A word that decodes is the encoding of what it decodes to: a word with a reserved bit set spells nothing. -/
def Obligations.SpanerDecodeThenEncode : Prop :=
  ∀ (k : CoreRef) (b0 b1 w : Nat) (i : Instr), w < 2 ^ 64 → decodeSpaner k b0 b1 w = some i →
    i.core? = some k ∧ i.wf = true ∧ rowSelected b0 b1 i = true ∧ encodeSpaner i = w

/-- R450, R455: reserved opcodes and the reserved guard decode to no instruction. -/
def Obligations.ReservedOpcodesSpellNothing : Prop :=
  (∀ (k : CoreRef) (b0 b1 w : Nat),
      fld w 56 8 ∉ [0x01, 0x02, 0x03, 0x04, 0x05, 0x10, 0x11, 0x20, 0x21, 0x30, 0x31, 0x32, 0x33, 0x40, 0x41, 0x42, 0x43, 0x44,
        0x45, 0x50, 0x51, 0x52, 0x54, 0x55, 0x58, 0x59, 0x5C, 0x5D, 0x60, 0x61, 0x62, 0x63, 0x64, 0x65, 0x68, 0x70, 0x71, 0x78,
        0x79] → decodeSpaner k b0 b1 w = none)
    ∧ (∀ (k : CoreRef) (b0 b1 : Nat), decodeSpaner k b0 b1 0 = none)
    ∧ ∀ (k : CoreRef) (b0 b1 w : Nat), fld w 37 3 = 0 → fld w 40 1 = 1 → decodeSpaner k b0 b1 w = none

/-- Words laid out field by field from the tables of the instruction-set chapter decode to the instructions they stand for. -/
def Obligations.SpanerWordsFromTheTables : Prop :=
  ∀ (k : CoreRef),
    decodeSpaner k 0 0 (0x01 * 2 ^ 56 + 1 * 2 ^ 51 + 2 * 2 ^ 46 + 3 * 2 ^ 41) = some (.add k { neg := false, num := 0 } 1 2 3)
    ∧ decodeSpaner k 0 0 (0x02 * 2 ^ 56 + 4 * 2 ^ 51 + 5 * 2 ^ 46 + 0xFFFFFFFF)
        = some (.addi k { neg := false, num := 0 } 4 5 0xFFFFFFFF)
    ∧ decodeSpaner k 0 0 (0x03 * 2 ^ 56 + 2 * 2 ^ 51 + 6 * 2 ^ 46 + 7 * 2 ^ 41 + 4 * 2 ^ 29)
        = some (.cmp k { neg := false, num := 0 } .ltu 2 6 7)
    ∧ decodeSpaner k 0 0 (0x10 * 2 ^ 56 + 1 * 2 ^ 51 + 2 * 2 ^ 46 + 3 * 2 ^ 41 + 1 * 2 ^ 28)
        = some (.fadd k { neg := false, num := 0 } true 1 2 3)
    ∧ decodeSpaner k 0 0 (0x20 * 2 ^ 56 + 8 * 2 ^ 51 + 9 * 2 ^ 46 + 2 * 2 ^ 35 + 1 * 2 ^ 34 + 1 * 2 ^ 32 + 64)
        = some (.ld k { neg := false, num := 0 } .w true .dev 8 9 64)
    ∧ decodeSpaner k 0 0 (0x31 * 2 ^ 56 + 1 * 2 ^ 46 + 2 * 2 ^ 41 + 3 * 2 ^ 32 + 0xFFFFFFF8)
        = some (.bcc k { neg := false, num := 0 } .ge 1 2 0xFFFFFFF8)
    ∧ decodeSpaner k 0 0 (0x40 * 2 ^ 56 + 3 * 2 ^ 51 + 4 * 2 ^ 46 + 3 * 2 ^ 35 + 8 * 2 ^ 29)
        = some (.dset k { neg := false, num := 0 } .d 3 4 8)
    ∧ decodeSpaner k 1 0 (0x5C * 2 ^ 56 + 3 * 2 ^ 51 + 7 * 2 ^ 21 + 1 * 2 ^ 13 + 1 * 2 ^ 11)
        = some (.gather k { neg := false, num := 0 } { a := 3, b := 0, vc := 7, inc := 1, scope := .dev, vcreg := false })
    ∧ decodeSpaner k 0 0 (0x60 * 2 ^ 56 + 9 * 2 ^ 21 + 1 * 2 ^ 19 + 5)
        = some (.sig k { neg := false, num := 0 } { vc := 9, b := 0, vcreg := false, c := 0, imm := true, immv := 5 })
    ∧ decodeSpaner k 0 0 (0x68 * 2 ^ 56 + 1) = some (.fenceDev k { neg := false, num := 0 })
    ∧ decodeSpaner k 0 0 (0x78 * 2 ^ 56 + 6 * 2 ^ 51 + 0x010) = some (.csrr k { neg := false, num := 0 } 6 0x010)
    ∧ decodeSpaner k 0 0 (0x71 * 2 ^ 56 + 1 * 2 ^ 40 + 5 * 2 ^ 37) = some (.endI k { neg := true, num := 5 })

/-- R454: an instruction that does not execute retires: it writes no register, accesses no memory, issues nothing, waits for nothing. -/
def Obligations.FalseGuardRetiresWithNoEffect : Prop :=
  ∀ (s : State) (i : Instr) (k : CoreRef) (g : Guard) (it : Item), i.core? = some k → i.guard? = some g →
    (s.coreOf k).run = some it → (s.coreOf k).hold = none → s.spireRuns k.spire.val = true →
    s.fetchLost (coreIdx k) it.ctx (s.coreOf k).pc = false → s.at? k (s.coreOf k) it.ctx i = true →
    (s.coreOf k).guardHolds g = false →
    Runs i s fun t => OnlyCore s t k ∧ t.coreOf k = { s.coreOf k with pc := (s.coreOf k).pc + 8 }

/-- Log entry 4: a command that is not the instruction at the PC of a running core has no effect. R417: what the fetch of a word changes. -/
def Obligations.CommandAwayFromItsPcDoesNothing : Prop :=
  (∀ (s : State) (n c pc : Nat), FetchLeaves s n c pc)
  ∧ ∀ (s : State) (i : Instr) (k : CoreRef), i.core? = some k →
    ((s.coreOf k).run = none ∨ (s.coreOf k).hold ≠ none ∨ s.spireRuns k.spire.val = false
      ∨ ∃ it, (s.coreOf k).run = some it ∧ s.fetchLost (coreIdx k) it.ctx (s.coreOf k).pc = false
          ∧ s.at? k (s.coreOf k) it.ctx i = false) →
    exec i s = .next s

/-- R452 and the table of integer functions, in integer arithmetic. -/
def Obligations.IntegerRegisterFunctions : Prop :=
  RegFn .add (fun x y v => v.toNat = (x.toNat + y.toNat) % 2 ^ 64)
    ∧ RegFn .sub (fun x y v => (v.toNat : Int) = ((x.toNat : Int) - y.toNat) % 2 ^ 64)
    ∧ RegFn .and (fun x y v => ∀ i, v.getLsbD i = (x.getLsbD i && y.getLsbD i))
    ∧ RegFn .or (fun x y v => ∀ i, v.getLsbD i = (x.getLsbD i || y.getLsbD i))
    ∧ RegFn .xor (fun x y v => ∀ i, v.getLsbD i = (x.getLsbD i != y.getLsbD i))
    ∧ RegFn .shl (fun x y v => v.toNat = x.toNat * 2 ^ (y.toNat % 64) % 2 ^ 64)
    ∧ RegFn .shr (fun x y v => v.toNat = x.toNat / 2 ^ (y.toNat % 64))
    ∧ RegFn .sra (fun x y v => v.toInt = x.toInt / 2 ^ (y.toNat % 64))
    ∧ RegFn .mul (fun x y v => v.toNat = x.toNat * y.toNat % 2 ^ 64)
    ∧ RegFn .mulhu (fun x y v => v.toNat = x.toNat * y.toNat / 2 ^ 64)
    ∧ RegFn .mulh (fun x y v => v.toInt = x.toInt * y.toInt / 2 ^ 64)
    ∧ RegFn .divu (fun x y v => if y = 0 then v.toNat = 2 ^ 64 - 1 else v.toNat = x.toNat / y.toNat)
    ∧ RegFn .remu (fun x y v => if y = 0 then v = x else v.toNat = x.toNat % y.toNat)
    ∧ RegFn .div (fun x y v =>
        if y = 0 then v.toInt = -1
        else if x.toInt = -2 ^ 63 ∧ y.toInt = -1 then v.toInt = -2 ^ 63
        else v.toInt = Int.tdiv x.toInt y.toInt)
    ∧ RegFn .rem (fun x y v => if y = 0 then v = x else v.toInt = Int.tmod x.toInt y.toInt)
    ∧ RegFn .minu (fun x y v => v.toNat = min x.toNat y.toNat)
    ∧ RegFn .maxu (fun x y v => v.toNat = max x.toNat y.toNat)
    ∧ RegFn .min (fun x y v => v.toInt = min x.toInt y.toInt)
    ∧ RegFn .max (fun x y v => v.toInt = max x.toInt y.toInt)
    ∧ RegFn1 .popc (fun x v => v.toNat = ((List.range 64).filter fun i => x.getLsbD i).length)
    ∧ RegFn1 .clz (fun x v => v.toNat ≤ 64 ∧ x.toNat < 2 ^ (64 - v.toNat)
        ∧ (v.toNat < 64 → x.getLsbD (63 - v.toNat) = true))

/-- The integer immediate functions; IMM is sign-extended except for lih. -/
def Obligations.IntegerImmediateFunctions : Prop :=
  ImmFn .addi (fun x imm v => (v.toNat : Int) = ((x.toNat : Int) + imm.toInt) % 2 ^ 64)
    ∧ ImmFn .andi (fun x imm v => ∀ i, i < 64 → v.getLsbD i = (x.getLsbD i && imm.getLsbD (min i 31)))
    ∧ ImmFn .ori (fun x imm v => ∀ i, i < 64 → v.getLsbD i = (x.getLsbD i || imm.getLsbD (min i 31)))
    ∧ ImmFn .xori (fun x imm v => ∀ i, i < 64 → v.getLsbD i = (x.getLsbD i != imm.getLsbD (min i 31)))
    ∧ ImmFn .shli (fun x imm v => v.toNat = x.toNat * 2 ^ (imm.toNat % 64) % 2 ^ 64)
    ∧ ImmFn .shri (fun x imm v => v.toNat = x.toNat / 2 ^ (imm.toNat % 64))
    ∧ ImmFn .srai (fun x imm v => v.toInt = x.toInt / 2 ^ (imm.toNat % 64))
    ∧ ImmFn .muli (fun x imm v => (v.toNat : Int) = (x.toNat : Int) * imm.toInt % 2 ^ 64)
    ∧ ImmFn .lih (fun x imm v => v.toNat = imm.toNat * 2 ^ 32 + x.toNat % 2 ^ 32)
    ∧ ∀ (s : State) (k : CoreRef) (g : Guard) (a : Reg) (imm : W32) (it : Item), Fires s (.li k g a imm) k g [a, 0] [] it →
        ∃ v : W64, v.toInt = imm.toInt ∧ Runs (.li k g a imm) s (WritesGpr s · k a v)

/-- Compares and predicate logic; a write of p0 is discarded (R442). -/
def Obligations.ComparesAndPredicateLogic : Prop :=
  (∀ (c : Core) (g : Guard), (c.guardHolds g = true ↔ c.rp g.num ≠ g.neg) ∧ c.rp 0 = true ∧ c.rd 0 = 0)
    ∧ (∀ (s : State) (k : CoreRef) (g : Guard) (cd : Cond) (p : PReg) (b c : Reg) (it : Item),
      Fires s (.cmp k g cd p b c) k g [b, c] [] it →
      ∃ r : Bool, (r = true ↔ CondTrue cd ((s.coreOf k).rd b) ((s.coreOf k).rd c))
        ∧ Runs (.cmp k g cd p b c) s (WritesPred s · k p r))
    ∧ (∀ (s : State) (k : CoreRef) (g : Guard) (cd : Cond) (p : PReg) (b : Reg) (imm : W32) (it : Item),
      Fires s (.cmpi k g cd p b imm) k g [b] [] it →
      ∃ (r : Bool) (y : W64), y.toInt = imm.toInt ∧ (r = true ↔ CondTrue cd ((s.coreOf k).rd b) y)
        ∧ Runs (.cmpi k g cd p b imm) s (WritesPred s · k p r))
    ∧ ∀ (s : State) (k : CoreRef) (g : Guard) (p b c : PReg) (it : Item),
      (Fires s (.pand k g p b c) k g [] [] it →
        Runs (.pand k g p b c) s (WritesPred s · k p ((s.coreOf k).rp b && (s.coreOf k).rp c)))
      ∧ (Fires s (.por k g p b c) k g [] [] it →
        Runs (.por k g p b c) s (WritesPred s · k p ((s.coreOf k).rp b || (s.coreOf k).rp c)))
      ∧ (Fires s (.pxor k g p b c) k g [] [] it →
        Runs (.pxor k g p b c) s (WritesPred s · k p ((s.coreOf k).rp b != (s.coreOf k).rp c)))
      ∧ (Fires s (.pandn k g p b c) k g [] [] it →
        Runs (.pandn k g p b c) s (WritesPred s · k p ((s.coreOf k).rp b && !(s.coreOf k).rp c)))

/-- Where a core executes a floating-point instruction: the destination, FPFLAGS and the frame. -/
def Obligations.FloatingPointInstructionsWrite : Prop :=
  FpFn .fadd (fun f _ y z => fAdd f y z) ∧ FpFn .fsub (fun f _ y z => fSub f y z) ∧ FpFn .fmul (fun f _ y z => fMul f y z)
    ∧ FpFn .fdiv (fun f _ y z => fDiv f y z) ∧ FpFn .fmin (fun f _ y z => fMinMax f false y z)
    ∧ FpFn .fmax (fun f _ y z => fMinMax f true y z) ∧ FpFn .ffma (fun f x y z => fFma f x y z)
    ∧ FpFn1 .fsqrt (fun f y => fSqrt f y) ∧ FpFn1 .fabs (fun f y => fAbs f y) ∧ FpFn1 .fneg (fun f y => fNeg f y)
    ∧ FpCvt .fcvtSL (fun y => fOfInt fp32 y.toInt) ∧ FpCvt .fcvtLS (fun y => fToInt64 (y.toNat % 2 ^ 32))
    ∧ FpCvt .fcvtBfS (fun y => fConvert fp32 bf16 (y.toNat % 2 ^ 32))
    ∧ FpCvt .fcvtSBf (fun y => fConvert bf16 fp32 (y.toNat % 2 ^ 16))
    ∧ ∀ (s : State) (k : CoreRef) (g : Guard) (cd : FCond) (p : PReg) (b c : Reg) (it : Item),
        Fires s (.fcmp k g cd p b c) k g [b, c] [] it →
        Runs (.fcmp k g cd p b c) s fun t =>
          let q := fCompare cd (((s.coreOf k).rd b).toNat % 2 ^ 32) (((s.coreOf k).rd c).toNat % 2 ^ 32)
          OnlyCore s t k ∧ (∀ r, (t.coreOf k).rp r = if r = p ∧ p ≠ 0 then q.1 else (s.coreOf k).rp r)
            ∧ t.coreOf k = { s.coreOf k with
                p := (t.coreOf k).p, fpflags := (s.coreOf k).fpflags ||| q.2.bits, pc := (s.coreOf k).pc + 8 }

/-- R459: no floating-point instruction makes a NaN but the quiet NaN of its format. -/
def Obligations.NaNResultsAreTheQuietNaN : Prop :=
  let quiet : Bool → Nat → Prop := fun bf r =>
    ((if bf then bf16 else fp32).decode r).isNaN = true → r = if bf then 0x7FC0 else 0x7FC00000
  ∀ (bf : Bool) (x y z : Nat) (v : Int), x < 2 ^ 32 → y < 2 ^ 32 → z < 2 ^ 32 →
    let f := if bf then bf16 else fp32
    let m := if bf then 2 ^ 16 else 2 ^ 32
    quiet bf (fAdd f (x % m) (y % m)).1 ∧ quiet bf (fSub f (x % m) (y % m)).1 ∧ quiet bf (fMul f (x % m) (y % m)).1
      ∧ quiet bf (fDiv f (x % m) (y % m)).1 ∧ quiet bf (fSqrt f (x % m)).1 ∧ quiet bf (fMinMax f false (x % m) (y % m)).1
      ∧ quiet bf (fMinMax f true (x % m) (y % m)).1 ∧ quiet bf (fFma f (z % m) (x % m) (y % m)).1 ∧ quiet bf (fAbs f (x % m)).1
      ∧ quiet bf (fNeg f (x % m)).1 ∧ quiet false (fOfInt fp32 v).1 ∧ quiet true (fConvert fp32 bf16 x).1
      ∧ quiet false (fConvert bf16 fp32 (x % 2 ^ 16)).1

/-- R457, R458: one rounding, to nearest with ties to even; the other functions as the function table states them. -/
def Obligations.FloatingPointRoundsToNearest : Prop :=
  (∀ (bf : Bool) (x y z : Nat),
      let f := if bf then bf16 else fp32
      let q : Nat → Rat := fun a => (f.decode a).toRat
      (f.decode x).isFin = true → (f.decode y).isFin = true → (f.decode z).isFin = true →
        f.Nearest (q x + q y) (fAdd f x y).1 ∧ f.Nearest (q x - q y) (fSub f x y).1 ∧ f.Nearest (q x * q y) (fMul f x y).1
          ∧ (q y ≠ 0 → f.Nearest (q x / q y) (fDiv f x y).1) ∧ f.Nearest (q z + q x * q y) (fFma f z x y).1)
    ∧ (∀ v : Int, fp32.Nearest v (fOfInt fp32 v).1)
    ∧ (∀ x : Nat, (fp32.decode x).isFin = true → bf16.Nearest (fp32.decode x).toRat (fConvert fp32 bf16 x).1)
    ∧ (∀ (bf : Bool) (x y : Nat),
      let f := if bf then bf16 else fp32
      let top := 2 ^ (f.mb + f.eb)
      let nan : Nat → Prop := fun a => (f.decode a).isNaN = true
      x < 2 * top → y < 2 * top →
        ((f.decode x).isFin = true →
          (0 < (f.decode x).toRat → f.NearestRoot (f.decode x).toRat (fSqrt f x).1)
          ∧ ((f.decode x).toRat = 0 → (fSqrt f x).1 = x) ∧ ((f.decode x).toRat < 0 → nan (fSqrt f x).1))
        ∧ (nan x ∨ nan y → nan (fMinMax f true x y).1 ∧ nan (fMinMax f false x y).1)
        ∧ (¬ nan x → ¬ nan y → ¬ (x % top = 0 ∧ y % top = 0) →
            ((f.decode x).Below (f.decode y) → (fMinMax f true x y).1 = y) ∧ (¬ (f.decode x).Below (f.decode y) → (fMinMax f true x y).1 = x)
            ∧ ((f.decode y).Below (f.decode x) → (fMinMax f false x y).1 = y) ∧ (¬ (f.decode y).Below (f.decode x) → (fMinMax f false x y).1 = x))
        ∧ (x % top = 0 → y % top = 0 →
            (fMinMax f true x y).1 = (if x = 0 ∨ y = 0 then 0 else top) ∧ (fMinMax f false x y).1 = if x = 0 ∧ y = 0 then 0 else top)
        ∧ (¬ nan x → (fAbs f x).1 = x % top ∧ (fNeg f x).1 = if x < top then x + top else x - top))
    ∧ ∀ x y : Nat,
      let a := fp32.decode x
      let b := fp32.decode y
      let un : Prop := a.isNaN = true ∨ b.isNaN = true
      ((fCompare .un x y).1 = true ↔ un) ∧ ((fCompare .lt x y).1 = true ↔ ¬ un ∧ a.Below b)
        ∧ ((fCompare .le x y).1 = true ↔ ¬ un ∧ ¬ b.Below a) ∧ ((fCompare .eq x y).1 = true ↔ ¬ un ∧ ¬ a.Below b ∧ ¬ b.Below a)

/-- R460: conversion of FP32 to a signed 64-bit integer. -/
def Obligations.FloatToIntegerSaturates : Prop :=
  ∀ (s : State) (k : CoreRef) (g : Guard) (a b : Reg) (it : Item), Fires s (.fcvtLS k g a b) k g [a, b] [] it →
    ∃ (v : W64) (fl : FFlags), Runs (.fcvtLS k g a b) s (WritesFpr s · k a (v.toNat, fl))
      ∧ match fp32.decode (((s.coreOf k).rd b).toNat % 2 ^ 32) with
        | .nan _ => v.toInt = 0 ∧ fl.nv = true
        | .inf n => v.toInt = (if n then -2 ^ 63 else 2 ^ 63 - 1) ∧ fl.nv = true
        | .fin n m e =>
          ∃ i : Int, |(i : Rat) - (FVal.fin n m e).toRat| ≤ 1 / 2
            ∧ (|(i : Rat) - (FVal.fin n m e).toRat| = 1 / 2 → i % 2 = 0)
            ∧ (if i < -2 ^ 63 then v.toInt = -2 ^ 63 ∧ fl.nv = true
               else if 2 ^ 63 ≤ i then v.toInt = 2 ^ 63 - 1 ∧ fl.nv = true
               else v.toInt = i ∧ fl.nv = false)

/-- R470, R471: where b, bcc, jal and jr go. -/
def Obligations.BranchesSetThePc : Prop :=
  ∀ (s : State) (k : CoreRef) (g : Guard) (it : Item) (imm : W32),
    let pc := (s.coreOf k).pc
    let target : Nat := (((pc : Int) + imm.toInt) % 2 ^ 64).toNat
    (Fires s (.b k g imm) k g [] [] it → Runs (.b k g imm) s (JumpsTo s · k target))
    ∧ (∀ (cd : Cond) (b c : Reg), Fires s (.bcc k g cd b c imm) k g [b, c] [] it →
        (CondTrue cd ((s.coreOf k).rd b) ((s.coreOf k).rd c) → Runs (.bcc k g cd b c imm) s (JumpsTo s · k target))
        ∧ (¬ CondTrue cd ((s.coreOf k).rd b) ((s.coreOf k).rd c) → Runs (.bcc k g cd b c imm) s (JumpsTo s · k (pc + 8))))
    ∧ (∀ a : Reg, Fires s (.jal k g a imm) k g [a] [] it → Runs (.jal k g a imm) s fun t =>
        OnlyCore s t k ∧ (∀ r, (t.coreOf k).rd r = if r = a ∧ a ≠ 0 then BitVec.ofNat 64 (pc + 8) else (s.coreOf k).rd r)
          ∧ t.coreOf k = { s.coreOf k with g := (t.coreOf k).g, pc := target })
    ∧ ∀ b : Reg, Fires s (.jr k g b imm) k g [b] [] it →
        let dest := (((((s.coreOf k).rd b).toNat : Int) + imm.toInt) % 2 ^ 64).toNat
        (dest % 8 = 0 → Runs (.jr k g b imm) s (JumpsTo s · k dest))
        ∧ (dest % 8 ≠ 0 → s.canFail it.key it.asn →
            Runs (.jr k g b imm) s fun t => t.endedWith it.key it.asn 0x0105 (coreIdx k))

/-- R466: the bytes of a descriptor register that dset, dget, dclr and dmov read and write. -/
def Obligations.DescriptorInstructionsMoveBytes : Prop :=
  ∀ (s : State) (k : CoreRef) (g : Guard) (it : Item) (sz : ASize) (d e : DReg) (a : Reg) (byte : BitVec 6),
    let n := sz.bytes
    let bytes : DReg → Nat → Byte := fun d j => (descBytes ((s.coreOf k).rdd d)).getD j 0
    (byte.toNat % n = 0 → Fires s (.dset k g sz d a byte) k g [a] [d] it →
        Runs (.dset k g sz d a byte) s (WritesDesc s · k d fun j =>
          if byte.toNat ≤ j ∧ j < byte.toNat + n then ((s.coreOf k).rd a).extractLsb' (8 * (j - byte.toNat)) 8 else bytes d j))
    ∧ (byte.toNat % n = 0 → Fires s (.dget k g sz a d byte) k g [a] [d] it →
        Runs (.dget k g sz a d byte) s (WritesGpr s · k a
          (BitVec.ofNat 64 (leNat ((List.range n).map fun j => bytes d (byte.toNat + j))))))
    ∧ (Fires s (.dclr k g d) k g [] [d] it → Runs (.dclr k g d) s (WritesDesc s · k d fun _ => 0))
    ∧ (Fires s (.dmov k g d e) k g [] [d, e] it → Runs (.dmov k g d e) s (WritesDesc s · k d (bytes e)))

/-- What ld and dld read, where the value goes, and that no byte of memory changes. Read with log entries 23, 152 as well. -/
def Obligations.LoadsReadTheirBytes : Prop :=
  ∀ (s : State) (k : CoreRef) (g : Guard) (it : Item) (b : Reg) (off : W32),
    let a := s.addrOf k b off
    (∀ (sz : ASize) (sign : Bool) (r : Reg), a % sz.bytes = 0 →
      (Fires s (.ld k g sz sign .data r b off) k g [r, b] [] it → a < 32768 →
        ∃ w, LoadedAs sign sz.bytes (leNat (Mem.readN s.dmem (coreIdx k * 32768 + a) sz.bytes)) w
          ∧ Runs (.ld k g sz sign .data r b off) s (WritesGpr s · k r w))
      ∧ (Fires s (.ld k g sz sign .dev r b off) k g [r, b] [] it → storeBase ≤ a → a < storeBase + 2 ^ 29 →
          s.inBanks it.ctx k.spire.val a sz.bytes = true →
        ∃ w, LoadedAs sign sz.bytes (leNat ((s.fetched k it).peek a sz.bytes)) w
          ∧ Runs (.ld k g sz sign .dev r b off) s (LoadsLater s · k false r.val w.toNat))
      ∧ (Fires s (.ld k g sz sign .dev r b off) k g [r, b] [] it → s.tierOk k it a sz.bytes .rd → s.calm →
        ∃ w, LoadedAs sign sz.bytes (leNat (s.peek a sz.bytes)) w
          ∧ Runs (.ld k g sz sign .dev r b off) s (LoadsLater s · k false r.val w.toNat)))
    ∧ ∀ d : DReg, a % 64 = 0 →
      (Fires s (.dld k g .data d b off) k g [b] [d] it → a < 32768 →
        Runs (.dld k g .data d b off) s (WritesDesc s · k d fun j => Mem.read s.dmem (coreIdx k * 32768 + a + j)))
      ∧ (Fires s (.dld k g .dev d b off) k g [b] [d] it → storeBase ≤ a → a < storeBase + 2 ^ 29 →
          s.inBanks it.ctx k.spire.val a 64 = true →
        Runs (.dld k g .dev d b off) s (LoadsLater s · k true d.val (leNat ((s.fetched k it).peek a 64))))
      ∧ (Fires s (.dld k g .dev d b off) k g [b] [d] it → s.tierOk k it a 64 .rd → s.calm →
        Runs (.dld k g .dev d b off) s (LoadsLater s · k true d.val (leNat (s.peek a 64))))
      ∧ (Fires s (.dld k g .desc d b off) k g [b] [d] it → a < (s.prog it.ctx).descLen →
          (s.fetched k it).imageLost it.ctx ((s.prog it.ctx).descOff + a) 64 = false → s.calm →
        Runs (.dld k g .desc d b off) s
          (LoadsLater s · k true d.val (leNat (s.peek (s.imageAddr it.ctx + (s.prog it.ctx).descOff + a) 64))))

/-- What st and dst write, at the address that memAddr computes, and that every other byte of memory stays. Read with log entries 14 as well. -/
def Obligations.StoresWriteTheirBytesOnly : Prop :=
  ∀ (s : State) (k : CoreRef) (g : Guard) (it : Item) (b : Reg) (off : W32),
    let a := s.addrOf k b off
    (∀ (sz : ASize) (c : Reg), a % sz.bytes = 0 →
      let v := natLe sz.bytes ((s.coreOf k).rd c).toNat
      (Fires s (.st k g sz .data b c off) k g [b, c] [] it → a < 32768 →
        Runs (.st k g sz .data b c off) s (StoresData s · k a v))
      ∧ (Fires s (.st k g sz .dev b c off) k g [b, c] [] it → storeBase ≤ a → a < storeBase + 2 ^ 29 →
          s.inBanks it.ctx k.spire.val a sz.bytes = true → Runs (.st k g sz .dev b c off) s (StoresMem s · k a v))
      ∧ (Fires s (.st k g sz .dev b c off) k g [b, c] [] it → s.tierOk k it a sz.bytes .wr → s.calm →
        Runs (.st k g sz .dev b c off) s (StoresMem s · k a v)))
    ∧ ∀ d : DReg, a % 64 = 0 →
      let v := descBytes ((s.coreOf k).rdd d)
      (Fires s (.dst k g .data d b off) k g [b] [d] it → a < 32768 → Runs (.dst k g .data d b off) s (StoresData s · k a v))
      ∧ (Fires s (.dst k g .dev d b off) k g [b] [d] it → storeBase ≤ a → a < storeBase + 2 ^ 29 →
          s.inBanks it.ctx k.spire.val a 64 = true → Runs (.dst k g .dev d b off) s (StoresMem s · k a v))
      ∧ (Fires s (.dst k g .dev d b off) k g [b] [d] it → s.tierOk k it a 64 .wr → s.calm →
        Runs (.dst k g .dev d b off) s (StoresMem s · k a v))

/-- R422, R425, R463, R494: the faults of a core's accesses. Read with log entries 26, 158 as well. -/
def Obligations.BadAccessesEndTheTask : Prop :=
  ∀ (s : State) (k : CoreRef) (g : Guard) (it : Item) (b : Reg) (off : W32), s.canFail it.key it.asn →
    let a := s.addrOf k b off
    let n := coreIdx k
    let bad : Space → Nat → Prop := fun sp len => a % len ≠ 0 ∨ (sp = .data ∧ 32768 ≤ a)
      ∨ (sp = .dev ∧ (2 ^ 48 ≤ a ∨ (storeBase ≤ a ∧ a < storeBase + 2 ^ 29 ∧ s.inBanks it.ctx k.spire.val a len = false)))
    let denied : Nat → Perm → Nat → Prop := fun len p w => a % len = 0 ∧ a < 2 ^ 48
      ∧ (a < storeBase ∨ storeBase + 2 ^ 29 ≤ a) ∧ s.access it.ctx a len p = .denied w
    (∀ (sz : ASize) (sign : Bool) (sp : Space) (r : Reg), Fires s (.ld k g sz sign sp r b off) k g [r, b] [] it →
      (bad sp sz.bytes → Runs (.ld k g sz sign sp r b off) s fun t => t.endedWith it.key it.asn 0x0105 n)
      ∧ ∀ w, sp = .dev → denied sz.bytes .rd w →
          Runs (.ld k g sz sign sp r b off) s fun t => t.endedWith it.key it.asn 0x0104 w)
    ∧ (∀ (sz : ASize) (sp : Space) (c : Reg), Fires s (.st k g sz sp b c off) k g [b, c] [] it →
      (bad sp sz.bytes → Runs (.st k g sz sp b c off) s fun t => t.endedWith it.key it.asn 0x0105 n)
      ∧ ∀ w, sp = .dev → denied sz.bytes .wr w →
          Runs (.st k g sz sp b c off) s fun t => t.endedWith it.key it.asn 0x0104 w)
    ∧ (∀ (sp : Space) (d : DReg), Fires s (.dld k g sp d b off) k g [b] [d] it →
      (bad sp 64 ∨ (sp = .desc ∧ (s.prog it.ctx).descLen ≤ a) →
        Runs (.dld k g sp d b off) s fun t => t.endedWith it.key it.asn 0x0105 n)
      ∧ ∀ w, sp = .dev → denied 64 .rd w →
          Runs (.dld k g sp d b off) s fun t => t.endedWith it.key it.asn 0x0104 w)
    ∧ ∀ (sp : Space) (d : DReg), Fires s (.dst k g sp d b off) k g [b] [d] it →
      (bad sp 64 → Runs (.dst k g sp d b off) s fun t => t.endedWith it.key it.asn 0x0105 n)
      ∧ ∀ w, sp = .dev → denied 64 .wr w →
          Runs (.dst k g sp d b off) s fun t => t.endedWith it.key it.asn 0x0104 w

/-- R420: the arrival of a load (LOAD_COMPLETE). R751, R760: the waking of waiters. R479, R749, R750: the retirement of a woken wait (WAIT_RETIRE). Read with log entries 4, 23, 44, 118 as well. -/
def Obligations.LoadsArriveAndWaitsRetire : Prop :=
  (∀ (s : State) (k : CoreRef), s.works = false → exec (.loadComplete k) s = .next s ∧ exec (.waitRetire k) s = .next s)
    ∧ (∀ (s : State) (k : CoreRef) (p : PendLoad) (rest : List PendLoad), s.works = true → (s.coreOf k).pend = p :: rest →
    Runs (.loadComplete k) s fun t =>
      (∃ cs, t = { s with cores := cs }) ∧ (∀ n, n ≠ coreIdx k → t.core n = s.core n)
      ∧ (p.desc = false → p.num < 32 →
          (∀ r : Reg, (t.coreOf k).rd r
              = if r.val = p.num ∧ p.num ≠ 0 then BitVec.ofNat 64 p.val else (s.coreOf k).rd r)
          ∧ t.coreOf k = { s.coreOf k with g := (t.coreOf k).g, pend := rest })
      ∧ (p.desc = true → p.num < 16 →
          (∀ d : DReg, (t.coreOf k).rdd d = if d.val = p.num then BitVec.ofNat 512 p.val else (s.coreOf k).rdd d)
          ∧ t.coreOf k = { s.coreOf k with d := (t.coreOf k).d, pend := rest }))
    ∧ (∀ (s : State) (k : CoreRef) (g : Guard) (o : SOp) (it : Item) (p len : Nat), s.waiters.Pairwise (fun a b => a.core ≠ b.core) →
      let v := s.sval k o
      let tr := s.translate it.ctx (s.vcAt k o.vc o.vcreg o.b)
      (Fires s (.sig k g o) k g [o.b, o.c] [] it → tr = some (.ctr p) → 1 ≤ v → v < 2 ^ 32 →
        Runs (.sig k g o) s fun t => Wakes s t p (min (s.ctr p + v) (2 ^ 64 - 1)))
      ∧ (Fires s (.arrive k g o) k g [o.b, o.c] [] it → tr = some (.group p len) → v < len → v < 256 →
        Runs (.arrive k g o) s fun t => Wakes s t (p + v) (min (s.ctr (p + v) + 1) (2 ^ 64 - 1))))
    ∧ ∀ (s : State) (k : CoreRef), (s.coreOf k).hold = some .wait → s.works = true →
    ((∃ w ∈ s.waiters, w.core = coreIdx k ∧ w.woken = true) → (∀ w ∈ s.poolHeld, w.kind = 3 → 0 < w.lanes) →
      Runs (.waitRetire k) s fun t => t.mem = s.mem ∧ t.dmem = s.dmem ∧ ∃ u,
        CoreBecomes s u k { s.coreOf k with pc := (s.coreOf k).pc + 8, hold := none }
          ∧ u.waiters = s.waiters.filter (fun w => w.core != coreIdx k)
          ∧ u.poolHeld = s.poolHeld.filter (fun w => w.core != coreIdx k) ∧ LookAgain u.poolHeld u t)
    ∧ ((∀ w ∈ s.waiters, w.core = coreIdx k → w.woken = false) → exec (.waitRetire k) s = .next s)

/-- R477, R481, R734, R744: what sig and arrive add. -/
def Obligations.CountersAreRaised : Prop :=
  ∀ (s : State) (k : CoreRef) (g : Guard) (o : SOp) (it : Item),
    let v := s.sval k o
    let tr := s.translate it.ctx (s.vcAt k o.vc o.vcreg o.b)
    let up : State → Nat → Nat → Prop := fun t p n =>
      (∀ q, t.ctr q = if q = p then min (s.ctr p + n) (2 ^ 64 - 1) else s.ctr q)
        ∧ t.coreOf k = { s.coreOf k with pc := (s.coreOf k).pc + 8 } ∧ (∀ n, n ≠ coreIdx k → t.core n = s.core n)
        ∧ (s.calm → t.mem = s.mem) ∧ t.dmem = s.dmem
    (Fires s (.sig k g o) k g [o.b, o.c] [] it →
      (∀ p, tr = some (.ctr p) → 1 ≤ v → v < 2 ^ 32 → s.noTaker p → Runs (.sig k g o) s (up · p v))
      ∧ (s.canFail it.key it.asn → (v = 0 ∨ 2 ^ 32 ≤ v ∨ ∀ p, tr ≠ some (.ctr p)) →
          Runs (.sig k g o) s fun t => t.endedWith it.key it.asn 0x0105 (coreIdx k)))
    ∧ (Fires s (.arrive k g o) k g [o.b, o.c] [] it →
      (∀ p len, tr = some (.group p len) → v < len → v < 256 → s.noTaker (p + v) → Runs (.arrive k g o) s (up · (p + v) 1))
      ∧ (s.canFail it.key it.asn → ((∀ p len, tr ≠ some (.group p len)) ∨ ∃ p len, tr = some (.group p len) ∧ len ≤ v) →
          Runs (.arrive k g o) s fun t => t.endedWith it.key it.asn 0x0105 (coreIdx k)))

/-- R479, R745, R760: when wait.ge, wait.c and wait.b retire, and how they hold. -/
def Obligations.WaitsHoldUntilTheirValue : Prop :=
  ∀ (s : State) (k : CoreRef) (g : Guard) (o : SOp) (it : Item),
    let v := s.sval k o
    let vc := s.vcAt k o.vc o.vcreg o.b
    let tr := s.translate it.ctx vc
    let done : State → (Nat → Nat) → Prop := fun t f =>
      (∀ q, t.ctr q = f q) ∧ t.coreOf k = { s.coreOf k with pc := (s.coreOf k).pc + 8 }
        ∧ (∀ n, n ≠ coreIdx k → t.core n = s.core n) ∧ (s.calm → t.mem = s.mem) ∧ t.dmem = s.dmem
    let ill : Instr → Prop := fun i => Runs i s fun t => t.endedWith it.key it.asn 0x0105 (coreIdx k)
    (Fires s (.waitGe k g o) k g [o.b, o.c] [] it →
      (∀ p, tr = some (.ctr p) → (v ≤ s.ctr p → Runs (.waitGe k g o) s (done · s.ctr))
        ∧ (s.ctr p < v → Runs (.waitGe k g o) s (HoldsAt s · k it 1 vc p 0 v)))
      ∧ (s.canFail it.key it.asn → (∀ p, tr ≠ some (.ctr p)) → ill (.waitGe k g o)))
    ∧ (Fires s (.waitC k g o) k g [o.b, o.c] [] it →
      (∀ p x, tr = some (.ctr p) → s.task? it.key it.asn = some x → x.mode / 4 % 2 = 1 →
        (v ≤ s.ctr p → Runs (.waitC k g o) s (done · fun q => if q = p then s.ctr p - v else s.ctr q))
        ∧ (s.ctr p < v → Runs (.waitC k g o) s (HoldsAt s · k it 2 vc p 0 v)))
      ∧ (∀ x, s.canFail it.key it.asn → s.task? it.key it.asn = some x → x.mode / 4 % 2 = 0 → ill (.waitC k g o)))
    ∧ (Fires s (.waitB k g o) k g [o.b, o.c] [] it →
      (∀ p len, tr = some (.group p len) → 0 < len →
        ((∀ j, j < len → v ≤ s.ctr (p + j)) → Runs (.waitB k g o) s (done · s.ctr))
        ∧ ((∃ j, j < len ∧ s.ctr (p + j) < v) → Runs (.waitB k g o) s (HoldsAt s · k it 3 vc p len v)))
      ∧ (s.canFail it.key it.asn → (∀ p len, tr ≠ some (.group p len)) → ill (.waitB k g o)))

/-- R482, R743: cread; R484: the fences; R489–R491: csrr, csrw and trace. Read with log entries 14, 21 as well. -/
def Obligations.ReadsFencesAndSpecialRegisters : Prop :=
  (∀ (s : State) (k : CoreRef) (g : Guard) (it : Item),
    (∀ (a : Reg) (o : SOp), Fires s (.cread k g a o) k g [a, o.b] [] it →
      let tr := s.translate it.ctx (s.vcAt k o.vc o.vcreg o.b)
      (∀ p, tr = some (.ctr p) → Runs (.cread k g a o) s (WritesGpr s · k a (BitVec.ofNat 64 (s.ctr p))))
      ∧ (∀ p len, tr = some (.group p len) → 0 < len → ∃ j, j < len ∧ (∀ i, i < len → s.ctr (p + j) ≤ s.ctr (p + i))
          ∧ Runs (.cread k g a o) s (WritesGpr s · k a (BitVec.ofNat 64 (s.ctr (p + j)))))
      ∧ (s.canFail it.key it.asn → tr = none → Runs (.cread k g a o) s fun t => t.endedWith it.key it.asn 0x0105 (coreIdx k)))
    ∧ (Fires s (.fenceSpire k g) k g [] [] it → Runs (.fenceSpire k g) s (JumpsTo s · k ((s.coreOf k).pc + 8)))
    ∧ (Fires s (.fenceDev k g) k g [] [] it → Runs (.fenceDev k g) s (JumpsTo s · k ((s.coreOf k).pc + 8)))
    ∧ (Fires s (.fenceSys k g) k g [] [] it → Runs (.fenceSys k g) s (JumpsTo s · k ((s.coreOf k).pc + 8))))
    ∧ ∀ (s : State) (k : CoreRef) (g : Guard) (it : Item) (x : Task), s.task? it.key it.asn = some x →
    (∀ (a : Reg) (sel : BitVec 12), Fires s (.csrr k g a sel) k g [a] [] it →
      let gives : Nat → Prop := fun v => Runs (.csrr k g a sel) s (WritesGpr s · k a (BitVec.ofNat 64 v))
      (sel = 0x000 → gives it.ctx) ∧ (sel = 0x001 → gives it.asn) ∧ (sel = 0x002 → gives it.num) ∧ (sel = 0x003 → gives it.frag)
        ∧ (sel = 0x004 → gives k.spire.val) ∧ (sel = 0x005 → gives k.core.val) ∧ (sel = 0x006 → gives s.tick)
        ∧ (sel = 0x007 → gives it.prio) ∧ (sel = 0x008 → gives x.mode)
        ∧ (sel = 0x009 → gives (if x.flags.testBit 2 then x.deadline else 2 ^ 64 - 1))
        ∧ (sel = 0x010 → gives (s.coreOf k).fpflags)
        ∧ (s.canFail it.key it.asn → 0x009 < sel.toNat → sel ≠ 0x010 →
            Runs (.csrr k g a sel) s fun t => t.endedWith it.key it.asn 0x0105 (coreIdx k)))
    ∧ (∀ (b : Reg) (sel : BitVec 12), Fires s (.csrw k g b sel) k g [b] [] it →
      (sel = 0x010 → ((s.coreOf k).rd b).toNat < 32 → Runs (.csrw k g b sel) s fun t => OnlyCore s t k
          ∧ t.coreOf k = { s.coreOf k with fpflags := ((s.coreOf k).rd b).toNat, pc := (s.coreOf k).pc + 8 })
      ∧ (s.canFail it.key it.asn → (sel ≠ 0x010 ∨ 32 ≤ ((s.coreOf k).rd b).toNat) →
          Runs (.csrw k g b sel) s fun t => t.endedWith it.key it.asn 0x0105 (coreIdx k)))
    ∧ ∀ (b : Reg) (tag : BitVec 16), Fires s (.trace k g b tag) k g [b] [] it →
      let cfg := aCtx it.ctx 0x038
      let cnt := s.reg (aCtx it.ctx 0x03C)
      (s.rf cfg 0 5 = 0 → Runs (.trace k g b tag) s (JumpsTo s · k ((s.coreOf k).pc + 8)))
      ∧ (s.rf cfg 0 5 ≠ 0 → it.ctx < 16 → Runs (.trace k g b tag) s fun t =>
          let lo := aCtx it.ctx 0x030
          let slot := (s.reg lo).toNat / 4096 * 4096 + s.rf (lo + 4) 0 16 * 2 ^ 32 + 32 * (cnt.toNat % 2 ^ s.rf cfg 0 5)
          let entry := natLe 8 s.tick ++ natLe 8 ((s.coreOf k).rd b).toNat ++ natLe 8 it.asn ++ natLe 4 it.num ++ natLe 2 tag.toNat
            ++ natLe 1 k.spire.val ++ natLe 1 k.core.val
          t.coreOf k = { s.coreOf k with pc := (s.coreOf k).pc + 8 } ∧ (∀ n, n ≠ coreIdx k → t.core n = s.core n)
            ∧ t.reg (aCtx it.ctx 0x03C) = cnt + 1 ∧ t.tasks = s.tasks
            ∧ (s.access it.ctx slot 32 .wr = .ok → s.calm → Mem.readN t.mem slot 32 = entry
                ∧ (∀ x, (x < slot ∨ slot + 32 ≤ x) → Mem.read t.mem x = Mem.read s.mem x) ∧ t.reg cfg = s.reg cfg)
            ∧ (s.access it.ctx slot 32 .wr ≠ .ok → t.mem = (s.fetched k it).mem ∧ t.rf cfg 16 16 = min (s.rf cfg 16 16 + 1) 65535))

/-- R426, R427, R446: the start of an item on a core (ITEM_START). Read with log entries 118 as well. -/
def Obligations.ItemStartSetsTheCore : Prop :=
  ∀ (s : State) (k : CoreRef) (i : Item), (s.coreOf k).run = none → (s.coreOf k).next = some i →
    s.spireRuns k.spire.val = true → s.spireState k.spire.val = 1 → s.clrDue.testBit i.ctx = false →
    (∀ pc, s.startPc i = some pc → Runs (.itemStart k) s fun t =>
      t = { s with
        cores := t.cores, dmem := t.dmem, regs := t.regs, mem := t.mem, dome := t.dome, badBytes := t.badBytes, port := t.port }
      ∧ OtherCoresSpawn s t k ∧ (s.traceOff → t.mem = s.mem ∧ t.dome = s.dome ∧ t.badBytes = s.badBytes)
      ∧ (let c := t.coreOf k
         c.run = some i ∧ c.next = none ∧ c.pc = pc ∧ c.hold = none ∧ c.pend = [] ∧ c.fpflags = 0 ∧ c.reqs = 0
         ∧ (∀ r : Reg, c.rd r = if 1 ≤ r.val ∧ r.val ≤ 6 then BitVec.ofNat 64 (getLe i.words (0x08 + 8 * (r.val - 1)) 8)
             else if r = 7 then BitVec.ofNat 64 i.degree else 0)
         ∧ (∀ p : PReg, c.rp p = decide (p = 0)) ∧ ∀ d : DReg, c.rdd d = 0)
      ∧ ((s.coreOf k).owner = (i.key, i.asn) → t.dmem = s.dmem)
      ∧ ((s.coreOf k).owner ≠ (i.key, i.asn) → ∀ x, Mem.read t.dmem x =
          if coreIdx k * 32768 ≤ x ∧ x < (coreIdx k + 1) * 32768 then 0 else Mem.read s.dmem x))
    ∧ (s.startPc i = none → s.canFail i.key i.asn →
        Runs (.itemStart k) s fun t => t.endedWith i.key i.asn 0x0105 (coreIdx k))

/-- R694–R698: placing an entry in a core's next slot (NEXT_SLOT_FILL). Which owed priority goes first, and when shares bind, is log entry 15. -/
def Obligations.NextSlotsAreFilled : Prop :=
  ∀ (s : State) (k : CoreRef), (s.coreOf k).next = none → s.spireRuns k.spire.val = true → s.spireState k.spire.val = 1 →
    let l := s.eligible k.spire.val
    let q := s.qosNow (priosOf s.waiting)
    (l = [] → exec (.nextSlotFill k) s = .next s)
    ∧ ∀ (p c : Nat) (e : Entry), q.choose s.contended s.narrowFirst (priosOf l) = some p → nextCtx l p (SMap.get q.last 15 p) = some c →
      (l.find? fun (x : Entry) => x.prio == p && x.ctx == c) = some e →
      let owing : Nat → Prop := fun r => r < 8 ∧ 0 < q.owed r ∧ ∃ x ∈ l, x.prio = r
      (s.contended = false ∨ (∀ r, ¬ owing r) → ∀ x ∈ l, x.prio < 8 → x.prio ≤ p)
      ∧ (s.contended = true → ∀ r, owing r → owing p ∧ (s.spiresFor p < s.spiresFor r ∨ (s.spiresFor p = s.spiresFor r ∧ r ≤ p)))
      ∧ Runs (.nextSlotFill k) s fun t =>
        let size := ((s.task? e.key e.asn).map fun (x : Task) => x.fragment).getD 1
        SpawnNoted s { s.coreOf k with next := some { (e.place size).1 with ord := s.entrySeq } } (t.coreOf k) ∧ OtherCoresSpawn s t k
        ∧ t.entrySeq = s.entrySeq + 1
        ∧ (match (e.place size).2 with
            | none => t.ready = s.ready.filter fun (y : Entry) => y.id != e.id
            | some x => t.ready = s.ready.map fun (y : Entry) => if y.id == e.id then x else y)
        ∧ Counted s t (aDisp 0x100) ∧ t.dmem = s.dmem ∧ t.ctrs = s.ctrs ∧ t.tasks = s.tasks ∧ t.ops = s.ops
        ∧ (s.traceOff → s.calm → t.mem = s.mem)

/-- R432, R488, R693, R711: the end of an item (end, ITEM_END). Read with log entries 27, 118 as well. -/
def Obligations.AnItemEndsWithItsOperations : Prop :=
  ∀ (s : State) (k : CoreRef) (i : Item),
    (∀ g : Guard, Fires s (.endI k g) k g [] [] i → Runs (.endI k g) s fun t => OnlyCore s t k
      ∧ t.coreOf k = { s.coreOf k with hold := some .ending, since := s.tick })
    ∧ ((s.coreOf k).run = some i → (s.coreOf k).hold = some .ending →
      let busy : Prop := (s.coreOf k).pend ≠ [] ∨ ∃ o ∈ s.ops, o.core = coreIdx k ∧ (s.coreOf k).opBase ≤ o.id
      (busy → exec (.itemEnd k) s = .next s)
      ∧ (¬ busy → s.works = true → Runs (.itemEnd k) s fun t =>
        t.coreOf k = { s.coreOf k with run := none, hold := none } ∧ OtherCores s t k ∧ t.dmem = s.dmem
        ∧ (s.traceOff → t.mem = s.mem)
        ∧ (i.entry = 0 → t.ready = s.ready)
        ∧ (∀ e, i.entry ≠ 0 → (s.ready.find? fun (x : Entry) => x.id == i.entry) = some e →
            t.ready = if e.ended + 1 < e.frags
              then s.ready.map fun (y : Entry) => if y.id == e.id then { y with ended := y.ended + 1 } else y
              else { e with kind := 2, ended := e.frags } :: s.ready.filter fun (y : Entry) => y.id != e.id)
        ∧ ∀ x, i.entry = 0 → s.task? i.key i.asn = some x → x.accepted = true → x.retryDue = false → x.itemCount ≤ x.expanded →
            (∀ e ∈ s.ready, e.key = x.key → e.asn ≠ x.asn) →
            (∀ c ∈ s.cores, ∀ j, (c.2.next = some j ∨ (c.1 ≠ coreIdx k ∧ c.2.run = some j)) → j.key = x.key → j.asn ≠ x.asn) →
            (∀ j, (s.coreOf k).next = some j → j.key = x.key → j.asn ≠ x.asn) →
            ∃ y, t.task? i.key i.asn = some y ∧ y.ended = true))

/-- R485–R487, R689, R690: spawn and the acceptance of its record (SPAWN_ACCEPT). Read with log entries 44, 148 as well. -/
def Obligations.SpawnedRecordsEnterTheReadyLists : Prop :=
  ∀ (s : State) (k : CoreRef) (it : Item),
    (∀ (g : Guard) (d : DReg), Fires s (.spawn k g d) k g [] [d] it →
      let c := getLe (descBytes ((s.coreOf k).rdd d)) 0x3D 1 % 16
      (c = it.ctx → Runs (.spawn k g d) s fun t =>
        t.coreOf k = { s.coreOf k with hold := some .spawn, since := s.tick, counted := decide (s.freeEntries = 0) }
          ∧ OtherCores s t k ∧ t.mem = (s.fetchedNow k).mem ∧ t.dmem = s.dmem
          ∧ t.ready = s.ready ∧ t.tasks = s.tasks ∧ (s.freeEntries = 0 → Counted s t (aDisp 0x118)))
      ∧ (c ≠ it.ctx → s.canFail it.key it.asn → Runs (.spawn k g d) s fun t => t.endedWith it.key it.asn 0x0105 (coreIdx k)))
    ∧ ((s.coreOf k).run = some it → (s.coreOf k).hold = some .spawn → s.works = true → s.freeEntries = 0 →
      ((s.coreOf k).counted = true → exec (.spawnAccept k) s = .next s)
      ∧ ((s.coreOf k).counted = false → Runs (.spawnAccept k) s fun t => Counted s t (aDisp 0x118) ∧ t.ready = s.ready
          ∧ t.coreOf k = { s.coreOf k with since := s.tick, counted := true } ∧ OtherCores s t k))
    ∧ ((s.coreOf k).run = some it → (s.coreOf k).hold = some .spawn → s.works = true → s.freeEntries ≠ 0 → ∀ x, s.task? it.key it.asn = some x →
      let r := descBytes (SMap.get (s.coreOf k).d 0 (s.wordAt (coreIdx k) (s.coreOf k) it.ctx / 2 ^ 51 % 16))
      (recordOk r x.ctx = true → Runs (.spawnAccept k) s fun t =>
        t.coreOf k = { s.coreOf k with pc := (s.coreOf k).pc + 8, hold := none, counted := false } ∧ OtherCoresSpawn s t k
        ∧ t.dmem = s.dmem
        ∧ (∃ e : Entry, t.ready = s.ready ++ [e] ∧ e.key = x.key ∧ e.asn = x.asn ∧ e.ctx = x.ctx ∧ e.prio = getLe r 0x3C 1 % 8
            ∧ e.num = x.itemCount + x.spawned ∧ e.degree = getLe r 0x38 4 ∧ e.words = r)
        ∧ ∃ y, t.task? it.key it.asn = some y ∧ y.spawned = x.spawned + 1)
      ∧ (recordOk r x.ctx = false → s.canFail it.key it.asn →
          Runs (.spawnAccept k) s fun t => t.endedWith it.key it.asn 0x0105 0xFFFF))

/-- R688, R692, R868–R870: TASK_EXPAND and TASK_RETRY. Read with log entries 118, 142, 149 as well. -/
def Obligations.TasksExpandInArrayOrder : Prop :=
  ∀ (s : State) (key : Fin 16) (asn : Nat) (x : Task), s.task? key.val asn = some x → s.works = true →
    (x.expandable = true → s.ctxHeld.testBit x.ctx = false → s.rb (aDisp 0x004) 31 = false → s.turnOf x = true →
      (x.arrayDeclared = false → x.expanded = 0 → x.reserved = 0 → s.recorded x = false →
        Runs (.taskExpand key asn) s fun t => t.endedWith key.val asn 0x0104 0xFFFD)
      ∧ (x.arrayDeclared = true → x.shadowNeed = 0 → s.recorded x = false →
          Runs (.taskExpand key asn) s fun t => Expands s t x (s.calm ∧ s.traceOff))
      ∧ (x.arrayDeclared = true → x.shadowNeed = 0 → s.freeEntries ≠ 0 → s.calm →
          s.checkAcc x.ctx (x.itemSrc + 64 * x.expanded) 64 .rd = none →
          recordOk (Mem.readN s.mem (x.itemSrc + 64 * x.expanded) 64) x.ctx = true →
          Runs (.taskExpand key asn) s fun t => ∃ y, t.task? key.val asn = some y
            ∧ (y.status = none → y.retryDue = false → x.expanded < y.expanded)))
    ∧ (x.retryDue = true → x.cancelled = false → s.ctxHeld.testBit x.ctx = false → s.underWay key.val asn = false →
      Runs (.taskRetry key asn) s fun t => Counted s t (aErr 0x108)
        ∧ (s.rb (aDisp 0x004) 31 = true →
            t.task? key.val asn = some { x with retryDue := false, expanded := 0, spawned := 0, log := [], logSpace := 0 } ∧ t.ready = s.ready)
        ∧ (x.shadows = [] → s.recorded x = false → Expands s t { x with retryDue := false, expanded := 0, spawned := 0, log := [], logSpace := 0 }
            (s.calm ∧ s.traceOff)))

/-- R396–R403, R473–R476, R483: what each engine-issue instruction does. That an issue waits behind another core's is log entry 55 (DEDUCED). -/
def Obligations.EngineIssueHandsOver : Prop :=
  (IssueRow .mmaD 0x50 0 ∧ IssueRow .mmaS 0x51 0 ∧ IssueRow .spcmp 0x52 0)
    ∧ (IssueRow .segred 0x54 0 ∧ IssueRow .combine 0x54 0 ∧ IssueRow .ewiseCopy 0x54 0 ∧ IssueRow .ewiseAdd 0x54 0
      ∧ IssueRow .ewiseSub 0x54 0 ∧ IssueRow .ewiseMul 0x54 0 ∧ IssueRow .ewiseDiv 0x54 0 ∧ IssueRow .ewiseMin 0x54 0
      ∧ IssueRow .ewiseMax 0x54 0 ∧ IssueRow .ewiseFma 0x54 0 ∧ IssueRow .ewiseScale 0x54 0 ∧ IssueRow .ewiseRelu 0x54 0
      ∧ IssueRow .ewiseGelu 0x54 0 ∧ IssueRow .ewiseSilu 0x54 0 ∧ IssueRow .ewiseSigmoid 0x54 0 ∧ IssueRow .ewiseTanh 0x54 0
      ∧ IssueRow .ewiseExp 0x54 0 ∧ IssueRow .ewiseLog 0x54 0 ∧ IssueRow .ewiseRsqrt 0x54 0 ∧ IssueRow .ewiseAbs 0x54 0
      ∧ IssueRow .ewiseOr 0x54 0 ∧ IssueRow .ewiseAnd 0x54 0 ∧ IssueRow .smBlock 0x54 0 ∧ IssueRow .smRescale 0x54 0
      ∧ IssueRow .smFinal 0x54 0 ∧ IssueRow .smMerge 0x54 0 ∧ IssueRow .segSoftmax 0x54 0)
    ∧ (IssueRow .optstep 0x55 0 ∧ IssueRow .scan 0x58 0 ∧ IssueRow .derive 0x58 0 ∧ IssueRow .qscanLoad 0x58 0
      ∧ IssueRow .qscanStore 0x58 0 ∧ IssueRow .qconv 0x59 0)
    ∧ (IssueRow .gather 0x5C 0 ∧ IssueRow .gatherReduce 0x5C 0 ∧ IssueRow .gatherAmax 0x5C 0 ∧ IssueRow .scatter 0x5C 0
      ∧ IssueRow .scatterAdd 0x5C 0 ∧ IssueRow .prefetchBatch 0x5C 0)
    ∧ (IssueRow .strmArm 0x5D 0 ∧ IssueRow .strmRearm 0x5D 1 ∧ IssueRow .strmAdv 0x5D 2 ∧ IssueRow .strmClose 0x5D 3)

/-- R398, R399: the acceptance of a held issue (ISSUE_ACCEPT). R400, R402, R474: OPERATION_START and OPERATION_COMPLETE (log entries 45, 55, 56). R581–R606: what the quantiser's operations write. -/
def Obligations.OperationsIssueStartAndComplete : Prop :=
  (∀ (s : State) (k : CoreRef) (sp : Fin 64) (u : Fin 4) (id : Nat), s.works = false →
    exec (.issueAccept k) s = .next s ∧ exec (.operationStart sp u) s = .next s ∧ exec (.operationComplete id) s = .next s)
    ∧ (∀ (s : State) (k : CoreRef) (o : Op), s.works = true → s.heldOp (coreIdx k) = some o →
    let u := unitOf o.opc
    let last := SMap.get s.served 15 (unitKey k.spire.val u)
    let mine : Prop := ∃ d, d < 16 ∧ (last + 1 + d) % 16 = k.core.val ∧ s.waitsFor u (coreIdx k) = true
      ∧ ∀ j, j < d → s.waitsFor u (16 * k.spire.val + (last + 1 + j) % 16) = false
    (s.hasRoom k.spire.val u = false → exec (.issueAccept k) s = .next s)
    ∧ (¬ mine → exec (.issueAccept k) s = .next s)
    ∧ (s.hasRoom k.spire.val u = true → mine →
      (s.verdict o = .accept → Runs (.issueAccept k) s fun t => HandedOver s t k o
        ∧ SMap.get t.served 15 (unitKey k.spire.val u) = k.core.val)
      ∧ ∀ r, s.verdict o = .refuse r → s.canFail o.key o.asn →
          Runs (.issueAccept k) s fun t => t.endedWith o.key o.asn 0x0105 (coreIdx k))
    ∧ (s.verdict o = .hold → exec (.issueAccept k) s = .next s))
    ∧ (∀ (s : State) (o : Op), s.works = true →
    (∀ (sp : Fin 64) (u : Fin 4) (rest : List Op), s.queued sp.val u.val = o :: rest → u.val ≠ 3 →
      ((∃ x ∈ s.ops, x.inUnit sp.val u.val = true ∧ x.started = true) → exec (.operationStart sp u) s = .next s)
      ∧ ((∀ x ∈ s.ops, x.inUnit sp.val u.val = true → x.started = false) → Runs (.operationStart sp u) s fun t =>
          t = { s.withStarted o with arr := t.arr } ∧ (o.isMma = false → t.arr = s.arr)
            ∧ (o.isMma = true → (t.run o.id).started = true)))
    ∧ (∀ (sp : Fin 64), s.queued sp.val 3 = [] → exec (.operationStart sp 3) s = .next s)
    ∧ (∀ id, s.op? id = some o → o.started = false → exec (.operationComplete id) s = .next s)
    ∧ ∀ id, s.op? id = some o → o.started = true → o.opc ≠ 0x5C → o.opc ≠ 0x5D → (o.isMma = true → s.mmaDone o = true) →
      let u := s.runOp o
      Runs (.operationComplete id) s fun t => t.mem = u.mem ∧ t.dmem = u.dmem
        ∧ t.ops = u.ops.filter (fun (x : Op) => x.id != o.id)
        ∧ (u.opDead o = true → s.opDead o = false → t.ctrs = u.ctrs)
        ∧ ((u.opDead o = false ∨ s.opDead o = true) → (∀ w ∈ u.waiters, w.on o.phys = true → w.kind ≠ 2) → o.inc ≠ 0 →
            ∀ q, t.ctr q = if q = o.phys then min (u.ctr q + o.inc) (2 ^ 64 - 1) else u.ctr q)
        ∧ (o.inc = 0 → t.ctrs = u.ctrs))
    ∧ (∀ (s : State) (id : Nat) (o : Op), Doing s id o 0x58 → s.qscanOk o = true →
      let d := o.desc
      let x := s.scale o (qsReg d)
      let n := qsN d
      let src := s.valAt (qsS d) (qsSrc d)
      let l := (List.range (qsRows d * n)).map src
      (qsMode d = 0 → qsGroup d = false → ∀ amax, IsAmax l amax →
        (amax = 0 → Runs (.operationComplete id) s fun t => Derives s t o 0x3F800000 0 true ∧ t.mem = s.mem)
        ∧ (∀ c, amax ≠ 0 → amax ≠ infF → (∀ y ∈ l, isNanF y = false → y = c) → Runs (.operationComplete id) s fun t =>
            Derives s t o amax (if qsT d = 2 ∧ ltF c 0 = true then 1 else 0) true)
        ∧ (amax = infF ∨ (∃ y ∈ l, ∃ z ∈ l, ltF y z = true) → amax ≠ 0 →
          (∀ q, (qsT d, q) ∈ qmaxTable → Runs (.operationComplete id) s fun t => Derives s t o (scaleFor amax q) 0 false)
          ∧ (∀ lo hi, amax ≠ infF → qsT d = 2 →
              (if ltF lo 0 then lo ∈ l ∧ ∀ y ∈ l, ltF y lo = false else lo = 0 ∧ ∀ y ∈ l, ltF y 0 = false) →
              (if ltF 0 hi then hi ∈ l ∧ ∀ y ∈ l, ltF hi y = false else hi = 0 ∧ ∀ y ∈ l, ltF 0 y = false) →
              let sc := rangeScale (fp32.decode lo) (fp32.decode hi)
              Runs (.operationComplete id) s fun t => Derives s t o (maxF sc 0x00800000) (zeroPoint (fp32.decode lo) sc) false)))
      ∧ (qsMode d = 0 → qsGroup d = true →
        let g := qsGsize d
        let per := ceilDiv n g
        Runs (.operationComplete id) s fun t =>
          ScaleBecomes s t o (qsReg d) { value := if qsCarry d then (s.scale o (qsCreg d)).value else 0x3F800000, qdiv := 0x3F800000,
                                         tag := 4 + 8 * (g / 32 - 1), zp := 0, pbuf := x.pbuf }
          ∧ t.reg (aQnt 2) = s.reg (aQnt 2)
          ∧ (qsRows d * per ≤ 2048 * s.rf (aCtx o.ctx 0x010) 8 6 → ∀ r q, r < qsRows d → q < per →
              t.gs o (qsBase d + r * per + q) = groupExp (if qsT d = 0 then 2 else if qsT d = 5 then 8 else 15)
                ((List.range (min g (n - q * g))).map fun j => src (r * n + q * g + j))))
      ∧ (qsMode d = 1 → (x.kind = false → Runs (.operationComplete id) s fun t => t.scales = s.scales)
        ∧ (x.kind = true → isNanF x.value = false → ltF x.value 0 = false → 
          (x.value = 0 → Runs (.operationComplete id) s fun t => Derives s t o 0x3F800000 0 true)
          ∧ (isZeroF x.value = false → ∀ q, (qsT d, q) ∈ qmaxTable →
            Runs (.operationComplete id) s fun t => Derives s t o (scaleFor x.value q) 0 false)))
      ∧ (qsMode d = 2 → Runs (.operationComplete id) s fun t =>
          let b := Mem.readN s.mem (qsSrc d) 16
          ScaleBecomes s t o (qsReg d) { value := getLe b 0 4, qdiv := getLe b 4 4, tag := getLe b 8 1 % 64, zp := getLe b 9 1 % 16,
                                         pbuf := x.pbuf })
      ∧ (qsMode d = 3 → Runs (.operationComplete id) s fun t => t.scales = s.scales
          ∧ WritesMem s t (qsSrc d) (natLe 4 x.value ++ natLe 4 x.qdiv ++ natLe 1 x.tag ++ natLe 1 x.zp ++ zeros 6)))
    ∧ (∀ (s : State) (id : Nat) (o : Op), Doing s id o 0x59 → s.qconvOk o = true → (s.scale o (qcReg o.desc)).kind = false →
      let d := o.desc
      let x := s.scale o (qcReg d)
      let m := qcRows d * qcN d
      let w := fmtW (qcD d)
      let src := s.valAt (qcS d) (qcSrc d)
      let conv : Nat → Nat × Bool := fun k => toNarrow (qcD d) x.zp (fp32.decode (src k)) (s.divisorOf o x k)
      let number : Nat → Bool := fun k => !isNanF (src k) && !isZeroF (src k)
      let inputs := ((List.range m).filter number).length
      let lost := ((List.range m).filter fun k => number k && (conv k).1 == if qcD d = 2 then x.zp else 0).length
      let clipped := ((List.range m).filter fun k => (conv k).2).length
      let up : Prop := qcPromo d = true ∧ s.rf aQntCtl 0 12 * inputs < 4096 * lost
      Runs (.operationComplete id) s fun t =>
        unpack w m (Mem.readN t.mem (qcDst d) (m * w / 8)) = (List.range m).map (fun k => (conv k).1)
        ∧ (¬ up → t.scales = s.scales)
        ∧ (up → (t.scale o (qcReg d)).promo = true
            ∧ t.shows 5 (qcPbuf d) m fun k => (toNarrow 5 0 (fp32.decode (src k)) (s.divisorOf o x k).div64).1)
        ∧ (qcCnt d ≠ 0 → Mem.readN t.mem (qcCnt d) 12 = natLe 4 inputs ++ natLe 4 lost ++ natLe 4 clipped
            ∧ (getLe (Mem.readN t.mem (qcCnt d + 12) 4) 0 4 = 1 + (if x.flat then 2 else 0) ↔ up)))
    ∧ ∀ (s : State) (c : Fin 16) (sp n : Nat), let first := s.rf (aCtx c.val 0x010) 0 5
      let banks := s.rf (aCtx c.val 0x010) 8 6
      0 < banks →
        256 * sp + 8 * first ≤ s.scaleIdx c.val sp n ∧ s.scaleIdx c.val sp n < 256 * sp + 8 * (first + banks)
        ∧ s.scaleIdx c.val sp (n + 8 * banks) = s.scaleIdx c.val sp n
        ∧ 65536 * sp + 2048 * first ≤ s.gsIdx c.val sp n ∧ s.gsIdx c.val sp n < 65536 * sp + 2048 * (first + banks)
        ∧ s.gsIdx c.val sp (n + 2048 * banks) = s.gsIdx c.val sp n

/-- R472, R494, R764: ILLEGAL_INSTRUCTION and STALL_LIMIT_EXPIRY. When the limit's tick stands, and its end, are log entries 5 and 125. -/
def Obligations.IllegalWordsAndStallsEndTheTask : Prop :=
  ∀ (s : State) (k : CoreRef) (it : Item), (s.coreOf k).run = some it → s.canFail it.key it.asn →
    ((s.coreOf k).hold = none → s.spireRuns k.spire.val = true →
      ((s.prog it.ctx).codeLen ≤ (s.coreOf k).pc →
        Runs (.illegalInstruction k) s fun t => t.endedWith it.key it.asn 0x0105 (coreIdx k))
      ∧ ∀ w, s.fetch (coreIdx k) it.ctx (s.coreOf k).pc = some w → s.fetchLost (coreIdx k) it.ctx (s.coreOf k).pc = false →
        let a := w / 2 ^ 51 % 16
        let d := SMap.get (s.coreOf k).d 0 a
        decodeSpaner k (d.toNat % 256) (d.toNat / 256 % 256) w = none →
        (engineWord? w = none → Runs (.illegalInstruction k) s fun t => t.endedWith it.key it.asn 0x0105 (coreIdx k))
        ∧ ∀ g e, engineWord? w = some (g, e) →
          ((s.coreOf k).guardHolds g = false → Runs (.illegalInstruction k) s fun t => JumpsTo s t k ((s.coreOf k).pc + 8))
          ∧ ((s.coreOf k).guardHolds g = true → (s.coreOf k).pending true a = false →
              Runs (.illegalInstruction k) s fun t => t.endedWith it.key it.asn 0x0105 (coreIdx k)))
    ∧ (s.works = false → exec (.stallLimitExpiry k) s = .next s)
    ∧ (s.works = true → s.coreHolds (coreIdx k) ≠ [] → ∃ h ∈ s.coreHolds (coreIdx k), (∀ x ∈ s.coreHolds (coreIdx k), h.since ≤ x.since)
        ∧ Runs (.stallLimitExpiry k) s fun t => t.endedWith it.key it.asn 0x0103 h.vc
            ∧ t.tick = min (max s.tick (h.since + 1000 * (s.reg (aSync 0x004)).toNat)) (2 ^ 64 - 1))

/-- R327–R386: a row-engine request from the splitter to its completion. What one command serves is log entry 46, and what copies and bad offsets wait for log entries 126 and 164. -/
def Obligations.RowRequestsAdvance : Prop :=
  (∀ (s : State) (id seg : Nat) (u : Fin 24), s.works = false → exec (.splitterAccept id) s = .next s
      ∧ exec (.unitRequestStart id u) s = .next s ∧ exec (.unitPartialCombine id seg) s = .next s
      ∧ exec (.replicaWrite id) s = .next s ∧ exec (.sketchFlush id u) s = .next s)
    ∧ ∀ (s : State) (id : Nat) (q : RowReq), s.works = true → s.req? id = some q →
    let o := q.op
    (q.accepted = false → s.opStarted id = true → (q.passOn = true ∨ rqOp o.desc = 6) →
      (∀ r, s.rqVersion o = .error r → s.canFail o.key o.asn →
        Runs (.splitterAccept id) s fun t => t.endedWith o.key o.asn 0x0105 o.core ∧ t.reqGone id)
      ∧ ∀ v x u, s.rqVersion o = .ok v →
        (if rqOp o.desc = 6 then s else s.openBatch o (rqBatch o.desc)).rqOperands o = .ok (x, u) →
        (∀ p i, x.idx[p]? = some i → (u.routeOne o.ctx v.bytes o.desc p i).isBad = false) →
        (rqHasSeg o.desc = true →
          (x.bad = none ↔ x.offs.head? = some 0 ∧ x.offs.Pairwise (· ≤ ·) ∧ x.offs.getLast? = some (rqCount o.desc)))
        ∧ (∀ k, x.bad = some k → k ≤ 1 → s.canFail o.key o.asn →
          Runs (.splitterAccept id) s fun t => t.endedWith o.key o.asn 0x0104 0xFFFE ∧ t.reqGone id)
        ∧ ((∀ k, x.bad = some k → 1 < k) → Runs (.splitterAccept id) s fun t => SplitInto t id o v x))
    ∧ (q.accepted = true →
      (q.badOff = none → exec (.splitterAccept id) s = .next s)
      ∧ ∀ k, q.badOff = some k →
        (s.rowSent q (k - 1) = false → exec (.splitterAccept id) s = .next s)
        ∧ (s.rowSent q (k - 1) = true → s.canFail o.key o.asn →
          Runs (.splitterAccept id) s fun t => t.endedWith o.key o.asn 0x0104 0xFFFE ∧ t.reqGone id))
    ∧ (∀ v, q.accepted = false → s.opStarted id = true → (q.passOn = true ∨ rqOp o.desc = 6) → s.rqVersion o = .ok v → s.listsGo o →
      (∀ i, i < tdRows v.bytes → (s.unitAt (homeAddr v.bytes i)).isSome = true) →
      let offs := unpack 32 (rqNseg o.desc + 1) (Mem.readN s.mem (rqSeg o.desc) (4 * (rqNseg o.desc + 1)))
      (rqHasSeg o.desc = true → offs.head? = some 0 ∧ offs.Pairwise (· ≤ ·) ∧ offs.getLast? = some (rqCount o.desc)) →
      Runs (.splitterAccept id) s fun t => ∃ x, SplitInto t id o v x ∧ x.bad = none ∧ x.offs = (if rqHasSeg o.desc then offs else [])
        ∧ (s.calm → x.idx = unpack (8 * rqIdxBytes o.desc) (rqCount o.desc)
            (Mem.readN s.mem (rqIdx o.desc) (rqIdxBytes o.desc * rqCount o.desc))))
    ∧ (∀ u : Fin 24, ((s.unitHolds u.val).find? fun (x : RowReq) => x.op.id == id) = some q →
      let rs := s.sentTo q u.val
      (rs = [] ∨ q.sourcesIn u.val = false ∨ s.copiesDue q u.val = true → exec (.unitRequestStart id u) s = .next s)
      ∧ (rs ≠ [] → q.sourcesIn u.val = true → s.copiesDue q u.val = false →
        (s.tableOk q.tdesc = false → rqOp o.desc ≠ 6 → s.canFail o.key o.asn →
          Runs (.unitRequestStart id u) s fun t => t.endedWith o.key o.asn 0x0104 0xFFFE ∧ t.reqGone id)
        ∧ (rqOp o.desc = 6 → Runs (.unitRequestStart id u) s (ServedFrom · q u.val rs))
        ∧ (s.tableOk q.tdesc = true → rqWrites o.desc = false → (∀ r ∈ rs, s.rowStands o.ctx u.val q.tdesc r) →
          Runs (.unitRequestStart id u) s (ServedFrom · q u.val rs))
        ∧ (s.tableOk q.tdesc = true → ∀ q1 s1, s.serveAt q u.val rs = .ok (q1, s1) →
          Runs (.unitRequestStart id u) s fun t => t.mem = s1.mem
            ∧ ∃ q', t.req? id = some q' ∧ q'.rows = q1.rows ∧ q'.parts = q1.parts
              ∧ q'.routes = q.routes.map fun r => if r.unit = u.val ∧ r ∈ rs then { r with done := true } else r)))
    ∧ (∀ seg, rqOp o.desc = 2 → q.accepted = true → seg < rqNseg o.desc → SMap.find q.rows seg = none →
      (q.segDone seg = false → exec (.unitPartialCombine id seg) s = .next s)
      ∧ (q.segDone seg = true → Runs (.unitPartialCombine id seg) s fun t => t = { s with reqs := t.reqs, regs := t.regs }
          ∧ t.req? id = some { q with rows := SMap.put q.rows seg (outRowOf (rqFmt o.desc) (q.segRow seg)).1 }))
    ∧ (∀ c rest, q.copies = c :: rest →
      (s.stackUp c.stack = false → Runs (.replicaWrite id) s fun t =>
        t = { s with reqs := t.reqs } ∧ t.req? id = s.reqKept { q with copies := rest })
      ∧ (s.stackUp c.stack = true → s.checkAcc o.ctx c.addr c.bytes.length .wr = none → s.calm →
        Runs (.replicaWrite id) s fun t => WritesMem s t c.addr c.bytes ∧ t.req? id = s.reqKept { q with copies := rest }
          ∧ Counted s t (aRe c.stack 0x10C)))
    ∧ (∀ u : Fin 24, let mine := q.sketch.filter fun e => e.1 == u.val
      (mine = [] ∨ q.at_ u.val ≠ [] → exec (.sketchFlush id u) s = .next s)
      ∧ (mine ≠ [] → q.at_ u.val = [] → Runs (.sketchFlush id u) s fun t =>
          t.req? id = s.reqKept { q with sketch := q.sketch.filter fun e => e.1 != u.val }
          ∧ (s.calm → ∀ x, (x < (sketchArea q.tdesc u.val).1 ∨
              (sketchArea q.tdesc u.val).1 + (sketchArea q.tdesc u.val).2 ≤ x) → Mem.read t.mem x = Mem.read s.mem x)))
    ∧ ∀ y, s.op? id = some y → y.started = true → y.opc = 0x5C →
      (s.reqOver q = false → exec (.operationComplete id) s = .next s)
      ∧ (s.reqOver q = true → rqEmap o.desc = 0 → Runs (.operationComplete id) s fun t =>
          t.req? id = none ∧ t.op? id = none ∧ Incremented s t o.phys o.inc)

/-- R644–R670, R968: what streams do with buffers, slots, granules and passes. Read with log entries 91, 113, 118, 131 as well. -/
def Obligations.StreamsMoveTheirRows : Prop :=
  (∀ (s : State) (n : Fin 16384), s.works = false → exec (.bufferGrant n) s = .next s ∧ exec (.slotFillComplete n) s = .next s
      ∧ exec (.slotDrainComplete n) s = .next s ∧ exec (.granuleComplete n) s = .next s ∧ exec (.requestPassStart n) s = .next s)
    ∧ ∀ (s : State) (n : Fin 16384) (x : Strm), s.works = true → s.strm? n.val = some x → x.advs = [] →
    let k := s.nextRows x
    let slot := x.filled % 2 * sdSlotSize x.desc
    let rb := sdRowBytes x.desc
    let a := sdTierBase x.desc + x.row * sdTierStride x.desc
    let plain : Nat → Prop := fun ty => k = 1 ∧ sdType x.desc = ty ∧ sdComp x.desc = false ∧ a + rb ≤ storeBase ∧ s.calm
    (s.grantable n.val x = false → exec (.bufferGrant n) s = .next s)
    ∧ (s.grantable n.val x = true →
      (sdType x.desc = 3 → x.passOn = false → Runs (.bufferGrant n) s fun t =>
        t = { s with streams := t.streams } ∧ StrmBecomes s t n.val { x with state := 2 })
      ∧ ((sdType x.desc = 1 ∨ sdType x.desc = 2 ∨ sdType x.desc = 4) → 0 < sdRows x.desc → Runs (.bufferGrant n) s fun t =>
        t = { s with streams := t.streams } ∧ StrmBecomes s t n.val (x.begin s.tick)))
    ∧ (x.state = 2 → x.passOn = true → 0 < k → x.row + k < s.passRows x →
      (sdSlot x.desc = true → sdOutbound x.desc = false → s.rowsReady x x.row k = true →
        (s.slotFree x = false → exec (.slotFillComplete n) s = .next s)
        ∧ (s.slotFree x = true → s.rowsGo x k ∨ (∃ v, s.fillRows k x x.row slot rb = .ok v) → Runs (.slotFillComplete n) s fun t =>
          ∃ u, s.fillRows k x x.row slot rb = .ok u ∧ StrmBecomes s t n.val { x with row := x.row + k, moved := x.moved + 1, filled := x.filled + 1 }
          ∧ t.mem = u.mem ∧ Incremented s t x.arm.phys x.arm.inc
          ∧ (plain 1 → x.home / 16 ∈ s.consumers x →
              Mem.readN t.mem (sdSpireBase x.desc + slot) rb = Mem.readN s.mem a rb)))
      ∧ (sdSlot x.desc = true → sdOutbound x.desc = true →
        (x.handed ≤ x.filled → exec (.slotDrainComplete n) s = .next s)
        ∧ (x.filled < x.handed → s.rowsGo x k ∨ (∃ v, s.drainRows k x x.row slot rb = .ok v) → Runs (.slotDrainComplete n) s fun t =>
          ∃ u, s.drainRows k x x.row slot rb = .ok u ∧ StrmBecomes s t n.val { x with row := x.row + k, moved := x.moved + 1, filled := x.filled + 1 }
          ∧ t.mem = u.mem ∧ Incremented s t x.arm.phys x.arm.inc
          ∧ (plain 2 → s.opDead x.arm = false → WritesMem s t a (Mem.readN s.mem (sdSpireBase x.desc + slot) rb))))
      ∧ let moved := if sdOutbound x.desc then s.drainRows k x x.row (x.row * sdSpireStride x.desc) (sdSpireStride x.desc)
          else s.fillRows k x x.row (x.row * sdSpireStride x.desc) (sdSpireStride x.desc)
        (sdSlot x.desc = false → s.rowsGo x k ∨ (∃ v, moved = .ok v) →
        (sdOutbound x.desc = true ∨ s.rowsReady x x.row k = true) → Runs (.granuleComplete n) s fun t => ∃ u, moved = .ok u ∧
          StrmBecomes s t n.val { x with row := x.row + k, moved := x.moved + 1 } ∧ t.mem = u.mem ∧ t.ctrs = s.ctrs))
    ∧ (∀ id rest q, x.reqs = id :: rest → s.req? id = some q → sdType x.desc = 3 → 0 < reqRows q.op.desc → x.passOn = false →
      (x.state = 2 ∨ x.state = 3) →
      (s.opStarted id = false → exec (.requestPassStart n) s = .next s)
      ∧ (s.opStarted id = true → Runs (.requestPassStart n) s fun t =>
          t = { s with streams := t.streams, reqs := t.reqs } ∧ StrmBecomes s t n.val (x.begin s.tick)
          ∧ t.req? id = some { q with passOn := true }))
    ∧ ∀ (sp : Fin 64) (o : Op) (rest : List Op), s.queued sp.val 3 = o :: rest → o.opc = 0x5D → o.func = 0 →
      (shortPath o.desc = true → exec (.operationStart sp 3) s = .next (s.withStarted o))
      ∧ (shortPath o.desc = false → s.physStrm o.ctx (sdId o.desc) = some n.val → s.grantable n.val { x with joined := true } = false →
        Runs (.operationStart sp 3) s fun t => t.ops = (s.withStarted o).ops ∧ StrmBecomes s t n.val { x with joined := true }
          ∧ Counted s t (aStrm 0x100))

/-- R504–R525: TILE_LOAD_COMPLETE and TILE_APPLY, and what an mma writes. R533, R534, R542: what an spcmp writes. Read with log entries 16, 48, 90, 118, 132 as well. -/
def Obligations.WeightTilesLoadAndApply : Prop :=
  (∀ (s : State) (sp : Fin 64), s.works = false → exec (.tileLoadComplete sp) s = .next s ∧ exec (.tileApply sp) s = .next s)
    ∧ (∀ (s : State) (sp : Fin 64), s.works = true →
    (s.loadOp sp.val = none → exec (.tileLoadComplete sp) s = .next s)
    ∧ (∀ o, s.loadOp sp.val = some o → mmHdrless o.desc = true →
      let r := s.run o.id
      let (cls, kl) := hdrlessTile o.opc (mmW o.desc)
      let n := tileBody cls (mmW o.desc)
      let a := mmWsrc o.desc + r.pos
      let tile : Tile := { cls := cls, fmt := mmW o.desc, kl := kl, ref := 0, gscale := false, body := s.peek a n, k0 := r.kLoad,
                           t := r.loaded }
      (2 ≤ s.latched (o.core / 16) cls → exec (.tileLoadComplete sp) s = .next s)
      ∧ (s.latched (o.core / 16) cls < 2 → mmWstream o.desc = false → r.kLoad + kl ≤ mmK o.desc →
        (s.opBanks o a n = false → s.canFail o.key o.asn →
          Runs (.tileLoadComplete sp) s fun t => t.endedWith o.key o.asn 0x0105 o.core)
        ∧ (s.opBanks o a n = true → tile.codes ≠ none → Runs (.tileLoadComplete sp) s fun t =>
          t = { s with arr := t.arr, regs := t.regs } ∧ (t.run o.id).tiles = r.tiles ++ [tile]
          ∧ (t.run o.id).loaded = r.loaded + 1 ∧ (t.run o.id).pos = r.pos + n
          ∧ (t.run o.id).kLoad = (if r.kLoad + kl = mmK o.desc then 0 else r.kLoad + kl))))
    ∧ ∀ o x rest, s.arrayOp sp.val = some o → o.isMma = true → (s.run o.id).started = true → (s.run o.id).tiles = x :: rest →
      Runs (.tileApply sp) s fun t =>
        t = { s with arr := t.arr, regs := t.regs, mem := t.mem } ∧ (t.run o.id).tiles = rest
        ∧ (∀ id, id ≠ o.id → t.run id = s.run id)
        ∧ (x.k0 + x.kl < mmK o.desc → t.mem = s.mem ∧ (t.run o.id).kApply = x.k0 + x.kl
            ∧ (t.run o.id).nApply = (s.run o.id).nApply
            ∧ ∀ ws, PlainTile s o x ws → ∀ i n, i < mmRows o.desc → n < 128 →
                (t.run o.id).acc.getD (128 * i + n) 0 = s.accNext o x ws i n)
        ∧ (mmK o.desc ≤ x.k0 + x.kl → (t.run o.id).kApply = 0 ∧ (t.run o.id).nApply = (s.run o.id).nApply + 1
            ∧ ∀ ws, PlainTile s o x ws → mmAzpt o.desc = false → mmZout o.desc = 0 → 8 ≤ mmO o.desc → mmO o.desc ≤ 10 →
                128 * ((s.run o.id).nApply + 1) ≤ mmN o.desc →
                (∀ i n, i < mmRows o.desc → n < 128 →
                  let v := s.accNext o x ws i n
                  t.codeAt (mmO o.desc) (mmOut o.desc) (i * mmN o.desc + 128 * (s.run o.id).nApply + n) =
                    if fmtInt (mmW o.desc) then
                      (if mmO o.desc = 10 then (max (-2 ^ 31) (min v (2 ^ 31 - 1)) % 2 ^ 32).toNat
                        else intF v % 2 ^ fmtW (mmO o.desc))
                    else if mmO o.desc = 8 then (toBf16 v.toNat).1 % 2 ^ 16 else posZero v.toNat % 2 ^ 32)
                ∧ ∀ a, (a < mmOut o.desc ∨ mmOut o.desc + mmOutLen o.desc ≤ a) → Mem.read t.mem a = Mem.read s.mem a))
    ∧ ∀ (s : State) (id : Nat) (o : Op), Doing s id o 0x52 → s.spcmpOk o = true → spMask o.desc = false →
      let d := o.desc
      let tiles := (List.range (spPanels d)).flatMap fun i =>
        panelTiles (spFmt d) (if spGscale d then 1 else 0) (spRef d) (s.panelAt d i)
      Runs (.operationComplete id) s fun t =>
        Mem.readN t.mem (spLen d) 8 = natLe 8 tiles.length
        ∧ (overlaps (spDst d) (spRoom d) (spLen d) 8 = false → Mem.readN t.mem (spDst d) tiles.length = tiles)
        ∧ ∀ a, (a < spDst d ∨ spDst d + spRoom d ≤ a) → (a < spLen d ∨ spLen d + 8 ≤ a) → Mem.read t.mem a = Mem.read s.mem a

/-- R548–R565: what the operations of the aggregate unit compute. R623, R624: optstep. The fixed algorithms are the firmware version's, free values (log entry 10). Read with log entries 16, 47, 49, 114 as well. -/
def Obligations.AggregateResults : Prop :=
  (∀ (s : State) (id : Nat) (o : Op), Doing s id o 0x54 → agOp o.desc = 3 → agBrow o.desc = false → agD o.desc = agS o.desc →
    let d := o.desc
    let m := agRows d * agN d
    let words : State → Nat → List Nat := fun t a => unpack 32 m (Mem.readN t.mem a (4 * m))
    let frame : State → Prop := fun t => ∀ x, (x < agDst d ∨ agDst d + 4 * m ≤ x) → Mem.read t.mem x = Mem.read s.mem x
    (agS d = 9 → ∀ f : Nat → Nat → Nat,
      (agFunc d, f) ∈ ([(0x01, fun x y => (fAdd fp32 x y).1), (0x02, fun x y => (fSub fp32 x y).1),
        (0x03, fun x y => (fMul fp32 x y).1), (0x05, fun x y => (fMinMax fp32 false x y).1),
        (0x06, fun x y => (fMinMax fp32 true x y).1), (0x07, fun x y => (fFma fp32 y x (agScalar d)).1),
        (0x08, fun x _ => (fMul fp32 x (agScalar d)).1), (0x09, fun x _ => (fMinMax fp32 true x 0).1),
        (0x11, fun x _ => x % 2 ^ 31)] : List (Nat × (Nat → Nat → Nat))) →
      Runs (.operationComplete id) s fun t => frame t
        ∧ words t (agDst d) = List.zipWith (fun x y => (toDfmtF 9 (f (codeF 9 x) (codeF 9 y))).1) (words s (agA d)) (words s (agB d)))
    ∧ (agS d = 10 → ∀ f : Int → Int → Int,
      (agFunc d, f) ∈ ([(0x01, fun x y => x + y), (0x02, fun x y => x - y), (0x05, fun x y => min x y),
        (0x06, fun x y => max x y)] : List (Nat × (Int → Int → Int))) →
      Runs (.operationComplete id) s fun t => frame t
        ∧ (words t (agDst d)).map (sext 32) = List.zipWith (fun x y => max (-2 ^ 31) (min (f (sext 32 x) (sext 32 y)) (2 ^ 31 - 1)))
            (words s (agA d)) (words s (agB d))))
    ∧ (∀ (s : State) (id : Nat) (o : Op), Doing s id o 0x54 → s.aggOk o = true →
    let d := o.desc
    let rows := agRows d
    let n := agN d
    let m := rows * n
    let a := s.valAt (agS d) (agA d)
    let ia := fun (k : Nat) => sext 32 (s.codeAt 10 (agA d) k)
    let offs := s.codeAt 9 (agAux d)
    let seg := fun (g : Nat) => (List.range (offs (g + 1) - offs g)).map fun i => offs g + i
    let dst := fun (x : Nat) => (toDfmtF (agD d) x).1
    let st := s.smAt (agAux d) (agFirst d)
    let o1 := fun (k : Nat) => if agFirst d then 0 else a k
    let trees : List (Nat × (Nat → Nat → Nat)) := [(1, addF), (2, addF), (3, maxF), (4, minF), (5, addF)]
    (agOp d = 1 → offsetsRise offs (agSeg d) rows →
      (agS d ≠ 10 → ∀ f, (agFunc d, f) ∈ trees → (∀ g, g < agSeg d → offs g < offs (g + 1)) →
        Runs (.operationComplete id) s fun t => Puts s t (agD d) (agDst d) (agSeg d * n) fun k =>
          let x := tree f 0 ((seg (k / n)).map fun r =>
            if agFunc d = 5 then mulF (s.valAt (agS d) (agB d) r) (a (r * n + k % n)) else a (r * n + k % n))
          dst (if agFunc d = 2 then posZero (divNatF x (seg (k / n)).length)
            else if agFunc d = 3 ∨ agFunc d = 4 then x else posZero x))
      ∧ (agS d = 10 → agD d = 10 → agFunc d = 1 →
        Runs (.operationComplete id) s fun t => t.shows 10 (agDst d) (agSeg d * n) fun k =>
          (max (-2 ^ 31) (min ((seg (k / n)).map fun r => ia (r * n + k % n)).sum (2 ^ 31 - 1)) % 2 ^ 32).toNat))
    ∧ (agOp d = 1 → ¬ offsetsRise offs (agSeg d) rows → s.canFail o.key o.asn →
        Runs (.operationComplete id) s fun t => t.endedWith o.key o.asn 0x0104 0xFFFE)
    ∧ (agOp d = 2 → agS d ≠ 10 → ∀ f, (agFunc d, f) ∈ trees →
      let step := m * (fmtW (agS d) / 8) + if agFunc d = 2 then 4 * rows else 0
      let count := fun (r : Nat) => ((List.range (agSeg d)).map fun i =>
        s.codeAt 9 (agA d + i * step + m * (fmtW (agS d) / 8)) r).sum
      Runs (.operationComplete id) s fun t => Puts s t (agD d) (agDst d) m fun k =>
        let x := tree f 0 ((List.range (agSeg d)).map fun i => s.valAt (agS d) (agA d + i * step) k)
        dst (if agFunc d = 2 then (if count (k / n) = 0 then 0 else posZero (divNatF x (count (k / n))))
          else if agFunc d = 3 ∨ agFunc d = 4 then x else posZero x))
    ∧ (agOp d = 0x10 →
      let score := fun (k : Nat) =>
        if agCausal d = true ∧ agQ d + k / n < agK d + k % n then 0xFF800000 else mulF (a k) (agScalar d)
      let row := fun (r : Nat) => (List.range n).map fun j => r * n + j
      let top := fun (r : Nat) => maxF (st r 0) (tree maxF 0xFF800000 ((row r).map score))
      let alpha := fun (r : Nat) => if top r = 0xFF800000 then 0x3F800000 else expF s.fwVer (subF (st r 0) (top r))
      let p := fun (k : Nat) => if top (k / n) = 0xFF800000 then 0 else dst (expF s.fwVer (subF (score k) (top (k / n))))
      let sums := fun (r : Nat) => compensated (mulF (st r 1) (alpha r)) (mulF (st r 2) (alpha r))
        (tree addF 0 ((row r).map fun k => codeF (agD d) (p k)))
      Runs (.operationComplete id) s fun t => t.shows (agD d) (agDst d) m p
        ∧ t.shows 9 (agAux d) (4 * rows) fun k =>
            if k % 4 = 0 then top (k / 4) else if k % 4 = 1 then (sums (k / 4)).1 else if k % 4 = 2 then (sums (k / 4)).2
            else alpha (k / 4))
    ∧ (agOp d = 0x11 → Runs (.operationComplete id) s fun t => Puts s t 9 (agDst d) m fun k =>
        (fFma fp32 (s.valAt 9 (agB d) k) (o1 k) (st (k / n) 3)).1)
    ∧ (agOp d = 0x12 → Runs (.operationComplete id) s fun t => Puts s t (agD d) (agDst d) m fun k =>
        let l := subF (st (k / n) 1) (st (k / n) 2)
        dst (if l = 0 then 0 else divF (o1 k) l))
    ∧ (agOp d = 0x13 →
      let s2 := fun (r i : Nat) => s.codeAt 9 (agB d + 4 * m) (4 * r + i)
      let top := fun (r : Nat) => maxF (st r 0) (s2 r 0)
      let f1 := fun (r : Nat) => if top r = 0xFF800000 then 0x3F800000 else expF s.fwVer (subF (st r 0) (top r))
      let f2 := fun (r : Nat) => if top r = 0xFF800000 then 0x3F800000 else expF s.fwVer (subF (s2 r 0) (top r))
      let sums := fun (r : Nat) => compensated (mulF (st r 1) (f1 r)) (mulF (st r 2) (f1 r)) (mulF (subF (s2 r 1) (s2 r 2)) (f2 r))
      Runs (.operationComplete id) s fun t =>
        t.shows 9 (agDst d) m (fun k => (fFma fp32 (mulF (o1 k) (f1 (k / n))) (s.valAt 9 (agB d) k) (f2 (k / n))).1)
        ∧ ∀ r, r < rows → t.codeAt 9 (agAux d) (4 * r) = top r % 2 ^ 32 ∧ t.codeAt 9 (agAux d) (4 * r + 1) = (sums r).1 % 2 ^ 32
            ∧ t.codeAt 9 (agAux d) (4 * r + 2) = (sums r).2 % 2 ^ 32)
    ∧ (agOp d = 0x14 → offsetsRise offs (agSeg d) rows → Runs (.operationComplete id) s fun t =>
        ∀ g r c, g < agSeg d → offs g ≤ r → r < offs (g + 1) → c < n →
          let col := (seg g).map fun q => a (q * n + c)
          let top := tree maxF 0xFF800000 col
          let e := fun (x : Nat) => expF s.fwVer (subF x top)
          t.codeAt (agD d) (agDst d) (r * n + c) =
            dst (if top = 0xFF800000 then 0 else divF (e (a (r * n + c))) (tree addF 0 (col.map e))) % 2 ^ fmtW (agD d)))
    ∧ ∀ (s : State) (id : Nat) (o : Op), Doing s id o 0x55 → s.optOk o = true →
      let d := o.desc
      let n := osN d
      let one := 0x3F800000
      let (lr, b1, b2, eps, wd) := (osF d 0x28, osF d 0x2C, osF d 0x30, osF d 0x34, osF d 0x3C)
      let g := fun (j : Nat) => if osFmt d = 6 then mulF (s.valAt 6 (osG d) j) (s.scale o (osReg d)).value else s.scaledAt 0 (osG d) n j
      let w := s.valAt 8 (osW d)
      let m1 := fun (j : Nat) => fmaF (mulF (subF one b1) (g j)) b1 (if osFirst d then 0 else s.scaledAt 0 (osM d) n j)
      let v1 := fun (j : Nat) => fmaF (mulF (subF one b2) (mulF (g j) (g j))) b2 (if osFirst d then 0 else s.scaledAt 5 (osV d) n j)
      let u := fun (j : Nat) => divF (mulF (m1 j) (biasFix b1 (osT d))) (addF (sqrtF (mulF (v1 j) (biasFix b2 (osT d)))) eps)
      Runs (.operationComplete id) s fun t =>
        t.shows 8 (osW d) n (fun j => (toBf16 (subF (w j) (mulF lr (fmaF (u j) wd (w j))))).1)
        ∧ t.showsScaled 0 2 (osM d) n m1 ∧ t.showsScaled 5 8 (osV d) n v1

/-- R15, R196, R946, R949: register writes by sessions and by I3C, their refusals and rights. What a register command waits for is log entry 144. Read with log entries 73, 76, 135 as well. -/
def Obligations.RegisterWrites : Prop :=
  ∀ (s : State) (r : Req) (a : Nat) (v : W32),
    (∀ n : Nat, r.who = .peer n → exec (.registerWrite r a v) s = .next s)
    ∧ (∀ (d : I3cDest) (wr : List Byte), s.pins.vaux = false ∨ (∃ n, d = .static n ∧ n ≠ 0x58 + s.pins.straps.toNat) ∨ wr.length ≠ 7
        ∨ (leNat (wr.take 3) ≠ aLife 0 ∧ (leNat (wr.take 3) < aSec 0x010 ∨ aSec 0x030 < leNat (wr.take 3))) →
        exec (.i3cRegisterWrite d wr) s = .next s)
    ∧ (∀ k : Fin 8, r.who = .sess k →
        ((s.ses k.val).isOpen = false → exec (.registerWrite r a v) s = .next s)
        ∧ (s.waitsBehind k.val = true → exec (.registerWrite r a v) s = .next s)
        ∧ ((s.ses k.val).isOpen = true → s.ctlHeld = false → s.waitsBehind k.val = false →
          let no := fun (n : Nat) => exec (.registerWrite r a v) s = .next (s.refuse r tyControlWr n a)
          let may : Prop := s.isOwner k.val = true ∨ s.partnerMay k a v
          let det : Prop := 0xF0100 ≤ a ∧ a < 0xF0200
          (s.devState = stRecovery → no nkState)
          ∧ (s.devState ≠ stRecovery → s.replaying = true → ¬ det → no nkState)
          ∧ (s.devState ≠ stRecovery → (s.replaying = false ∨ det) →
              (regInfo a = none → no nkMalformed) ∧ (regInfo a ≠ none → ¬ may → no nkPermission)
              ∧ (may → s.rb (aDet 0x100) 1 = false → TakesWrite s r a v))))
    ∧ (s.regGate r a = some 0 → s.mayWrite r.who a v = true → regInfo a ≠ none → s.rb (aDet 0x100) 1 = true → r.who ≠ .i3c →
        ∀ t u, s.writeReg r false false a v = .ok t →
          (s.record 0x05 (s.recKey r.who) 0 r.seq none (natLe 4 a ++ natLe 4 1 ++ natLe 4 v.toNat)).writeReg r false false a v
            = .ok u → exec (.registerWrite r a v) s = .next u)
    ∧ (∀ rw wc : Nat, (a, rw, wc) ∈ plainRegs → TakesWrite s r a v →
        Runs (.registerWrite r a v) s fun t => RegsOnly s t [a] ∧ Plain s t a rw wc v)
    ∧ (∀ k, k < 8 → ∀ rw : Nat, (a, rw) = (aSessMask k, 0xFFFF) ∨ (a, rw) = (aSessQos k, 0xFF07) → TakesWrite s r a v →
        Runs (.registerWrite r a v) s fun t => RegsPfc s t [a] ∧ XoffAsDue t ∧ Plain s t a rw 0 v)
    ∧ (∀ d : I3cDest, (∀ n, d = .static n → n = 0x58 + s.pins.straps.toNat) →
      (TakesWrite s { who := .i3c, seq := 0 } (aLife 0) v →
        Runs (.i3cRegisterWrite d (natLe 3 (aLife 0) ++ natLe 4 v.toNat)) s fun t => RegsOnly s t [aLife 0] ∧ Plain s t (aLife 0) 0xF000FFFF 0 v)
      ∧ ∀ i, i < 8 → TakesWrite s { who := .i3c, seq := 0 } (aSec (0x010 + 4 * i)) v →
        Runs (.i3cRegisterWrite d (natLe 3 (aSec (0x010 + 4 * i)) ++ natLe 4 v.toNat)) s fun t =>
          RegsOnly s t [aSec (0x010 + 4 * i)] ∧ t.reg (aSec (0x010 + 4 * i)) = v)

/-- R318, R393, R566, R630, R684, R726, R767, R857, R902, R963: the CNT_CLR bits. Read with log entries 73, 76 as well. -/
def Obligations.CounterClears : Prop :=
  ∀ (s : State) (r : Req),
    (∀ u : Fin 24, TakesWrite s r (aRe u.val 0) 1 → Runs (.reCntClr r u) s (Cleared s · (regBlock (aRe u.val 0x100) 7)))
    ∧ (TakesWrite s r aReGlb 1 → Runs (.reGlbCntClr r) s (Cleared s · [aDropRange, aDropMissing]))
    ∧ (TakesWrite s r (aStrm 0x020) 1 → Runs (.strmCntClr r) s (Cleared s · (regBlock (aStrm 0x100) 5)))
    ∧ (TakesWrite s r (aSync 0) 1 → Runs (.syncCntClr r) s (Cleared s · (regBlock (aSync 0x100) 5)))
    ∧ (TakesWrite s r (aDisp 0) 1 → Runs (.dispCntClr r) s (Cleared s · (regBlock (aDisp 0x100) 7)))
    ∧ (TakesWrite s r (aSps 0) 1 → Runs (.spsCntClr r) s (Cleared s · [aSps 1]))
    ∧ (∀ sp : Fin 64, TakesWrite s r (aSpire sp.val 0x0F0) 1 →
        Runs (.spireEngCntClr r sp) s (Cleared s · (regBlock (aSpire sp.val 0x100) 8)))
    ∧ (TakesWrite s r (aErr 0) 1 → Runs (.errCntClr r) s (Cleared s · (regBlock (aErr 0x100) 8)))
    ∧ (TakesWrite s r aPortCtl 1 → Runs (.portCntClr r) s (Cleared s · [aMacsecDrop, aRxUnmatched]))
    ∧ (∀ v : W32, rbit v 12 = true → TakesWrite s r aQntCtl v →
        let busy : Prop := s.anyLocked = true ∧ rfld v 0 12 ≠ s.rf aQntCtl 0 12
        (busy → exec (.qntCntClr r v) s = .next (s.nakReg r nkBusy aQntCtl))
        ∧ (¬ busy → Runs (.qntCntClr r v) s fun t => RegsOnly s t (aQntCtl :: regBlock (aQnt 0) 6)
            ∧ (∀ i, i < 6 → t.reg (aQnt i) = 0) ∧ Plain s t aQntCtl 0xFFF 0 v))
    ∧ (∀ v : W32, rbit v 0 = true → TakesWrite s r (aDet 0x100) v →
        Runs (.detCntClr r v) s fun t => RegsOnly s t [aDet 0x100, aDet 0x104] ∧ t.reg (aDet 0x104) = 0 ∧ Plain s t (aDet 0x100) 6 0 v)
    ∧ (∀ v : W32, rbit v 1 = true → rbit v 0 = s.rb aDomeCtl 0 → TakesWrite s r aDomeCtl v →
        Runs (.domeCntClr r v) s (Cleared s · (regBlock (aDomeCnt 0) 7)))

/-- R65, R131, R242, R243, R265, R266, R290, R493, R729, R730: registers whose writes have limits of their own. Read with log entries 40, 42, 57, 59, 62, 65, 76, 118, 138 as well. -/
def Obligations.LimitedRegisterWrites : Prop :=
  ∀ (s : State) (r : Req) (v : W32),
    (TakesWrite s r aPortCfg v →
      (s.rf aPortStatus 8 8 ≠ 0 → ∃ u, RegsOnly s u [aDevStatus, aDevRefuseLast, aDevRefuseCount] ∧ u.rf aDevStatus 24 8 = 0x0D
        ∧ exec (.portModeWrite r v) s = .next (u.nakReg r 0x0D aPortCfg))
      ∧ (s.rf aPortStatus 8 8 = 0 → Runs (.portModeWrite r v) s fun t => t = { s with regs := t.regs, port := t.port }
          ∧ (∀ a, a ≠ aPortCfg → a ≠ aPortStatus → a ≠ aDevStatus → t.reg a = s.reg a) ∧ Plain s t aPortCfg 0xFFFFFF7B 0 v
          ∧ t.rf aDevStatus 24 8 = 0 ∧ t.reg aPortStatus = s.reg aPortStatus &&& 0xFFFF
          ∧ t.port = { s.port with lanes := [], training := t.port.training, pauses := t.port.pauses, xoff := t.port.xoff,
                                   held := t.port.held }
          ∧ (∀ e ∈ t.port.pauses, 64 ≤ e.1) ∧ (∀ e ∈ t.port.xoff, 64 ≤ e.1) ∧ (∀ f ∈ t.port.held, 8 ≤ f.sub)
          ∧ ∀ p, p < 8 → SMap.get t.port.training false p = decide (p % (8 / 2 ^ rfld v 0 2) = 0)))
    ∧ (∀ n : Fin 32, TakesWrite s r (aDomeSeed n.val) v → Runs (.domeSeedWrite r n v) s fun t =>
        RegsOnly s t [aDomeSeed n.val] ∧ t.reg (aDomeSeed n.val) = if v = 0 then 1 else v)
    ∧ (∀ (c : Fin 16) (n : Fin 64) (w : Fin 4), TakesWrite s r (aWin c.val n.val + 4 * w.val) v →
        let a := aWin c.val n.val + 4 * w.val
        let ctl := aWin c.val n.val + 12
        (s.ctxLocked c.val = true → exec (.windowWrite r c n w v) s = .next (s.nakReg r nkBusy a))
        ∧ (s.ctxLocked c.val = false → ∃ u, RegsOnly s u [a]
          ∧ Plain s u a ([0xFFFFF000, 0xFFFF, 0xFFFFFFFF, 0x1F].getD w.val 0) 0 v ∧
          let b := u.winBase c.val n.val
          let len := u.winLen c.val n.val
          let fits : Prop := 0 < len ∧ (b + len ≤ 2 ^ 39 ∨ (glacierBase ≤ b ∧ b + len ≤ storeBase))
            ∧ ¬ (b < glacierBase + u.glacierSize ∧ u.grsvBase < glacierBase + u.glacierSize ∧ u.grsvBase < b + len)
          let good : Prop := u.winValid c.val n.val = true → fits
          (¬ good → exec (.windowWrite r c n w v) s = .next (s.nakReg r nkPermission a))
          ∧ (good → Runs (.windowWrite r c n w v) s fun t => RegsOnly u t [ctl] ∧ t.rf ctl 0 12 = u.rf ctl 0 12
              ∧ t.rf ctl 12 20 = (u.rf ctl 12 20 + 1) % 2 ^ 20)))
    ∧ (let n := rfld v 0 5
       let ok : Prop := n = 0 ∨ (7 ≤ n ∧ n ≤ 24)
       (TakesWrite s r (aDisp 0x058) v →
          (¬ ok → exec (.dispTraceCfgWrite r v) s = .next (s.nakReg r nkMalformed (aDisp 0x058)))
          ∧ (ok → Runs (.dispTraceCfgWrite r v) s fun t => RegsOnly s t [aDisp 0x058, aDisp 0x05C]
              ∧ t.reg (aDisp 0x058) = v &&& 0xF01F ∧ t.reg (aDisp 0x05C) = 0))
       ∧ ∀ c : Fin 16, TakesWrite s r (aCtx c.val 0x038) v →
          (s.ctxLocked c.val = true → exec (.ctxPtraceCfgWrite r c v) s = .next (s.nakReg r nkBusy (aCtx c.val 0x038)))
          ∧ (s.ctxLocked c.val = false → ¬ ok →
              exec (.ctxPtraceCfgWrite r c v) s = .next (s.nakReg r nkMalformed (aCtx c.val 0x038)))
          ∧ (s.ctxLocked c.val = false → ok → Runs (.ctxPtraceCfgWrite r c v) s fun t =>
              RegsOnly s t [aCtx c.val 0x038, aCtx c.val 0x03C] ∧ t.reg (aCtx c.val 0x038) = v &&& 0x1F
              ∧ t.reg (aCtx c.val 0x03C) = 0))
    ∧ (TakesWrite s r aPwrLimit v → Runs (.registerWrite r aPwrLimit v) s fun t =>
        RegsOnly s t [aPwrLimit] ∧ (t.reg aPwrLimit).toNat = max 600 (min 1500 (rfld v 0 16)))
    ∧ (∀ i, i < 8 → ∀ a, a = aDisp (0x020 + 4 * i) ∨ a = aStrm (4 * i) → TakesWrite s r a v →
        Runs (.registerWrite r a v) s fun t => RegsOnly s t [a] ∧ (t.reg a).toNat = max 1 (rfld v 0 8))
    ∧ (TakesWrite s r (aSync 0x004) v →
        (s.anyLocked = true → exec (.registerWrite r (aSync 0x004) v) s = .next (s.nakReg r nkBusy (aSync 0x004)))
        ∧ (s.anyLocked = false → Runs (.registerWrite r (aSync 0x004) v) s fun t =>
            RegsOnly s t [aSync 0x004] ∧ t.reg (aSync 0x004) = if v = 0 then 1 else v))
    ∧ (∀ n : Fin 16, TakesWrite s r (aRgn n.val) v →
        let new := s.mixed (aRgn n.val) v
        let waits := { s with rgnChange := some { n := n.val, value := new, req := r } }
        let size := s.rf (aRgn n.val + 4) 0 10
        let base := s.rf (aRgn n.val + 4) 16 9
        let large : Prop := size = 0 ∨ 512 < size ∨ 512 < base + size ∨ (s.fuses.stackGib = 48 ∧ 384 < base + size)
        let clash : Prop := s.rgnConflict n.val { s.rgnVal n.val with a := new } = true
        let isOpen : Prop := s.devState = stReady ∧ s.anyLocked = false
        (rbit v 31 = true → s.rb (aRgn n.val) 31 = false →
          (¬ isOpen → exec (.regionValidate r n v) s = .next (s.nakReg r nkBusy (aRgn n.val)))
          ∧ (isOpen → large → exec (.regionValidate r n v) s = .next (s.nakReg r nkMalformed (aRgn n.val)))
          ∧ (isOpen → ¬ large → clash → exec (.regionValidate r n v) s = .next (s.nakReg r nkConflict (aRgn n.val)))
          ∧ (isOpen → ¬ large → ¬ clash → exec (.regionValidate r n v) s = .next waits))
        ∧ (rbit v 31 = false → s.rb (aRgn n.val) 31 = true →
          let same : Prop := rputBit new 31 false = rputBit (s.reg (aRgn n.val)) 31 false
          (isOpen ∧ same → exec (.regionInvalidate r n v) s = .next waits)
          ∧ (¬ (isOpen ∧ same) → exec (.regionInvalidate r n v) s = .next (s.nakReg r nkBusy (aRgn n.val)))))
    ∧ (∀ (n : Fin 16) (x : RgnChange), s.works = true → s.rgnChange = some x → x.n = n.val → s.calm →
        Runs (.regionChangeComplete n) s fun t => t.rgnChange = none ∧ t.reg (aRgn n.val) = x.value
          ∧ (∀ a, a ≠ aRgn n.val → a ≠ aDomeCnt 2 → t.reg a = s.reg a)
          ∧ (∀ k e, t.holdsAt k e → ¬ lineIn 0 (2 ^ 39) k e)
          ∧ ∀ y, (rbit x.value 31 = true → y < s.rf (aRgn n.val + 4) 16 9 * gib
              ∨ (s.rf (aRgn n.val + 4) 16 9 + s.rf (aRgn n.val + 4) 0 10) * gib ≤ y) → Mem.read t.mem y = Mem.read s.mem y)

/-- R97, R98, R113, R118: writes of DEV_CTL.RUN and DEV_CTL.MAINT. Read with log entries 135 as well. -/
def Obligations.DeviceControl : Prop :=
  ∀ (s : State) (r : Req) (v : W32), TakesWrite s r aDevCtl v →
    let run := rbit v 0
    let maint := rbit v 1
    let plain : Prop := rfld v 8 4 ≠ 0x5 ∧ rfld v 8 4 ≠ 0xA
    let no := fun (i : Instr) (n : Nat) => exec i s = .next (s.nakReg r n aDevCtl)
    let code := if (List.range 16).any (fun c => s.ctxEn c && s.rb (aCtx c 0x020) 15
          && decide (s.activeSpires < s.rf (aCtx c 0x020) 0 7)) then 0x07
      else if !s.boot.popOk then 0x0C
      else if s.rf aPortStatus 8 8 ≠ 0 then 0x0D
      else if (List.range 8).any (fun k => s.rb (aSessCfg k) 0 && !(s.key (s.rf (aSessCfg k) 4 4)).present) then 0x13
      else 0
    (run ≠ s.rb aDevCtl 0 → maint ≠ s.rb aDevCtl 1 → no (.registerWrite r aDevCtl v) nkMalformed)
    ∧ (plain → run = true → s.rb aDevCtl 0 = false → maint = s.rb aDevCtl 1 →
        (s.devState ≠ stReady → s.devState ≠ stRun → no (.devCtlRunSet r v) nkState)
        ∧ (s.devState = stReady ∨ s.devState = stRun →
          (code ≠ 0 → ∃ u, RegsOnly s u ([aDevStatus, aDevRefuseLast, aDevRefuseCount] ++ (List.range 16).map aCtxStatus)
            ∧ u.rf aDevStatus 24 8 = code ∧ u.devState = s.devState
            ∧ exec (.devCtlRunSet r v) s = .next (u.nakReg r code aDevCtl))
          ∧ (code = 0 → Runs (.devCtlRunSet r v) s fun t => RegsOnly s t [aDevCtl, aDevStatus]
            ∧ t.reg aDevCtl = rputBit (s.reg aDevCtl) 0 true ∧ t.devState = stRun ∧ t.rf aDevStatus 24 8 = 0)))
    ∧ (plain → run = false → s.rb aDevCtl 0 = true → maint = s.rb aDevCtl 1 → Runs (.devCtlRunClear r v) s fun t =>
        RegsOnly s t [aDevCtl, aDevStatus] ∧ t.reg aDevCtl = rputBit (s.reg aDevCtl) 0 false
        ∧ t.reg aDevStatus = if s.devState = stRun ∧ s.tasks = [] then rput (s.reg aDevStatus) 0 4 3 else s.reg aDevStatus)
    ∧ (plain → maint = true → s.rb aDevCtl 1 = false → run = s.rb aDevCtl 0 →
        (s.devState ≠ stReady → no (.devCtlMaintSet r v) nkState)
        ∧ (s.devState = stReady → s.tasks ≠ [] → no (.devCtlMaintSet r v) nkBusy)
        ∧ (s.devState = stReady → s.tasks = [] → Runs (.devCtlMaintSet r v) s fun t => RegsOnly s t [aDevCtl, aDevStatus]
            ∧ t.reg aDevCtl = rputBit (s.reg aDevCtl) 1 true ∧ t.reg aDevStatus = rput (s.reg aDevStatus) 0 4 5))
    ∧ (plain → maint = false → s.rb aDevCtl 1 = true → run = s.rb aDevCtl 0 → Runs (.devCtlMaintClear r v) s fun t =>
        RegsOnly s t [aDevCtl, aDevStatus] ∧ t.reg aDevCtl = rputBit (s.reg aDevCtl) 1 false
        ∧ t.reg aDevStatus = if s.devState = stMaint then rput (s.reg aDevStatus) 0 4 3 else s.reg aDevStatus)

/-- R54, R55, R71–R77, R82–R89, R933: the resets, and the Reset-coverage table. That a trip without the main rails halts the device as they rise is log entry 121. Read with log entries 34, 37, 43, 74, 75, 117, 119 as well. -/
def Obligations.ResetsKeepAndClear : Prop :=
  ∀ s : State,
    let boots : Prop := s.pins.pwrGood = true ∧ s.pins.resetN = true ∧ s.pins.tapHold = false
    (∀ (r : Req) (v : W32), TakesWrite s r aDevCtl v → rbit v 0 = s.rb aDevCtl 0 → rbit v 1 = s.rb aDevCtl 1 →
      (rfld v 8 4 = 0xA → Runs (.devCtlResetCold r v) s fun t => ColdLeft s t ∧ t.lastReset = 2 ∧ t.tick = s.tick
        ∧ t.fuses = s.fuses ∧ (¬ boots → t.devState = stReset)
        ∧ (boots → t.devState = if s.boot.flashFound then stBoot else stRecovery))
      ∧ (rfld v 8 4 = 0x5 → ¬ (s.boot.cold = true ∧ s.boot.trained = false) →
          Runs (.devCtlResetWarm r v) s fun t => WarmLeft s t 4))
    ∧ (s.pins.pwrGood = true → s.pins.resetN = false → s.boot.warmByPin = true → s.devState ≠ stHalted →
        Runs .devResetNLongHold s fun t => ColdLeft s t ∧ t.lastReset = 1 ∧ t.devState = stReset ∧ t.tick = s.tick)
    ∧ (s.pins.vaux = true → s.pins.pwrGood = false → Runs .pwrGoodRise s fun t => ColdLeft s t
        ∧ t.lastReset = (if s.boot.tripped then 8 else 0) ∧ t.pins.pwrGood = true ∧ t.tick = s.tick
        ∧ let stands : Prop := s.pins.thermTrip = true ∧ s.pins.tripFell = false
          (stands → t.devState = stHalted ∧ t.pins.thermTrip = true)
          ∧ (¬ stands → t.devState = stReset ∧ t.pins.thermTrip = false))
    ∧ (s.pins.pwrGood = true → Runs .pwrGoodFall s fun t => ColdLeft s t ∧ t.devState = stReset ∧ t.pins.pwrGood = false
        ∧ t.pins.thermTrip = s.pins.thermTrip ∧ t.pins.tripFell = s.pins.thermTrip ∧ t.tick = s.tick)
    ∧ (∀ p : BitVec 2, s.pins.vaux = false → Runs (.vauxRise p) s fun t => ColdLeft s t ∧ t.tick = 0
        ∧ t.fuses = s.fuses ∧ t.pins.straps = p ∧ t.pins.vaux = true)
    ∧ (s.pins.vaux = true → Runs .vauxLoss s fun t => ColdLeft s t ∧ t.tick = 0 ∧ t.pins.vaux = false ∧ t.pins.thermTrip = false)
    ∧ (∀ (b : BoundaryScan) (i : TapState → Instr) (ir : Nat) (park : TapState), (i, ir) ∈ [(Instr.extest b, 0x00), (Instr.clamp, 0x04),
        (Instr.highz, 0x05), (Instr.extestPulse b, 0x06), (Instr.extestTrain b, 0x07)] → park ≠ .testLogicReset → s.pins.vaux = true → s.pins.pwrGood = true →
        s.devState ≠ stHalted → Runs (i park) s fun t => ColdLeft s t ∧ t.lastReset = 7 ∧ t.devState = stReset ∧ t.pins.tapIr = ir ∧ t.pins.tapHold = true)
    ∧ (stTraining ≤ s.devState → s.devState ≤ stMaint → ¬ (s.boot.cold = true ∧ s.boot.trained = false) →
        Runs .watchdogExpiry s fun t => WarmLeft s t 5)
    ∧ (s.pins.pwrGood = true → s.pins.resetN = true → s.devState ≠ stHalted → ¬ (s.boot.cold = true ∧ s.boot.trained = false) →
        Runs (.devResetNFall false) s fun t => WarmLeft s t 3 ∧ t.pins.resetN = false ∧ t.boot.warmByPin = true)
    ∧ exec (.devResetNFall true) s = .next s
    ∧ (∀ (u : Nat) (good : Bool), s.pins.vaux = true → s.pins.thermTrip = false → Runs (.thermalTrip u good) s fun t =>
        t.pins.thermTrip = true ∧ t.pins.overLimit = u :: s.pins.overLimit ∧ t.boot.tripped = true ∧ t.keys = s.keys
        ∧ t.cores = s.cores ∧ t.ops = s.ops ∧ t.streams = s.streams ∧ t.ready = s.ready ∧ t.mem = s.mem ∧ t.dmem = s.dmem
        ∧ (s.pins.pwrGood = false → t.devState = s.devState ∧ t.regs = s.regs ∧ t.sess = s.sess)
        ∧ (s.pins.pwrGood = true → t.devState = stHalted ∧ t.works = false ∧ t.pins.ethTx = false ∧ (∀ i, (t.ses i).isOpen = false)
            ∧ t.pins.glacierSelfRefresh = (good || s.pins.glacierSelfRefresh)))
    ∧ (s.boot.warmEntry = true → s.calm → Runs .warmEntryComplete s fun t => t.mem = s.mem ∧ t.dome.lines = []
        ∧ t.tasks = s.tasks ∧ t.keys = s.keys ∧ t.pins.nearSelfRefresh = true ∧ t.pins.glacierSelfRefresh = true
        ∧ t.boot.warmEntry = false
        ∧ (boots → s.devState = stReset → t.devState = if s.boot.flashFound then stBoot else stRecovery)
        ∧ (¬ boots ∨ s.devState ≠ stReset → t.devState = s.devState))

/-- R88, R92–R94, R99, R117, R118, R755, R833: CTX_CTL, context resets and Spire resets. Read with log entries 42, 57, 58, 66, 92, 118, 163 as well. -/
def Obligations.ContextControl : Prop :=
  ∀ (s : State),
    (∀ (r : Req) (c : Fin 16) (v : W32), TakesWrite s r (aCtxCtl c.val) v →
      let a := aCtxCtl c.val
      let st := aCtxStatus c.val
      let modes : Prop := (v ^^^ s.reg a) &&& 0x1C ≠ 0
      let may : Prop := modes → s.ctxLocked c.val = false
      (modes → s.ctxLocked c.val = true → exec (.ctxCtlModeWrite r c v) s = .next (s.nakReg r nkBusy a))
      ∧ (modes → s.ctxLocked c.val = false → rbit v 0 = false → rbit v 1 = false →
          Runs (.ctxCtlModeWrite r c v) s fun t => RegsOnly s t [a] ∧ t.reg a = v &&& 0x1C)
      ∧ (rbit v 0 = false → s.ctxEn c.val = true → may →
          Runs (.ctxCtlEnClear r c v) s fun t => RegsOnly s t [a, st] ∧ t.reg a = v &&& 0x1C ∧ t.ctxEn c.val = false
            ∧ t.rb st 2 = (rbit v 1 || s.rb st 2))
      ∧ (rbit v 1 = true → rbit v 0 = false → may → Runs (.ctxCtlReset r c v) s fun t =>
          RegsOnly s t [a, st] ∧ t.reg a = v &&& 0x1C ∧ t.reg st = rputBit (s.reg st) 2 true)
      ∧ (rbit v 0 = true → s.ctxEn c.val = false → may →
          let s0 := s.imageRead c.val (s.prog c.val).descOff (s.prog c.val).descLen
          let code := s0.checkEn c.val (rbit v 4)
          ReadsLeave s s0 ∧ (s.rb st 1 = false → code = 0x01)
          ∧ (code ≠ 0 → ∃ u, RegsOnly s0 u [st, aDevRefuseLast, aDevRefuseCount] ∧ u.rf st 24 8 = code
              ∧ exec (.ctxCtlEnSet r c v) s = .next (u.nakReg r code a))
          ∧ (code = 0 → Runs (.ctxCtlEnSet r c v) s fun t => t = { s0 with
                regs := t.regs, ctrs := t.ctrs, clrDue := t.clrDue, ctxHeld := nsetBit s.ctxHeld c.val false,
                enSpires := SMap.set s.enSpires 0 c.val s.activeSpires }
              ∧ (∀ b, b ∉ [a, st, aCtx c.val 0x020] → t.reg b = s0.reg b)
              ∧ t.reg a = v &&& 0x1D ∧ t.ctxEn c.val = true ∧ t.rf st 24 8 = 0
              ∧ t.rf (aCtx c.val 0x020) 16 7 =
                  (if s.rb (aCtx c.val 0x020) 15 then s.rf (aCtx c.val 0x020) 0 7 else s.activeSpires)
              ∧ (s.ctxRuns c.val = true → t.ctrs = s.ctrs ∧ t.clrDue = nsetBit s.clrDue c.val true)
              ∧ (s.ctxRuns c.val = false → t.clrDue = s.clrDue
                  ∧ ∀ p, t.ctr p = if rbit v 2 = false ∧ p ∈ s.mappedCtrs c.val then 0 else s.ctr p))))
    ∧ (∀ (c : Fin 16) (sp : Fin 64), s.works = false →
        exec (.contextResetPerform c) s = .next s ∧ exec (.spireReset sp) s = .next s)
    ∧ (∀ c : Fin 16, s.works = true → s.rb (aCtxStatus c.val) 2 = true →
        ((∃ x ∈ s.tasks, x.ctx = c.val) → exec (.contextResetPerform c) s = .next s)
        ∧ ((∀ x ∈ s.tasks, x.ctx ≠ c.val) → Runs (.contextResetPerform c) s fun t => t = { s with
              regs := t.regs, ctrs := t.ctrs, progs := t.progs, ctxHeld := nsetBit s.ctxHeld c.val false,
              clrDue := nsetBit s.clrDue c.val false }
            ∧ (∀ b, t.reg b = if aCtx c.val 0 ≤ b ∧ b < aCtx c.val 0x1000 then regReset b else s.reg b)
            ∧ (∀ p, t.ctr p = if p ∈ s.mappedCtrs c.val then 0 else s.ctr p)
            ∧ ∀ d, SMap.find t.progs d = if d = c.val then none else SMap.find s.progs d))
    ∧ (∀ sp : Fin 64, (s.spireState sp.val ≠ 3 → exec (.spireReset sp) s = .next s)
        ∧ (s.works = true → s.spireState sp.val = 3 → Runs (.spireReset sp) s fun t =>
            t.regs = s.regs ∧ t.ctrs = s.ctrs ∧ t.tasks = s.tasks ∧ t.dome = s.dome
            ∧ t.ops = s.ops.filter (fun (o : Op) => o.core / 16 != sp.val)
            ∧ (∀ k, t.core k = if k / 16 = sp.val then {} else s.core k)
            ∧ (∀ x, Mem.read t.dmem x = if x / 2 ^ 19 = sp.val then 0 else Mem.read s.dmem x)
            ∧ ∀ x, Mem.read t.mem x =
              if storeBase + sp.val * 2 ^ 23 ≤ x ∧ x < storeBase + (sp.val + 1) * 2 ^ 23 then 0 else Mem.read s.mem x))

/-- R281, R298, R310–R315: single accesses and fills of the Dome cache. Read with log entries 14, 41, 90, 118 as well. -/
def Obligations.DomeAccesses : Prop :=
  (∀ (s : State) (id a len : Nat) (data : Option (List Byte)),
    let n := match data with | some b => b.length | none => len
    let l := a / 128
    let mine : Prop := ∃ f ∈ s.dome.fills, f.line = l
    let serves := fun (t : State) => t.dome.served = s.dome.served ++ [(id, Mem.readN s.mem a n)] ∧ t.mem = s.mem
    let done := fun (t : State) => match data with
      | none => serves t
      | some b => WritesMem s t a b ∧ t.dome.served = s.dome.served
          ∧ ∃ w e, t.findWay l = some w ∧ t.holdsAt (wayKey l w) e ∧ e.dirty = true
    n ≠ 0 → a % 128 + n ≤ 128 → (a < 2 ^ 39 ∨ (glacierBase ≤ a ∧ a < storeBase)) → s.unbackedAt a = false → s.works = true →
      s.dome.stage = none →
      (s.bypass = true → Runs (.domeAccess id a len data) s fun t => t.dome.lines = s.dome.lines ∧ t.regs = s.regs
        ∧ match data with | none => serves t | some b => WritesMem s t a b ∧ t.dome = s.dome)
      ∧ (s.bypass = false → mine → Runs (.domeAccess id a len data) s fun t =>
          t = { s with dome := { s.dome with
            fills := s.dome.fills.map fun (f : Fill) => (if f.line = l then f.joined id a n data else f) } })
      ∧ (s.bypass = false → ¬ mine → ∀ w, s.findWay l = some w → Runs (.domeAccess id a len data) s fun t =>
          done t ∧ Counted s t (aDomeCnt 0) ∧ t.tasks = s.tasks ∧ t.cores = s.cores ∧ t.dome.fills = s.dome.fills)
      ∧ (s.bypass = false → ¬ mine → s.findWay l = none → s.dome.fresh = [] →
          let whole : Prop := (∃ b, data = some b) ∧ n = 128
          (s.inVictim l = true ∨ whole → Runs (.domeAccess id a len data) s fun t => done t ∧ Counted s t (aDomeCnt 1)
            ∧ (s.inVictim l = true → Counted s t (aDomeCnt 3)) ∧ t.dome.fills = s.dome.fills ∧ t.tasks = s.tasks)
          ∧ (s.inVictim l = false → ¬ whole → Runs (.domeAccess id a len data) s fun t => t.mem = s.mem
            ∧ Counted s t (aDomeCnt 1) ∧ t.dome.served = s.dome.served ∧ t.tasks = s.tasks
            ∧ ∃ f : Fill, t.dome.fills = s.dome.fills ++ [f] ∧ f.line = l ∧ f.raced = false
                ∧ f.writes = (match data with | some b => [(a, b)] | none => [])
                ∧ f.readers = (match data with | some _ => [] | none => [(id, a, n)])
                ∧ f.victim = (SMap.find s.dome.lines (wayKey l f.way)).map fun (e : Line) => lineOf (wayKey l f.way) e.tag)))
  ∧ (∀ (s : State) (id a len l : Nat) (data : Option (List Byte)), s.works = false →
      exec (.domeAccess id a len data) s = .next s ∧ exec (.domeFillComplete l) s = .next s)
  ∧ ∀ (s : State) (l : Nat), s.works = true →
    ((∀ f ∈ s.dome.fills, f.line ≠ l) → exec (.domeFillComplete l) s = .next s)
    ∧ ∀ f, s.dome.fresh = [] → (s.dome.fills.find? fun (f : Fill) => f.line == l) = some f → Runs (.domeFillComplete l) s fun t =>
      t.dome.fills = s.dome.fills.filter (fun (g : Fill) => g.line != l)
      ∧ t.mem = f.writes.foldl (fun (m : Mem) (w : Nat × List Byte) => Mem.writeN m w.1 w.2) s.mem
      ∧ t.dome.served = s.dome.served ++ f.readers.map (fun (r : Nat × Nat × Nat) => (r.1, Mem.readN t.mem r.2.1 r.2.2))
      ∧ (f.raced = true → Counted s t (aDomeCnt 4) ∧ (f.writes = [] → t.dome.lines = s.dome.lines)
          ∧ ∀ k e, t.holdsAt k e → ∃ e0, s.holdsAt k e0 ∧ e = { e0 with bad := e.bad })
      ∧ (f.raced = false → ∃ e, t.holdsAt (wayKey l f.way) e ∧ e.tag = lineTag l ∧ e.dirty = !f.writes.isEmpty)
      ∧ t.tasks = s.tasks ∧ t.cores = s.cores ∧ t.ctrs = s.ctrs

/-- R291–R297, R301–R309, R966: ways, bypass and maintenance of the Dome cache. Read with log entries 39, 64, 118, 130 as well. -/
def Obligations.DomeControl : Prop :=
  ∀ (s : State),
    (∀ (r : Req) (v : W32), TakesWrite s r aDomeWaymask v →
      let busy : Prop := s.wayBusy = true ∨ s.mntBusy = true
      let m := rfld v 0 16 ||| 1
      let on := s.rf aDomeStatus 16 16
      (busy → exec (.domeWaymaskWrite r v) s = .next (s.nakReg r nkBusy aDomeWaymask))
      ∧ (¬ busy → Runs (.domeWaymaskWrite r v) s fun t => RegsOnly s t [aDomeWaymask, aDomeStatus]
          ∧ (t.reg aDomeWaymask).toNat = m ∧ t.rf aDomeStatus 16 16 = on ||| m ∧ t.rb aDomeStatus 1 = decide (on ||| m ≠ m)))
    ∧ ((s.wayBusy = false → exec .wayPowerDownComplete s = .next s)
      ∧ (s.works = true → s.wayBusy = true → s.calm → Runs .wayPowerDownComplete s fun t => t.mem = s.mem ∧ t.wayBusy = false
          ∧ t.rf aDomeStatus 16 16 = s.waysOn ∧ (∀ k e, t.holdsAt k e → s.waysOn.testBit (k % 16) = true)
          ∧ ∀ k, s.waysOn.testBit (k % 16) = true → SMap.find t.dome.lines k = SMap.find s.dome.lines k))
    ∧ (∀ (r : Req) (v : W32), TakesWrite s r aDomeCtl v → rbit v 1 = false →
      (rbit v 0 = false → s.rb aDomeCtl 0 = true → Runs (.domeDisable r v) s fun t =>
        t = { s with regs := t.regs, dome := { s.dome with disabling := true } }
        ∧ t.reg aDomeCtl = rputBit (s.reg aDomeCtl) 0 false ∧ t.reg aDomeStatus = rputBit (s.reg aDomeStatus) 3 false
        ∧ ∀ a, a ≠ aDomeCtl → a ≠ aDomeStatus → t.reg a = s.reg a)
      ∧ (rbit v 0 = true → s.rb aDomeCtl 0 = false →
        (s.rb aDomeStatus 3 = true → Runs (.domeEnable r v) s fun t => t = { s with regs := t.regs, mem := t.mem, dome := t.dome }
          ∧ (∀ a, a ∉ [aDomeCtl, aDomeStatus, aDevStatus] → t.reg a = s.reg a)
          ∧ t.rb aDomeCtl 0 = true ∧ t.bypass = false ∧ t.rf aDevStatus 24 8 = 0 ∧ t.dome.lines = s.dome.lines
          ∧ (s.dome.stale = [] → t.mem = s.mem ∧ t.dome = s.dome)
          ∧ ((∀ e ∈ s.dome.stale, e.2.length = 128) →
              (∀ k e b, s.holdsAt k e → SMap.find s.dome.stale (lineOf k e.tag) = some b → Mem.readN t.mem (lineOf k e.tag * 128) 128 = b)
              ∧ ∀ x, (∀ e ∈ s.dome.lines, lineOf e.1 e.2.tag ≠ x / 128) → Mem.read t.mem x = Mem.read s.mem x))
        ∧ (s.rb aDomeStatus 3 = false → ∃ u, RegsOnly s u [aDevStatus, aDevRefuseLast, aDevRefuseCount]
          ∧ u.rf aDevStatus 24 8 = 0x02 ∧ exec (.domeEnable r v) s = .next (u.nakReg r 0x02 aDomeCtl))))
    ∧ ((s.dome.disabling = false → exec .domeBypassEnter s = .next s)
      ∧ (s.works = true → s.dome.disabling = true → s.calm → Runs .domeBypassEnter s fun t => t.mem = s.mem ∧ t.bypass = true
          ∧ t.dome.disabling = false ∧ (∀ k e, t.holdsAt k e → e.dirty = false)
          ∧ ∀ k e, s.holdsAt k e → t.holdsAt k { e with dirty := false }
              ∧ SMap.find t.dome.stale (lineOf k e.tag) = some (Mem.readN s.mem (lineOf k e.tag * 128) 128)))
    ∧ (∀ (r : Req) (v : W32), TakesWrite s r (aDomeCtl + 0x020) v →
      let lo := (s.reg (aDomeCtl + 0x010)).toNat / 128 * 128 + s.rf (aDomeCtl + 0x014) 0 16 * 2 ^ 32
      let len := 128 * ((s.reg (aDomeCtl + 0x018)).toNat + s.rf (aDomeCtl + 0x01C) 0 8 * 2 ^ 32)
      let range : Prop := 0 < len ∧ (lo + len ≤ 2 ^ 39 ∨ (glacierBase ≤ lo ∧ lo + len ≤ storeBase))
      let inside := fun (k : Nat) (e : Line) => lineIn lo (lo + len) k e
      let no := fun (i : Instr) (n : Nat) => exec i s = .next (s.nakReg r n (aDomeCtl + 0x020))
      let begun := fun (t : State) (op : Nat) => t.mntBusy = true ∧ t.dome.mnt = some { op := op, lo := lo, hi := lo + len }
        ∧ t.tasks = s.tasks ∧ t.cores = s.cores ∧ ∀ a, a ≠ aDomeStatus → a ≠ aDomeCnt 2 → t.reg a = s.reg a
      (rfld v 0 4 = 1 →
        (s.mntBusy = true → no (.clean r v) nkBusy) ∧ (s.mntBusy = false → ¬ range → no (.clean r v) nkMalformed)
        ∧ (s.mntBusy = false → range → Runs (.clean r v) s fun t => begun t 1 ∧ t.mem = s.mem
            ∧ ∀ k e, t.holdsAt k e → inside k e → e.dirty = false))
      ∧ (rfld v 0 4 = 3 →
        (s.mntBusy = true → no (.cleanInvalidate r v) nkBusy)
        ∧ (s.mntBusy = false → ¬ range → no (.cleanInvalidate r v) nkMalformed)
        ∧ (s.mntBusy = false → range → Runs (.cleanInvalidate r v) s fun t => begun t 3 ∧ (s.dome.fresh = [] → t.mem = s.mem)
            ∧ ∀ k e, t.holdsAt k e → ¬ inside k e))
      ∧ (rfld v 0 4 = 2 →
        let used : Prop := ∃ x ∈ s.tasks, x.accepted = true ∧ ∃ b ∈ x.bufs, 0 < b.len ∧ lo < b.addr + b.len ∧ b.addr < lo + len
        (s.mntBusy = true → no (.invalidate r v) nkBusy) ∧ (s.mntBusy = false → ¬ range → no (.invalidate r v) nkMalformed)
        ∧ (s.mntBusy = false → range → used → no (.invalidate r v) nkInUse)
        ∧ (s.mntBusy = false → range → ¬ used → Runs (.invalidate r v) s fun t => begun t 2
            ∧ (∀ k e, t.holdsAt k e → ¬ inside k e)
            ∧ (s.dome.fresh = [] → (∀ e ∈ s.dome.under, e.2.length = 128) →
              (∀ k e b, s.holdsAt k e → inside k e → SMap.find s.dome.under (lineOf k e.tag) = some b →
                Mem.readN t.mem (lineOf k e.tag * 128) 128 = b)
              ∧ ∀ x, (∀ e ∈ s.dome.lines, lineOf e.1 e.2.tag ≠ x / 128) → Mem.read t.mem x = Mem.read s.mem x)))
      ∧ (rfld v 0 4 = 4 →
        (s.mntBusy = true ∨ s.bypass = false → no (.invalidateAll r v) nkBusy)
        ∧ (s.mntBusy = false → s.bypass = true → Runs (.invalidateAll r v) s fun t => begun t 4
            ∧ ∀ k e, t.holdsAt k e → s.waysOn.testBit (k % 16) = false)))
    ∧ ((s.dome.mnt = none → exec .maintenanceComplete s = .next s)
      ∧ (s.works = false → exec .maintenanceComplete s = .next s ∧ exec .domeBypassEnter s = .next s ∧ exec .wayPowerDownComplete s = .next s)
      ∧ ∀ m, s.works = true → s.dome.mnt = some m → s.calm → Runs .maintenanceComplete s fun t =>
        t.mem = s.mem ∧ t.dome = { s.dome with mnt := none } ∧ RegsOnly { s with dome := t.dome } t [aDomeStatus]
        ∧ t.mntBusy = false ∧ t.rb aDomeStatus 3 = (s.rb aDomeStatus 3 || (m.op == 4 && s.bypass)))

/-- R716–R720, R893–R897: DISP_DRAIN, ERR_ACK and the self-tests. In which order tests end is log entry 67. Read with log entries 107, 108, 118 as well. -/
def Obligations.DrainsAndTests : Prop :=
  ∀ (s : State),
    (∀ (r : Req) (v : W32), TakesWrite s r (aDisp 0x010) v →
      let sp := rfld v 0 6
      let bad : Prop := s.spireState sp ≠ 1 ∨ ∀ i, i < 64 → i ≠ sp → s.spireState i ≠ 1 ∧ s.spireState i ≠ 2
      (rfld v 8 2 = 1 →
        (bad → exec (.dispDrain r v) s = .next (s.nakReg r nkBusy (aDisp 0x010)))
        ∧ (¬ bad → Runs (.dispDrain r v) s fun t =>
            (∀ j, j < 16 → (t.core (16 * sp + j)).next = none) ∧ (∀ n, (t.core n).run = (s.core n).run)
            ∧ ((∃ j, j < 16 ∧ (s.core (16 * sp + j)).run ≠ none) ∨ s.spireStreams sp = true → t.spireState sp = 2)
            ∧ ((∀ e ∈ s.cores, e.1 / 16 = sp → e.2.run = none) → s.spireStreams sp = false → t.spireState sp = 3)
            ∧ t.tasks = s.tasks ∧ t.ctrs = s.ctrs ∧ t.ops = s.ops ∧ t.streams = s.streams))
      ∧ (rfld v 8 2 = 2 →
        (s.spireState sp ≠ 3 → exec (.dispReturn r v) s = .next (s.nakReg r nkBusy (aDisp 0x010)))
        ∧ (s.spireState sp = 3 → Runs (.dispReturn r v) s fun t => t.spireState sp = 1
            ∧ (∀ i, i < 64 → i ≠ sp → t.spireState i = s.spireState i) ∧ t.cores = s.cores ∧ t.tasks = s.tasks ∧ t.ready = s.ready
            ∧ (s.traceOff → RegsOnly s t [aSpire sp 0]))))
    ∧ (∀ (r : Req) (v : W32), TakesWrite s r (aErr 0x014) v → Runs (.errAck r v) s fun t => RegsOnly s t [aErr 0x010]
        ∧ t.reg (aErr 0x010) = s.reg (aErr 0x010)
          + BitVec.ofNat 32 (min (rfld v 0 13) (s.reg (aErr 0x00C) - s.reg (aErr 0x010)).toNat))
    ∧ (∀ (r : Req) (v : W32), TakesWrite s r (aErr 0x018) v →
      let sp := rfld v 0 6
      (rfld v 8 2 = 1 →
        let busy : Prop := s.spireState sp ≠ 3 ∧ s.spireState sp ≠ 5
        (busy → exec (.spireTest r v) s = .next (s.nakReg r nkBusy (aErr 0x018)))
        ∧ (¬ busy → Runs (.spireTest r v) s fun t => t = { s with
              regs := t.regs, tests := s.tests ++ [.spire sp (rbit v 7) (decide (s.spireState sp = 5))] }
            ∧ t.spireState sp = 4 ∧ t.rb (aErr 0x01C) 31 = true ∧ ∀ a, a ≠ aSpire sp 0 → a ≠ aErr 0x01C → t.reg a = s.reg a))
      ∧ (rfld v 8 2 = 2 →
        let busy : Prop := s.devState ≠ stMaint
        (busy → exec (.fullTest r v) s = .next (s.nakReg r nkBusy (aErr 0x018)))
        ∧ (¬ busy → s.calm → Runs (.fullTest r v) s fun t => t.tests = s.tests ++ [.full] ∧ t.rb (aErr 0x01C) 31 = true
            ∧ t.mem = s.mem ∧ t.tasks = s.tasks ∧ ∀ k e, ¬ t.holdsAt k e)))
    ∧ (∀ (fails : List Nat) (n : Nat), (s.works = false ∨ s.tests = [] → exec (.selfTestComplete fails n) s = .next s)
      ∧ (∀ sp auto out rest, s.works = true → s.tests = .spire sp auto out :: rest → sp < 64 →
          let failed := fails.filter fun u => unitSpire u == some sp
          let ended := fun (t : State) => t.tests = rest ∧ t.rb (aErr 0x01C) 31 = decide (rest ≠ []) ∧ t.rf (aErr 0x01C) 0 6 = sp
          (failed = [] → Runs (.selfTestComplete fails n) s fun t => ended t ∧ t.rb (aErr 0x01C) 30 = true
            ∧ t.spireState sp = (if auto then 1 else 3) ∧ t.tasks = s.tasks
            ∧ (∀ k, t.core k = if k / 16 = sp then { s.core k with owner := (0, 0) } else s.core k)
            ∧ ∀ x, (x < storeBase + sp * 2 ^ 23 ∨ storeBase + (sp + 1) * 2 ^ 23 ≤ x) → Mem.read t.mem x = Mem.read s.mem x)
          ∧ (failed ≠ [] → Runs (.selfTestComplete fails n) s fun t => ended t ∧ t.rb (aErr 0x01C) 30 = false ∧ t.spireState sp = 5))
      ∧ ∀ rest, s.works = true → s.tests = .full :: rest → fails = [] → Runs (.selfTestComplete fails n) s fun t => t.tests = rest
          ∧ t.rb (aErr 0x01C) 31 = decide (rest ≠ []) ∧ t.rb (aErr 0x01C) 30 = true ∧ t.mem = s.mem ∧ t.tasks = s.tasks
          ∧ t.cores = s.cores)
    ∧ (let due : Prop := s.rf (aErr 0x004) 16 16 ≠ 0 ∧ s.fwRuns = true ∧ s.tests = []
       (¬ due → exec .autotestTimer s = .next s)
       ∧ ∀ sp rest, due → s.spiresFrom s.autoNext = sp :: rest →
        let waits : Prop := s.autoDrain = true ∧ (s.spireState sp = 2 ∨ s.spireState sp = 3)
        let tested := fun (t : State) => t.tests = [.spire sp true false] ∧ t.spireState sp = 4
          ∧ t.autoNext = (sp + 1) % 64 ∧ t.autoDrain = false
        (waits → s.spireState sp = 2 → exec .autotestTimer s = .next s)
        ∧ (waits → s.spireState sp = 3 → Runs .autotestTimer s tested)
        ∧ (¬ waits → s.drainBad sp = true → exec .autotestTimer s = .next { s with autoNext := (sp + 1) % 64, autoDrain := false })
        ∧ (¬ waits → s.drainBad sp = false →
            ((∀ e ∈ s.cores, e.1 / 16 = sp → e.2.run = none) → s.spireStreams sp = false → Runs .autotestTimer s tested)
            ∧ ((∃ j, j < 16 ∧ (s.core (16 * sp + j)).run ≠ none) ∨ s.spireStreams sp = true → Runs .autotestTimer s fun t =>
                t.spireState sp = 2 ∧ t.autoNext = sp ∧ t.autoDrain = true ∧ t.tests = [])))

/-- R773–R778, R819: CTX_TBL_CMD and the reclamation of versions. Read with log entries 52, 63 as well. -/
def Obligations.TableCommands : Prop :=
  ∀ (s : State) (r : Req) (c : Fin 16) (tb : Fin 4096),
    let a := aCtx c.val 0x08C
    let cmd := fun (op : Nat) => BitVec.ofNat 32 (op * 2 ^ 28 + tb.val)
    let rows := [(1, Instr.switch r c tb), (2, .retire r c tb), (3, .query r c tb), (4, .reclaim r c tb)]
    let three := [aCtx c.val 0x090, aCtx c.val 0x094, aCtx c.val 0x098]
    let left := fun (t : State) (y : Option Table) => ∀ n, SMap.find t.tables n = if n = tb.val then y else SMap.find s.tables n
    let tables := fun (t : State) (y : Option Table) => t = { s with tables := t.tables, regs := t.regs } ∧ left t y
    let results := fun (t : State) => RegsOnly { s with tables := t.tables } t three
      ∧ ∀ x, SMap.find t.tables tb.val = some x → x.owner = c.val →
        t.rf (aCtx c.val 0x090) 29 3 = min x.versions.length 7 ∧ t.rb (aCtx c.val 0x090) 27 = x.top.isSome
        ∧ t.rf (aCtx c.val 0x090) 0 16 = min ((s.batches.filter fun (b : Batch) => b.pins.any fun p => p.1 == tb.val).length) 0xFFFF
        ∧ (∀ v, x.top = some v → t.reg (aCtx c.val 0x094) = BitVec.ofNat 32 v.gen)
        ∧ ∀ v l, x.versions = v :: l → t.reg (aCtx c.val 0x098) = BitVec.ofNat 32 v.gen
    (∀ op i x, (op, i) ∈ rows → TakesWrite s r a (cmd op) → SMap.find s.tables tb.val = some x → x.owner ≠ c.val →
      exec i s = .next (s.nakReg r nkConflict a))
    ∧ (∀ x, SMap.find s.tables tb.val = some x → x.owner = c.val →
      (TakesWrite s r a (cmd 2) →
        (x.top = none → exec (.retire r c tb) s = .next s)
        ∧ (x.top ≠ none → Runs (.retire r c tb) s fun t => results t ∧ tables t (some { x with newest := false })))
      ∧ (TakesWrite s r a (cmd 4) → Runs (.reclaim r c tb) s fun t => results t
          ∧ tables t (some { x with versions := x.versions.map fun (v : Version) =>
              if v.gen = (s.reg (aCtx c.val 0x088)).toNat ∧ v.dist = true then { v with marked := true } else v }))
      ∧ (TakesWrite s r a (cmd 3) → Runs (.query r c tb) s fun t => results t ∧ t.tables = s.tables))
    ∧ (SMap.find s.tables tb.val = none → (TakesWrite s r a (cmd 2) → exec (.retire r c tb) s = .next s)
        ∧ (TakesWrite s r a (cmd 4) → Runs (.reclaim r c tb) s fun t => RegsOnly s t three ∧ t.rf (aCtx c.val 0x090) 29 3 = 0))
    ∧ (TakesWrite s r a (cmd 1) → (∀ x, SMap.find s.tables tb.val = some x → x.owner = c.val) →
      let x0 := (s.readTier (s.tblAddr c.val) 128).1
      let s1 := (s.readTier (s.tblAddr c.val) 128).2
      let stay := match SMap.find s.tables tb.val with | some x => s.stayLive tb.val x | none => []
      let code := if s.rb (aCtxCtl c.val) 4 && vrEager x0 then 0x08 else if 4 ≤ stay.length then 0x11 else 0
      (∀ d, s.checkAcc c.val (s.tblAddr c.val) 128 .rd = some (.perm d) → exec (.switch r c tb) s = .next (s.nakReg r nkPermission a))
      ∧ (s.checkAcc c.val (s.tblAddr c.val) 128 .rd = none →
          (s.calm → x0 = Mem.readN s.mem (s.tblAddr c.val) 128)
          ∧ (s1.recordValid tb.val x0 = false → exec (.switch r c tb) s = .next (s1.nakReg r nkMalformed a))
          ∧ (s1.recordValid tb.val x0 = true → code ≠ 0 → ∃ u, RegsOnly s1 u [aCtxStatus c.val, aDevRefuseLast, aDevRefuseCount]
              ∧ u.rf (aCtxStatus c.val) 24 8 = code ∧ exec (.switch r c tb) s = .next (u.nakReg r code a))
          ∧ (s1.recordValid tb.val x0 = true → code = 0 → Runs (.switch r c tb) s fun t =>
              t = { s1 with regs := t.regs, tables := t.tables, genHigh := t.genHigh }
              ∧ (∀ n, SMap.find t.tables n = if n = tb.val then
                  some { owner := c.val, newest := true, versions := stay ++ [{ gen := getLe x0 0x44 4, bytes := x0 }] }
                  else SMap.find s.tables n)
              ∧ SMap.get t.genHigh 0 tb.val = getLe x0 0x44 4 ∧ t.rf (aCtxStatus c.val) 24 8 = 0)))
    ∧ (∀ (gen : Nat) (x : Table) (v : Version), SMap.find s.tables tb.val = some x →
      (x.versions.find? fun (y : Version) => y.gen == gen) = some v →
      let stays : Prop := x.top = some v ∨ (∃ b ∈ s.batches, (tb.val, gen) ∈ b.pins)
        ∨ (v.dist = true ∧ (v.marked = false ∨ ∃ p ∈ s.lookups, p.table = tb.val ∧ p.gen = gen))
      let rest := x.versions.filter fun (y : Version) => y.gen != gen
      (stays ∨ s.works = false → exec (.versionReclaim tb gen) s = .next s)
      ∧ (¬ stays → s.works = true → Runs (.versionReclaim tb gen) s fun t => t = { s with tables := t.tables }
          ∧ left t (if rest.isEmpty then none else some { x with versions := rest })))

/-- R855, R856, R912–R920, R930, R931: partner keys, attestation and signed batch roots. Signatures are those of R906 under the identity key (log entries 11, 123). Read with log entries 69, 71, 72, 135, 143 as well. -/
def Obligations.KeysAndSigning : Prop :=
  ∀ (s : State) (r : Req),
    (∀ (n : Fin 16) (owner : Bool) (b : List Byte), TakesWrite s r (aSec 0x030) 0 →
      let w := (b ++ zeros 32).take 32
      let held := s.keyMask (fun (k : KeySlot) => k.present && k.owner) ≠ 0
      let done := fun (key : List Byte) => (s.key n.val).mute.Nodup → Runs (.install r n owner b) s fun t =>
        t = { s with regs := t.regs, keys := t.keys, tasks := t.tasks, cores := t.cores, port := { s.port with macsec := t.port.macsec } }
        ∧ (∀ a, t.reg a = if a ∈ regBlock (aSec 0x010) 8 then 0 else s.reg a) ∧ QueueRestarts s t n.val
        ∧ (∀ k, t.key k = if k = n.val then { (s.key k).began true owner key with genTx := (t.key k).genTx } else s.key k)
        ∧ ∀ p, p < 8 →
          let owed : Prop := p ∈ (s.key n.val).mute ∧ s.subUp p = true ∧ s.macsecOn p = true ∧ s.macsecKey p = n.val
          (owed → SMap.get (t.key n.val).genTx 0 p = 1
            ∧ t.macsec p = { s.macsec p with rx := (t.macsec p).rx, txGen := 1, txPn := 0 })
          ∧ (¬ owed → SMap.get (t.key n.val).genTx 0 p = 0 ∧ t.macsec p = { s.macsec p with rx := (t.macsec p).rx })
      let no := fun (m : Nat) => ∃ u, RegsOnly s u (regBlock (aSec 0x010) 8)
        ∧ exec (.install r n owner b) s = .next (u.nakReg r m (aSec 0x030))
      (∀ k, r.who = .sess k → (s.keyBusy n.val = true → no nkBusy)
        ∧ (s.keyBusy n.val = false → done (List.zipWith (· ^^^ ·) w (wrapPad (s.ses k.val).ks n.val r.seq))))
      ∧ (r.who = .i3c → (held ∨ owner = false → no nkPermission)
        ∧ (¬ held → owner = true → s.keyBusy n.val = true → no nkBusy)
        ∧ (¬ held → owner = true → s.keyBusy n.val = false → done w)))
    ∧ (∀ (n : Fin 16) (k : Fin 8), r.who = .sess k → TakesWrite s r (aSec 0x030) (BitVec.ofNat 32 (2 * 2 ^ 30 + n.val)) →
      let last : Prop := s.keyMask (fun (k : KeySlot) => k.present && k.owner) = 2 ^ n.val
      (last → exec (.erase r n) s = .next (s.nakReg r nkConflict (aSec 0x030)))
      ∧ (¬ last → s.keyBusy n.val = true → exec (.erase r n) s = .next (s.nakReg r nkBusy (aSec 0x030)))
      ∧ (¬ last → s.keyBusy n.val = false → Runs (.erase r n) s fun t => t = { s with
            regs := t.regs, keys := t.keys, qps := t.qps, tasks := t.tasks, cores := t.cores,
            port := { s.port with macsec := t.port.macsec, held := t.port.held } }
          ∧ (∀ q x, t.qp? q = some x → ¬ (x.sess < 8 ∧ s.slotKey x.sess = n.val))
          ∧ (∀ q x, s.qp? q = some x → ¬ (x.sess < 8 ∧ s.slotKey x.sess = n.val) → t.qp? q = some x)
          ∧ (∀ h ∈ t.port.held, h ∈ s.port.held) ∧ QueueRestarts s t n.val
          ∧ (∀ a, t.reg a = if a ∈ regBlock (aSec 0x010) 8 then 0 else s.reg a)
          ∧ ∀ k, t.key k = if k = n.val then (s.key k).began false false [] else s.key k))
    ∧ (TakesWrite s r (aSec 0x030) (BitVec.ofNat 32 (3 * 2 ^ 30)) →
      (∀ k, r.who = .sess k → exec (.eraseAll r) s = .next (s.nakReg r nkPermission (aSec 0x030)))
      ∧ (r.who = .i3c → ((∃ x ∈ s.tasks, x.accepted = true) → exec (.eraseAll r) s = .next s)
        ∧ ((∀ x ∈ s.tasks, x.accepted = false ∧ x.key < 16) → Runs (.eraseAll r) s fun t => (∀ i, i < 8 → (t.ses i).isOpen = false)
            ∧ (∀ k, k < 16 → t.key k = (s.key k).began false false []) ∧ (∀ q, t.qp? q = none) ∧ t.tasks = []
            ∧ ∀ m, t.core m = { s.core m with owner := if (s.core m).owner.1 < 16 then (0, 0) else (s.core m).owner })))
    ∧ (∀ v : W32, rbit v 31 = true → TakesWrite s r (aSec 0x068) v →
      let dst := (s.reg (aSec 0x060)).toNat / 64 * 64 + s.rf (aSec 0x064) 0 16 * 2 ^ 32
      let free : Prop := s.smd.sign = none ∧ s.smd.att = none
      let may : Prop := s.checkAcc (rfld v 0 4) dst (0xC0 + 9893) .wr = none
      let fails := fun (n : Nat) => Runs (.attestationGo r v) s fun t => RegsOnly s t [aSec 0x068, aSec 0x06C] ∧ t.rf (aSec 0x06C) 0 16 = n
      (¬ free → fails nkBusy) ∧ (free → ¬ may → fails nkPermission) ∧ (free → may → s.noIndex → Runs (.attestationGo r v) s fun t =>
          RegsOnly { s with draws := t.draws } t [aSec 0x068, aSec 0x06C] ∧ t.rf (aSec 0x06C) 0 16 = nkState)
      ∧ (free → may → ¬ s.noIndex → Runs (.attestationGo r v) s fun t => t = { s with regs := t.regs, smd := t.smd, draws := t.draws }
          ∧ t.rb (aSec 0x06C) 31 = true ∧ ∃ i, TakesIndex s t i
          ∧ t.smd.att = some { dst := dst, nonce := (List.range 8).flatMap fun w => natLe 4 (s.reg (aSec (0x040 + 4 * w))).toNat, index := i }))
    ∧ ((s.smd.att = none → exec .attestationComplete s = .next s)
      ∧ ∀ j, s.smd.att = some j → s.calm → Runs .attestationComplete s fun t =>
        WritesMem s t j.dst (s.attHead j.nonce ++ natLe 4 9893 ++ zeros 12 ++ idSign s.fuses.id j.index (s.attHead j.nonce))
        ∧ t.smd.att = none ∧ t.reg (aSec 0x06C) = 0 ∧ t.tasks = s.tasks ∧ t.keys = s.keys)
    ∧ (∀ v : W32, rbit v 31 = true → TakesWrite s r (aDet 0x154) v →
      let dst := (s.reg (aDet 0x14C)).toNat / 64 * 64 + s.rf (aDet 0x150) 0 16 * 2 ^ 32
      let k := rfld v 4 4
      let asn := s.pair (aDet 0x140)
      let count := s.rf (aDet 0x148) 0 17
      let free : Prop := s.smd.sign = none ∧ s.smd.att = none
      let sized : Prop := 1 ≤ count ∧ count ≤ 65536
      let ended : Prop := ∀ n, asn ≤ n → n < asn + count → s.task? k n = none
      let kept : Prop := ∀ n, asn ≤ n → n < asn + count → n ∈ (s.key k).unreleased
      let may : Prop := s.checkAcc (rfld v 0 4) dst (0x40 + 9893) .wr = none
      let fails := fun (n : Nat) => Runs (.detSignGo r v) s fun t => RegsOnly s t [aDet 0x154, aDet 0x158] ∧ t.rf (aDet 0x158) 0 16 = n
      (¬ free → fails nkBusy) ∧ (free → ¬ sized → fails nkMalformed) ∧ (free → sized → ¬ ended → fails nkNotReady)
      ∧ (free → sized → ended → ¬ kept → fails nkNoResult) ∧ (free → sized → ended → kept → ¬ may → fails nkPermission)
      ∧ (free → sized → ended → kept → may → s.noIndex → Runs (.detSignGo r v) s fun t =>
          RegsOnly { s with draws := t.draws } t [aDet 0x154, aDet 0x158] ∧ t.rf (aDet 0x158) 0 16 = nkState)
      ∧ (free → sized → ended → kept → may → ¬ s.noIndex → Runs (.detSignGo r v) s fun t =>
          t = { s with regs := t.regs, smd := t.smd, draws := t.draws } ∧ t.rb (aDet 0x158) 31 = true ∧ ∃ i, TakesIndex s t i
          ∧ t.smd.sign = some { key := k, ctx := rfld v 0 4, asn := asn, count := count, dst := dst, index := i }))
    ∧ ((s.smd.sign = none → exec .batchRootSignComplete s = .next s)
      ∧ ∀ j k, s.smd.sign = some j → s.slotOfKey j.key = some k → s.calm →
        (s.signRefusal j.key j.asn j.count ≠ 0 → Runs .batchRootSignComplete s fun t => t.mem = s.mem ∧ t.smd.sign = none
          ∧ t.reg (aDet 0x158) = BitVec.ofNat 32 (s.signRefusal j.key j.asn j.count))
        ∧ (s.signRefusal j.key j.asn j.count = 0 →
          let leaf := fun (i : Nat) => shake256 ((0 : Byte) :: Mem.readN s.mem (s.rslotAt k (j.asn + i) + 0x20) 32) 32
          let h := natLe 8 j.asn ++ natLe 4 j.count ++ natLe 1 j.key ++ zeros 3 ++ natLe 8 s.tick
            ++ treeRoot 17 ((List.range j.count).map leaf) ++ natLe 4 9893 ++ zeros 4
          Runs .batchRootSignComplete s fun t => WritesMem s t j.dst (h ++ idSign s.fuses.id j.index h) ∧ t.smd.sign = none
            ∧ t.reg (aDet 0x158) = 0 ∧ t.tasks = s.tasks ∧ t.keys = s.keys))

/-- R786–R790, R820, R849–R857: replay and the peer group. Read with log entries 19, 68, 70, 103, 139, 141 as well. -/
def Obligations.ReplayAndPeers : Prop :=
  ∀ (s : State) (r : Req),
    let rpl := fun (t : State) (n : Nat) => t.reg (aDet 0x12C) = BitVec.ofNat 32 (n * 2 ^ 28)
    (TakesWrite s r (aDet 0x128) 1 →
      let busy : Prop := s.devState ≠ stRun ∨ s.tasks ≠ []
      let first := s.pair (aDet 0x120)
      let there : Prop := ∃ x ∈ s.replay.ring, x.rseq = first
      (busy → exec (.replayStart r) s = .next (s.nakReg r nkBusy (aDet 0x128)))
      ∧ (¬ busy → ¬ there → Runs (.replayStart r) s fun t => RegsOnly s t [aDet 0x12C]
          ∧ rpl t (if s.pair (aDet 0x110) < first then 3 else 5))
      ∧ (¬ busy → there → Runs (.replayStart r) s fun t => RegsOnly { s with replay := t.replay } t [aDet 0x12C] ∧ rpl t 1
          ∧ t.replay = { s.replay with next := first, stop := s.pair (aDet 0x110), asns := [] }))
    ∧ (TakesWrite s r (aDet 0x128) 2 →
      (s.replaying = true → Runs (.replayStop r) s fun t => RegsOnly s t [aDet 0x12C] ∧ rpl t 6)
      ∧ (s.replaying = false → exec (.replayStop r) s = .next s))
    ∧ (s.rf (aDet 0x12C) 28 4 ≠ 1 → exec .replayRecordFeed s = .next s)
    ∧ (s.rf (aDet 0x12C) 28 4 = 1 →
      let here := s.replay.ring.find? fun (x : RplRec) => x.rseq == s.replay.next
      let moved := fun (t : State) => t.replay.next = s.replay.next + 1
        ∧ rpl t (if s.replay.stop < s.replay.next + 1 then 3 else 1)
      (here = none → Runs .replayRecordFeed s fun t => RegsOnly s t [aDet 0x12C] ∧ rpl t 5)
      ∧ ∀ x, here = some x →
        ((x.kind = 3 ∨ x.kind = 4 ∨ x.kind = 10) → x.full = false →
            Runs .replayRecordFeed s fun t => RegsOnly s t [aDet 0x12C] ∧ rpl t 2)
        ∧ (x.kind = 2 → s.feedHeld x = false → Runs .replayRecordFeed s fun t => moved t ∧ t.mem = s.mem ∧ t.tasks = s.tasks)
        ∧ (x.kind = 3 → x.full = true → s.calm → Runs .replayRecordFeed s fun t => moved t
            ∧ WritesMem s t (getLe x.body 8 8) (x.body.drop 0x18) ∧ t.tasks = s.tasks ∧ t.ctrs = s.ctrs))
    ∧ (TakesWrite s r (aPeer 0) 1 →
      let busy : Prop := s.peerState = 1 ∨ s.form ≠ none
      let may : Prop := s.checkAcc (s.rf (aPeer 0x08) 0 4) s.peerTable (32 * s.groupSize) .rd = none
      (busy → exec (.form r) s = .next (s.nakReg r nkBusy (aPeer 0)))
      ∧ (∀ b, ¬ busy → s.checkAcc (s.rf (aPeer 0x08) 0 4) s.peerTable (32 * s.groupSize) .rd = some b →
          exec (.form r) s = .next ((s.noteBad (s.rf (aPeer 0x08) 0 4) (s.keyOf r.who) (some b)).nakReg r nkPermission (aPeer 0))
            ∧ ∀ d, s.noteBad (s.rf (aPeer 0x08) 0 4) (s.keyOf r.who) (some (.perm d)) = s)
      ∧ (¬ busy → may → Runs (.form r) s fun t => t.peerState = 1 ∧ t.form = some { req := r, key := s.keyOf r.who, msg := false, since := s.tick }
          ∧ (∀ q, q < 256 → (t.ses (16 + q)).isOpen = false) ∧ t.rounds = []
          ∧ ∀ q, s.myRank < q → q < s.groupSize →
              ∃ (p : List Byte) (ce : Nat), p.length = 40 ∧ ce ≤ 1 ∧ OutMsg.dwp (16 + q) tyHello (2 + ce) 0 0 0 0 p [] ∈ t.tx
                ∧ (s.calm → (t.ses (16 + q)).src = peerEntry (Mem.readN t.mem (s.peerTable + 32 * q) 32))))
    ∧ (TakesWrite s r (aPeer 0) 2 →
      (s.liveExchange = true → exec (.dissolve r) s = .next (s.nakReg r nkBusy (aPeer 0)))
      ∧ (s.liveExchange = false → Runs (.dissolve r) s fun t => t.peerState = 0 ∧ t.rf (aPeer 0x14) 0 9 = 1 ∧ t.rounds = []
          ∧ ∀ q, q < 256 → (t.ses (16 + q)).isOpen = false))
    ∧ (∀ mixed : Bool, (s.form = none → exec (.peerFormationComplete mixed) s = .next s ∧ exec .peerFormationTimeout s = .next s)
      ∧ ∀ f : Formation, s.form = some f → f.rest = [] →
        let reached : Prop := ∀ q, q < s.groupSize → q ≠ s.myRank → (s.ses (16 + q)).isOpen = true
        let mix : Prop := (mixed = true ∧ 0 < s.myRank) ∨ ∃ e ∈ f.fw, e.2 ≠ (s.fwMajor, s.fwMinor)
        let exact : Prop := ∃ c, c < 16 ∧ s.ctxEn c = true ∧ s.rb (aCtxCtl c) 4 = true
        (¬ reached ∨ s.peerState ≠ 1 → exec (.peerFormationComplete mixed) s = .next s)
        ∧ (reached → s.peerState = 1 → ¬ (mix ∧ exact) → Runs (.peerFormationComplete mixed) s fun t =>
            t.peerState = 2 ∧ t.form = none ∧ (t.rb (aPeer 0x14) 29 = true ↔ mix)
            ∧ ∀ c, c < 16 → s.ctxEn c = true → s.rb (aCtxCtl c) 4 = true → t.rf (aCtxStatus c) 24 8 = 0)
        ∧ (reached → s.peerState = 1 → mix → exact → Runs (.peerFormationComplete mixed) s fun t =>
            t.peerState = 3 ∧ t.form = none ∧ ∀ c, c < 16 → s.ctxEn c = true → s.rb (aCtxCtl c) 4 = true →
              t.rf (aCtxStatus c) 24 8 = 0x12)
        ∧ (reached → s.peerState = 1 → exec .peerFormationTimeout s = .next s)
        ∧ (¬ (reached ∧ s.peerState = 1) → Runs .peerFormationTimeout s fun t => t.form = none
            ∧ t.tick = min (max s.tick (f.since + 10 ^ 10)) (2 ^ 64 - 1) ∧ t.peerState = if s.peerState = 1 then 3 else s.peerState))

/-- R6, R91, R101–R108, R162, R239, R883, R933: the boot sequence. Read with log entries 85 (what the scan finishes), 120 (the DIMMs' reset ends as the firmware starts), 123 (the vendor signature), 124 (MEM_FAIL at a failed training) and 160 (the journal's channels). -/
def Obligations.BootSequence : Prop :=
  ∀ s : State,
    (∀ p : FlashProbe, (s.pins.pwrGood = false ∨ s.pins.resetN = true → exec (.devResetNRise p) s = .next s)
      ∧ (s.pins.pwrGood = true → s.pins.resetN = false → Runs (.devResetNRise p) s fun t => t.pins.resetN = true
          ∧ t.boot.flashFound = p.found ∧ t.boot.flashQuad = p.quad ∧ t.mem = s.mem ∧ t.tasks = s.tasks ∧ t.keys = s.keys
          ∧ (s.devState = stReset → s.boots → t.devState = (if p.found then stBoot else stRecovery)
              ∧ (p.found = false → t.rf aDevStatus 8 4 = 1))
          ∧ (s.devState ≠ stReset ∨ ¬ s.boots → t.devState = s.devState)))
    ∧ (s.pins.vaux = true → s.pins.pwrGood = true →
      (s.pins.tapHold = false → exec .testLogicReset s = .next { s with pins := { s.pins with tapIr := 0x01, tap := .testLogicReset, boundary := s.cells } })
      ∧ (s.pins.tapHold = true → Runs .testLogicReset s fun t => t.pins.tapHold = false ∧ t.pins.tapIr = 0x01 ∧ t.mem = s.mem
          ∧ (s.devState = stReset → s.pins.resetN = true → s.boot.warmEntry = false →
              t.devState = if s.boot.flashFound then stBoot else stRecovery)
          ∧ (s.devState ≠ stReset → t.devState = s.devState)))
    ∧ ((s.devState ≠ stBoot → exec .imageStagingComplete s = .next s)
      ∧ (s.devState = stBoot →
          let img := s.flashImage
          let h := slice img 0 4096
          let len := getLe h 0x10 8
          let c := imageCause s.fuses img
          (getLe h 0 4 ≠ 0x57464C4E → c = 2)
          ∧ (c = 0 → xmssVerify (vendorPub s.fuses) h (slice img (0x1000 + len) 2820) = true
            ∧ shake256 (slice img 0x1000 len) 32 = slice h 0x20 32
            ∧ Runs .imageStagingComplete s fun t => t.devState = stTraining ∧ t.dome.stage = none ∧ t.pins.ddrResetN = true
            ∧ t.fwMajor = getLe (slice img 0 0x40) 8 2 ∧ t.fwMinor = getLe (slice img 0 0x40) 10 2
            ∧ t.pins.ethTx = true ∧ t.pins.nearSelfRefresh = false ∧ t.pins.glacierSelfRefresh = false
            ∧ (∀ p, p < 8 → SMap.get t.port.training false p = decide (p % (8 / 2 ^ s.rf aPortCfg 0 2) = 0))
            ∧ t.mem = s.mem ∧ t.tasks = s.tasks ∧ t.keys = s.keys)
          ∧ (c ≠ 0 → Runs .imageStagingComplete s fun t => t.devState = stRecovery ∧ t.rf aDevStatus 8 4 = c
            ∧ t.lanesOf 0 = 255 ∧ (∀ p, p < 8 → SMap.get t.port.lanes 0 p = SMap.get s.port.lanes 0 p) ∧ t.port.training = [(0, true)] ∧ t.subRate 0 = 800 ∧ t.mem = s.mem ∧ t.tasks = s.tasks)))
    ∧ ((s.devState ≠ stBoot → exec .trainingTimeout s = .next s)
      ∧ (s.devState = stBoot → Runs .trainingTimeout s fun t => t.devState = stRecovery ∧ t.rf aDevStatus 8 4 = 6))
    ∧ (∀ tr : Training, (s.devState ≠ stTraining ∨ s.boot.trained = true → exec (.memoryTrainingComplete tr) s = .next s)
      ∧ (s.devState = stTraining → s.boot.trained = false → s.boot.cold = false →
          exec (.memoryTrainingComplete tr) s = .next { s with boot := { s.boot with trained := true } })
      ∧ (let lost := fun (u : Nat) => (u < 8 ∧ tr.stackOk.getLsbD u = false)
            ∨ ∃ i d, u = 8 + i ∧ i < 16 ∧ tr.dimms[i]? = some d ∧ 0 < d.count ∧ tr.chanOk.getLsbD i = false
         s.devState = stTraining → s.boot.trained = false → s.boot.cold = true →
          (s.reqs = [] → s.tasks = [] → Runs (.memoryTrainingComplete tr) s fun t => t.boot.trained = true ∧ ∀ u, lost u →
            let bit := if u < 8 then 16 + u else u - 8
            s.outOfService.testBit bit = false → t.outOfService.testBit bit = true ∧ t.rb aMemFail bit = true ∧ t.rb (aRe u 4) 30 = true)
          ∧ ((∀ u, ¬ lost u) → Runs (.memoryTrainingComplete tr) s fun t =>
          t = { s with regs := t.regs, boot := t.boot, journal := t.journal } ∧ t.boot.trained = true
          ∧ t.rf aMemNear 24 8 = tr.stackOk.toNat ∧ t.rf aMemNear 8 8 = s.fuses.stackGib % 256
          ∧ t.rb (aRgn 0) 31 = true ∧ t.rf (aRgn 0) 16 8 = tr.stackOk.toNat
          ∧ t.reg (aRgn 0 + 4) = BitVec.ofNat 32 (popCount 8 tr.stackOk.toNat * s.fuses.stackGib)
          ∧ ∀ n, 1 ≤ n → n < 16 → t.rb (aRgn n) 31 = false)))
    ∧ (let due : Prop := s.devState = stTraining ∧ s.boot.trained = true ∧ s.boot.enumerated = false
       (¬ due → exec .enumerationComplete s = .next s)
       ∧ (due → Runs .enumerationComplete s fun t =>
          t = { s with regs := t.regs, boot := { s.boot with enumerated := true } }
          ∧ (∀ i, i < 64 → t.spireState i = if s.fuses.spires.getLsbD i then (if s.spireState i = 5 then 5 else 1) else 0)
          ∧ (∀ i, i < 8 → t.rb (aRe i 4) 31 = s.rb aMemNear (24 + i)) ∧ ∀ i, i < 16 → t.rb (aRe (8 + i) 4) 31 = s.rb aMemGlacier i))
    ∧ (let due : Prop := s.devState = stTraining ∧ s.boot.cold = false ∧ s.boot.trained = true ∧ s.boot.scanned = false
       (¬ due → exec .journalScanComplete s = .next s)
       ∧ (due → Runs .journalScanComplete s fun t =>
          (s.tasks.any s.recorded = false → t.tasks = if s.journal.lost then s.tasks else s.tasks.map Task.rewind)
          ∧ (∀ x ∈ s.tasks, s.recorded x = true → x.status.isSome = true → ∀ y ∈ t.tasks, ¬ (y.key = x.key ∧ y.asn = x.asn))
          ∧ t.boot = { s.boot with scanned := true } ∧ t.keys = s.keys ∧ t.devState = stTraining
          ∧ (s.calm → s.tasks.any s.recorded = false → (∀ x ∈ s.tasks, x.shadows = []) → t.mem = s.mem)))
    ∧ (let due : Prop := s.devState = stTraining ∧ s.boot.enumerated = true ∧ (s.boot.cold = true ∨ s.boot.scanned = true)
       (¬ due → exec .bootReady s = .next s)
       ∧ (due → Runs .bootReady s fun t => t.dome.lines = [] ∧ t.dome.fills = [] ∧ t.rb aDomeCtl 0 = true ∧ t.bypass = false
          ∧ t.rb aDomeStatus 3 = s.rb aDomeStatus 3 ∧ t.mem = s.mem ∧ t.tasks = s.tasks ∧ t.keys = s.keys
          ∧ (s.boot.cold = true → t.devState = stReady)
          ∧ (s.boot.cold = false → t.boot.savedRun = false ∧ t.boot.savedEn = 0
            ∧ t.devState = (if s.boot.savedRun = true ∧ s.checkRun = 0 then stRun else stReady)
            ∧ ∀ c, c < 16 → s.boot.savedEn.testBit c = false → t.ctxEn c = s.ctxEn c)))

/-- R44, R45, R47, R57, R58, R62, R63, R67, R68, R70, R271–R276, R899, R932, R943, R949: power, pins, I3C and upkeep. Read with log entries 116 (levels that the state does not hold), 122 (the pace's fraction), 144 (I3C) and 145 (a second's counts). -/
def Obligations.PowerPinsAndUpkeep : Prop :=
  ∀ s : State,
    (∀ m : PowerSample, let tj := [m.tj0, m.tj1, m.tj2, m.tj3]
      let live := fun (t : State) => t.rf aPwrStatus 0 16 = m.pkgW % 2 ^ 16 ∧ ∀ q, q < 4 →
        t.rf (aPace q) 24 8 = wrapInt 8 (tj.getD q 0) ∧ t.rf (aPace q) 16 8 = t.setpoint q / 5 % 256
          ∧ PaceAt (t.setpoint q) (tj.getD q 0) (t.rf (aPace q) 0 16)
      (s.devState = stReset ∨ s.devState = stHalted → exec (.powerManagerPass m) s = .next s)
      ∧ (s.devState = stBoot ∨ s.devState = stRecovery → Runs (.powerManagerPass m) s fun t => live t
          ∧ RegsOnly s t (aPwrStatus :: (List.range 4).map aPace) ∧ t.rf aPwrStatus 16 16 = s.rf aPwrStatus 16 16)
      ∧ (s.fwRuns = true → Runs (.powerManagerPass m) s fun t =>
          let vmin := 5 * s.rf aPwrCtl 0 8
          t = { s with regs := t.regs, power := t.power } ∧ t.power.guardGap = s.power.guardGap
          ∧ CommonPass m.pkgW (s.rf aPwrLimit 0 16) vmin (5 * s.rf aPwrCtl 8 8) s.power.common s.power.commonGap t.power.common
              t.power.commonGap
          ∧ (∀ q, q < 4 → QuadPass (tj.getD q 0) vmin t.power.common (s.setpoint q) (SMap.get s.power.hotGap 0 q) (t.setpoint q)
                (SMap.get t.power.hotGap 0 q)) ∧ live t
          ∧ t.power.avs = s.power.avs ++ (List.range 4).map (fun q => (q, t.setpoint q))
          ∧ (t.rb aPwrStatus 31 = true ↔ t.throttled)
          ∧ (t.rb aPwrStatus 30 = true ↔ ∀ q, q < 4 → t.setpoint q = vmin) ∧ (t.rb aPwrStatus 29 = true ↔ ∃ j ∈ tj, 90 < j)
          ∧ ∀ a, a ∉ aPwrStatus :: (List.range 4).map aPace → t.reg a = s.reg a))
    ∧ (∀ (q : Fin 4) (amps gap : Nat), (amps ≤ 400 → exec (.fastGuardTrip q amps gap) s = .next s)
      ∧ (400 < amps → Runs (.fastGuardTrip q amps gap) s fun t => t = { s with
            regs := t.regs, power := { s.power with guardGap := SMap.set s.power.guardGap 0 q.val (min (max gap 1) 63) } }
          ∧ t.rb aPwrStatus 31 = true ∧ ∀ a, a ≠ aPwrStatus → t.reg a = s.reg a)
      ∧ (380 ≤ amps → exec (.fastGuardRelease q amps) s = .next s)
      ∧ (amps < 380 → Runs (.fastGuardRelease q amps) s fun t => t = { s with regs := t.regs, power := t.power }
          ∧ (∀ p, SMap.get t.power.guardGap 0 p = if p = q.val then 0 else SMap.get s.power.guardGap 0 p)
          ∧ (t.rb aPwrStatus 31 = true ↔ t.throttled) ∧ ∀ a, a ≠ aPwrStatus → t.reg a = s.reg a))
    ∧ (∀ u : Nat, Runs (.junctionOverLimit u true) s (fun t => u ∈ t.pins.overLimit ∧ Reported t 0x10 u ∧ t.mem = s.mem
          ∧ t.tasks = s.tasks ∧ t.cores = s.cores)
      ∧ exec (.junctionOverLimit u false) s
          = .next { s with pins := { s.pins with overLimit := s.pins.overLimit.filter fun v => v != u } })
    ∧ (s.port.refclkLost = true → exec .refclkLoss s = .next s)
    ∧ (s.port.refclkLost = false → Runs .refclkLoss s fun t => t.port.refclkLost = true ∧ Reported t 0x0C 0x0595
        ∧ t.mem = s.mem ∧ t.tasks = s.tasks ∧ t.tick = s.tick)
    ∧ exec .refclkRestore s = .next { s with port := { s.port with refclkLost := false } }
    ∧ (∀ (park : TapState) (l : BoundaryScan), let pads : Prop := s.pins.vaux = true ∧ s.pins.pwrGood = true
      let held := fun (ir : Nat) => ({ s with pins := { s.pins with tapIr := ir, tap := park, boundary := s.cells } } : State)
      (¬ pads → exec (.idcode park) s = .next s ∧ exec (.samplePreload l park) s = .next s ∧ exec (.bypass park) s = .next s)
      ∧ (pads → park ≠ .testLogicReset →
          exec (.idcode park) s = .next { held 0x01 with tx := if park = .shiftDr then s.tx ++ [.tdo 0x19009A6B] else s.tx }
          ∧ (∃ c, Captures (held 0x02) l c ∧
              (park = .shiftDr → ∃ d, d.map (·.1) = signalLands ∧ (∀ g v, levelIn l.tdi g = some v → g ∈ signalLands → (g, v) ∈ d)
                ∧ exec (.samplePreload l park) s = .next { held 0x02 with
                    pins := { (held 0x02).pins with shift := d }, draws := s.draws + 2, tx := s.tx ++ [.scan c] })
              ∧ (park = .pauseDr → exec (.samplePreload l park) s
                  = .next { held 0x02 with pins := { (held 0x02).pins with shift := c }, draws := s.draws + 1 })
              ∧ (park ≠ .shiftDr → park ≠ .pauseDr → exec (.samplePreload l park) s
                  = .next { held 0x02 with pins := { (held 0x02).pins with boundary := c }, draws := s.draws + 1 }))
          ∧ exec (.bypass park) s = .next (held 0xFF))
      ∧ (pads → park = .testLogicReset → exec (.idcode park) s = exec .testLogicReset s ∧ exec (.bypass park) s = exec .testLogicReset s))
    ∧ (∀ (d : I3cDest) (wr : List Byte),
      let hears : Prop := s.pins.vaux = true ∧ (∀ n, d = .static n → n = 0x58 + s.pins.straps.toNat) ∧ wr.length = 3
      let a := leNat wr
      let rails : Prop := a = aErr 0x008 ∨ a = aPwrStatus ∨ (aPace 0 ≤ a ∧ a ≤ aPace 3)
      (¬ hears → exec (.i3cRegisterRead d wr) s = .next s)
      ∧ (hears → i3cReads a = false ∨ (rails ∧ s.pins.pwrGood = false) →
          exec (.i3cRegisterRead d wr) s = .next { s with tx := s.tx ++ [.i3c [0, 0, 0, 0]] })
      ∧ (hears → a = aDevId ∨ a = aDevCtl ∨ a = aDevStatus ∨ (a = aPwrStatus ∧ s.pins.pwrGood = true) →
          exec (.i3cRegisterRead d wr) s = .next { s with tx := s.tx ++ [.i3c (natLe 4 (s.reg a).toNat)] }))
    ∧ (∀ (k : Fin 8) (a v : Nat), s.sampledValue a = some v →
        ((s.ses k.val).isOpen = false → exec (.sampledPairRead (.sess k) a) s = .next s)
        ∧ ((s.ses k.val).isOpen = true → Runs (.sampledPairRead (.sess k) a) s fun t => t = { s with sess := t.sess }
            ∧ t.ses k.val = { s.ses k.val with samples := (t.ses k.val).samples } ∧ SMap.get (t.ses k.val).samples 0 a = v
            ∧ ∀ i, i ≠ k.val → t.ses i = s.ses i))
    ∧ (∀ (st : Fin 8) (ch : Fin 16) (b : Nat), exec (.hbmRefresh st b) s = .next s ∧ exec (.hbmPhyRetrain st) s = .next s
        ∧ exec (.glacierRefresh ch b) s = .next s ∧ exec (.dqsOscillatorTracking ch) s = .next s
        ∧ exec (.glacierRetrain ch) s = .next s)
    ∧ (s.pins.vaux = false → exec .lifetimeAccumulate s = .next s ∧ exec .lifetimeMramWrite s = .next s)
    ∧ (s.pins.vaux = true → Runs .lifetimeAccumulate s (fun t => t = { s with smd := t.smd } ∧ t.smd.lifeSec = []
          ∧ (s.smd.lifeSec = [] → ∀ k,
              let second := (List.range 4).flatMap fun q =>
                let tj := max 0 (min 165 (sext 8 (s.rf (aPace q) 24 8) + 40))
                [256 * q + tj.toNat, 65536 + 64 * q + min 60 (s.rf (aPace q) 16 8 - 110), 131072 + 128 * q + min (s.rf (aPace q) 0 16 / 20) 127]
              SMap.get t.smd.lifeNew 0 k = SMap.get s.smd.lifeNew 0 k + (if s.pins.pwrGood then second.count k else 0)
                + if k = 65536 * 7 then 1 else 0))
        ∧ Runs .lifetimeMramWrite s (fun t => t = { s with smd := t.smd } ∧ t.smd.lifeNew = []
          ∧ ∀ k n, s.smd.lifeNew = [(k, n)] → SMap.get t.smd.life 0 k = min (SMap.get s.smd.life 0 k + n) (2 ^ 64 - 1)))

/-- R130, R132, R139, R142, R145–R151, R154, R156, R159, R160, R162, R926–R929, R954: the Ethernet port. Read with log entries 5 (due ticks), 6 (what the commands carry), 33 and 161 (MACsec), 60 (the rekey) and 153 (an odd path delay). -/
def Obligations.PortEvents : Prop :=
  ∀ s : State,
    (∀ p : Fin 8, (SMap.get s.port.training false p.val = false → exec (.subportLinkUp p) s = .next s)
      ∧ (SMap.get s.port.training false p.val = true → Runs (.subportLinkUp p) s fun t =>
          t.rb aPortStatus (24 + p.val) = true ∧ t.rf aPortStatus 16 8 = (s.rf aPortStatus 16 8 ||| s.lanesOf p.val) % 256
          ∧ SMap.get t.port.training false p.val = false ∧ (∀ a, a ≠ aPortStatus → t.reg a = s.reg a)
          ∧ XoffAsDue t ∧
          let u := { s with regs := t.regs, port := { s.port with training := t.port.training, wire := t.port.wire, xoff := t.port.xoff } }
          (s.macsecOn p.val = false → t = u) ∧ (s.macsecOn p.val = true → NextGen u t p.val)))
    ∧ (∀ l : Fin 8, (s.subOfLane l.val = none ∨ s.pins.ethTx = false → exec (.laneFailure l) s = .next s)
      ∧ ∀ p, s.subOfLane l.val = some p → s.pins.ethTx = true → Runs (.laneFailure l) s fun t =>
          let used := s.lanesOf p
          t.rb aPortStatus (8 + l.val) = true ∧ t.rf aPortStatus 16 8 = s.rf aPortStatus 16 8 &&& (255 - used)
          ∧ t.rb aPortStatus (24 + p) = false ∧ Reported t 0x0E (0x580 + l.val) ∧ Reported t 0x06 (0x580 + l.val)
          ∧ (popCount 8 used ≤ 1 → SMap.get t.port.training false p = false ∧ t.port.lanes = s.port.lanes)
          ∧ (1 < popCount 8 used → SMap.get t.port.training false p = true
              ∧ SMap.get t.port.lanes 0 (s.laneKey p) = halfLanes used (t.rf aPortStatus 8 8))
          ∧ t.mem = s.mem ∧ t.tasks = s.tasks ∧ t.sess = s.sess)
    ∧ (∀ f : Frame, let p := f.sub.val
      (s.subUp p = false ∨ 9216 < f.len → exec (.frameReceive f) s = .next s)
      ∧ (s.subUp p = true → f.len ≤ 9216 →
        let counts := fun (a : Nat) => Runs (.frameReceive f) s fun t => RegsOnly s t [a] ∧ Counted s t a
        (s.macsecOn p = true → f.kind ≠ .pfc → (s.muted p = true ∨ f.macsec = none
              ∨ ∃ x, f.macsec = some x ∧ s.tagRefused p f x) → counts aMacsecDrop)
        ∧ (∀ x, s.macsecOn p = true → f.kind ≠ .pfc → s.muted p = false → f.macsec = some x → ¬ s.tagRefused p f x →
            let pn := s.pnOf p x
            let mac := x.sci.toNat / 65536
            let g := Frame.inner f (gcmCrypt (macsecKeys (s.key (s.macsecKey p)).key x.sci.toNat p).1
              (macsecIv (macsecKeys (s.key (s.macsecKey p)).key x.sci.toNat p).2 2 pn) x.data)
            ∀ d k, g.kind = .udp d → s.lportOf g d = some k → Runs (.frameReceive f) s fun t =>
              t.port.rx = s.port.rx ++ [(k, { g.src with vlan := g.vlan.toNat }, g.bytes)] ∧ XoffAsDue t ∧ pn ∈ (t.rxChannel p mac).seen
              ∧ (∀ q, q ≠ p → t.macsec q = s.macsec q) ∧ t.regs = s.regs ∧ t.mem = s.mem)
        ∧ (s.macsecOn p = false → ∀ d, f.kind = .udp d →
          (∀ k, s.lportOf f d = some k → k < 8 → Runs (.frameReceive f) s fun t =>
            t = { s with sess := t.sess, port := { s.port with
                rx := s.port.rx ++ [(k, { f.src with vlan := f.vlan.toNat }, f.bytes)], wire := t.port.wire, xoff := t.port.xoff } }
            ∧ XoffAsDue t ∧ (∀ i, t.ses i = if i = k ∧ f.ce = true then { s.ses k with ceEcho := true } else s.ses i))
          ∧ (s.lportOf f d = none → s.peerPort f d = false → counts aRxUnmatched))))
    ∧ (∀ (p q : Fin 8) (n : Nat), let k := 8 * p.val + q.val
      (s.subUp p.val = false ∨ s.rb aPortCfg (8 + q.val) = false → exec (.pfcPauseReceive p q n) s = .next s)
      ∧ (s.subUp p.val = true → s.rb aPortCfg (8 + q.val) = true → Runs (.pfcPauseReceive p q n) s fun t =>
          t = { s with port := t.port } ∧ PortOnly { s with port := { s.port with pauses := t.port.pauses } } t ∧ Released s t
          ∧ ∀ j, SMap.find t.port.pauses j = if j = k then (if n = 0 then none else some (s.tick + n)) else SMap.find s.port.pauses j)
      ∧ (SMap.find s.port.pauses k = none → exec (.pfcPauseExpiry p q) s = .next s)
      ∧ ∀ d, SMap.find s.port.pauses k = some d → Runs (.pfcPauseExpiry p q) s fun t =>
          t = { s with tick := min (max s.tick d) (2 ^ 64 - 1), port := t.port } ∧ Released s t
          ∧ PortOnly { s with port := { s.port with pauses := t.port.pauses } } t
          ∧ ∀ j, SMap.find t.port.pauses j = if j = k then none else SMap.find s.port.pauses j)
    ∧ (∀ g : RateTarget, let k := match g with | .lport j => j.val | .qp j => 16 + j.val
      let late : Prop := ∀ d, SMap.find s.port.lastCut k = some d → d + 10000 ≤ s.tick
      Runs (.ecnRateCut g) s (fun t => t = { s with port := t.port } ∧ SMap.find t.port.lastNote k = some s.tick
        ∧ (late → SMap.get t.port.rate 1 k = max (SMap.get s.port.rate 1 k * (7 / 8)) (1 / 256)
            ∧ SMap.find t.port.lastCut k = some s.tick)
        ∧ (¬ late → t.port.rate = s.port.rate) ∧ ∀ j, j ≠ k → SMap.get t.port.rate 1 j = SMap.get s.port.rate 1 j)
      ∧ (SMap.find s.port.lastNote k = none → exec (.ecnRateRecovery g) s = .next s)
      ∧ ∀ d, SMap.find s.port.lastNote k = some d → Runs (.ecnRateRecovery g) s fun t =>
          t = { s with tick := min (max s.tick (d + 50000)) (2 ^ 64 - 1), port := t.port }
          ∧ ∀ j, SMap.get t.port.rate 1 j = if j = k then min (SMap.get s.port.rate 1 k + 1 / 64) 1 else SMap.get s.port.rate 1 j)
    ∧ (∀ p : Fin 8, let runs : Prop := s.subUp p.val = true ∧ s.macsecOn p.val = true ∧ s.muted p.val = false
        ∧ 2 ^ 62 ≤ (s.macsec p.val).txPn
      (¬ runs → exec (.macsecRekey p) s = .next s) ∧ (runs → Runs (.macsecRekey p) s fun t => NextGen s t p.val))
    ∧ (∀ m : PtpSample,
      let sync : Int := match m.followUp with | some n => n | none => m.origin
      let ofs := sync + ((m.syncSeen - sync) + (m.reqSeen - m.reqSent)) / 2 - m.syncSeen
      let e := servoErr ofs s.ptp.offset
      let takes : Prop := s.subUp (s.rf aPortCfg 4 3) = true ∧ m.sub.val = s.rf aPortCfg 4 3 ∧ m.domain.toNat = s.rf (aTime 0) 0 8
      (¬ takes → exec (.ptpSyncReceive m) s = .next s)
      ∧ (takes → Runs (.ptpSyncReceive m) s fun t => RegsOnly { s with ptp := t.ptp, tx := t.tx, port := t.port } t [aTime 0x008]
          ∧ Leaves s t {} (.ptpDelayReq m.sub.val m.transport m.domain)
          ∧ t.reg (aTime 0x008) = BitVec.ofInt 32 (max (-250000) (min 250000 m.ppb)) ∧ t.ptp.seen = true ∧ t.ptp.missed = 0
          ∧ (s.ptp.seen = false → t.ptp.offset = BitVec.ofInt 64 ofs ∧ t.ptp.good = s.ptp.good + 1)
          ∧ (s.ptp.seen = true → t.ptp.err = e ∧ t.ptp.good = (if e.natAbs ≤ 20 then s.ptp.good + 1 else 0)
            ∧ t.ptp.offset = if 1000000 < e.natAbs then BitVec.ofInt 64 ofs else s.ptp.offset)))
    ∧ (16 ≤ s.ptp.good → Runs .ptpLockAcquire s fun t => RegsOnly s t [aPortStatus] ∧ t.reg aPortStatus = rputBit (s.reg aPortStatus) 7 true)
    ∧ (s.ptp.good < 16 → exec .ptpLockAcquire s = .next s)
    ∧ (∀ missed : Bool, (missed = false → s.ptp.err.natAbs ≤ 100 → exec (.ptpLockLoss missed) s = .next s)
      ∧ (missed = true ∨ 100 < s.ptp.err.natAbs → Runs (.ptpLockLoss missed) s fun t => t.ptp.good = 0
          ∧ RegsOnly { s with ptp := t.ptp } t [aPortStatus] ∧ t.reg aPortStatus = rputBit (s.reg aPortStatus) 7 false))
    ∧ ∀ lock : Bool, Runs (.synceLockChange lock) s fun t => RegsOnly s t [aPortStatus]
        ∧ t.reg aPortStatus = rputBit (s.reg aPortStatus) 6 (lock && s.subUp s.ptpSub)

/-- R169–R187, R922–R924: opening sessions, receiving, acknowledging and retransmitting. Read with log entries 5 (due ticks), 8 (epochs and nonces), 12 (credit), 18 (slots that are not enabled), 77 (timeouts per message), 135 (the order of checks), 155 and 156 (headers and DONE). -/
def Obligations.SessionTransport : Prop :=
  ∀ (s : State) (k : Fin 8),
    let i := k.val
    let answers : Prop := stReady ≤ s.devState ∧ s.devState ≤ stRecovery
    let mute := { s.ses i with ceEcho := false }
    let nak := fun (t : State) (dst : NetAddr) (typ n : Nat) => SaysPlain s t i dst tyNak (nakPayload 0 typ n 0) ∧ SessionBecomes s t i mute
    let plain := fun (x : Instr) (dst : NetAddr) (typ n : Nat) => Runs x s fun t =>
      t = { s with sess := t.sess, tx := t.tx, port := t.port } ∧ nak t dst typ n
    (∀ (p : List Byte) (src : NetAddr), let key := getLe p 0 2
      let formed : Prop := p.length = 40 ∧ zeroAt p 2 6 = true
      let hsrc := (s.ses i).helloSrc
      let waits : Prop := s.checksDue = true ∨ ∃ e ∈ s.port.rx, rxHello e = true
      (¬ answers → exec (.hello (.sess k) src p) s = .next s ∧ exec (.prove (.sess k) src p) s = .next s)
      ∧ (waits → exec (.hello (.sess k) src p) s = .next s)
      ∧ (¬ waits → answers →
        (¬ formed → plain (.hello (.sess k) src p) src tyHello nkMalformed)
        ∧ (formed → (s.key (s.slotKey i)).present = false → Runs (.hello (.sess k) src p) s fun t => t.rf aDevStatus 24 8 = 0x13
            ∧ nak t src tyHello 0x13)
        ∧ (formed → (s.key (s.slotKey i)).present = true → key ≠ s.slotKey i → Runs (.hello (.sess k) src p) s (nak · src tyHello nkAuth))
        ∧ (formed → (s.key (s.slotKey i)).present = true → key = s.slotKey i → Runs (.hello (.sess k) src p) s fun t =>
            ∃ d : List Byte, d.length = 80 ∧ getLe d 0 2 = s.fwMajor % 2 ^ 16 ∧ getLe d 2 2 = s.fwMinor % 2 ^ 16
              ∧ (d.drop 16).take 32 = shake256 (idPub s.fuses.id) 32
              ∧ SaysPlain s t i src tyHello d ∧ SessionBecomes s t i { mute with transcript := some (p ++ d), helloSrc := src }))
      ∧ (answers → (s.ses i).transcript = none → plain (.prove (.sess k) src p) src tyProve nkAuth)
      ∧ ∀ x, answers → (s.ses i).transcript = some x →
        let keyBytes := (s.key (s.slotKey i)).key
        (p.length ≠ 32 → plain (.prove (.sess k) src p) src tyProve nkMalformed)
        ∧ (p.length = 32 → x.length ≠ 120 ∨ p ≠ proveTag keyBytes x → plain (.prove (.sess k) src p) src tyProve nkAuth)
        ∧ (p.length = 32 → x.length = 120 → p = proveTag keyBytes x → Runs (.prove (.sess k) src p) s fun t =>
            let v := t.ses i
            v.isOpen = true ∧ v.src = hsrc ∧ v.key = s.slotKey i ∧ v.epoch ≠ 0 ∧ v.epoch ≠ (s.ses i).epoch
            ∧ v.ks = sessionKey keyBytes x p (sessionWord i s.myRank v.epoch) ∧ v.rxDone = 0 ∧ v.txNext = 1 ∧ v.transcript = none
            ∧ (∀ j, j < 8 → j ≠ i → (s.ses j).key = s.slotKey i → (t.ses j).isOpen = false)
            ∧ ∃ pl, pl.take 32 = confirmTag keyBytes x p ∧ Sent s t i tyKeyconfirm 2 0 pl))
    ∧ (∀ b : List Byte, (s.port.rx.find? fun e => e.1 == i && e.2.2 == b) = none → exec (.dwpDatagramReceive (.sess k) b) s = .next s)
    ∧ (∀ (b : List Byte) (e : Nat × NetAddr × List Byte), (s.port.rx.find? fun e => e.1 == i && e.2.2 == b) = some e →
      let u := { s with port := { s.port with rx := s.port.rx.erase e } }
      let dropped := Runs (.dwpDatagramReceive (.sess k) b) s fun t =>
        RegsOnly { u with port := { u.port with wire := t.port.wire, xoff := t.port.xoff } } t [aSess i 0x020]
          ∧ Counted s t (aSess i 0x020) ∧ XoffAsDue t
      let v := s.ses i
      let named : Prop := hSession b ≠ 0 ∧ v.isOpen = true ∧ hSession b = sessionWord i 0 v.epoch
      let good : Prop := kmac256 v.ks ((0 : Byte) :: b.take (b.length - 16)) 16 "NLT9 DWP" = b.drop (b.length - 16)
      let later : Prop := (hType b = tyHello ∧ hSession b = 0 ∧ s.checksDue = true)
        ∨ ∃ y ∈ s.port.rx.takeWhile (· != e), y.1 < 8 ∧ hType y.2.2 = tyHello ∧ hSession y.2.2 = 0
      (later → exec (.dwpDatagramReceive (.sess k) b) s = .next s)
      ∧ (¬ later → b.length < 32 → dropped)
      ∧ (48 ≤ b.length → getLe b 0 1 = 1 → hSession b ≠ 0 → ¬ (named ∧ good) → dropped)
      ∧ (NextMessage s i b → Runs (.dwpDatagramReceive (.sess k) b) s fun t => Queued s t i b ∧ XoffAsDue t ∧ t.tx = s.tx ∧ t.regs = s.regs))
    ∧ (∀ p : List Byte, ((s.ses i).isOpen = false ∨ p.length ≠ 0x30 → exec (.ack (.sess k) p) s = .next s)
      ∧ ((s.ses i).isOpen = true → p.length = 0x30 → Runs (.ack (.sess k) p) s fun t =>
          (t.ses i).txBuf.map (fun m => m.seq)
            = ((s.ses i).txBuf.filter fun m => !(m.sent.isSome && decide (m.seq ≤ getLe p 0 8 - 1))).map (fun m => m.seq)))
    ∧ ((s.ses i).ackDue = none → exec (.ackTimerExpiry (.sess k)) s = .next s)
    ∧ (∀ d, (s.ses i).ackDue = some d → (s.ses i).isOpen = true → Runs (.ackTimerExpiry (.sess k)) s fun t =>
        t.tick = min (max s.tick d) (2 ^ 64 - 1) ∧ (t.ses i).ackDue = none ∧ PortOnly s t
        ∧ ∃ pl, pl.take 8 = natLe 8 ((s.ses i).rxAck + 1) ∧ pl.drop 40 = natLe 8 (s.ses i).done ∧ Sent s t i tyAck 2 0 pl)
    ∧ (∀ n : Nat, ((∀ m ∈ (s.ses i).txBuf, m.seq ≠ n) → exec (.retransmitTimeout (.sess k) n) s = .next s)
      ∧ ∀ (m : TxMsg) (d : Nat), ((s.ses i).txBuf.find? fun m => m.seq == n) = some m → m.sent = some d →
        (15 ≤ m.timeouts → Runs (.retransmitTimeout (.sess k) n) s fun t => (t.ses i).isOpen = false
          ∧ t.tick = min (max s.tick (d + m.timeout)) (2 ^ 64 - 1) ∧ t.mem = s.mem ∧ t.keys = s.keys ∧ t.regs = s.regs)
        ∧ (m.timeouts < 15 → Runs (.retransmitTimeout (.sess k) n) s fun t => t.tick = min (max s.tick (d + m.timeout)) (2 ^ 64 - 1)
          ∧ Counted s t (aSess i 0x024) ∧ Sent s t i m.typ 4 n m.payload
          ∧ ∃ y ∈ (t.ses i).txBuf, y.seq = n ∧ y.payload = m.payload ∧ y.timeouts = m.timeouts + 1
              ∧ y.timeout = min (2 * m.timeout) 4000000))

/-- R224–R229, R958–R962: RDMA packets and queue-pair commands. Read with log entries 72 (the register that a refusal names) and 87 (PSNs). -/
def Obligations.RdmaAndQueuePairs : Prop :=
  (∀ (s : State) (q : Fin 4096) (psn : BitVec 24),
    let takes : Prop := stReady ≤ s.devState ∧ s.devState ≤ stRecovery
    (∀ (rk : W32) (a n : Nat) (d : List Byte), ¬ takes ∨ (∀ x, s.qp? q.val = some x → x.err = true) →
      exec (.rdmaWrite q psn rk a d) s = .next s ∧ exec (.rdmaRead q psn rk a n) s = .next s ∧ exec (.send q psn d) s = .next s
        ∧ exec (.localAckTimeout q) s = .next s)
    ∧ ∀ x, takes → s.qp? q.val = some x → x.err = false →
      let stepped := fun (t : State) (n : Nat) => ∀ j, SMap.get t.qps none j =
        if j = q.val then some { x with rq := (x.rq + max 1 ((n + 4095) / 4096)) % 2 ^ 24 } else SMap.get s.qps none j
      let answers := fun (i : Instr) (m : OutMsg) => Runs i s fun t => t = { s with tx := t.tx, port := t.port } ∧ Leaves s t {} m
      let error := fun (i : Instr) => answers i (.roceError q.val psn.toNat)
      let last := fun (n : Nat) => (psn.toNat + max 1 ((n + 4095) / 4096) - 1) % 2 ^ 24
      let due : Prop := psn.toNat = x.rq
      let again : Prop := ¬ due ∧ (x.rq + 2 ^ 24 - psn.toNat) % 2 ^ 24 ≤ 2 ^ 23
      (∀ (rk : W32) (a n : Nat) (d : List Byte),
        (¬ due → ¬ again → answers (.rdmaWrite q psn rk a d) (.roceSequence q.val x.rq)
          ∧ answers (.rdmaRead q psn rk a n) (.roceSequence q.val x.rq) ∧ answers (.send q psn d) (.roceSequence q.val x.rq))
        ∧ (again → answers (.rdmaWrite q psn rk a d) (.roceAck q.val ((x.rq + 2 ^ 24 - 1) % 2 ^ 24))
          ∧ answers (.send q psn d) (.roceAck q.val ((x.rq + 2 ^ 24 - 1) % 2 ^ 24))))
      ∧ (∀ (rk : W32) (a : Nat) (d : List Byte), due →
        let used : Prop := ∃ y ∈ s.tasks, y.accepted = true ∧ ∃ b ∈ y.bufs, 0 < d.length ∧ 0 < b.len ∧ a < b.addr + b.len ∧ b.addr < a + d.length
        (s.works = false ∨ ¬ s.rkeyGrants x rk a d.length .rwr ∨ used ∨ s.replaying = true → error (.rdmaWrite q psn rk a d))
        ∧ (s.works = true → s.rkeyGrants x rk a d.length .rwr → ¬ used → s.replaying = false → Runs (.rdmaWrite q psn rk a d) s fun t =>
            (s.calm → WritesMem s t a d) ∧ stepped t d.length ∧ t.tx = s.tx ++ [.roceAck q.val (last d.length)] ∧ t.tasks = s.tasks
              ∧ t.sess = s.sess))
      ∧ (∀ (rk : W32) (a n : Nat), due ∨ again →
        (s.works = false ∨ ¬ s.rkeyGrants x rk a n .rrd → error (.rdmaRead q psn rk a n))
        ∧ (s.works = true → s.rkeyGrants x rk a n .rrd →
          (n ≠ 0 → s.firstBad a n true ≠ none → Runs (.rdmaRead q psn rk a n) s fun t => t.qps = s.qps ∧ (∃ l, t.tx = s.tx ++ l ++ [.roceError q.val psn.toNat])
            ∧ (s.tasks = [] → t.mem = s.mem ∧ t.tx = s.tx ++ [.roceError q.val psn.toNat]))
          ∧ (n = 0 ∨ s.firstBad a n true = none → Runs (.rdmaRead q psn rk a n) s fun t => t.tasks = s.tasks ∧ (due → stepped t n)
            ∧ (again → t.qps = s.qps) ∧ ∃ b, t.tx = s.tx ++ [.roceReadResponse q.val psn.toNat b]
              ∧ (s.calm → b = Mem.readN s.mem a n ∧ t.mem = s.mem))))
      ∧ (∀ (d : List Byte) (k : Fin 8), due → x.sess = k.val → ∃ u, u = { s with qps := u.qps, tx := u.tx, port := u.port }
          ∧ stepped u d.length ∧ Leaves s u {} (.roceAck q.val (last d.length))
          ∧ ((∀ e ∈ s.port.rx, ¬ (e.1 = k.val ∧ e.2.2 = d)) → ∃ v : State, exec (.send q psn d) s = exec (.dwpDatagramReceive (.sess k) d) v
              ∧ XoffAsDue v ∧ v = { u with port := { u.port with
                  rx := s.port.rx ++ [(k.val, (s.ses k.val).src, d)], wire := v.port.wire, xoff := v.port.xoff } }
              ∧ ((∀ e ∈ s.port.rx, rxHello e = false) →
                (d.length < 32 → ¬ (hType d = tyHello ∧ hSession d = 0 ∧ s.checksDue = true) →
                  Runs (.send q psn d) s fun t => XoffAsDue t ∧ Counted u t (aSess k.val 0x020)
                  ∧ RegsOnly { u with port := { u.port with rx := s.port.rx, wire := t.port.wire, xoff := t.port.xoff } } t [aSess k.val 0x020])
                ∧ (NextMessage s k.val d → Runs (.send q psn d) s fun t => Queued s t k.val d ∧ XoffAsDue t ∧ t.tx = u.tx ∧ t.qps = u.qps
                  ∧ t.mem = s.mem))))
      ∧ Runs (.localAckTimeout q) s fun t => t = { s with qps := t.qps } ∧ ∀ j, SMap.get t.qps none j = if j = q.val then
          some (if getLe x.words 0x2B 1 ≤ x.retries then { x with err := true } else { x with retries := x.retries + 1 })
          else SMap.get s.qps none j)
  ∧ ∀ (s : State) (r : Req) (k : Fin 8) (idx : W32) (b : List Byte), r.who = .sess k → s.regGate r 0x10144 = some 0 →
    s.rb (aDet 0x100) 1 = false → b.length = 64 →
    let q := rfld idx 0 12
    let may := fun (c j : Nat) => s.isOwner k.val = true ∨ (s.rb (aSessMask k.val) c = true ∧ j = k.val)
    let no := fun (i : Instr) (n : Nat) => ∃ u : State, u = { s with sess := u.sess } ∧ (u.ses k.val).qpView.getD 17 0 % 2 ^ 16 = n
      ∧ exec i s = .next (u.nakReg r n 0x10144)
    let yes := fun (i : Instr) (y : Option Qp) => Runs i s fun t =>
      t = { s with sess := t.sess, qps := t.qps, port := { s.port with held := t.port.held } }
      ∧ (y ≠ none ∨ s.qp? q = none → t.port.held = s.port.held)
      ∧ (y = none → s.qp? q ≠ none → t.port.held = s.port.held.filter fun (f : OutFrame) => !f.respondsTo q)
      ∧ (∀ j, t.qp? j = if j = q then y else s.qp? j)
      ∧ (t.ses k.val).qpView.getD 17 0 % 2 ^ 16 = 0
    let mine : Prop := ∀ x, s.qp? q = some x → may x.ctx x.sess
    (rfld idx 12 20 ≠ 0 → (s.qp? q = none → no (.create r idx b) nkMalformed) ∧ (s.qp? q ≠ none → no (.create r idx b) nkBusy) ∧ no (.destroy r idx) nkMalformed ∧ no (.qpQuery r idx) nkMalformed)
    ∧ (rfld idx 12 20 = 0 →
      (s.qp? q ≠ none → no (.create r idx b) nkBusy)
      ∧ (s.qp? q = none → qpRecordOk b = false → no (.create r idx b) nkMalformed)
      ∧ (s.qp? q = none → qpRecordOk b = true →
          ¬ (s.rb (aSessCfg (getLe b 0 1)) 0 = true ∧ may (getLe b 1 1) (getLe b 0 1)) → no (.create r idx b) nkPermission)
      ∧ (s.qp? q = none → qpRecordOk b = true → s.rb (aSessCfg (getLe b 0 1)) 0 = true → may (getLe b 1 1) (getLe b 0 1) →
          yes (.create r idx b) (some { words := b, sess := getLe b 0 1, ctx := getLe b 1 1, sq := getLe b 8 4, rq := getLe b 0xC 4 }))
      ∧ (¬ mine → no (.destroy r idx) nkPermission ∧ no (.qpQuery r idx) nkPermission)
      ∧ (mine → yes (.destroy r idx) none ∧ yes (.qpQuery r idx) (s.qp? q)
        ∧ Runs (.qpQuery r idx) s fun t => let l := (t.ses k.val).qpView
            l.getD 0 0 = q ∧ l.getD 17 0 / 2 ^ 30 = qpStateOf (s.qp? q)
            ∧ ∀ x, s.qp? q = some x → x.words.length = 64 → l.getD 3 0 = x.sq % 2 ^ 32 ∧ l.getD 4 0 = x.rq % 2 ^ 32))

/-- R190–R195, R217–R223: the messages about memory, programs and results. Read with log entries 12 (credit), 14 and 90 (one coherent view), 35 (LOAD_PROGRAM's bytes), 78 (empty WRITEs), 79, 80 and 89 (which message a command is). -/
def Obligations.MemoryAndResults : Prop :=
  (∀ (s : State) (r : Req) (p : List Byte) (x : Instr) (typ : Nat), (x, typ) ∈ [(.write r p, tyWrite), (.read r p, tyRead),
      (.loadProgram r p, tyLoad), (.submit r p, tySubmit), (.getResult r p, tyGetResult), (.release r p, tyRelease),
      (.cancel r p, tyCancel), (.signal r p, tySignal), (.startAt r p, tyStartAt), (.controlRd r p, tyControlRd),
      (.controlWr r p, tyControlWr), (.telemetry r p, tyTelemetry), (.firmware r p, tyFirmware)] →
    s.isHead r typ p = false ∨ s.inTurn r = false ∨ s.waits r = true → exec x s = .next s)
  ∧ ∀ (s : State) (k : Fin 8) (n : Nat) (p : List Byte),
    let r : Req := { who := .sess k, seq := n }
    let c := getLe p 0 1
    let i := k.val
    let key := (s.ses i).key
    let asn := getLe p 0 8
    (∀ (x : Instr) (typ : Nat), (x, typ) ∈ [(.write r p, tyWrite), (.read r p, tyRead), (.loadProgram r p, tyLoad),
        (.submit r p, tySubmit), (.getResult r p, tyGetResult), (.release r p, tyRelease), (.cancel r p, tyCancel),
        (.signal r p, tySignal), (.startAt r p, tyStartAt), (.telemetry r p, tyTelemetry)] →
      Turn s k n typ p → s.devState = stRecovery → Refused x s k n typ nkState 0)
    ∧ (s.devState ≠ stRecovery →
      (Turn s k n tyWrite p → s.replaying = false →
        let a := getLe p 8 8
        let d := p.drop 16
        let formed : Prop := 16 ≤ p.length ∧ c < 16 ∧ zeroAt p 1 7 = true
        let granted : Prop := s.mayUse k c ∧ s.checkAcc c a d.length .wr = none
        let no := Refused (.write r p) s k n tyWrite
        (¬ formed → no nkMalformed 0) ∧ (formed → ¬ granted → no nkPermission 0)
        ∧ (formed → granted → s.inUse a d.length false = true → no nkInUse 0)
        ∧ (formed → granted → s.inUse a d.length false = false → Runs (.write r p) s fun t =>
            t.tasks = s.tasks ∧ t.keys = s.keys ∧ t.tx = s.tx ∧ t.cores = s.cores ∧ Took t k n ∧ (s.calm → WritesMem s t a d)))
      ∧ (Turn s k n tyRead p →
        let a := getLe p 8 8
        let len := getLe p 0x10 4
        let formed : Prop := p.length = 0x18 ∧ c < 16 ∧ zeroAt p 1 7 = true ∧ 1 ≤ len ∧ len ≤ 1048576
        let no := Refused (.read r p) s k n tyRead
        (¬ formed → no nkMalformed 0)
        ∧ (formed → ¬ s.mayUse k c ∨ (∃ w, s.checkAcc c a len .rd = some (.perm w)) → no nkPermission 0)
        ∧ (formed → s.mayUse k c → s.checkAcc c a len .rd = none → s.inUse a len true = true → no nkInUse 0)
        ∧ (formed → s.mayUse k c → s.checkAcc c a len .rd = none → s.inUse a len true = false → Runs (.read r p) s fun t =>
            t.tasks = s.tasks ∧ t.keys = s.keys ∧ Took t k n ∧ (s.calm → t.mem = s.mem)
            ∧ (s.calm → len + 8 ≤ s.maxPay i → s.credit i → Sent s t i tyReadData 0 (s.ses i).txNext
                (natLe 4 (getLe p 0x14 4) ++ natLe 4 0 ++ Mem.readN s.mem a len))))
      ∧ (Turn s k n tyLoad p → s.replaying = false →
        let old := if getLe p 8 8 = 0 then [] else SMap.get s.loads [] (16 * i + c)
        let b := old ++ p.drop 16
        let top := s.imageAddr c
        let formed : Prop := 16 ≤ p.length ∧ c < 16 ∧ getLe p 1 1 ≤ 1 ∧ zeroAt p 2 6 = true
        let fits : Prop := getLe p 8 8 = old.length ∧ b.length ≤ 2 ^ 24
        let no := Refused (.loadProgram r p) s k n tyLoad
        (¬ formed → no nkMalformed 0) ∧ (formed → ¬ s.mayUse k c → no nkPermission 0)
        ∧ (formed → s.mayUse k c → s.ctxActive c = true → no nkBusy 0)
        ∧ (formed → s.mayUse k c → s.ctxActive c = false →
          (¬ fits → no nkMalformed 0)
          ∧ (fits → getLe p 1 1 = 0 →
              exec (.loadProgram r p) s = .next ({ s with loads := SMap.put s.loads (16 * i + c) b }.took k n))
          ∧ (fits → getLe p 1 1 = 1 →
            (s.imageRefusal b ≠ 0 → no (s.imageRefusal b) 0)
            ∧ (s.imageRefusal b = 0 → s.checkLoad c { image := b } ≠ 0 → Runs (.loadProgram r p) s fun t =>
                t.rf (aCtxStatus c) 24 8 = s.checkLoad c { image := b } ∧ t.progs = s.progs ∧ t.loads = s.loads ∧ t.mem = s.mem
                ∧ Took t k n ∧ Counted s t aDevRefuseCount)
            ∧ (s.imageRefusal b = 0 → s.checkLoad c { image := b } = 0 → Runs (.loadProgram r p) s fun t =>
                t.prog c = { image := b } ∧ (∀ d, d ≠ c → t.prog d = s.prog d) ∧ t.rb (aCtxStatus c) 1 = true
                ∧ t.rf (aCtxStatus c) 24 8 = 0 ∧ t.icache = (s.icache.filter fun e => e.2.tag % 16 != c)
                ∧ t.tasks = s.tasks ∧ t.tx = s.tx ∧ Took t k n
                ∧ (s.ctxRuns c = true → t.ctrs = s.ctrs ∧ t.clrDue.testBit c = true)
                ∧ (s.ctxRuns c = false → ∀ q, t.ctr q = if s.rb (aCtxCtl c) 2 = false ∧ q ∈ s.mappedCtrs c then 0 else s.ctr q)
                ∧ (s.calm → (∀ x, top ≤ x → x < top + b.length → s.unbackedAt (x / 4096 * 4096) = false → s.lostAt (x / 4096 * 4096) = false →
                      Mem.read t.mem x = b.getD (x - top) 0)
                    ∧ ∀ x, (x < top ∨ top + b.length ≤ x) → Mem.read t.mem x = Mem.read s.mem x)))))
      ∧ (Turn s k n tyGetResult p →
        let q := s.key key
        let no := Refused (.getResult r p) s k n tyGetResult
        let a := s.rslotAt i asn
        let h := Mem.readN s.mem a 64
        let len := min (getLe p 8 4 + getLe p 12 4) (getLe h 0x14 4) - getLe p 8 4
        let held : Prop := asn ∈ q.unreleased ∧ s.lostAt a = false
        (p.length ≠ 16 → no nkMalformed 0) ∧ (p.length = 16 → s.task? key asn ≠ none → no nkNotReady q.lastCommitted)
        ∧ (p.length = 16 → s.task? key asn = none → ¬ held → no nkNoResult 0)
        ∧ (p.length = 16 → s.task? key asn = none → held → Runs (.getResult r p) s fun t =>
            t.keys = s.keys ∧ t.tasks = s.tasks ∧ Took t k n ∧ (s.calm → t.mem = s.mem)
            ∧ (s.calm → len + 64 ≤ s.maxPay i → s.credit i →
                Sent s t i tyResult 0 (s.ses i).txNext (h ++ Mem.readN s.mem (a + 64 + getLe p 8 4) len))))
      ∧ (Turn s k n tyRelease p →
        let q := s.key key
        let count := getLe p 8 4
        let top := asn + count - 1
        let formed : Prop := p.length = 16 ∧ 1 ≤ count ∧ zeroAt p 12 4 = true
        let open_ : Prop := max asn (q.lastCommitted + 1) ≤ min top q.lastIssued
        let no := Refused (.release r p) s k n tyRelease
        (¬ formed → no nkMalformed 0) ∧ (formed → open_ → no nkNotReady q.lastCommitted)
        ∧ (formed → ¬ open_ → q.lastIssued < top → no nkNoResult (max asn (q.lastIssued + 1)))
        ∧ (formed → ¬ open_ → top ≤ q.lastIssued → Runs (.release r p) s fun t =>
            (∀ m, m ∈ (t.key key).unreleased ↔ m ∈ q.unreleased ∧ (m < asn ∨ asn + count ≤ m))
            ∧ (∀ j, j ≠ key → t.key j = s.key j) ∧ t.tasks = s.tasks ∧ t.tx = s.tx ∧ Took t k n))
      ∧ (Turn s k n tyCancel p →
        let no := Refused (.cancel r p) s k n tyCancel
        let alive : Prop := ∃ x, s.task? key asn = some x ∧ s.recorded x = false
        (p.length ≠ 8 → no nkMalformed 0)
        ∧ (p.length = 8 → alive → Runs (.cancel r p) s fun t =>
            (∃ x, t.task? key asn = some x ∧ x.cancelled = true ∧ x.ended = true ∧ x.status = some (0x0200, 0)) ∧ Took t k n)
        ∧ (p.length = 8 → ¬ alive → 1 ≤ asn ∧ asn ≤ (s.key key).lastIssued → no nkCommitted 0)
        ∧ (p.length = 8 → ¬ alive → asn = 0 ∨ (s.key key).lastIssued < asn → no nkNoResult 0)))

/-- R196, R198, R810–R815, R939–R942: registers, signals, timed starts, telemetry and firmware. Read with log entries 5 (due ticks), 20 (telemetry sets), 82 (START_AT refused elsewhere), 86 and 112 (the order of checks), 118 (no timed start in HALTED). -/
def Obligations.RegistersSignalsAndFirmware : Prop :=
  ∀ (s : State) (k : Fin 8) (n : Nat) (p : List Byte),
    let r : Req := { who := .sess k, seq := n }
    let i := k.val
    let reg := getLe p 0 4
    let nw := getLe p 4 2
    let c := getLe p 0 1
    let vc := getLe p 2 2
    let v := getLe p 4 4
    (Turn s k n tyControlRd p →
      let formed : Prop := p.length = 12 ∧ zeroAt p 6 2 = true ∧ 1 ≤ nw ∧ nw ≤ 256
      let inside : Prop := reg % 4 = 0 ∧ reg + 4 * nw ≤ 0x140000
      let no := Refused (.controlRd r p) s k n tyControlRd
      (s.devState = stRecovery → 0x10000 < reg + 4 * nw → no nkState 0)
      ∧ (s.devState ≠ stRecovery ∨ reg + 4 * nw ≤ 0x10000 →
        (¬ formed → no nkMalformed 0) ∧ (formed → ¬ inside → no nkMalformed reg)
        ∧ (formed → inside → Runs (.controlRd r p) s fun t => t = { s with sess := t.sess, tx := t.tx, port := t.port } ∧ Took t k n
            ∧ (nw = 1 → reg = aDevId ∨ reg = aDevCtl ∨ reg = aDevStatus ∨ reg = aPwrStatus → 12 ≤ s.maxPay i → s.credit i →
                Sent s t i tyReadData 0 (s.ses i).txNext (natLe 4 (getLe p 8 4) ++ natLe 4 0 ++ natLe 4 (s.reg reg).toNat)))))
    ∧ (s.ctlHeld = true → exec (.controlWr r p) s = .next s)
    ∧ (Turn s k n tyControlWr p → s.ctlHeld = false →
      let det : Prop := 0xF0100 ≤ reg ∧ reg + 4 * nw ≤ 0xF0200
      let formed : Prop := p.length = 8 + 4 * nw ∧ zeroAt p 6 2 = true ∧ 1 ≤ nw ∧ nw ≤ 256
      let inside : Prop := reg % 4 = 0 ∧ reg + 4 * nw ≤ 0x140000
      let no := Refused (.controlWr r p) s k n tyControlWr
      let w := fun (j : Nat) => BitVec.ofNat 32 (getLe p (8 + 4 * j) 4)
      (s.devState = stRecovery ∨ (s.replaying = true ∧ ¬ det) → no nkState 0)
      ∧ (s.devState ≠ stRecovery → s.replaying = false →
        (¬ formed → no nkMalformed 0) ∧ (formed → ¬ inside → no nkMalformed reg)
        ∧ (formed → inside → ¬ (reg = 0x10100 ∧ nw = 18) →
          (regInfo reg = none → no nkMalformed reg)
          ∧ (regInfo reg ≠ none → s.mayWrite r.who reg (w 0) = false → no nkPermission reg)
          ∧ (s.mayWrite r.who reg (w 0) = true → s.rb (aDet 0x100) 1 = false → ∀ rw wc, (reg, rw, wc) ∈ plainRegs →
            (nw = 1 → Runs (.controlWr r p) s fun t => t = { s with regs := t.regs, sess := t.sess, port := t.port } ∧ Plain s t reg rw wc (w 0)
              ∧ (∀ a, a ≠ reg → t.reg a = s.reg a) ∧ t.tx = s.tx ∧ Took t k n)
            ∧ (nw = 2 → regInfo (reg + 4) = none → Runs (.controlWr r p) s fun t =>
                t = { s with regs := t.regs, sess := t.sess, tx := t.tx, port := t.port } ∧ Plain s t reg rw wc (w 0)
                ∧ (∀ a, a ≠ reg → t.reg a = s.reg a) ∧ Took t k n
                ∧ (s.credit i → Sent s t i tyNak 0 (s.ses i).txNext (nakPayload n tyControlWr nkMalformed (reg + 4))))))))
    ∧ (Turn s k n tySignal p → s.devState ≠ stRecovery →
      let no := Refused (.signal r p) s k n tySignal
      (s.replaying = true → no nkState 0)
      ∧ (s.replaying = false → (p.length ≠ 8 → no nkMalformed 0)
        ∧ (p.length = 8 → (∀ m, SignalBad s k c vc v (zeroAt p 1 1) m → no m 0)
          ∧ ∀ q, SignalGood s k c vc v (zeroAt p 1 1) q → Runs (.signal r p) s fun t =>
              Incremented s t q v ∧ t.mem = s.mem ∧ t.tx = s.tx ∧ Took t k n)))
    ∧ (Turn s k n tyStartAt p → s.devState ≠ stRecovery →
      let no := Refused (.startAt r p) s k n tyStartAt
      let locked : Prop := s.rb aPortStatus 7 = true ∧ (s.rb aPortCfg 3 = false ∨ s.rb aPortStatus 6 = true)
      let d := s.untilPtp (getLe p 8 8)
      let no' := fun (m : Nat) => exec (.startAt r p) s = .next (((s.setF (aCtxStatus c) 24 8 0).nak i n tyStartAt m 0).took k n)
      let alone : Prop := getLe p 1 1 = 0 ∨ s.groupFormed = false
      (s.replaying = true → no nkState 0)
      ∧ (s.replaying = false → (p.length ≠ 16 → no nkMalformed 0)
        ∧ (p.length = 16 → alone → ∀ m, SignalBad s k c vc v (decide (getLe p 1 1 < 2)) m → no m 0)
        ∧ (p.length = 16 → ∀ q, SignalGood s k c vc v (decide (getLe p 1 1 < 2)) q →
          (¬ locked → Runs (.startAt r p) s fun t => t.rf (aCtxStatus c) 24 8 = 0x09 ∧ Counted s t aDevRefuseCount
            ∧ t.starts = s.starts ∧ t.ctrs = s.ctrs ∧ Took t k n)
          ∧ (locked → alone → d < 10000 → no' nkState) ∧ (locked → alone → 10000 ≤ d → 64 ≤ s.starts.length → no' nkBusy)
          ∧ (locked → 10000 ≤ d → s.starts.length < 64 → Runs (.startAt r p) s fun t =>
              t.starts = s.starts ++ [{ tick := s.tick + d.toNat, ctx := c, vc := vc, value := v }] ∧ t.ctrs = s.ctrs
              ∧ t.mem = s.mem ∧ (alone → Took t k n ∧ t.tx = s.tx)
              ∧ (¬ alone → s.otherRanks ≠ [] → (∀ j ∈ s.otherRanks, (s.ses (16 + j)).isOpen = true) →
                  (t.ses i).rxBuf = (s.ses i).rxBuf ∧ ∃ f, t.fanouts = [f] ∧ f.req = r ∧ f.due.map (·.1) = s.otherRanks)))))
    ∧ (∀ m : Nat, (s.starts[m]? = none → exec (.timedStartFire m) s = .next s)
      ∧ ∀ x, s.starts[m]? = some x →
        (s.works = false ∨ (∃ y ∈ s.starts, y.tick < x.tick) → exec (.timedStartFire m) s = .next s)
        ∧ (s.works = true → (∀ y ∈ s.starts, x.tick ≤ y.tick) → Runs (.timedStartFire m) s fun t =>
            t.tick = min (max s.tick x.tick) (2 ^ 64 - 1) ∧ t.starts = s.starts.eraseIdx m ∧ t.mem = s.mem ∧ t.sess = s.sess
            ∧ (∀ q, s.translate x.ctx x.vc = some (.ctr q) → Incremented s t q x.value)
            ∧ ((∀ q, s.translate x.ctx x.vc ≠ some (.ctr q)) → t.ctrs = s.ctrs)))
    ∧ (Turn s k n tyTelemetry p → s.devState ≠ stRecovery →
      let per := getLe p 0 8
      let formed : Prop := p.length = 12 ∧ (per = 0 ∨ 1000000 ≤ per) ∧ getLe p 8 4 < 16
      (¬ formed → Refused (.telemetry r p) s k n tyTelemetry nkMalformed 0)
      ∧ (formed → exec (.telemetry r p) s = .next ((s.setSes i { s.ses i with
            telPeriod := per, telSet := getLe p 8 4, telDue := s.tick + per }).took k n)))
    ∧ ((s.ses i).isOpen = false ∨ (s.ses i).telPeriod = 0 → exec (.telemetryReport k) s = .next s)
    ∧ ((s.ses i).isOpen = true → (s.ses i).telPeriod ≠ 0 → Runs (.telemetryReport k) s fun t =>
        let now := min (max s.tick (s.ses i).telDue) (2 ^ 64 - 1)
        t = { s with tick := now, sess := t.sess, tx := t.tx, port := t.port } ∧ (t.ses i).telDue = now + (s.ses i).telPeriod
        ∧ (s.credit i → ∃ pl, pl.take 12 = natLe 8 now ++ natLe 4 (s.ses i).telSet ∧ Sent s t i tyTelemetry 0 (s.ses i).txNext pl))
    ∧ (Turn s k n tyFirmware p →
      let off := getLe p 0 8
      let d := p.drop 16
      let formed : Prop := 16 ≤ p.length ∧ getLe p 8 4 ≤ 1 ∧ zeroAt p 12 4 = true
      let state : Prop := (s.devState = stReady ∨ s.devState = stMaint ∨ s.devState = stRecovery)
        ∧ (off = 0 ∨ (s.boot.updOwner = some k ∧ off = s.boot.updNext))
      let no := Refused (.firmware r p) s k n tyFirmware
      (¬ formed → no nkMalformed 0) ∧ (formed → s.isOwner i = false → no nkPermission 0)
      ∧ (formed → s.isOwner i = true → ¬ state → no nkState 0)
      ∧ (formed → s.isOwner i = true → state → getLe p 8 4 = 0 → Runs (.firmware r p) s fun t =>
          t = { s with flash := t.flash, boot := t.boot, sess := t.sess, port := t.port } ∧ Took t k n
          ∧ t.boot.updOwner = some k ∧ t.boot.updNext = off + d.length
          ∧ (4096 ≤ off → Mem.readN t.flash off d.length = d ∧ t.boot.updHead = s.boot.updHead
              ∧ ∀ x, (x < off ∨ off + d.length ≤ x) → Mem.read t.flash x = Mem.read s.flash x)
          ∧ (off = 0 → d.length ≤ 4096 → t.boot.updHead = d
              ∧ ∀ x, Mem.read t.flash x = if x < 4096 then 0xFF else Mem.read s.flash x))
      ∧ (formed → s.isOwner i = true → state → getLe p 8 4 = 1 → 4096 ≤ off → s.boot.updHead.length ≤ 4096 →
          Runs (.firmware r p) s fun t => Mem.readN t.flash 0 s.boot.updHead.length = s.boot.updHead
            ∧ Mem.readN t.flash off d.length = d ∧ t.lastReset = 6 ∧ t.tasks = [] ∧ t.cores = []
            ∧ ∀ j, (t.ses j).isOpen = false))

/-- R199–R216, R678, R679, R872: from SUBMIT to the commit of a task. Read with log entries 8 (free lengths), 83 (the tick of acceptance), 84 (the order of checks), 85 (a commit that a fault interrupts), 118 (HALTED), 129 (the order of journal writes), 133 (a result outside the windows), 150 (a key that no slot names) and 162 (SINGLE). -/
def Obligations.AcceptedWork : Prop :=
  (∀ (s : State) (k : Fin 8) (n : Nat) (p : List Byte), Turn s k n tySubmit p → s.devState ≠ stRecovery →
    let r : Req := { who := .sess k, seq := n }
    let i := k.val
    let key := (s.ses i).key
    let q := s.key key
    let c := getLe p 0 1
    let token := getLe p 8 8
    let x := Instr.submit r p
    let no := Refused x s k n tySubmit
    let full : Prop := 262144 ≤ s.tasks.length ∨ s.journal.mirroring = true
    let known := s.tasks.find? fun (y : Task) => y.key == key && y.token == token
    let runs : Prop := s.devState = stRun ∧ s.rb aDevCtl 0 = true ∧ s.journal.single = false
    let on : Prop := s.ctxEn c = true ∧ s.rb (aCtxStatus c) 2 = false
    let covered : Prop := ∀ b ∈ subBufs p, ∃ w, w < 64 ∧ s.winValid c w = true ∧ s.winBase c w ≤ b.addr
      ∧ b.addr + b.len ≤ s.winBase c w + s.winLen c w ∧ s.winGrants c w (if b.kind = 0 then .rd else .wr) = true
    let taken := q.unreleased.filter fun a => a % s.rslots i == (q.lastIssued + 1) % s.rslots i
    let no' := fun (m v : Nat) => exec x s = .next (((s.setF (aCtxStatus c) 24 8 0).nak i n tySubmit m v).took k n)
    (s.replaying = true → no nkState 0)
    ∧ (s.replaying = false → full → exec x s = .next (s.setSes i { s.ses i with held := true }))
    ∧ (s.replaying = false → ¬ full →
      (subOk p = false → no nkMalformed 0)
      ∧ (subOk p = true →
        (∀ y, known = some y → y.accepted = true →
            exec x s = .next ((s.answer i tyAccept (natLe 8 y.token ++ natLe 8 y.asn ++ natLe 8 y.tick)).took k n))
        ∧ (∀ y, known = some y → y.accepted = false → Runs x s fun t =>
            t = { s with tasks := t.tasks } ∧ ∃ z, t.task? y.key y.asn = some z ∧ z.sess = i ∧ z.seq = n)
        ∧ (known = none →
          (token ≤ q.tokenAccepted → no nkDuplicate 0)
          ∧ (q.tokenAccepted < token →
            (¬ s.mayUse k c → no nkPermission 0) ∧ (s.mayUse k c → ¬ runs → no nkState 0)
            ∧ (s.mayUse k c → runs → ¬ on → no nkCtxDisabled 0) ∧ (s.mayUse k c → runs → on → ¬ covered → no nkPermission 0)
            ∧ (s.mayUse k c → runs → on → covered →
              (s.subCode p ≠ 0 → Runs x s fun t => t.rf (aCtxStatus c) 24 8 = s.subCode p ∧ Counted s t aDevRefuseCount
                ∧ t.tasks = s.tasks ∧ t.keys = s.keys ∧ Took t k n)
              ∧ (s.subCode p = 0 →
                (s.rslotSize i < getLe p 0x28 4 + 64 → no' nkTooLarge 0)
                ∧ (getLe p 0x28 4 + 64 ≤ s.rslotSize i →
                  (taken ≠ [] → ∃ m ∈ taken, (∀ a ∈ taken, m ≤ a) ∧ no' nkSlotBusy m)
                  ∧ (taken = [] → Runs x s (Enrolled s · k p))))))))))
  ∧ ∀ s : State,
    (∀ k : Fin 8, let v := s.ses k.val
      let full : Prop := 262144 ≤ s.tasks.length ∨ s.journal.mirroring = true
      let u := s.setSes k.val { v with held := false }
      (v.isOpen = false ∨ v.held = false ∨ s.works = false ∨ full ∨ v.head? = none → exec (.heldSubmitAdmit k) s = .next s)
      ∧ (∀ m, v.isOpen = true → v.held = true → s.works = true → ¬ full → v.head? = some m → m.typ = tySubmit →
          exec (.heldSubmitAdmit k) s = exec (.submit { who := .sess k, seq := m.seq } m.payload) u)
      ∧ ∀ (n : Nat) (p : List Byte), Turn u k n tySubmit p → v.held = true → s.works = true → s.replaying = false → ¬ full →
          Admissible u k p → Runs (.heldSubmitAdmit k) s (Enrolled u · k p))
    ∧ (∀ (key : Fin 16) (asn : Nat),
      (s.task? key.val asn = none → exec (.journalWriteComplete key asn) s = .next s)
      ∧ ∀ x, s.task? key.val asn = some x →
        let earlier : Prop := ∃ y ∈ s.tasks, y.key = x.key ∧ y.accepted = false ∧ y.asn < x.asn
        (x.accepted = true ∨ s.works = false ∨ s.journal.mirroring = true ∨ earlier →
            exec (.journalWriteComplete key asn) s = .next s)
        ∧ (x.accepted = false → s.works = true → s.journal.mirroring = false → ¬ earlier → s.fanouts = [] → Runs (.journalWriteComplete key asn) s fun t =>
            t.task? key.val asn = some { x with accepted := true }
            ∧ (let others := s.tasks.filter fun (y : Task) => !(y.key == key.val && y.asn == asn)
               t.tasks = others.filter (fun (y : Task) => y.accepted) ++ { x with accepted := true } :: others.filter fun (y : Task) => !y.accepted)
            ∧ t.mem = s.mem ∧ t.keys = s.keys
            ∧ ((8 ≤ x.sess ∨ (s.ses x.sess).isOpen = false) → t = { s with tasks := t.tasks })
            ∧ ∀ (j : Fin 8) (m : Msg), x.sess = j.val → (s.ses j.val).isOpen = true → (s.ses j.val).rxBuf = [m] → m.seq = x.seq →
                m.seq = (s.ses j.val).rxDone + 1 → m.typ = tySubmit → s.credit j.val → Took t j m.seq
                ∧ Sent s t j.val tyAccept 0 (s.ses j.val).txNext (natLe 8 x.token ++ natLe 8 x.asn ++ natLe 8 x.tick)))
    ∧ (s.works = false ∨ s.journal.mirroring = false → exec .journalMirrorComplete s = .next s)
    ∧ (s.works = true → s.journal.mirroring = true → Runs .journalMirrorComplete s fun t =>
        t = { s with regs := t.regs, journal := { s.journal with mirroring := false } } ∧ (∀ a, a ≠ aMemGlacier → t.reg a = s.reg a)
        ∧ t.rf aMemGlacier 24 4 = s.journal.a % 16 ∧ t.rf aMemGlacier 20 4 = s.journal.b % 16)
    ∧ ∀ (key : Fin 16) (asn : Nat),
      (s.task? key.val asn = none → exec (.taskCommit key asn) s = .next s)
      ∧ ∀ (x : Task), s.task? key.val asn = some x →
        let first : Prop := s.works = true ∧ ∀ y ∈ s.tasks, y.key = x.key → x.asn ≤ y.asn
        let due : Prop := x.accepted = true ∧ x.ended = true ∧ asn = (s.key key.val).lastCommitted + 1
          ∧ (∀ o ∈ s.ops, ¬ (o.key = key.val ∧ o.asn = asn)) ∧ ∀ q ∈ s.reqs, q.op.key = key.val → q.op.asn = asn → q.copies = []
        (¬ first → exec (.taskCommit key asn) s = .next s)
        ∧ (x.head = none → ¬ due ∨ s.slotOfKey key.val = none → exec (.taskCommit key asn) s = .next s)
        ∧ (∀ j, x.head = none → first → due → s.slotOfKey key.val = some j → Runs (.taskCommit key asn) s fun t =>
            t.key key.val = { s.key key.val with lastCommitted := asn, tokenCommitted := x.token } ∧ ∀ m, m ≠ key.val → t.key m = s.key m)
        ∧ (∀ h, x.head = some h → first → (x.status = none → x.log = []) → Runs (.taskCommit key asn) s fun t =>
            t.task? key.val asn = none ∧ t.keys = s.keys ∧ (s.slotOfKey key.val = none → t.mem = s.mem ∧ t.tx = s.tx)
            ∧ ∀ j, s.slotOfKey key.val = some j → (s.ses j).isOpen = true → (s.ses j).key = key.val → s.credit j →
                ∃ pl, pl.take (8 + h.length) = natLe 8 asn ++ h ∧ Sent s t j tyResult 0 (s.ses j).txNext pl)
        ∧ (∀ j, x.head = none → first → due → s.slotOfKey key.val = some j → (x.status = none → x.log = []) →
          Runs (.taskCommit key asn) s fun t =>
            let a := s.rslotAt j asn
            let late : Prop := x.late = true ∨ (x.flags.testBit 2 = true ∧ x.deadline < s.tick)
            let there : Prop := s.unbackedAt a = false ∧ s.lostAt a = false ∧ s.access x.ctx (a + 8) 56 .wr = .ok
              ∧ s.access x.ctx a 8 .wr = .ok
            t.task? key.val asn = none ∧ (∀ y ∈ t.tasks, y ∈ s.tasks)
            ∧ t.key key.val = { s.key key.val with lastCommitted := asn, tokenCommitted := x.token }
            ∧ (∀ m, m ≠ key.val → t.key m = s.key m)
            ∧ (s.calm → there → Mem.readN t.mem a 16 = natLe 8 asn ++ natLe 8 x.token
                ∧ getLe (Mem.readN t.mem a 64) 0x14 4 ≤ x.resultMax ∧ Mem.readN t.mem (a + 24) 8 = natLe 8 s.tick
                ∧ (∀ y, x.status = some y → Mem.readN t.mem (a + 16) 4 = natLe 2 y.1 ++ natLe 2 y.2)
                ∧ (x.status = none → late → Mem.readN t.mem (a + 16) 4 = natLe 2 1 ++ natLe 2 0)
                ∧ (x.status = none → ¬ late → Mem.readN t.mem (a + 16) 4 = natLe 2 0 ++ natLe 2 0))
            ∧ ((s.ses j).isOpen = false ∨ (s.ses j).key ≠ key.val → t.tx = s.tx)
            ∧ ((s.ses j).isOpen = true → (s.ses j).key = key.val → s.credit j →
                ∃ pl, pl.take 8 = natLe 8 asn ∧ Sent s t j tyResult 0 (s.ses j).txNext pl)
            ∧ t.devState = (if s.devState = stRun ∧ s.rb aDevCtl 0 = false ∧ (∀ y ∈ s.tasks, y.key = key.val ∧ y.asn = asn)
                then stReady else s.devState))

/-- R778, R798–R810, R817: exchanges between the devices of a peer group. Read with log entries 16 (the format of a reply's rows), 53 (lists under windows), 93 (a group not formed), 95 (an index without a row), 96 (what names a round), 97 and 98 (REFRESH and hot rows), 99 (an owner's failures), 102 (a signal to oneself) and 118 (HALTED). -/
def Obligations.Exchanges : Prop :=
  (∀ (s : State) (n : Fin 16384),
    (s.works = false ∨ (¬ ∃ x e, Arm s n.val 1 x e) → exec (.exchangeLookup n) s = .next s)
    ∧ (s.works = false ∨ (¬ ∃ x e, Arm s n.val 2 x e) → exec (.exchangeUpdateAdd n) s = .next s)
    ∧ (s.works = false ∨ (¬ ∃ x e, Arm s n.val 3 x e) → exec (.exchangeUpdateSet n) s = .next s)
    ∧ (s.works = false ∨ (¬ ∃ x e, Arm s n.val 4 x e) → exec (.exchangeSignal n) s = .next s)
    ∧ (∀ x e, s.works = true → Arm s n.val 1 x e → tdHot e.record = 0 → s.listReads e (sdSrc e.op.desc) →
      ∃ l u, s.hasList e (sdSrc e.op.desc) l u ∧
      let asked := (List.range s.groupSize).filter fun q => !(s.askOf { e with idx := l } q).isEmpty
      (s.groupFormed = false ∨ ¬ s.reaches asked → s.canFail e.op.key e.op.asn →
        Runs (.exchangeLookup n) s fun t => t.endedWith e.op.key e.op.asn 0x0100 0xFFFB)
      ∧ (s.groupFormed = true → s.reaches asked → s.myRank ∉ asked → Runs (.exchangeLookup n) s fun t =>
          (∃ y, t.exch? e.op.id = some y ∧ y.started = true ∧ y.idx = l ∧ y.due = asked
            ∧ ∀ j, l[j]? = some none → SMap.find y.rows j = some (zeros (sdRowBytes e.op.desc)))
          ∧ t.mem = u.mem ∧ t.tasks = s.tasks ∧ t.streams = s.streams
          ∧ ∀ q ∈ asked, (s.ses (16 + q)).txBuf.length < (t.ses (16 + q)).txBuf.length))
    ∧ (∀ (i : Instr) (kind : Nat) (x : Strm) (e : Exch), (i, kind) ∈ [(Instr.exchangeUpdateAdd n, 2), (.exchangeUpdateSet n, 3)] →
      s.works = true → Arm s n.val kind x e →
      (x.row < s.passRows x → exec i s = .next s)
      ∧ (s.passRows x ≤ x.row → s.listReads e (sdDst e.op.desc) → ∃ l u, s.hasList e (sdDst e.op.desc) l u ∧
        let ranks := List.range s.groupSize
        (s.groupFormed = false ∨ ¬ s.reaches ranks → s.canFail e.op.key e.op.asn →
          Runs i s fun t => t.endedWith e.op.key e.op.asn 0x0100 0xFFFB)
        ∧ (s.groupFormed = true → s.reaches ranks → s.myRank ∈ ranks → ∀ c rv, s.xVersion e.table e.gen = some (c, rv) →
            vrEager rv = false → (∀ a ∈ s.applied, a.table ≠ e.table) → (∀ ro ∈ s.rounds, ro.table ≠ e.table) →
            Runs i s fun t => ∃ v : State, t = v.checkExch
              ∧ (∃ y, v.exch? e.op.id = some y ∧ y.started = true ∧ y.idx = l ∧ y.due = ranks)
              ∧ (∃ part : UPart, part.rank = s.myRank ∧ part.last = true ∧ v.rounds = s.rounds ++
                  [{ table := e.table, gen := e.gen, batch := e.batch, set := e.kind == 3, parts := [part] }])
              ∧ ∀ q ∈ ranks, q ≠ s.myRank → (s.ses (16 + q)).txBuf.length < (v.ses (16 + q)).txBuf.length)))
    ∧ ∀ x e, s.works = true → Arm s n.val 4 x e →
      let d := sdSrc e.op.desc
      let q := nbits d 0 8
      let v := sdRows e.op.desc
      (s.groupFormed = false ∨ ¬ s.reaches [q] → s.canFail e.op.key e.op.asn →
        Runs (.exchangeSignal n) s fun t => t.endedWith e.op.key e.op.asn 0x0100 0xFFFB)
      ∧ (s.groupFormed = true → s.reaches [q] → q ≠ s.myRank → Runs (.exchangeSignal n) s fun t =>
          t.exch? e.op.id = some { e with started := true, due := [(s.ses (16 + q)).txNext] } ∧ t.mem = s.mem ∧ t.ctrs = s.ctrs
          ∧ (s.credit (16 + q) → Sent s t (16 + q) tySignal 0 (s.ses (16 + q)).txNext
              (natLe 1 (nbits d 8 4) ++ zeros 1 ++ natLe 2 (nbits d 16 16) ++ natLe 4 v)))
      ∧ (s.groupFormed = true → q = s.myRank → v ≠ 0 → s.ctxEn (nbits d 8 4) = true →
          ∀ c, s.translate (nbits d 8 4) (nbits d 16 16) = some (.ctr c) → Runs (.exchangeSignal n) s fun t =>
            ∃ u : State, t = u.checkExch ∧ Incremented s u c v ∧ u.mem = s.mem))
  ∧ (∀ (a b : Round) (i : Nat), a.parts.Perm b.parts → (a.parts.map fun (p : UPart) => p.rank).Nodup → a.set = b.set →
      a.combine true i = b.combine true i)
  ∧ (∀ (s : State) (r : Req) (p : List Byte) (x : Instr) (kinds : List Nat), (x, kinds) ∈ [(.lookupPart r p, [1]),
      (.lookupReply r p, [0x81]), (.updatePart r p, [2, 3]), (.updateDone r p, [0x82]), (.refresh r p, [0x83])] →
      (partOf p).kind ∉ kinds ∨ s.isHead r tyExchange p = false ∨ s.inTurn r = false ∨ s.waits r = true → exec x s = .next s)
  ∧ (∀ (s : State) (q n : Nat) (p : List Byte), PeerTurn s q n p →
    let r : Req := { who := .peer q, seq := n }
    let h := partOf p
    let live := s.xVersion h.table h.gen
    let sends := fun (x : Instr) (h' : PartMsg) (b : List Byte) =>
      PartDone x s q n fun u => u = s.sendSeq (16 + q) tyExchange (h'.head s.myRank ++ b)
    let still := fun (x : Instr) => PartDone x s q n fun u => u = s
    (∀ (x : Instr) (kinds : List Nat), (x, kinds) ∈ [(.lookupPart r p, [1]), (.lookupReply r p, [0x81]), (.updatePart r p, [2, 3]),
        (.updateDone r p, [0x82]), (.refresh r p, [0x83])] → h.kind ∈ kinds → s.devState = stRecovery →
        PartDone x s q n fun u => u = s.nak (16 + q) n tyExchange nkState 0)
    ∧ (s.devState ≠ stRecovery →
      (h.kind = 1 →
        let here : PeerLookup := { rank := q, xid := h.xid, table := h.table, gen := h.gen }
        let noted := { s with lookups := (s.lookups.filter fun (x : PeerLookup) => x != here) ++ if h.last then [] else [here] }
        let f := 8 + Config.armFmt q h.xid % 2
        (live = none → PartDone (.lookupPart r p) s q n fun u => u = noted.sendSeq (16 + q) tyExchange
            ({ h with kind := 0x81, flags := if h.last then 5 else 4, count := 0 }.head s.myRank))
        ∧ ∀ c t, live = some (c, t) →
          (∀ e, noted.serveOwn c t (unpack (if nbit h.flags 1 then 64 else 32) h.count h.body) = .error e →
            PartDone (.lookupPart r p) s q n fun u => u = (e.note c).sendSeq (16 + q) tyExchange
              ({ h with kind := 0x81, flags := if h.last then 9 else 8, count := 0 }.head s.myRank))
          ∧ (∀ i, unpack (if nbit h.flags 1 then 64 else 32) h.count h.body = [i] → s.ownIndex t i = none →
            PartDone (.lookupPart r p) s q n fun u => u = (noted.bump aDropMissing).sendSeq (16 + q) tyExchange
              ({ h with kind := 0x81, flags := if h.last then 1 else 0, count := 1 }.head s.myRank
                ++ rowBlock f (List.replicate (tdDim t) 0)))
          ∧ (∀ i j w, unpack (if nbit h.flags 1 then 64 else 32) h.count h.body = [i] → s.ownIndex t i = some j →
            tdHot t = 0 → tdSketchEn t = false → s.unitAt (homeAddr t j) = some w → s.calm →
            s.rowStands c w t { pos := 0, unit := w, idx := j, hot := false } →
            let a := s.rowNamed t w { pos := 0, unit := w, idx := j, hot := false }
            let vals := (decodeRow a.tier (tdDim t) (Mem.readN s.mem a.addr (storedBytes a.tier (tdDim t)))).map (·.1)
            PartDone (.lookupPart r p) s q n fun u => ∃ v : State, v.mem = s.mem ∧ v.sess = s.sess ∧ v.tasks = s.tasks ∧ v.lookups = noted.lookups
              ∧ u = v.sendSeq (16 + q) tyExchange ({ h with kind := 0x81, flags := if h.last then 1 else 0, count := 1 }.head s.myRank
                ++ rowBlock f (if f = 8 then vals.map fun x => (toBf16 x).1 else vals))))
      ∧ (h.kind = 0x81 →
        (s.exchOfXid h.xid = none → still (.lookupReply r p))
        ∧ ∀ e, s.exchOfXid h.xid = some e →
          let fails := fun (st det : Nat) => s.canFail e.op.key e.op.asn →
            PartDone (.lookupReply r p) s q n fun u => u.endedWith e.op.key e.op.asn st det
          let blocks := takeBlocks h.count (tdDim e.record) h.body
          (e.kind ≠ 1 ∨ q ∉ e.due → still (.lookupReply r p))
          ∧ (e.kind = 1 → q ∈ e.due →
            (nbit h.flags 2 = true → fails 0x0104 0xFFFC)
            ∧ (nbit h.flags 2 = false → nbit h.flags 3 = true → fails 0x0100 0xFFFB)
            ∧ (nbit h.flags 2 = false → nbit h.flags 3 = false → (nbit h.flags 4 = true ∨ blocks = none) → fails 0x0102 (e.op.core / 16))
            ∧ (nbit h.flags 2 = false → nbit h.flags 3 = false → nbit h.flags 4 = false → ∀ l, blocks = some l →
              PartDone (.lookupReply r p) s q n fun u => u = { s with exch := u.exch } ∧ ∃ y, u.exch? e.op.id = some y
                ∧ y.due = (if h.last then e.due.filter (fun d => d != q) else e.due) ∧ y.idx = e.idx
                ∧ ∀ (j m i : Nat) (b : Nat × List Nat), ((s.askOf e q).drop h.first)[m]? = some i → l[m]? = some b → e.idx[j]? = some (some i) →
                    SMap.find y.rows j = some (rowFrom (sdXfmt e.op.desc) b.1 b.2))))
      ∧ (h.kind = 2 ∨ h.kind = 3 →
        let done := fun (f : Nat) => sends (.updatePart r p) { h with kind := 0x82, flags := f, count := 0, first := 0 } []
        let known := s.applied.find? fun (a : Applied) => a.table == h.table && a.gen == h.gen && a.batch == h.batch
        (known ≠ none → h.last = false → still (.updatePart r p))
        ∧ (known ≠ none → h.last = true → q ≠ s.myRank → PartDone (.updatePart r p) s q n fun u =>
            u = { s with sess := u.sess, tx := u.tx, port := u.port } ∧ ∃ m ∈ (u.ses (16 + q)).txBuf,
              m.typ = tyExchange ∧ getLe m.payload 0 8 = h.xid % 2 ^ 64 ∧ getLe m.payload 8 1 = 0x82)
        ∧ (known = none → live = none → q ≠ s.myRank → done 5)
        ∧ ∀ c t, known = none → live = some (c, t) →
          (takeEntries h.count (tdDim t) h.body = none → q ≠ s.myRank → done 17)
          ∧ ∀ l, takeEntries h.count (tdDim t) h.body = some l →
            (vrEager t = false → (∀ ro ∈ s.rounds, ro.isOf h = false) → h.first = 0 →
              PartDone (.updatePart r p) s q n fun u => u = { s with rounds := s.rounds ++ [{
                table := h.table, gen := h.gen, batch := h.batch, set := h.kind == 3,
                parts := [{ rank := q, xid := h.xid, seq := n, last := h.last, entries := l }] }] }))
      ∧ (h.kind = 0x83 →
        (live = none → still (.refresh r p))
        ∧ ∀ c t, live = some (c, t) →
          (∀ l, takeEntries h.count (tdDim t) h.body = some l → (∀ e ∈ l, tdHot t ≤ e.1) → still (.refresh r p))
          ∧ (∀ l, takeEntries h.count (tdDim t) h.body = some l → PartDone (.refresh r p) s q n fun u =>
              u = l.foldl (fun (v : State) e => if e.1 < tdHot t then v.refreshRow c t e.1 e.2 else v) s)
          ∧ (takeEntries h.count (tdDim t) h.body = none →
            (s.exchOfXid h.xid = none → still (.refresh r p))
            ∧ ∀ e, s.exchOfXid h.xid = some e → s.canFail e.op.key e.op.asn →
                PartDone (.refresh r p) s q n fun u => u.endedWith e.op.key e.op.asn 0x0102 (e.op.core / 16)))
      ∧ (h.kind = 0x82 →
        (s.exchOfXid h.xid = none → still (.updateDone r p))
        ∧ ∀ e, s.exchOfXid h.xid = some e →
          let fails := fun (st det : Nat) => s.canFail e.op.key e.op.asn →
            PartDone (.updateDone r p) s q n fun u => u.endedWith e.op.key e.op.asn st det
          ((e.kind ≠ 2 ∧ e.kind ≠ 3) ∨ q ∉ e.due → still (.updateDone r p))
          ∧ (e.kind = 2 ∨ e.kind = 3 → q ∈ e.due →
            (nbit h.flags 2 = true → fails 0x0104 0xFFFC)
            ∧ (nbit h.flags 2 = false → nbit h.flags 3 = true → fails 0x0100 0xFFFB)
            ∧ (nbit h.flags 2 = false → nbit h.flags 3 = false → nbit h.flags 4 = true → fails 0x0102 (e.op.core / 16))
            ∧ (nbit h.flags 2 = false → nbit h.flags 3 = false → nbit h.flags 4 = false →
              PartDone (.updateDone r p) s q n fun u => u = { s with exch := u.exch }
                ∧ ∀ y ∈ u.exch, y.op.id = e.op.id → q ∉ y.due)))))
  ∧ ∀ (s : State) (t : Fin 4096) (gen batch : Nat),
    let due := s.rounds.find? fun (ro : Round) => ro.table == t.val && ro.gen == gen && ro.batch == batch && s.roundFull ro
    (s.works = false ∨ due = none ∨ s.groupFormed = false → exec (.updateRoundApply t gen batch) s = .next s)
    ∧ ∀ ro, s.works = true → due = some ro → s.groupFormed = true → s.exch = [] → Runs (.updateRoundApply t gen batch) s fun t' =>
      ∃ u : State, t' = u.checkExch ∧ u.rounds = s.rounds.erase ro
      ∧ (s.xVersion ro.table ro.gen = none → u.applied = s.applied ∧ u.mem = s.mem)
      ∧ (s.xVersion ro.table ro.gen ≠ none → ∃ a ∈ u.applied, a.table = ro.table ∧ a.gen = ro.gen ∧ a.batch = ro.batch)
      ∧ ∀ e ∈ ro.asks, e.1 ≠ s.myRank → (s.ses (16 + e.1)).isOpen = true →
          ∃ m ∈ (u.ses (16 + e.1)).txBuf, m.typ = tyExchange ∧ getLe m.payload 0 8 = e.2 % 2 ^ 64 ∧ getLe m.payload 8 1 = 0x82

/-- R271–R275, R859–R866, R878–R882, R891: errors, their reports and the tasks they stop. Read with log entries 5 (due ticks), 22 (the bytes that an error hits), 104 (what the commands carry), 105 (corrected errors), 110 (records close in their order) and 151 (origin ticks). -/
def Obligations.FaultReports : Prop :=
  ∀ s : State,
    (∀ (link receiver : Nat) (n : Fin 9) (owners : List (Nat × Nat)) (waiters : List Nat),
      let x := Instr.transferParityError link receiver n owners waiters
      let isLink_ : Prop := (0x560 ≤ link ∧ link < 0x578) ∨ (0x520 ≤ link ∧ link < 0x530) ∨ link ∈ [0x592, 0x593, 0x596]
      let named : Prop := isUnit receiver = true ∧ ∀ w ∈ waiters, isUnit w = true
      (¬ isLink_ ∨ ¬ named → exec x s = .next s)
      ∧ (isLink_ → named → n.val < 8 → Runs x s fun t => Counted s t (aErr 0x100) ∧ Reported t 0x01 link ∧ t.mem = s.mem
          ∧ t.tasks = s.tasks ∧ t.cores = s.cores)
      ∧ (isLink_ → named → n.val = 8 → Runs x s fun t => (s.journalStays link → ∀ key asn y, (key, asn) ∈ owners → s.task? key asn = some y →
            s.canFail key asn → y.retries < 2 → t.willRetry key asn)
          ∧ (owners = [] → stays link → Counted s t (aErr 0x104) ∧ Reported t 0x02 link ∧ t.mem = s.mem ∧ t.tasks = s.tasks)))
    ∧ (∀ u key asn : Nat, (s.task? key asn = none ∨ isUnit u = false → exec (.stateParityError u key asn) s = .next s)
      ∧ ∀ x, s.task? key asn = some x → isUnit u = true →
        (¬ s.canFail key asn → Runs (.stateParityError u key asn) s fun t => Reported t 0x03 u ∧ t.tasks = s.tasks ∧ t.mem = s.mem
          ∧ t.cores = s.cores)
        ∧ (s.canFail key asn → s.journalStays u →
          (x.retries < 2 → Runs (.stateParityError u key asn) s fun t => t.willRetry key asn ∧ (stays u → Reported t 0x03 u))
          ∧ (2 ≤ x.retries → Runs (.stateParityError u key asn) s fun t => t.endedWith key asn 0x0101 u)))
    ∧ (∀ u a : Nat, (isUnit u = false → exec (.correctedError (some u) a) s = .next s)
      ∧ (isUnit u = true → Runs (.correctedError (some u) a) s fun t => Counted s t (aErr 0x110) ∧ Reported t 0x04 u ∧ t.mem = s.mem
        ∧ t.tasks = s.tasks ∧ t.cores = s.cores))
    ∧ (∀ a : Nat,
      (s.tierAt a = false → exec (.correctedError none a) s = .next s)
      ∧ (s.tierAt a = true → Runs (.correctedError none a) s fun t => Counted s t (aErr 0x110) ∧ Reported t 0x04 (s.place a).unit
          ∧ t.mem = s.mem ∧ t.tasks = s.tasks))
    ∧ (∀ a key asn : Nat, (s.tierAt a = false ∨ s.heldGood (a / 128) = true ∨ s.task? key asn = none →
        exec (.uncorrectableError (.read a key asn)) s = .next s)
      ∧ ∀ x, s.tierAt a = true → s.heldGood (a / 128) = false → s.task? key asn = some x → s.canFail key asn →
          s.journalStays (s.place a).unit →
        (x.owns a = true → x.retries < 2 → Runs (.uncorrectableError (.read a key asn)) s fun t => t.willRetry key asn)
        ∧ (x.owns a = false → Runs (.uncorrectableError (.read a key asn)) s fun t => t.endedWith key asn 0x0100 (x.bufOf a)))
    ∧ (∀ a : Nat,
      (s.findWay (a / 128) = none → exec (.uncorrectableError (.dirty a)) s = .next s)
      ∧ ∀ w e, s.findWay (a / 128) = some w → s.holdsAt (wayKey (a / 128) w) e →
        (e.dirty = false → exec (.uncorrectableError (.dirty a)) s = .next s)
        ∧ (e.dirty = true → Runs (.uncorrectableError (.dirty a)) s fun t => t.tierBad (a / 128) = 2 ^ 128 - 1
            ∧ Reported t 0x05 (0x500 + lineSlice (a / 128)) ∧ Counted s t (aErr 0x114) ∧ Counted s t (aDomeCnt 2) ∧ t.mem = s.mem
            ∧ t.tasks = s.tasks ∧ t.holdsAt (wayKey (a / 128) w) { e with dirty := false, bad := 2 ^ 128 - 1 }
            ∧ (s.tick, 0x500 + lineSlice (a / 128)) ∈ t.stops))
    ∧ (∀ key asn : Nat, (s.task? key asn = none → exec (.uncorrectableError (.journal key asn)) s = .next s)
      ∧ ∀ x, s.task? key asn = some x → (s.recorded x = true ∨ x.accepted = false → exec (.uncorrectableError (.journal key asn)) s = .next s)
        ∧ (s.recorded x = false → x.accepted = true → Runs (.uncorrectableError (.journal key asn)) s fun t => t.endedWith key asn 0x0100 0xFFFF))
    ∧ (∀ a : Nat,
      let idle := if a < glacierBase then s.pins.nearSelfRefresh else s.pins.glacierSelfRefresh
      let bad := s.tierBad (a / 128)
      let u := (s.place a).unit
      (∀ r, s.tierAt a = false ∨ idle = true → exec (.patrolScrub a r) s = .next s)
      ∧ (s.tierAt a = true → idle = false →
        (bad = 0 → exec (.patrolScrub a .clean) s = .next s)
        ∧ (bad = 0 → Runs (.patrolScrub a .corrected) s fun t => Counted s t (aErr 0x110) ∧ Reported t 0x04 u
            ∧ t.mem = s.mem ∧ t.tasks = s.tasks ∧ t.badBytes = s.badBytes)
        ∧ ∀ r, bad ≠ 0 ∨ r = .uncorrectable → (∀ e ∈ s.stops, e.2 ≠ failKey u) → 1 < s.failLimit →
            Runs (.patrolScrub a r) s fun t => t.tierBad (a / 128) = (if bad = 0 then 2 ^ 128 - 1 else bad) ∧ Reported t 0x05 u ∧ Counted s t (aErr 0x114)
              ∧ t.mem = s.mem ∧ t.tasks = s.tasks ∧ (s.tick, failKey u) ∈ t.stops))
    ∧ ∀ n : Nat, let first := s.errs.find? fun (e : ErrRec) => e.isOpen
      (first = none → exec (.recordClose n) s = .next s)
      ∧ ∀ e, first = some e → (e.seq ≠ n → exec (.recordClose n) s = .next s)
        ∧ (e.seq = n → Runs (.recordClose n) s fun t => t = { s with tick := min (max s.tick (e.first + 1000000)) (2 ^ 64 - 1), errs := t.errs }
            ∧ t.errs.map (fun (x : ErrRec) => x.isOpen) = s.errs.map (fun (x : ErrRec) => x.isOpen && x.seq != n)
            ∧ t.errs.map (fun (x : ErrRec) => x.seq) = s.errs.map (fun (x : ErrRec) => x.seq))

/-- The canonical form of memories and registers is an invariant of every step. -/
def Obligations.CanonicalFormIsKept : Prop :=
  ∀ s t : State, s.Canonical → step s = .next t → t.Canonical

/-- The state after reset (Reset columns of the register map; log entries 3 and 43 name what is the model's). -/
def Obligations.ResetState : Prop :=
  let s := State.reset
  s.Canonical ∧ s.pending = [] ∧ s.tasks = [] ∧ s.sess = [] ∧ s.keys = [] ∧ s.ctrs = [] ∧ s.progs = [] ∧ s.qps = [] ∧ s.ops = []
  ∧ s.cores = [] ∧ s.streams = [] ∧ s.errs = [] ∧ s.tables = [] ∧ s.dome.lines = [] ∧ s.tick = 0 ∧ s.devState = stReset
  ∧ (∀ a, Mem.read s.mem a = 0 ∧ Mem.read s.dmem a = 0) ∧ (∀ a, s.reg a = regReset a)
  ∧ s.rb aDevCtl 0 = false ∧ (∀ c, c < 16 → s.ctxEn c = false)
  ∧ s.reg 0x000 = 0x900900A1 ∧ s.reg 0x100 = 0x5DC ∧ s.reg 0x108 = 0x906E
  ∧ (∀ k, k < 8 → s.reg (0x20004 + 0x1000 * k) = 0xFFFF ∧ s.reg (0x20008 + 0x1000 * k) = 0x20400032
      ∧ s.reg (0x20018 + 0x1000 * k) = 0x1000040)
  ∧ s.reg 0x28004 = 0x8000 ∧ s.reg 0x28008 = 0x5A510000 ∧ (∀ c, c < 16 → s.reg (0x30018 + 0x1000 * c) = 0xFFFFFFFF)
  ∧ s.reg 0x40004 = 0xFFFF0000 ∧ s.reg 0x40008 = 0xFFFF ∧ s.reg 0xC0004 = 100000 ∧ s.reg 0xD0004 = 0x40000
  ∧ s.reg 0xD0008 = 0x10000 ∧ s.reg 0xD000C = 0x1000 ∧ s.reg 0xF0000 = 0x40 ∧ s.reg 0x100004 = 3
end

