-- ==== Sys2Proof/Laws/Maps.lean ====
section
/-! SUPPORT. Sparse maps and byte memories: a read after a write, what a write leaves alone, and the canonical form that every
operation keeps. -/

namespace Sys2Proof.Machine

section Maps
variable {α : Type}

/-- Inserting a key leaves the first entry of every other key. -/
theorem insertAt_find_ne (m : SMap α) (k j : Nat) (v : α) (h : j ≠ k) :
    (SMap.insertAt k v m).find? (fun e => e.1 == j) = m.find? (fun e => e.1 == j) := by
  induction m with
  | nil => simp [SMap.insertAt, List.find?, Ne.symm h]
  | cons e t ih =>
    unfold SMap.insertAt
    split
    · simp [List.find?_cons, Ne.symm h]
    · simp only [List.find?_cons, ih]

/-- An inserted key is found where no entry had it. -/
theorem insertAt_find_self (m : SMap α) (k : Nat) (v : α) (h : ∀ e ∈ m, e.1 ≠ k) :
    (SMap.insertAt k v m).find? (fun e => e.1 == k) = some (k, v) := by
  induction m with
  | nil => simp [SMap.insertAt]
  | cons e t ih =>
    have he : e.1 ≠ k := h e (by simp)
    have ht : ∀ x ∈ t, x.1 ≠ k := fun x hx => h x (by simp [hx])
    unfold SMap.insertAt
    split
    · simp
    · simp [he, ih ht]

/-- An erased map has no entry of the key. -/
theorem erase_ne (m : SMap α) (k : Nat) : ∀ e ∈ SMap.erase m k, e.1 ≠ k := by
  intro e he
  simpa [SMap.erase] using (List.mem_filter.mp he).2

/-- Erasing a key leaves the first entry of every other key. -/
theorem erase_find_ne (m : SMap α) (k j : Nat) (h : j ≠ k) :
    (SMap.erase m k).find? (fun e => e.1 == j) = m.find? (fun e => e.1 == j) := by
  induction m with
  | nil => rfl
  | cons e t ih =>
    unfold SMap.erase at ih ⊢
    by_cases hk : e.1 = k
    · have hj : (e.1 == j) = false := by simp only [beq_eq_false_iff_ne]; omega
      rw [List.filter_cons_of_neg (by simp [hk]), ih, List.find?_cons, hj]
    · rw [List.filter_cons_of_pos (by simp [hk]), List.find?_cons, List.find?_cons, ih]

/-- An erased key is not found. -/
theorem erase_find_self (m : SMap α) (k : Nat) : (SMap.erase m k).find? (fun e => e.1 == k) = none := by
  rw [List.find?_eq_none]
  intro e he
  simpa using erase_ne m k e he

/-- A read of a map after put: the value put there, or what was there. -/
theorem SMap.get_put (m : SMap α) (d v : α) (k j : Nat) :
    SMap.get (SMap.put m k v) d j = if j = k then v else SMap.get m d j := by
  by_cases h : j = k
  · subst h; simp [SMap.get, SMap.put, insertAt_find_self _ _ _ (erase_ne m j)]
  · simp [SMap.get, SMap.put, insertAt_find_ne _ _ _ _ h, erase_find_ne _ _ _ h, h]

/-- A read of a map after an erasure: the default there, or what was there. -/
theorem SMap.get_erase (m : SMap α) (d : α) (k j : Nat) :
    SMap.get (SMap.erase m k) d j = if j = k then d else SMap.get m d j := by
  by_cases h : j = k
  · subst h; simp [SMap.get, erase_find_self]
  · simp [SMap.get, erase_find_ne _ _ _ h, h]

/-- A read of a map after set: the value set there, or what was there. -/
theorem SMap.get_set [DecidableEq α] (m : SMap α) (d v : α) (k j : Nat) :
    SMap.get (SMap.set m d k v) d j = if j = k then v else SMap.get m d j := by
  unfold SMap.set
  split
  · subst_vars; exact SMap.get_erase m _ k j
  · exact SMap.get_put m d v k j

/-- A read of another key of a map after set, whatever the two keys' defaults. -/
theorem SMap.get_set_ne [DecidableEq α] (m : SMap α) (d d' v : α) (k j : Nat) (h : j ≠ k) :
    SMap.get (SMap.set m d' k v) d j = SMap.get m d j := by
  unfold SMap.set
  split
  · rw [SMap.get_erase, if_neg h]
  · rw [SMap.get_put, if_neg h]

/-- Inserting below every key keeps the keys rising. -/
theorem insertAt_pairwise (m : SMap α) (k : Nat) (v : α) (hm : m.Pairwise fun a b => a.1 < b.1)
    (hk : ∀ e ∈ m, e.1 ≠ k) : (SMap.insertAt k v m).Pairwise fun a b => a.1 < b.1 := by
  induction m with
  | nil => simp [SMap.insertAt]
  | cons e t ih =>
    rw [List.pairwise_cons] at hm
    have he : e.1 ≠ k := hk e (by simp)
    unfold SMap.insertAt
    split
    · rename_i hlt
      rw [List.pairwise_cons, List.pairwise_cons]
      refine ⟨?_, hm⟩
      intro x hx
      rcases List.mem_cons.mp hx with rfl | hx
      · exact hlt
      · exact Nat.lt_trans hlt (hm.1 x hx)
    · rename_i hlt
      rw [List.pairwise_cons]
      refine ⟨?_, ih hm.2 fun x hx => hk x (by simp [hx])⟩
      intro x hx
      have : x = (k, v) ∨ x ∈ t := by
        clear ih hk hm
        induction t with
        | nil => simpa [SMap.insertAt] using hx
        | cons b u ihu =>
          unfold SMap.insertAt at hx
          split at hx
          · rcases List.mem_cons.mp hx with h | h
            · exact .inl h
            · exact .inr h
          · rcases List.mem_cons.mp hx with h | h
            · exact .inr (by simp [h])
            · rcases ihu h with h | h
              · exact .inl h
              · exact .inr (by simp [h])
      rcases this with rfl | h
      · show e.1 < k; omega
      · exact hm.1 x h

/-- What an insertion holds. -/
theorem mem_insertAt (m : SMap α) (k : Nat) (v : α) (x : Nat × α) : x ∈ SMap.insertAt k v m ↔ x = (k, v) ∨ x ∈ m := by
  induction m with
  | nil => simp [SMap.insertAt]
  | cons e t ih =>
    unfold SMap.insertAt
    split
    · simp
    · simp only [List.mem_cons, ih]; tauto

/-- A part of a canonical map is canonical. -/
theorem SMap.wf_filter [DecidableEq α] (d : Nat → α) (m : SMap α) (p : Nat × α → Bool) (h : SMap.wf d m = true) :
    SMap.wf d (m.filter p) = true := by
  simp only [SMap.wf, Bool.and_eq_true, decide_eq_true_eq, List.all_eq_true] at h ⊢
  exact ⟨h.1.filter p, fun e he => h.2 e (List.mem_filter.mp he).1⟩

/-- Erasing keeps the canonical form. -/
theorem SMap.wf_erase [DecidableEq α] (d : Nat → α) (m : SMap α) (k : Nat) (h : SMap.wf d m = true) :
    SMap.wf d (SMap.erase m k) = true := SMap.wf_filter d m _ h

/-- Putting a value that is not the default keeps the canonical form. -/
theorem SMap.wf_put [DecidableEq α] (d : Nat → α) (m : SMap α) (k : Nat) (v : α) (h : SMap.wf d m = true) (hv : v ≠ d k) :
    SMap.wf d (SMap.put m k v) = true := by
  have he := SMap.wf_erase d m k h
  simp only [SMap.wf, Bool.and_eq_true, decide_eq_true_eq, List.all_eq_true] at he ⊢
  refine ⟨insertAt_pairwise _ k v he.1 (erase_ne m k), fun e hx => ?_⟩
  rcases (mem_insertAt _ k v e).mp hx with rfl | hx
  · exact hv
  · exact he.2 e hx

/-- Setting a value keeps the canonical form. -/
theorem SMap.wf_set [DecidableEq α] (d : Nat → α) (m : SMap α) (k : Nat) (v : α) (h : SMap.wf d m = true) :
    SMap.wf d (SMap.set m (d k) k v) = true := by
  unfold SMap.set
  split
  · exact SMap.wf_erase d m k h
  · rename_i hv; exact SMap.wf_put d m k v h hv

end Maps

/-! Byte memories. -/

/-- A read after a write of one byte. -/
theorem Mem.read_write (m : Mem) (a b : Nat) (v : Byte) : Mem.read (Mem.write m a v) b = if b = a then v else Mem.read m b := by
  unfold Mem.read Mem.write
  simp only [SMap.get_set]
  by_cases h : b = a
  · subst h; simp
  · simp [h]

/-- Writing bytes leaves every byte outside them alone. -/
theorem Mem.read_writeN_out (l : List Byte) : ∀ (m : Mem) (a b : Nat), (b < a ∨ a + l.length ≤ b) →
    Mem.read (Mem.writeN m a l) b = Mem.read m b := by
  induction l with
  | nil => intro m a b _; rfl
  | cons x t ih =>
    intro m a b h
    simp only [List.length_cons] at h
    rw [Mem.writeN, ih _ _ _ (by omega), Mem.read_write, if_neg (by omega)]

/-- The bytes written are read back. -/
theorem Mem.readN_writeN (l : List Byte) : ∀ (m : Mem) (a : Nat), Mem.readN (Mem.writeN m a l) a l.length = l := by
  induction l with
  | nil => intro m a; rfl
  | cons x t ih =>
    intro m a
    rw [Mem.writeN, List.length_cons, Mem.readN, ih, Mem.read_writeN_out t _ _ _ (by omega), Mem.read_write, if_pos rfl]

/-- A write of a byte keeps the canonical form. -/
theorem Mem.wf_write (m : Mem) (a : Nat) (v : Byte) (h : m.wf = true) : (Mem.write m a v).wf = true :=
  SMap.wf_set (fun _ => (0 : Byte)) m.cells a _ h

/-- A write of bytes keeps the canonical form. -/
theorem Mem.wf_writeN (l : List Byte) : ∀ (m : Mem) (a : Nat), m.wf = true → (Mem.writeN m a l).wf = true := by
  induction l with
  | nil => intro m a h; exact h
  | cons x t ih => intro m a h; exact ih _ _ (Mem.wf_write m a x h)

/-- A series of writes keeps the canonical form. -/
theorem Mem.wf_foldl_writeN (l : List (Nat × List Byte)) : ∀ m : Mem, m.wf = true →
    (l.foldl (fun (m : Mem) (w : Nat × List Byte) => Mem.writeN m w.1 w.2) m).wf = true := by
  induction l with
  | nil => intro m h; exact h
  | cons x t ih => intro m h; exact ih _ (Mem.wf_writeN x.2 m x.1 h)

/-- A range that loses its contents keeps the canonical form. -/
theorem Mem.wf_scramble (m : Mem) (lo hi d : Nat) (h : m.wf = true) : (m.scramble lo hi d).wf = true :=
  SMap.wf_filter (fun _ => (0 : Byte)) m.cells _ h

/-- A range that is cleared keeps the canonical form. -/
theorem Mem.wf_clearRange (m : Mem) (lo hi : Nat) (h : m.wf = true) : (m.clearRange lo hi).wf = true :=
  SMap.wf_filter (fun _ => (0 : Byte)) m.cells _ h

end Sys2Proof.Machine
end

