-- ==== Sys2Proof/Laws/State.lean ====
section
/-! SUPPORT. What each update of State leaves alone, field by field, and what it makes of the part it updates; the canonical form
of the memories under the named operations; and what a core's execution of its instruction comes to. -/

namespace Sys2Proof.Machine

/-! One lemma per update and field. -/

@[simp] theorem setReg_pending (s : State) (a : Nat) (v : W32) : (s.setReg a v).pending = s.pending := rfl
@[simp] theorem setReg_tick (s : State) (a : Nat) (v : W32) : (s.setReg a v).tick = s.tick := rfl
@[simp] theorem setReg_pins (s : State) (a : Nat) (v : W32) : (s.setReg a v).pins = s.pins := rfl
@[simp] theorem setReg_fuses (s : State) (a : Nat) (v : W32) : (s.setReg a v).fuses = s.fuses := rfl
@[simp] theorem setReg_power (s : State) (a : Nat) (v : W32) : (s.setReg a v).power = s.power := rfl
@[simp] theorem setReg_boot (s : State) (a : Nat) (v : W32) : (s.setReg a v).boot = s.boot := rfl
@[simp] theorem setReg_port (s : State) (a : Nat) (v : W32) : (s.setReg a v).port = s.port := rfl
@[simp] theorem setReg_ptp (s : State) (a : Nat) (v : W32) : (s.setReg a v).ptp = s.ptp := rfl
@[simp] theorem setReg_sess (s : State) (a : Nat) (v : W32) : (s.setReg a v).sess = s.sess := rfl
@[simp] theorem setReg_i3cSamples (s : State) (a : Nat) (v : W32) : (s.setReg a v).i3cSamples = s.i3cSamples := rfl
@[simp] theorem setReg_keys (s : State) (a : Nat) (v : W32) : (s.setReg a v).keys = s.keys := rfl
@[simp] theorem setReg_qps (s : State) (a : Nat) (v : W32) : (s.setReg a v).qps = s.qps := rfl
@[simp] theorem setReg_tasks (s : State) (a : Nat) (v : W32) : (s.setReg a v).tasks = s.tasks := rfl
@[simp] theorem setReg_cores (s : State) (a : Nat) (v : W32) : (s.setReg a v).cores = s.cores := rfl
@[simp] theorem setReg_mem (s : State) (a : Nat) (v : W32) : (s.setReg a v).mem = s.mem := rfl
@[simp] theorem setReg_dmem (s : State) (a : Nat) (v : W32) : (s.setReg a v).dmem = s.dmem := rfl
@[simp] theorem setReg_flash (s : State) (a : Nat) (v : W32) : (s.setReg a v).flash = s.flash := rfl
@[simp] theorem setReg_progs (s : State) (a : Nat) (v : W32) : (s.setReg a v).progs = s.progs := rfl
@[simp] theorem setReg_icache (s : State) (a : Nat) (v : W32) : (s.setReg a v).icache = s.icache := rfl
@[simp] theorem setReg_loads (s : State) (a : Nat) (v : W32) : (s.setReg a v).loads = s.loads := rfl
@[simp] theorem setReg_dome (s : State) (a : Nat) (v : W32) : (s.setReg a v).dome = s.dome := rfl
@[simp] theorem setReg_rgnChange (s : State) (a : Nat) (v : W32) : (s.setReg a v).rgnChange = s.rgnChange := rfl
@[simp] theorem setReg_arrivals (s : State) (a : Nat) (v : W32) : (s.setReg a v).arrivals = s.arrivals := rfl
@[simp] theorem setReg_tx (s : State) (a : Nat) (v : W32) : (s.setReg a v).tx = s.tx := rfl
@[simp] theorem setReg_draws (s : State) (a : Nat) (v : W32) : (s.setReg a v).draws = s.draws := rfl
@[simp] theorem setReg_errs (s : State) (a : Nat) (v : W32) : (s.setReg a v).errs = s.errs := rfl
@[simp] theorem setReg_enSpires (s : State) (a : Nat) (v : W32) : (s.setReg a v).enSpires = s.enSpires := rfl
@[simp] theorem setReg_ctxHeld (s : State) (a : Nat) (v : W32) : (s.setReg a v).ctxHeld = s.ctxHeld := rfl
@[simp] theorem setReg_outOfService (s : State) (a : Nat) (v : W32) : (s.setReg a v).outOfService = s.outOfService := rfl
@[simp] theorem setReg_ctrs (s : State) (a : Nat) (v : W32) : (s.setReg a v).ctrs = s.ctrs := rfl
@[simp] theorem setReg_clrDue (s : State) (a : Nat) (v : W32) : (s.setReg a v).clrDue = s.clrDue := rfl
@[simp] theorem setReg_waiters (s : State) (a : Nat) (v : W32) : (s.setReg a v).waiters = s.waiters := rfl
@[simp] theorem setReg_poolHeld (s : State) (a : Nat) (v : W32) : (s.setReg a v).poolHeld = s.poolHeld := rfl
@[simp] theorem setReg_ready (s : State) (a : Nat) (v : W32) : (s.setReg a v).ready = s.ready := rfl
@[simp] theorem setReg_entrySeq (s : State) (a : Nat) (v : W32) : (s.setReg a v).entrySeq = s.entrySeq := rfl
@[simp] theorem setReg_qos (s : State) (a : Nat) (v : W32) : (s.setReg a v).qos = s.qos := rfl
@[simp] theorem setReg_ops (s : State) (a : Nat) (v : W32) : (s.setReg a v).ops = s.ops := rfl
@[simp] theorem setReg_opSeq (s : State) (a : Nat) (v : W32) : (s.setReg a v).opSeq = s.opSeq := rfl
@[simp] theorem setReg_served (s : State) (a : Nat) (v : W32) : (s.setReg a v).served = s.served := rfl
@[simp] theorem setReg_streams (s : State) (a : Nat) (v : W32) : (s.setReg a v).streams = s.streams := rfl
@[simp] theorem setReg_reqs (s : State) (a : Nat) (v : W32) : (s.setReg a v).reqs = s.reqs := rfl
@[simp] theorem setReg_arr (s : State) (a : Nat) (v : W32) : (s.setReg a v).arr = s.arr := rfl
@[simp] theorem setReg_scales (s : State) (a : Nat) (v : W32) : (s.setReg a v).scales = s.scales := rfl
@[simp] theorem setReg_gscales (s : State) (a : Nat) (v : W32) : (s.setReg a v).gscales = s.gscales := rfl
@[simp] theorem setReg_tables (s : State) (a : Nat) (v : W32) : (s.setReg a v).tables = s.tables := rfl
@[simp] theorem setReg_genHigh (s : State) (a : Nat) (v : W32) : (s.setReg a v).genHigh = s.genHigh := rfl
@[simp] theorem setReg_batches (s : State) (a : Nat) (v : W32) : (s.setReg a v).batches = s.batches := rfl
@[simp] theorem setReg_exch (s : State) (a : Nat) (v : W32) : (s.setReg a v).exch = s.exch := rfl
@[simp] theorem setReg_rounds (s : State) (a : Nat) (v : W32) : (s.setReg a v).rounds = s.rounds := rfl
@[simp] theorem setReg_lookups (s : State) (a : Nat) (v : W32) : (s.setReg a v).lookups = s.lookups := rfl
@[simp] theorem setReg_applied (s : State) (a : Nat) (v : W32) : (s.setReg a v).applied = s.applied := rfl
@[simp] theorem setReg_form (s : State) (a : Nat) (v : W32) : (s.setReg a v).form = s.form := rfl
@[simp] theorem setReg_starts (s : State) (a : Nat) (v : W32) : (s.setReg a v).starts = s.starts := rfl
@[simp] theorem setReg_fanouts (s : State) (a : Nat) (v : W32) : (s.setReg a v).fanouts = s.fanouts := rfl
@[simp] theorem setReg_replay (s : State) (a : Nat) (v : W32) : (s.setReg a v).replay = s.replay := rfl
@[simp] theorem setReg_smd (s : State) (a : Nat) (v : W32) : (s.setReg a v).smd = s.smd := rfl
@[simp] theorem setReg_journal (s : State) (a : Nat) (v : W32) : (s.setReg a v).journal = s.journal := rfl
@[simp] theorem setReg_tests (s : State) (a : Nat) (v : W32) : (s.setReg a v).tests = s.tests := rfl
@[simp] theorem setReg_stops (s : State) (a : Nat) (v : W32) : (s.setReg a v).stops = s.stops := rfl
@[simp] theorem setReg_badBytes (s : State) (a : Nat) (v : W32) : (s.setReg a v).badBytes = s.badBytes := rfl
@[simp] theorem setReg_autoNext (s : State) (a : Nat) (v : W32) : (s.setReg a v).autoNext = s.autoNext := rfl
@[simp] theorem setReg_autoDrain (s : State) (a : Nat) (v : W32) : (s.setReg a v).autoDrain = s.autoDrain := rfl

@[simp] theorem setSes_pending (s : State) (i : Nat) (v : Session) : (s.setSes i v).pending = s.pending := rfl
@[simp] theorem setSes_tick (s : State) (i : Nat) (v : Session) : (s.setSes i v).tick = s.tick := rfl
@[simp] theorem setSes_regs (s : State) (i : Nat) (v : Session) : (s.setSes i v).regs = s.regs := rfl
@[simp] theorem setSes_pins (s : State) (i : Nat) (v : Session) : (s.setSes i v).pins = s.pins := rfl
@[simp] theorem setSes_fuses (s : State) (i : Nat) (v : Session) : (s.setSes i v).fuses = s.fuses := rfl
@[simp] theorem setSes_power (s : State) (i : Nat) (v : Session) : (s.setSes i v).power = s.power := rfl
@[simp] theorem setSes_boot (s : State) (i : Nat) (v : Session) : (s.setSes i v).boot = s.boot := rfl
@[simp] theorem setSes_port (s : State) (i : Nat) (v : Session) : (s.setSes i v).port = s.port := rfl
@[simp] theorem setSes_ptp (s : State) (i : Nat) (v : Session) : (s.setSes i v).ptp = s.ptp := rfl
@[simp] theorem setSes_i3cSamples (s : State) (i : Nat) (v : Session) : (s.setSes i v).i3cSamples = s.i3cSamples := rfl
@[simp] theorem setSes_keys (s : State) (i : Nat) (v : Session) : (s.setSes i v).keys = s.keys := rfl
@[simp] theorem setSes_qps (s : State) (i : Nat) (v : Session) : (s.setSes i v).qps = s.qps := rfl
@[simp] theorem setSes_tasks (s : State) (i : Nat) (v : Session) : (s.setSes i v).tasks = s.tasks := rfl
@[simp] theorem setSes_cores (s : State) (i : Nat) (v : Session) : (s.setSes i v).cores = s.cores := rfl
@[simp] theorem setSes_mem (s : State) (i : Nat) (v : Session) : (s.setSes i v).mem = s.mem := rfl
@[simp] theorem setSes_dmem (s : State) (i : Nat) (v : Session) : (s.setSes i v).dmem = s.dmem := rfl
@[simp] theorem setSes_flash (s : State) (i : Nat) (v : Session) : (s.setSes i v).flash = s.flash := rfl
@[simp] theorem setSes_progs (s : State) (i : Nat) (v : Session) : (s.setSes i v).progs = s.progs := rfl
@[simp] theorem setSes_icache (s : State) (i : Nat) (v : Session) : (s.setSes i v).icache = s.icache := rfl
@[simp] theorem setSes_loads (s : State) (i : Nat) (v : Session) : (s.setSes i v).loads = s.loads := rfl
@[simp] theorem setSes_dome (s : State) (i : Nat) (v : Session) : (s.setSes i v).dome = s.dome := rfl
@[simp] theorem setSes_rgnChange (s : State) (i : Nat) (v : Session) : (s.setSes i v).rgnChange = s.rgnChange := rfl
@[simp] theorem setSes_arrivals (s : State) (i : Nat) (v : Session) : (s.setSes i v).arrivals = s.arrivals := rfl
@[simp] theorem setSes_tx (s : State) (i : Nat) (v : Session) : (s.setSes i v).tx = s.tx := rfl
@[simp] theorem setSes_draws (s : State) (i : Nat) (v : Session) : (s.setSes i v).draws = s.draws := rfl
@[simp] theorem setSes_errs (s : State) (i : Nat) (v : Session) : (s.setSes i v).errs = s.errs := rfl
@[simp] theorem setSes_enSpires (s : State) (i : Nat) (v : Session) : (s.setSes i v).enSpires = s.enSpires := rfl
@[simp] theorem setSes_ctxHeld (s : State) (i : Nat) (v : Session) : (s.setSes i v).ctxHeld = s.ctxHeld := rfl
@[simp] theorem setSes_outOfService (s : State) (i : Nat) (v : Session) : (s.setSes i v).outOfService = s.outOfService := rfl
@[simp] theorem setSes_ctrs (s : State) (i : Nat) (v : Session) : (s.setSes i v).ctrs = s.ctrs := rfl
@[simp] theorem setSes_clrDue (s : State) (i : Nat) (v : Session) : (s.setSes i v).clrDue = s.clrDue := rfl
@[simp] theorem setSes_waiters (s : State) (i : Nat) (v : Session) : (s.setSes i v).waiters = s.waiters := rfl
@[simp] theorem setSes_poolHeld (s : State) (i : Nat) (v : Session) : (s.setSes i v).poolHeld = s.poolHeld := rfl
@[simp] theorem setSes_ready (s : State) (i : Nat) (v : Session) : (s.setSes i v).ready = s.ready := rfl
@[simp] theorem setSes_entrySeq (s : State) (i : Nat) (v : Session) : (s.setSes i v).entrySeq = s.entrySeq := rfl
@[simp] theorem setSes_qos (s : State) (i : Nat) (v : Session) : (s.setSes i v).qos = s.qos := rfl
@[simp] theorem setSes_ops (s : State) (i : Nat) (v : Session) : (s.setSes i v).ops = s.ops := rfl
@[simp] theorem setSes_opSeq (s : State) (i : Nat) (v : Session) : (s.setSes i v).opSeq = s.opSeq := rfl
@[simp] theorem setSes_served (s : State) (i : Nat) (v : Session) : (s.setSes i v).served = s.served := rfl
@[simp] theorem setSes_streams (s : State) (i : Nat) (v : Session) : (s.setSes i v).streams = s.streams := rfl
@[simp] theorem setSes_reqs (s : State) (i : Nat) (v : Session) : (s.setSes i v).reqs = s.reqs := rfl
@[simp] theorem setSes_arr (s : State) (i : Nat) (v : Session) : (s.setSes i v).arr = s.arr := rfl
@[simp] theorem setSes_scales (s : State) (i : Nat) (v : Session) : (s.setSes i v).scales = s.scales := rfl
@[simp] theorem setSes_gscales (s : State) (i : Nat) (v : Session) : (s.setSes i v).gscales = s.gscales := rfl
@[simp] theorem setSes_tables (s : State) (i : Nat) (v : Session) : (s.setSes i v).tables = s.tables := rfl
@[simp] theorem setSes_genHigh (s : State) (i : Nat) (v : Session) : (s.setSes i v).genHigh = s.genHigh := rfl
@[simp] theorem setSes_batches (s : State) (i : Nat) (v : Session) : (s.setSes i v).batches = s.batches := rfl
@[simp] theorem setSes_exch (s : State) (i : Nat) (v : Session) : (s.setSes i v).exch = s.exch := rfl
@[simp] theorem setSes_rounds (s : State) (i : Nat) (v : Session) : (s.setSes i v).rounds = s.rounds := rfl
@[simp] theorem setSes_lookups (s : State) (i : Nat) (v : Session) : (s.setSes i v).lookups = s.lookups := rfl
@[simp] theorem setSes_applied (s : State) (i : Nat) (v : Session) : (s.setSes i v).applied = s.applied := rfl
@[simp] theorem setSes_form (s : State) (i : Nat) (v : Session) : (s.setSes i v).form = s.form := rfl
@[simp] theorem setSes_starts (s : State) (i : Nat) (v : Session) : (s.setSes i v).starts = s.starts := rfl
@[simp] theorem setSes_fanouts (s : State) (i : Nat) (v : Session) : (s.setSes i v).fanouts = s.fanouts := rfl
@[simp] theorem setSes_replay (s : State) (i : Nat) (v : Session) : (s.setSes i v).replay = s.replay := rfl
@[simp] theorem setSes_smd (s : State) (i : Nat) (v : Session) : (s.setSes i v).smd = s.smd := rfl
@[simp] theorem setSes_journal (s : State) (i : Nat) (v : Session) : (s.setSes i v).journal = s.journal := rfl
@[simp] theorem setSes_tests (s : State) (i : Nat) (v : Session) : (s.setSes i v).tests = s.tests := rfl
@[simp] theorem setSes_stops (s : State) (i : Nat) (v : Session) : (s.setSes i v).stops = s.stops := rfl
@[simp] theorem setSes_badBytes (s : State) (i : Nat) (v : Session) : (s.setSes i v).badBytes = s.badBytes := rfl
@[simp] theorem setSes_autoNext (s : State) (i : Nat) (v : Session) : (s.setSes i v).autoNext = s.autoNext := rfl
@[simp] theorem setSes_autoDrain (s : State) (i : Nat) (v : Session) : (s.setSes i v).autoDrain = s.autoDrain := rfl

@[simp] theorem setKey_pending (s : State) (k : Nat) (v : KeySlot) : (s.setKey k v).pending = s.pending := rfl
@[simp] theorem setKey_tick (s : State) (k : Nat) (v : KeySlot) : (s.setKey k v).tick = s.tick := rfl
@[simp] theorem setKey_regs (s : State) (k : Nat) (v : KeySlot) : (s.setKey k v).regs = s.regs := rfl
@[simp] theorem setKey_pins (s : State) (k : Nat) (v : KeySlot) : (s.setKey k v).pins = s.pins := rfl
@[simp] theorem setKey_fuses (s : State) (k : Nat) (v : KeySlot) : (s.setKey k v).fuses = s.fuses := rfl
@[simp] theorem setKey_power (s : State) (k : Nat) (v : KeySlot) : (s.setKey k v).power = s.power := rfl
@[simp] theorem setKey_boot (s : State) (k : Nat) (v : KeySlot) : (s.setKey k v).boot = s.boot := rfl
@[simp] theorem setKey_port (s : State) (k : Nat) (v : KeySlot) : (s.setKey k v).port = s.port := rfl
@[simp] theorem setKey_ptp (s : State) (k : Nat) (v : KeySlot) : (s.setKey k v).ptp = s.ptp := rfl
@[simp] theorem setKey_sess (s : State) (k : Nat) (v : KeySlot) : (s.setKey k v).sess = s.sess := rfl
@[simp] theorem setKey_i3cSamples (s : State) (k : Nat) (v : KeySlot) : (s.setKey k v).i3cSamples = s.i3cSamples := rfl
@[simp] theorem setKey_qps (s : State) (k : Nat) (v : KeySlot) : (s.setKey k v).qps = s.qps := rfl
@[simp] theorem setKey_tasks (s : State) (k : Nat) (v : KeySlot) : (s.setKey k v).tasks = s.tasks := rfl
@[simp] theorem setKey_cores (s : State) (k : Nat) (v : KeySlot) : (s.setKey k v).cores = s.cores := rfl
@[simp] theorem setKey_mem (s : State) (k : Nat) (v : KeySlot) : (s.setKey k v).mem = s.mem := rfl
@[simp] theorem setKey_dmem (s : State) (k : Nat) (v : KeySlot) : (s.setKey k v).dmem = s.dmem := rfl
@[simp] theorem setKey_flash (s : State) (k : Nat) (v : KeySlot) : (s.setKey k v).flash = s.flash := rfl
@[simp] theorem setKey_progs (s : State) (k : Nat) (v : KeySlot) : (s.setKey k v).progs = s.progs := rfl
@[simp] theorem setKey_icache (s : State) (k : Nat) (v : KeySlot) : (s.setKey k v).icache = s.icache := rfl
@[simp] theorem setKey_loads (s : State) (k : Nat) (v : KeySlot) : (s.setKey k v).loads = s.loads := rfl
@[simp] theorem setKey_dome (s : State) (k : Nat) (v : KeySlot) : (s.setKey k v).dome = s.dome := rfl
@[simp] theorem setKey_rgnChange (s : State) (k : Nat) (v : KeySlot) : (s.setKey k v).rgnChange = s.rgnChange := rfl
@[simp] theorem setKey_arrivals (s : State) (k : Nat) (v : KeySlot) : (s.setKey k v).arrivals = s.arrivals := rfl
@[simp] theorem setKey_tx (s : State) (k : Nat) (v : KeySlot) : (s.setKey k v).tx = s.tx := rfl
@[simp] theorem setKey_draws (s : State) (k : Nat) (v : KeySlot) : (s.setKey k v).draws = s.draws := rfl
@[simp] theorem setKey_errs (s : State) (k : Nat) (v : KeySlot) : (s.setKey k v).errs = s.errs := rfl
@[simp] theorem setKey_enSpires (s : State) (k : Nat) (v : KeySlot) : (s.setKey k v).enSpires = s.enSpires := rfl
@[simp] theorem setKey_ctxHeld (s : State) (k : Nat) (v : KeySlot) : (s.setKey k v).ctxHeld = s.ctxHeld := rfl
@[simp] theorem setKey_outOfService (s : State) (k : Nat) (v : KeySlot) : (s.setKey k v).outOfService = s.outOfService := rfl
@[simp] theorem setKey_ctrs (s : State) (k : Nat) (v : KeySlot) : (s.setKey k v).ctrs = s.ctrs := rfl
@[simp] theorem setKey_clrDue (s : State) (k : Nat) (v : KeySlot) : (s.setKey k v).clrDue = s.clrDue := rfl
@[simp] theorem setKey_waiters (s : State) (k : Nat) (v : KeySlot) : (s.setKey k v).waiters = s.waiters := rfl
@[simp] theorem setKey_poolHeld (s : State) (k : Nat) (v : KeySlot) : (s.setKey k v).poolHeld = s.poolHeld := rfl
@[simp] theorem setKey_ready (s : State) (k : Nat) (v : KeySlot) : (s.setKey k v).ready = s.ready := rfl
@[simp] theorem setKey_entrySeq (s : State) (k : Nat) (v : KeySlot) : (s.setKey k v).entrySeq = s.entrySeq := rfl
@[simp] theorem setKey_qos (s : State) (k : Nat) (v : KeySlot) : (s.setKey k v).qos = s.qos := rfl
@[simp] theorem setKey_ops (s : State) (k : Nat) (v : KeySlot) : (s.setKey k v).ops = s.ops := rfl
@[simp] theorem setKey_opSeq (s : State) (k : Nat) (v : KeySlot) : (s.setKey k v).opSeq = s.opSeq := rfl
@[simp] theorem setKey_served (s : State) (k : Nat) (v : KeySlot) : (s.setKey k v).served = s.served := rfl
@[simp] theorem setKey_streams (s : State) (k : Nat) (v : KeySlot) : (s.setKey k v).streams = s.streams := rfl
@[simp] theorem setKey_reqs (s : State) (k : Nat) (v : KeySlot) : (s.setKey k v).reqs = s.reqs := rfl
@[simp] theorem setKey_arr (s : State) (k : Nat) (v : KeySlot) : (s.setKey k v).arr = s.arr := rfl
@[simp] theorem setKey_scales (s : State) (k : Nat) (v : KeySlot) : (s.setKey k v).scales = s.scales := rfl
@[simp] theorem setKey_gscales (s : State) (k : Nat) (v : KeySlot) : (s.setKey k v).gscales = s.gscales := rfl
@[simp] theorem setKey_tables (s : State) (k : Nat) (v : KeySlot) : (s.setKey k v).tables = s.tables := rfl
@[simp] theorem setKey_genHigh (s : State) (k : Nat) (v : KeySlot) : (s.setKey k v).genHigh = s.genHigh := rfl
@[simp] theorem setKey_batches (s : State) (k : Nat) (v : KeySlot) : (s.setKey k v).batches = s.batches := rfl
@[simp] theorem setKey_exch (s : State) (k : Nat) (v : KeySlot) : (s.setKey k v).exch = s.exch := rfl
@[simp] theorem setKey_rounds (s : State) (k : Nat) (v : KeySlot) : (s.setKey k v).rounds = s.rounds := rfl
@[simp] theorem setKey_lookups (s : State) (k : Nat) (v : KeySlot) : (s.setKey k v).lookups = s.lookups := rfl
@[simp] theorem setKey_applied (s : State) (k : Nat) (v : KeySlot) : (s.setKey k v).applied = s.applied := rfl
@[simp] theorem setKey_form (s : State) (k : Nat) (v : KeySlot) : (s.setKey k v).form = s.form := rfl
@[simp] theorem setKey_starts (s : State) (k : Nat) (v : KeySlot) : (s.setKey k v).starts = s.starts := rfl
@[simp] theorem setKey_fanouts (s : State) (k : Nat) (v : KeySlot) : (s.setKey k v).fanouts = s.fanouts := rfl
@[simp] theorem setKey_replay (s : State) (k : Nat) (v : KeySlot) : (s.setKey k v).replay = s.replay := rfl
@[simp] theorem setKey_smd (s : State) (k : Nat) (v : KeySlot) : (s.setKey k v).smd = s.smd := rfl
@[simp] theorem setKey_journal (s : State) (k : Nat) (v : KeySlot) : (s.setKey k v).journal = s.journal := rfl
@[simp] theorem setKey_tests (s : State) (k : Nat) (v : KeySlot) : (s.setKey k v).tests = s.tests := rfl
@[simp] theorem setKey_stops (s : State) (k : Nat) (v : KeySlot) : (s.setKey k v).stops = s.stops := rfl
@[simp] theorem setKey_badBytes (s : State) (k : Nat) (v : KeySlot) : (s.setKey k v).badBytes = s.badBytes := rfl
@[simp] theorem setKey_autoNext (s : State) (k : Nat) (v : KeySlot) : (s.setKey k v).autoNext = s.autoNext := rfl
@[simp] theorem setKey_autoDrain (s : State) (k : Nat) (v : KeySlot) : (s.setKey k v).autoDrain = s.autoDrain := rfl

@[simp] theorem setCore_pending (s : State) (k : Nat) (c : Core) : (s.setCore k c).pending = s.pending := rfl
@[simp] theorem setCore_tick (s : State) (k : Nat) (c : Core) : (s.setCore k c).tick = s.tick := rfl
@[simp] theorem setCore_regs (s : State) (k : Nat) (c : Core) : (s.setCore k c).regs = s.regs := rfl
@[simp] theorem setCore_pins (s : State) (k : Nat) (c : Core) : (s.setCore k c).pins = s.pins := rfl
@[simp] theorem setCore_fuses (s : State) (k : Nat) (c : Core) : (s.setCore k c).fuses = s.fuses := rfl
@[simp] theorem setCore_power (s : State) (k : Nat) (c : Core) : (s.setCore k c).power = s.power := rfl
@[simp] theorem setCore_boot (s : State) (k : Nat) (c : Core) : (s.setCore k c).boot = s.boot := rfl
@[simp] theorem setCore_port (s : State) (k : Nat) (c : Core) : (s.setCore k c).port = s.port := rfl
@[simp] theorem setCore_ptp (s : State) (k : Nat) (c : Core) : (s.setCore k c).ptp = s.ptp := rfl
@[simp] theorem setCore_sess (s : State) (k : Nat) (c : Core) : (s.setCore k c).sess = s.sess := rfl
@[simp] theorem setCore_i3cSamples (s : State) (k : Nat) (c : Core) : (s.setCore k c).i3cSamples = s.i3cSamples := rfl
@[simp] theorem setCore_keys (s : State) (k : Nat) (c : Core) : (s.setCore k c).keys = s.keys := rfl
@[simp] theorem setCore_qps (s : State) (k : Nat) (c : Core) : (s.setCore k c).qps = s.qps := rfl
@[simp] theorem setCore_tasks (s : State) (k : Nat) (c : Core) : (s.setCore k c).tasks = s.tasks := rfl
@[simp] theorem setCore_mem (s : State) (k : Nat) (c : Core) : (s.setCore k c).mem = s.mem := rfl
@[simp] theorem setCore_dmem (s : State) (k : Nat) (c : Core) : (s.setCore k c).dmem = s.dmem := rfl
@[simp] theorem setCore_flash (s : State) (k : Nat) (c : Core) : (s.setCore k c).flash = s.flash := rfl
@[simp] theorem setCore_progs (s : State) (k : Nat) (c : Core) : (s.setCore k c).progs = s.progs := rfl
@[simp] theorem setCore_icache (s : State) (k : Nat) (c : Core) : (s.setCore k c).icache = s.icache := rfl
@[simp] theorem setCore_loads (s : State) (k : Nat) (c : Core) : (s.setCore k c).loads = s.loads := rfl
@[simp] theorem setCore_dome (s : State) (k : Nat) (c : Core) : (s.setCore k c).dome = s.dome := rfl
@[simp] theorem setCore_rgnChange (s : State) (k : Nat) (c : Core) : (s.setCore k c).rgnChange = s.rgnChange := rfl
@[simp] theorem setCore_arrivals (s : State) (k : Nat) (c : Core) : (s.setCore k c).arrivals = s.arrivals := rfl
@[simp] theorem setCore_tx (s : State) (k : Nat) (c : Core) : (s.setCore k c).tx = s.tx := rfl
@[simp] theorem setCore_draws (s : State) (k : Nat) (c : Core) : (s.setCore k c).draws = s.draws := rfl
@[simp] theorem setCore_errs (s : State) (k : Nat) (c : Core) : (s.setCore k c).errs = s.errs := rfl
@[simp] theorem setCore_enSpires (s : State) (k : Nat) (c : Core) : (s.setCore k c).enSpires = s.enSpires := rfl
@[simp] theorem setCore_ctxHeld (s : State) (k : Nat) (c : Core) : (s.setCore k c).ctxHeld = s.ctxHeld := rfl
@[simp] theorem setCore_outOfService (s : State) (k : Nat) (c : Core) : (s.setCore k c).outOfService = s.outOfService := rfl
@[simp] theorem setCore_ctrs (s : State) (k : Nat) (c : Core) : (s.setCore k c).ctrs = s.ctrs := rfl
@[simp] theorem setCore_clrDue (s : State) (k : Nat) (c : Core) : (s.setCore k c).clrDue = s.clrDue := rfl
@[simp] theorem setCore_waiters (s : State) (k : Nat) (c : Core) : (s.setCore k c).waiters = s.waiters := rfl
@[simp] theorem setCore_poolHeld (s : State) (k : Nat) (c : Core) : (s.setCore k c).poolHeld = s.poolHeld := rfl
@[simp] theorem setCore_ready (s : State) (k : Nat) (c : Core) : (s.setCore k c).ready = s.ready := rfl
@[simp] theorem setCore_entrySeq (s : State) (k : Nat) (c : Core) : (s.setCore k c).entrySeq = s.entrySeq := rfl
@[simp] theorem setCore_qos (s : State) (k : Nat) (c : Core) : (s.setCore k c).qos = s.qos := rfl
@[simp] theorem setCore_ops (s : State) (k : Nat) (c : Core) : (s.setCore k c).ops = s.ops := rfl
@[simp] theorem setCore_opSeq (s : State) (k : Nat) (c : Core) : (s.setCore k c).opSeq = s.opSeq := rfl
@[simp] theorem setCore_served (s : State) (k : Nat) (c : Core) : (s.setCore k c).served = s.served := rfl
@[simp] theorem setCore_streams (s : State) (k : Nat) (c : Core) : (s.setCore k c).streams = s.streams := rfl
@[simp] theorem setCore_reqs (s : State) (k : Nat) (c : Core) : (s.setCore k c).reqs = s.reqs := rfl
@[simp] theorem setCore_arr (s : State) (k : Nat) (c : Core) : (s.setCore k c).arr = s.arr := rfl
@[simp] theorem setCore_scales (s : State) (k : Nat) (c : Core) : (s.setCore k c).scales = s.scales := rfl
@[simp] theorem setCore_gscales (s : State) (k : Nat) (c : Core) : (s.setCore k c).gscales = s.gscales := rfl
@[simp] theorem setCore_tables (s : State) (k : Nat) (c : Core) : (s.setCore k c).tables = s.tables := rfl
@[simp] theorem setCore_genHigh (s : State) (k : Nat) (c : Core) : (s.setCore k c).genHigh = s.genHigh := rfl
@[simp] theorem setCore_batches (s : State) (k : Nat) (c : Core) : (s.setCore k c).batches = s.batches := rfl
@[simp] theorem setCore_exch (s : State) (k : Nat) (c : Core) : (s.setCore k c).exch = s.exch := rfl
@[simp] theorem setCore_rounds (s : State) (k : Nat) (c : Core) : (s.setCore k c).rounds = s.rounds := rfl
@[simp] theorem setCore_lookups (s : State) (k : Nat) (c : Core) : (s.setCore k c).lookups = s.lookups := rfl
@[simp] theorem setCore_applied (s : State) (k : Nat) (c : Core) : (s.setCore k c).applied = s.applied := rfl
@[simp] theorem setCore_form (s : State) (k : Nat) (c : Core) : (s.setCore k c).form = s.form := rfl
@[simp] theorem setCore_starts (s : State) (k : Nat) (c : Core) : (s.setCore k c).starts = s.starts := rfl
@[simp] theorem setCore_fanouts (s : State) (k : Nat) (c : Core) : (s.setCore k c).fanouts = s.fanouts := rfl
@[simp] theorem setCore_replay (s : State) (k : Nat) (c : Core) : (s.setCore k c).replay = s.replay := rfl
@[simp] theorem setCore_smd (s : State) (k : Nat) (c : Core) : (s.setCore k c).smd = s.smd := rfl
@[simp] theorem setCore_journal (s : State) (k : Nat) (c : Core) : (s.setCore k c).journal = s.journal := rfl
@[simp] theorem setCore_tests (s : State) (k : Nat) (c : Core) : (s.setCore k c).tests = s.tests := rfl
@[simp] theorem setCore_stops (s : State) (k : Nat) (c : Core) : (s.setCore k c).stops = s.stops := rfl
@[simp] theorem setCore_badBytes (s : State) (k : Nat) (c : Core) : (s.setCore k c).badBytes = s.badBytes := rfl
@[simp] theorem setCore_autoNext (s : State) (k : Nat) (c : Core) : (s.setCore k c).autoNext = s.autoNext := rfl
@[simp] theorem setCore_autoDrain (s : State) (k : Nat) (c : Core) : (s.setCore k c).autoDrain = s.autoDrain := rfl

@[simp] theorem emit_pending (s : State) (m : OutMsg) : (s.emit m).pending = s.pending := rfl
@[simp] theorem emit_tick (s : State) (m : OutMsg) : (s.emit m).tick = s.tick := rfl
@[simp] theorem emit_regs (s : State) (m : OutMsg) : (s.emit m).regs = s.regs := rfl
@[simp] theorem emit_pins (s : State) (m : OutMsg) : (s.emit m).pins = s.pins := rfl
@[simp] theorem emit_fuses (s : State) (m : OutMsg) : (s.emit m).fuses = s.fuses := rfl
@[simp] theorem emit_power (s : State) (m : OutMsg) : (s.emit m).power = s.power := rfl
@[simp] theorem emit_boot (s : State) (m : OutMsg) : (s.emit m).boot = s.boot := rfl
@[simp] theorem emit_port (s : State) (m : OutMsg) : (s.emit m).port = s.port := rfl
@[simp] theorem emit_ptp (s : State) (m : OutMsg) : (s.emit m).ptp = s.ptp := rfl
@[simp] theorem emit_sess (s : State) (m : OutMsg) : (s.emit m).sess = s.sess := rfl
@[simp] theorem emit_i3cSamples (s : State) (m : OutMsg) : (s.emit m).i3cSamples = s.i3cSamples := rfl
@[simp] theorem emit_keys (s : State) (m : OutMsg) : (s.emit m).keys = s.keys := rfl
@[simp] theorem emit_qps (s : State) (m : OutMsg) : (s.emit m).qps = s.qps := rfl
@[simp] theorem emit_tasks (s : State) (m : OutMsg) : (s.emit m).tasks = s.tasks := rfl
@[simp] theorem emit_cores (s : State) (m : OutMsg) : (s.emit m).cores = s.cores := rfl
@[simp] theorem emit_mem (s : State) (m : OutMsg) : (s.emit m).mem = s.mem := rfl
@[simp] theorem emit_dmem (s : State) (m : OutMsg) : (s.emit m).dmem = s.dmem := rfl
@[simp] theorem emit_flash (s : State) (m : OutMsg) : (s.emit m).flash = s.flash := rfl
@[simp] theorem emit_progs (s : State) (m : OutMsg) : (s.emit m).progs = s.progs := rfl
@[simp] theorem emit_icache (s : State) (m : OutMsg) : (s.emit m).icache = s.icache := rfl
@[simp] theorem emit_loads (s : State) (m : OutMsg) : (s.emit m).loads = s.loads := rfl
@[simp] theorem emit_dome (s : State) (m : OutMsg) : (s.emit m).dome = s.dome := rfl
@[simp] theorem emit_rgnChange (s : State) (m : OutMsg) : (s.emit m).rgnChange = s.rgnChange := rfl
@[simp] theorem emit_arrivals (s : State) (m : OutMsg) : (s.emit m).arrivals = s.arrivals := rfl
@[simp] theorem emit_draws (s : State) (m : OutMsg) : (s.emit m).draws = s.draws := rfl
@[simp] theorem emit_errs (s : State) (m : OutMsg) : (s.emit m).errs = s.errs := rfl
@[simp] theorem emit_enSpires (s : State) (m : OutMsg) : (s.emit m).enSpires = s.enSpires := rfl
@[simp] theorem emit_ctxHeld (s : State) (m : OutMsg) : (s.emit m).ctxHeld = s.ctxHeld := rfl
@[simp] theorem emit_outOfService (s : State) (m : OutMsg) : (s.emit m).outOfService = s.outOfService := rfl
@[simp] theorem emit_ctrs (s : State) (m : OutMsg) : (s.emit m).ctrs = s.ctrs := rfl
@[simp] theorem emit_clrDue (s : State) (m : OutMsg) : (s.emit m).clrDue = s.clrDue := rfl
@[simp] theorem emit_waiters (s : State) (m : OutMsg) : (s.emit m).waiters = s.waiters := rfl
@[simp] theorem emit_poolHeld (s : State) (m : OutMsg) : (s.emit m).poolHeld = s.poolHeld := rfl
@[simp] theorem emit_ready (s : State) (m : OutMsg) : (s.emit m).ready = s.ready := rfl
@[simp] theorem emit_entrySeq (s : State) (m : OutMsg) : (s.emit m).entrySeq = s.entrySeq := rfl
@[simp] theorem emit_qos (s : State) (m : OutMsg) : (s.emit m).qos = s.qos := rfl
@[simp] theorem emit_ops (s : State) (m : OutMsg) : (s.emit m).ops = s.ops := rfl
@[simp] theorem emit_opSeq (s : State) (m : OutMsg) : (s.emit m).opSeq = s.opSeq := rfl
@[simp] theorem emit_served (s : State) (m : OutMsg) : (s.emit m).served = s.served := rfl
@[simp] theorem emit_streams (s : State) (m : OutMsg) : (s.emit m).streams = s.streams := rfl
@[simp] theorem emit_reqs (s : State) (m : OutMsg) : (s.emit m).reqs = s.reqs := rfl
@[simp] theorem emit_arr (s : State) (m : OutMsg) : (s.emit m).arr = s.arr := rfl
@[simp] theorem emit_scales (s : State) (m : OutMsg) : (s.emit m).scales = s.scales := rfl
@[simp] theorem emit_gscales (s : State) (m : OutMsg) : (s.emit m).gscales = s.gscales := rfl
@[simp] theorem emit_tables (s : State) (m : OutMsg) : (s.emit m).tables = s.tables := rfl
@[simp] theorem emit_genHigh (s : State) (m : OutMsg) : (s.emit m).genHigh = s.genHigh := rfl
@[simp] theorem emit_batches (s : State) (m : OutMsg) : (s.emit m).batches = s.batches := rfl
@[simp] theorem emit_exch (s : State) (m : OutMsg) : (s.emit m).exch = s.exch := rfl
@[simp] theorem emit_rounds (s : State) (m : OutMsg) : (s.emit m).rounds = s.rounds := rfl
@[simp] theorem emit_lookups (s : State) (m : OutMsg) : (s.emit m).lookups = s.lookups := rfl
@[simp] theorem emit_applied (s : State) (m : OutMsg) : (s.emit m).applied = s.applied := rfl
@[simp] theorem emit_form (s : State) (m : OutMsg) : (s.emit m).form = s.form := rfl
@[simp] theorem emit_starts (s : State) (m : OutMsg) : (s.emit m).starts = s.starts := rfl
@[simp] theorem emit_fanouts (s : State) (m : OutMsg) : (s.emit m).fanouts = s.fanouts := rfl
@[simp] theorem emit_replay (s : State) (m : OutMsg) : (s.emit m).replay = s.replay := rfl
@[simp] theorem emit_smd (s : State) (m : OutMsg) : (s.emit m).smd = s.smd := rfl
@[simp] theorem emit_journal (s : State) (m : OutMsg) : (s.emit m).journal = s.journal := rfl
@[simp] theorem emit_tests (s : State) (m : OutMsg) : (s.emit m).tests = s.tests := rfl
@[simp] theorem emit_stops (s : State) (m : OutMsg) : (s.emit m).stops = s.stops := rfl
@[simp] theorem emit_badBytes (s : State) (m : OutMsg) : (s.emit m).badBytes = s.badBytes := rfl
@[simp] theorem emit_autoNext (s : State) (m : OutMsg) : (s.emit m).autoNext = s.autoNext := rfl
@[simp] theorem emit_autoDrain (s : State) (m : OutMsg) : (s.emit m).autoDrain = s.autoDrain := rfl

@[simp] theorem modTask_pending (s : State) (key asn : Nat) (f : Task → Task) : (s.modTask key asn f).pending = s.pending := rfl
@[simp] theorem modTask_tick (s : State) (key asn : Nat) (f : Task → Task) : (s.modTask key asn f).tick = s.tick := rfl
@[simp] theorem modTask_regs (s : State) (key asn : Nat) (f : Task → Task) : (s.modTask key asn f).regs = s.regs := rfl
@[simp] theorem modTask_pins (s : State) (key asn : Nat) (f : Task → Task) : (s.modTask key asn f).pins = s.pins := rfl
@[simp] theorem modTask_fuses (s : State) (key asn : Nat) (f : Task → Task) : (s.modTask key asn f).fuses = s.fuses := rfl
@[simp] theorem modTask_power (s : State) (key asn : Nat) (f : Task → Task) : (s.modTask key asn f).power = s.power := rfl
@[simp] theorem modTask_boot (s : State) (key asn : Nat) (f : Task → Task) : (s.modTask key asn f).boot = s.boot := rfl
@[simp] theorem modTask_port (s : State) (key asn : Nat) (f : Task → Task) : (s.modTask key asn f).port = s.port := rfl
@[simp] theorem modTask_ptp (s : State) (key asn : Nat) (f : Task → Task) : (s.modTask key asn f).ptp = s.ptp := rfl
@[simp] theorem modTask_sess (s : State) (key asn : Nat) (f : Task → Task) : (s.modTask key asn f).sess = s.sess := rfl
@[simp] theorem modTask_i3cSamples (s : State) (key asn : Nat) (f : Task → Task) : (s.modTask key asn f).i3cSamples = s.i3cSamples := rfl
@[simp] theorem modTask_keys (s : State) (key asn : Nat) (f : Task → Task) : (s.modTask key asn f).keys = s.keys := rfl
@[simp] theorem modTask_qps (s : State) (key asn : Nat) (f : Task → Task) : (s.modTask key asn f).qps = s.qps := rfl
@[simp] theorem modTask_cores (s : State) (key asn : Nat) (f : Task → Task) : (s.modTask key asn f).cores = s.cores := rfl
@[simp] theorem modTask_mem (s : State) (key asn : Nat) (f : Task → Task) : (s.modTask key asn f).mem = s.mem := rfl
@[simp] theorem modTask_dmem (s : State) (key asn : Nat) (f : Task → Task) : (s.modTask key asn f).dmem = s.dmem := rfl
@[simp] theorem modTask_flash (s : State) (key asn : Nat) (f : Task → Task) : (s.modTask key asn f).flash = s.flash := rfl
@[simp] theorem modTask_progs (s : State) (key asn : Nat) (f : Task → Task) : (s.modTask key asn f).progs = s.progs := rfl
@[simp] theorem modTask_icache (s : State) (key asn : Nat) (f : Task → Task) : (s.modTask key asn f).icache = s.icache := rfl
@[simp] theorem modTask_loads (s : State) (key asn : Nat) (f : Task → Task) : (s.modTask key asn f).loads = s.loads := rfl
@[simp] theorem modTask_dome (s : State) (key asn : Nat) (f : Task → Task) : (s.modTask key asn f).dome = s.dome := rfl
@[simp] theorem modTask_rgnChange (s : State) (key asn : Nat) (f : Task → Task) : (s.modTask key asn f).rgnChange = s.rgnChange := rfl
@[simp] theorem modTask_arrivals (s : State) (key asn : Nat) (f : Task → Task) : (s.modTask key asn f).arrivals = s.arrivals := rfl
@[simp] theorem modTask_tx (s : State) (key asn : Nat) (f : Task → Task) : (s.modTask key asn f).tx = s.tx := rfl
@[simp] theorem modTask_draws (s : State) (key asn : Nat) (f : Task → Task) : (s.modTask key asn f).draws = s.draws := rfl
@[simp] theorem modTask_errs (s : State) (key asn : Nat) (f : Task → Task) : (s.modTask key asn f).errs = s.errs := rfl
@[simp] theorem modTask_enSpires (s : State) (key asn : Nat) (f : Task → Task) : (s.modTask key asn f).enSpires = s.enSpires := rfl
@[simp] theorem modTask_ctxHeld (s : State) (key asn : Nat) (f : Task → Task) : (s.modTask key asn f).ctxHeld = s.ctxHeld := rfl
@[simp] theorem modTask_outOfService (s : State) (key asn : Nat) (f : Task → Task) : (s.modTask key asn f).outOfService = s.outOfService := rfl
@[simp] theorem modTask_ctrs (s : State) (key asn : Nat) (f : Task → Task) : (s.modTask key asn f).ctrs = s.ctrs := rfl
@[simp] theorem modTask_clrDue (s : State) (key asn : Nat) (f : Task → Task) : (s.modTask key asn f).clrDue = s.clrDue := rfl
@[simp] theorem modTask_waiters (s : State) (key asn : Nat) (f : Task → Task) : (s.modTask key asn f).waiters = s.waiters := rfl
@[simp] theorem modTask_poolHeld (s : State) (key asn : Nat) (f : Task → Task) : (s.modTask key asn f).poolHeld = s.poolHeld := rfl
@[simp] theorem modTask_ready (s : State) (key asn : Nat) (f : Task → Task) : (s.modTask key asn f).ready = s.ready := rfl
@[simp] theorem modTask_entrySeq (s : State) (key asn : Nat) (f : Task → Task) : (s.modTask key asn f).entrySeq = s.entrySeq := rfl
@[simp] theorem modTask_qos (s : State) (key asn : Nat) (f : Task → Task) : (s.modTask key asn f).qos = s.qos := rfl
@[simp] theorem modTask_ops (s : State) (key asn : Nat) (f : Task → Task) : (s.modTask key asn f).ops = s.ops := rfl
@[simp] theorem modTask_opSeq (s : State) (key asn : Nat) (f : Task → Task) : (s.modTask key asn f).opSeq = s.opSeq := rfl
@[simp] theorem modTask_served (s : State) (key asn : Nat) (f : Task → Task) : (s.modTask key asn f).served = s.served := rfl
@[simp] theorem modTask_streams (s : State) (key asn : Nat) (f : Task → Task) : (s.modTask key asn f).streams = s.streams := rfl
@[simp] theorem modTask_reqs (s : State) (key asn : Nat) (f : Task → Task) : (s.modTask key asn f).reqs = s.reqs := rfl
@[simp] theorem modTask_arr (s : State) (key asn : Nat) (f : Task → Task) : (s.modTask key asn f).arr = s.arr := rfl
@[simp] theorem modTask_scales (s : State) (key asn : Nat) (f : Task → Task) : (s.modTask key asn f).scales = s.scales := rfl
@[simp] theorem modTask_gscales (s : State) (key asn : Nat) (f : Task → Task) : (s.modTask key asn f).gscales = s.gscales := rfl
@[simp] theorem modTask_tables (s : State) (key asn : Nat) (f : Task → Task) : (s.modTask key asn f).tables = s.tables := rfl
@[simp] theorem modTask_genHigh (s : State) (key asn : Nat) (f : Task → Task) : (s.modTask key asn f).genHigh = s.genHigh := rfl
@[simp] theorem modTask_batches (s : State) (key asn : Nat) (f : Task → Task) : (s.modTask key asn f).batches = s.batches := rfl
@[simp] theorem modTask_exch (s : State) (key asn : Nat) (f : Task → Task) : (s.modTask key asn f).exch = s.exch := rfl
@[simp] theorem modTask_rounds (s : State) (key asn : Nat) (f : Task → Task) : (s.modTask key asn f).rounds = s.rounds := rfl
@[simp] theorem modTask_lookups (s : State) (key asn : Nat) (f : Task → Task) : (s.modTask key asn f).lookups = s.lookups := rfl
@[simp] theorem modTask_applied (s : State) (key asn : Nat) (f : Task → Task) : (s.modTask key asn f).applied = s.applied := rfl
@[simp] theorem modTask_form (s : State) (key asn : Nat) (f : Task → Task) : (s.modTask key asn f).form = s.form := rfl
@[simp] theorem modTask_starts (s : State) (key asn : Nat) (f : Task → Task) : (s.modTask key asn f).starts = s.starts := rfl
@[simp] theorem modTask_fanouts (s : State) (key asn : Nat) (f : Task → Task) : (s.modTask key asn f).fanouts = s.fanouts := rfl
@[simp] theorem modTask_replay (s : State) (key asn : Nat) (f : Task → Task) : (s.modTask key asn f).replay = s.replay := rfl
@[simp] theorem modTask_smd (s : State) (key asn : Nat) (f : Task → Task) : (s.modTask key asn f).smd = s.smd := rfl
@[simp] theorem modTask_journal (s : State) (key asn : Nat) (f : Task → Task) : (s.modTask key asn f).journal = s.journal := rfl
@[simp] theorem modTask_tests (s : State) (key asn : Nat) (f : Task → Task) : (s.modTask key asn f).tests = s.tests := rfl
@[simp] theorem modTask_stops (s : State) (key asn : Nat) (f : Task → Task) : (s.modTask key asn f).stops = s.stops := rfl
@[simp] theorem modTask_badBytes (s : State) (key asn : Nat) (f : Task → Task) : (s.modTask key asn f).badBytes = s.badBytes := rfl
@[simp] theorem modTask_autoNext (s : State) (key asn : Nat) (f : Task → Task) : (s.modTask key asn f).autoNext = s.autoNext := rfl
@[simp] theorem modTask_autoDrain (s : State) (key asn : Nat) (f : Task → Task) : (s.modTask key asn f).autoDrain = s.autoDrain := rfl

@[simp] theorem setCtr_pending (s : State) (p v : Nat) : (s.setCtr p v).pending = s.pending := rfl
@[simp] theorem setCtr_tick (s : State) (p v : Nat) : (s.setCtr p v).tick = s.tick := rfl
@[simp] theorem setCtr_regs (s : State) (p v : Nat) : (s.setCtr p v).regs = s.regs := rfl
@[simp] theorem setCtr_pins (s : State) (p v : Nat) : (s.setCtr p v).pins = s.pins := rfl
@[simp] theorem setCtr_fuses (s : State) (p v : Nat) : (s.setCtr p v).fuses = s.fuses := rfl
@[simp] theorem setCtr_power (s : State) (p v : Nat) : (s.setCtr p v).power = s.power := rfl
@[simp] theorem setCtr_boot (s : State) (p v : Nat) : (s.setCtr p v).boot = s.boot := rfl
@[simp] theorem setCtr_port (s : State) (p v : Nat) : (s.setCtr p v).port = s.port := rfl
@[simp] theorem setCtr_ptp (s : State) (p v : Nat) : (s.setCtr p v).ptp = s.ptp := rfl
@[simp] theorem setCtr_sess (s : State) (p v : Nat) : (s.setCtr p v).sess = s.sess := rfl
@[simp] theorem setCtr_i3cSamples (s : State) (p v : Nat) : (s.setCtr p v).i3cSamples = s.i3cSamples := rfl
@[simp] theorem setCtr_keys (s : State) (p v : Nat) : (s.setCtr p v).keys = s.keys := rfl
@[simp] theorem setCtr_qps (s : State) (p v : Nat) : (s.setCtr p v).qps = s.qps := rfl
@[simp] theorem setCtr_tasks (s : State) (p v : Nat) : (s.setCtr p v).tasks = s.tasks := rfl
@[simp] theorem setCtr_cores (s : State) (p v : Nat) : (s.setCtr p v).cores = s.cores := rfl
@[simp] theorem setCtr_mem (s : State) (p v : Nat) : (s.setCtr p v).mem = s.mem := rfl
@[simp] theorem setCtr_dmem (s : State) (p v : Nat) : (s.setCtr p v).dmem = s.dmem := rfl
@[simp] theorem setCtr_flash (s : State) (p v : Nat) : (s.setCtr p v).flash = s.flash := rfl
@[simp] theorem setCtr_progs (s : State) (p v : Nat) : (s.setCtr p v).progs = s.progs := rfl
@[simp] theorem setCtr_icache (s : State) (p v : Nat) : (s.setCtr p v).icache = s.icache := rfl
@[simp] theorem setCtr_loads (s : State) (p v : Nat) : (s.setCtr p v).loads = s.loads := rfl
@[simp] theorem setCtr_dome (s : State) (p v : Nat) : (s.setCtr p v).dome = s.dome := rfl
@[simp] theorem setCtr_rgnChange (s : State) (p v : Nat) : (s.setCtr p v).rgnChange = s.rgnChange := rfl
@[simp] theorem setCtr_arrivals (s : State) (p v : Nat) : (s.setCtr p v).arrivals = s.arrivals := rfl
@[simp] theorem setCtr_tx (s : State) (p v : Nat) : (s.setCtr p v).tx = s.tx := rfl
@[simp] theorem setCtr_draws (s : State) (p v : Nat) : (s.setCtr p v).draws = s.draws := rfl
@[simp] theorem setCtr_errs (s : State) (p v : Nat) : (s.setCtr p v).errs = s.errs := rfl
@[simp] theorem setCtr_enSpires (s : State) (p v : Nat) : (s.setCtr p v).enSpires = s.enSpires := rfl
@[simp] theorem setCtr_ctxHeld (s : State) (p v : Nat) : (s.setCtr p v).ctxHeld = s.ctxHeld := rfl
@[simp] theorem setCtr_outOfService (s : State) (p v : Nat) : (s.setCtr p v).outOfService = s.outOfService := rfl
@[simp] theorem setCtr_clrDue (s : State) (p v : Nat) : (s.setCtr p v).clrDue = s.clrDue := rfl
@[simp] theorem setCtr_waiters (s : State) (p v : Nat) : (s.setCtr p v).waiters = s.waiters := rfl
@[simp] theorem setCtr_poolHeld (s : State) (p v : Nat) : (s.setCtr p v).poolHeld = s.poolHeld := rfl
@[simp] theorem setCtr_ready (s : State) (p v : Nat) : (s.setCtr p v).ready = s.ready := rfl
@[simp] theorem setCtr_entrySeq (s : State) (p v : Nat) : (s.setCtr p v).entrySeq = s.entrySeq := rfl
@[simp] theorem setCtr_qos (s : State) (p v : Nat) : (s.setCtr p v).qos = s.qos := rfl
@[simp] theorem setCtr_ops (s : State) (p v : Nat) : (s.setCtr p v).ops = s.ops := rfl
@[simp] theorem setCtr_opSeq (s : State) (p v : Nat) : (s.setCtr p v).opSeq = s.opSeq := rfl
@[simp] theorem setCtr_served (s : State) (p v : Nat) : (s.setCtr p v).served = s.served := rfl
@[simp] theorem setCtr_streams (s : State) (p v : Nat) : (s.setCtr p v).streams = s.streams := rfl
@[simp] theorem setCtr_reqs (s : State) (p v : Nat) : (s.setCtr p v).reqs = s.reqs := rfl
@[simp] theorem setCtr_arr (s : State) (p v : Nat) : (s.setCtr p v).arr = s.arr := rfl
@[simp] theorem setCtr_scales (s : State) (p v : Nat) : (s.setCtr p v).scales = s.scales := rfl
@[simp] theorem setCtr_gscales (s : State) (p v : Nat) : (s.setCtr p v).gscales = s.gscales := rfl
@[simp] theorem setCtr_tables (s : State) (p v : Nat) : (s.setCtr p v).tables = s.tables := rfl
@[simp] theorem setCtr_genHigh (s : State) (p v : Nat) : (s.setCtr p v).genHigh = s.genHigh := rfl
@[simp] theorem setCtr_batches (s : State) (p v : Nat) : (s.setCtr p v).batches = s.batches := rfl
@[simp] theorem setCtr_exch (s : State) (p v : Nat) : (s.setCtr p v).exch = s.exch := rfl
@[simp] theorem setCtr_rounds (s : State) (p v : Nat) : (s.setCtr p v).rounds = s.rounds := rfl
@[simp] theorem setCtr_lookups (s : State) (p v : Nat) : (s.setCtr p v).lookups = s.lookups := rfl
@[simp] theorem setCtr_applied (s : State) (p v : Nat) : (s.setCtr p v).applied = s.applied := rfl
@[simp] theorem setCtr_form (s : State) (p v : Nat) : (s.setCtr p v).form = s.form := rfl
@[simp] theorem setCtr_starts (s : State) (p v : Nat) : (s.setCtr p v).starts = s.starts := rfl
@[simp] theorem setCtr_fanouts (s : State) (p v : Nat) : (s.setCtr p v).fanouts = s.fanouts := rfl
@[simp] theorem setCtr_replay (s : State) (p v : Nat) : (s.setCtr p v).replay = s.replay := rfl
@[simp] theorem setCtr_smd (s : State) (p v : Nat) : (s.setCtr p v).smd = s.smd := rfl
@[simp] theorem setCtr_journal (s : State) (p v : Nat) : (s.setCtr p v).journal = s.journal := rfl
@[simp] theorem setCtr_tests (s : State) (p v : Nat) : (s.setCtr p v).tests = s.tests := rfl
@[simp] theorem setCtr_stops (s : State) (p v : Nat) : (s.setCtr p v).stops = s.stops := rfl
@[simp] theorem setCtr_badBytes (s : State) (p v : Nat) : (s.setCtr p v).badBytes = s.badBytes := rfl
@[simp] theorem setCtr_autoNext (s : State) (p v : Nat) : (s.setCtr p v).autoNext = s.autoNext := rfl
@[simp] theorem setCtr_autoDrain (s : State) (p v : Nat) : (s.setCtr p v).autoDrain = s.autoDrain := rfl

@[simp] theorem lifeAdd_pending (s : State) (set i n : Nat) : (s.lifeAdd set i n).pending = s.pending := rfl
@[simp] theorem lifeAdd_tick (s : State) (set i n : Nat) : (s.lifeAdd set i n).tick = s.tick := rfl
@[simp] theorem lifeAdd_regs (s : State) (set i n : Nat) : (s.lifeAdd set i n).regs = s.regs := rfl
@[simp] theorem lifeAdd_pins (s : State) (set i n : Nat) : (s.lifeAdd set i n).pins = s.pins := rfl
@[simp] theorem lifeAdd_fuses (s : State) (set i n : Nat) : (s.lifeAdd set i n).fuses = s.fuses := rfl
@[simp] theorem lifeAdd_power (s : State) (set i n : Nat) : (s.lifeAdd set i n).power = s.power := rfl
@[simp] theorem lifeAdd_boot (s : State) (set i n : Nat) : (s.lifeAdd set i n).boot = s.boot := rfl
@[simp] theorem lifeAdd_port (s : State) (set i n : Nat) : (s.lifeAdd set i n).port = s.port := rfl
@[simp] theorem lifeAdd_ptp (s : State) (set i n : Nat) : (s.lifeAdd set i n).ptp = s.ptp := rfl
@[simp] theorem lifeAdd_sess (s : State) (set i n : Nat) : (s.lifeAdd set i n).sess = s.sess := rfl
@[simp] theorem lifeAdd_i3cSamples (s : State) (set i n : Nat) : (s.lifeAdd set i n).i3cSamples = s.i3cSamples := rfl
@[simp] theorem lifeAdd_keys (s : State) (set i n : Nat) : (s.lifeAdd set i n).keys = s.keys := rfl
@[simp] theorem lifeAdd_qps (s : State) (set i n : Nat) : (s.lifeAdd set i n).qps = s.qps := rfl
@[simp] theorem lifeAdd_tasks (s : State) (set i n : Nat) : (s.lifeAdd set i n).tasks = s.tasks := rfl
@[simp] theorem lifeAdd_cores (s : State) (set i n : Nat) : (s.lifeAdd set i n).cores = s.cores := rfl
@[simp] theorem lifeAdd_mem (s : State) (set i n : Nat) : (s.lifeAdd set i n).mem = s.mem := rfl
@[simp] theorem lifeAdd_dmem (s : State) (set i n : Nat) : (s.lifeAdd set i n).dmem = s.dmem := rfl
@[simp] theorem lifeAdd_flash (s : State) (set i n : Nat) : (s.lifeAdd set i n).flash = s.flash := rfl
@[simp] theorem lifeAdd_progs (s : State) (set i n : Nat) : (s.lifeAdd set i n).progs = s.progs := rfl
@[simp] theorem lifeAdd_icache (s : State) (set i n : Nat) : (s.lifeAdd set i n).icache = s.icache := rfl
@[simp] theorem lifeAdd_loads (s : State) (set i n : Nat) : (s.lifeAdd set i n).loads = s.loads := rfl
@[simp] theorem lifeAdd_dome (s : State) (set i n : Nat) : (s.lifeAdd set i n).dome = s.dome := rfl
@[simp] theorem lifeAdd_rgnChange (s : State) (set i n : Nat) : (s.lifeAdd set i n).rgnChange = s.rgnChange := rfl
@[simp] theorem lifeAdd_arrivals (s : State) (set i n : Nat) : (s.lifeAdd set i n).arrivals = s.arrivals := rfl
@[simp] theorem lifeAdd_tx (s : State) (set i n : Nat) : (s.lifeAdd set i n).tx = s.tx := rfl
@[simp] theorem lifeAdd_draws (s : State) (set i n : Nat) : (s.lifeAdd set i n).draws = s.draws := rfl
@[simp] theorem lifeAdd_errs (s : State) (set i n : Nat) : (s.lifeAdd set i n).errs = s.errs := rfl
@[simp] theorem lifeAdd_enSpires (s : State) (set i n : Nat) : (s.lifeAdd set i n).enSpires = s.enSpires := rfl
@[simp] theorem lifeAdd_ctxHeld (s : State) (set i n : Nat) : (s.lifeAdd set i n).ctxHeld = s.ctxHeld := rfl
@[simp] theorem lifeAdd_outOfService (s : State) (set i n : Nat) : (s.lifeAdd set i n).outOfService = s.outOfService := rfl
@[simp] theorem lifeAdd_ctrs (s : State) (set i n : Nat) : (s.lifeAdd set i n).ctrs = s.ctrs := rfl
@[simp] theorem lifeAdd_clrDue (s : State) (set i n : Nat) : (s.lifeAdd set i n).clrDue = s.clrDue := rfl
@[simp] theorem lifeAdd_waiters (s : State) (set i n : Nat) : (s.lifeAdd set i n).waiters = s.waiters := rfl
@[simp] theorem lifeAdd_poolHeld (s : State) (set i n : Nat) : (s.lifeAdd set i n).poolHeld = s.poolHeld := rfl
@[simp] theorem lifeAdd_ready (s : State) (set i n : Nat) : (s.lifeAdd set i n).ready = s.ready := rfl
@[simp] theorem lifeAdd_entrySeq (s : State) (set i n : Nat) : (s.lifeAdd set i n).entrySeq = s.entrySeq := rfl
@[simp] theorem lifeAdd_qos (s : State) (set i n : Nat) : (s.lifeAdd set i n).qos = s.qos := rfl
@[simp] theorem lifeAdd_ops (s : State) (set i n : Nat) : (s.lifeAdd set i n).ops = s.ops := rfl
@[simp] theorem lifeAdd_opSeq (s : State) (set i n : Nat) : (s.lifeAdd set i n).opSeq = s.opSeq := rfl
@[simp] theorem lifeAdd_served (s : State) (set i n : Nat) : (s.lifeAdd set i n).served = s.served := rfl
@[simp] theorem lifeAdd_streams (s : State) (set i n : Nat) : (s.lifeAdd set i n).streams = s.streams := rfl
@[simp] theorem lifeAdd_reqs (s : State) (set i n : Nat) : (s.lifeAdd set i n).reqs = s.reqs := rfl
@[simp] theorem lifeAdd_arr (s : State) (set i n : Nat) : (s.lifeAdd set i n).arr = s.arr := rfl
@[simp] theorem lifeAdd_scales (s : State) (set i n : Nat) : (s.lifeAdd set i n).scales = s.scales := rfl
@[simp] theorem lifeAdd_gscales (s : State) (set i n : Nat) : (s.lifeAdd set i n).gscales = s.gscales := rfl
@[simp] theorem lifeAdd_tables (s : State) (set i n : Nat) : (s.lifeAdd set i n).tables = s.tables := rfl
@[simp] theorem lifeAdd_genHigh (s : State) (set i n : Nat) : (s.lifeAdd set i n).genHigh = s.genHigh := rfl
@[simp] theorem lifeAdd_batches (s : State) (set i n : Nat) : (s.lifeAdd set i n).batches = s.batches := rfl
@[simp] theorem lifeAdd_exch (s : State) (set i n : Nat) : (s.lifeAdd set i n).exch = s.exch := rfl
@[simp] theorem lifeAdd_rounds (s : State) (set i n : Nat) : (s.lifeAdd set i n).rounds = s.rounds := rfl
@[simp] theorem lifeAdd_lookups (s : State) (set i n : Nat) : (s.lifeAdd set i n).lookups = s.lookups := rfl
@[simp] theorem lifeAdd_applied (s : State) (set i n : Nat) : (s.lifeAdd set i n).applied = s.applied := rfl
@[simp] theorem lifeAdd_form (s : State) (set i n : Nat) : (s.lifeAdd set i n).form = s.form := rfl
@[simp] theorem lifeAdd_starts (s : State) (set i n : Nat) : (s.lifeAdd set i n).starts = s.starts := rfl
@[simp] theorem lifeAdd_fanouts (s : State) (set i n : Nat) : (s.lifeAdd set i n).fanouts = s.fanouts := rfl
@[simp] theorem lifeAdd_replay (s : State) (set i n : Nat) : (s.lifeAdd set i n).replay = s.replay := rfl
@[simp] theorem lifeAdd_journal (s : State) (set i n : Nat) : (s.lifeAdd set i n).journal = s.journal := rfl
@[simp] theorem lifeAdd_tests (s : State) (set i n : Nat) : (s.lifeAdd set i n).tests = s.tests := rfl
@[simp] theorem lifeAdd_stops (s : State) (set i n : Nat) : (s.lifeAdd set i n).stops = s.stops := rfl
@[simp] theorem lifeAdd_badBytes (s : State) (set i n : Nat) : (s.lifeAdd set i n).badBytes = s.badBytes := rfl
@[simp] theorem lifeAdd_autoNext (s : State) (set i n : Nat) : (s.lifeAdd set i n).autoNext = s.autoNext := rfl
@[simp] theorem lifeAdd_autoDrain (s : State) (set i n : Nat) : (s.lifeAdd set i n).autoDrain = s.autoDrain := rfl

@[simp] theorem storeWrite_pending (s : State) (a : Nat) (b : List Byte) : (s.storeWrite a b).pending = s.pending := rfl
@[simp] theorem storeWrite_tick (s : State) (a : Nat) (b : List Byte) : (s.storeWrite a b).tick = s.tick := rfl
@[simp] theorem storeWrite_regs (s : State) (a : Nat) (b : List Byte) : (s.storeWrite a b).regs = s.regs := rfl
@[simp] theorem storeWrite_pins (s : State) (a : Nat) (b : List Byte) : (s.storeWrite a b).pins = s.pins := rfl
@[simp] theorem storeWrite_fuses (s : State) (a : Nat) (b : List Byte) : (s.storeWrite a b).fuses = s.fuses := rfl
@[simp] theorem storeWrite_power (s : State) (a : Nat) (b : List Byte) : (s.storeWrite a b).power = s.power := rfl
@[simp] theorem storeWrite_boot (s : State) (a : Nat) (b : List Byte) : (s.storeWrite a b).boot = s.boot := rfl
@[simp] theorem storeWrite_port (s : State) (a : Nat) (b : List Byte) : (s.storeWrite a b).port = s.port := rfl
@[simp] theorem storeWrite_ptp (s : State) (a : Nat) (b : List Byte) : (s.storeWrite a b).ptp = s.ptp := rfl
@[simp] theorem storeWrite_sess (s : State) (a : Nat) (b : List Byte) : (s.storeWrite a b).sess = s.sess := rfl
@[simp] theorem storeWrite_i3cSamples (s : State) (a : Nat) (b : List Byte) : (s.storeWrite a b).i3cSamples = s.i3cSamples := rfl
@[simp] theorem storeWrite_keys (s : State) (a : Nat) (b : List Byte) : (s.storeWrite a b).keys = s.keys := rfl
@[simp] theorem storeWrite_qps (s : State) (a : Nat) (b : List Byte) : (s.storeWrite a b).qps = s.qps := rfl
@[simp] theorem storeWrite_tasks (s : State) (a : Nat) (b : List Byte) : (s.storeWrite a b).tasks = s.tasks := rfl
@[simp] theorem storeWrite_cores (s : State) (a : Nat) (b : List Byte) : (s.storeWrite a b).cores = s.cores := rfl
@[simp] theorem storeWrite_dmem (s : State) (a : Nat) (b : List Byte) : (s.storeWrite a b).dmem = s.dmem := rfl
@[simp] theorem storeWrite_flash (s : State) (a : Nat) (b : List Byte) : (s.storeWrite a b).flash = s.flash := rfl
@[simp] theorem storeWrite_progs (s : State) (a : Nat) (b : List Byte) : (s.storeWrite a b).progs = s.progs := rfl
@[simp] theorem storeWrite_icache (s : State) (a : Nat) (b : List Byte) : (s.storeWrite a b).icache = s.icache := rfl
@[simp] theorem storeWrite_loads (s : State) (a : Nat) (b : List Byte) : (s.storeWrite a b).loads = s.loads := rfl
@[simp] theorem storeWrite_dome (s : State) (a : Nat) (b : List Byte) : (s.storeWrite a b).dome = s.dome := rfl
@[simp] theorem storeWrite_rgnChange (s : State) (a : Nat) (b : List Byte) : (s.storeWrite a b).rgnChange = s.rgnChange := rfl
@[simp] theorem storeWrite_arrivals (s : State) (a : Nat) (b : List Byte) : (s.storeWrite a b).arrivals = s.arrivals := rfl
@[simp] theorem storeWrite_tx (s : State) (a : Nat) (b : List Byte) : (s.storeWrite a b).tx = s.tx := rfl
@[simp] theorem storeWrite_draws (s : State) (a : Nat) (b : List Byte) : (s.storeWrite a b).draws = s.draws := rfl
@[simp] theorem storeWrite_errs (s : State) (a : Nat) (b : List Byte) : (s.storeWrite a b).errs = s.errs := rfl
@[simp] theorem storeWrite_enSpires (s : State) (a : Nat) (b : List Byte) : (s.storeWrite a b).enSpires = s.enSpires := rfl
@[simp] theorem storeWrite_ctxHeld (s : State) (a : Nat) (b : List Byte) : (s.storeWrite a b).ctxHeld = s.ctxHeld := rfl
@[simp] theorem storeWrite_outOfService (s : State) (a : Nat) (b : List Byte) : (s.storeWrite a b).outOfService = s.outOfService := rfl
@[simp] theorem storeWrite_ctrs (s : State) (a : Nat) (b : List Byte) : (s.storeWrite a b).ctrs = s.ctrs := rfl
@[simp] theorem storeWrite_clrDue (s : State) (a : Nat) (b : List Byte) : (s.storeWrite a b).clrDue = s.clrDue := rfl
@[simp] theorem storeWrite_waiters (s : State) (a : Nat) (b : List Byte) : (s.storeWrite a b).waiters = s.waiters := rfl
@[simp] theorem storeWrite_poolHeld (s : State) (a : Nat) (b : List Byte) : (s.storeWrite a b).poolHeld = s.poolHeld := rfl
@[simp] theorem storeWrite_ready (s : State) (a : Nat) (b : List Byte) : (s.storeWrite a b).ready = s.ready := rfl
@[simp] theorem storeWrite_entrySeq (s : State) (a : Nat) (b : List Byte) : (s.storeWrite a b).entrySeq = s.entrySeq := rfl
@[simp] theorem storeWrite_qos (s : State) (a : Nat) (b : List Byte) : (s.storeWrite a b).qos = s.qos := rfl
@[simp] theorem storeWrite_ops (s : State) (a : Nat) (b : List Byte) : (s.storeWrite a b).ops = s.ops := rfl
@[simp] theorem storeWrite_opSeq (s : State) (a : Nat) (b : List Byte) : (s.storeWrite a b).opSeq = s.opSeq := rfl
@[simp] theorem storeWrite_served (s : State) (a : Nat) (b : List Byte) : (s.storeWrite a b).served = s.served := rfl
@[simp] theorem storeWrite_streams (s : State) (a : Nat) (b : List Byte) : (s.storeWrite a b).streams = s.streams := rfl
@[simp] theorem storeWrite_reqs (s : State) (a : Nat) (b : List Byte) : (s.storeWrite a b).reqs = s.reqs := rfl
@[simp] theorem storeWrite_arr (s : State) (a : Nat) (b : List Byte) : (s.storeWrite a b).arr = s.arr := rfl
@[simp] theorem storeWrite_scales (s : State) (a : Nat) (b : List Byte) : (s.storeWrite a b).scales = s.scales := rfl
@[simp] theorem storeWrite_gscales (s : State) (a : Nat) (b : List Byte) : (s.storeWrite a b).gscales = s.gscales := rfl
@[simp] theorem storeWrite_tables (s : State) (a : Nat) (b : List Byte) : (s.storeWrite a b).tables = s.tables := rfl
@[simp] theorem storeWrite_genHigh (s : State) (a : Nat) (b : List Byte) : (s.storeWrite a b).genHigh = s.genHigh := rfl
@[simp] theorem storeWrite_batches (s : State) (a : Nat) (b : List Byte) : (s.storeWrite a b).batches = s.batches := rfl
@[simp] theorem storeWrite_exch (s : State) (a : Nat) (b : List Byte) : (s.storeWrite a b).exch = s.exch := rfl
@[simp] theorem storeWrite_rounds (s : State) (a : Nat) (b : List Byte) : (s.storeWrite a b).rounds = s.rounds := rfl
@[simp] theorem storeWrite_lookups (s : State) (a : Nat) (b : List Byte) : (s.storeWrite a b).lookups = s.lookups := rfl
@[simp] theorem storeWrite_applied (s : State) (a : Nat) (b : List Byte) : (s.storeWrite a b).applied = s.applied := rfl
@[simp] theorem storeWrite_form (s : State) (a : Nat) (b : List Byte) : (s.storeWrite a b).form = s.form := rfl
@[simp] theorem storeWrite_starts (s : State) (a : Nat) (b : List Byte) : (s.storeWrite a b).starts = s.starts := rfl
@[simp] theorem storeWrite_fanouts (s : State) (a : Nat) (b : List Byte) : (s.storeWrite a b).fanouts = s.fanouts := rfl
@[simp] theorem storeWrite_replay (s : State) (a : Nat) (b : List Byte) : (s.storeWrite a b).replay = s.replay := rfl
@[simp] theorem storeWrite_smd (s : State) (a : Nat) (b : List Byte) : (s.storeWrite a b).smd = s.smd := rfl
@[simp] theorem storeWrite_journal (s : State) (a : Nat) (b : List Byte) : (s.storeWrite a b).journal = s.journal := rfl
@[simp] theorem storeWrite_tests (s : State) (a : Nat) (b : List Byte) : (s.storeWrite a b).tests = s.tests := rfl
@[simp] theorem storeWrite_stops (s : State) (a : Nat) (b : List Byte) : (s.storeWrite a b).stops = s.stops := rfl
@[simp] theorem storeWrite_badBytes (s : State) (a : Nat) (b : List Byte) : (s.storeWrite a b).badBytes = s.badBytes := rfl
@[simp] theorem storeWrite_autoNext (s : State) (a : Nat) (b : List Byte) : (s.storeWrite a b).autoNext = s.autoNext := rfl
@[simp] theorem storeWrite_autoDrain (s : State) (a : Nat) (b : List Byte) : (s.storeWrite a b).autoDrain = s.autoDrain := rfl

@[simp] theorem dataWrite_pending (s : State) (k a : Nat) (b : List Byte) : (s.dataWrite k a b).pending = s.pending := rfl
@[simp] theorem dataWrite_tick (s : State) (k a : Nat) (b : List Byte) : (s.dataWrite k a b).tick = s.tick := rfl
@[simp] theorem dataWrite_regs (s : State) (k a : Nat) (b : List Byte) : (s.dataWrite k a b).regs = s.regs := rfl
@[simp] theorem dataWrite_pins (s : State) (k a : Nat) (b : List Byte) : (s.dataWrite k a b).pins = s.pins := rfl
@[simp] theorem dataWrite_fuses (s : State) (k a : Nat) (b : List Byte) : (s.dataWrite k a b).fuses = s.fuses := rfl
@[simp] theorem dataWrite_power (s : State) (k a : Nat) (b : List Byte) : (s.dataWrite k a b).power = s.power := rfl
@[simp] theorem dataWrite_boot (s : State) (k a : Nat) (b : List Byte) : (s.dataWrite k a b).boot = s.boot := rfl
@[simp] theorem dataWrite_port (s : State) (k a : Nat) (b : List Byte) : (s.dataWrite k a b).port = s.port := rfl
@[simp] theorem dataWrite_ptp (s : State) (k a : Nat) (b : List Byte) : (s.dataWrite k a b).ptp = s.ptp := rfl
@[simp] theorem dataWrite_sess (s : State) (k a : Nat) (b : List Byte) : (s.dataWrite k a b).sess = s.sess := rfl
@[simp] theorem dataWrite_i3cSamples (s : State) (k a : Nat) (b : List Byte) : (s.dataWrite k a b).i3cSamples = s.i3cSamples := rfl
@[simp] theorem dataWrite_keys (s : State) (k a : Nat) (b : List Byte) : (s.dataWrite k a b).keys = s.keys := rfl
@[simp] theorem dataWrite_qps (s : State) (k a : Nat) (b : List Byte) : (s.dataWrite k a b).qps = s.qps := rfl
@[simp] theorem dataWrite_tasks (s : State) (k a : Nat) (b : List Byte) : (s.dataWrite k a b).tasks = s.tasks := rfl
@[simp] theorem dataWrite_cores (s : State) (k a : Nat) (b : List Byte) : (s.dataWrite k a b).cores = s.cores := rfl
@[simp] theorem dataWrite_mem (s : State) (k a : Nat) (b : List Byte) : (s.dataWrite k a b).mem = s.mem := rfl
@[simp] theorem dataWrite_flash (s : State) (k a : Nat) (b : List Byte) : (s.dataWrite k a b).flash = s.flash := rfl
@[simp] theorem dataWrite_progs (s : State) (k a : Nat) (b : List Byte) : (s.dataWrite k a b).progs = s.progs := rfl
@[simp] theorem dataWrite_icache (s : State) (k a : Nat) (b : List Byte) : (s.dataWrite k a b).icache = s.icache := rfl
@[simp] theorem dataWrite_loads (s : State) (k a : Nat) (b : List Byte) : (s.dataWrite k a b).loads = s.loads := rfl
@[simp] theorem dataWrite_dome (s : State) (k a : Nat) (b : List Byte) : (s.dataWrite k a b).dome = s.dome := rfl
@[simp] theorem dataWrite_rgnChange (s : State) (k a : Nat) (b : List Byte) : (s.dataWrite k a b).rgnChange = s.rgnChange := rfl
@[simp] theorem dataWrite_arrivals (s : State) (k a : Nat) (b : List Byte) : (s.dataWrite k a b).arrivals = s.arrivals := rfl
@[simp] theorem dataWrite_tx (s : State) (k a : Nat) (b : List Byte) : (s.dataWrite k a b).tx = s.tx := rfl
@[simp] theorem dataWrite_draws (s : State) (k a : Nat) (b : List Byte) : (s.dataWrite k a b).draws = s.draws := rfl
@[simp] theorem dataWrite_errs (s : State) (k a : Nat) (b : List Byte) : (s.dataWrite k a b).errs = s.errs := rfl
@[simp] theorem dataWrite_enSpires (s : State) (k a : Nat) (b : List Byte) : (s.dataWrite k a b).enSpires = s.enSpires := rfl
@[simp] theorem dataWrite_ctxHeld (s : State) (k a : Nat) (b : List Byte) : (s.dataWrite k a b).ctxHeld = s.ctxHeld := rfl
@[simp] theorem dataWrite_outOfService (s : State) (k a : Nat) (b : List Byte) : (s.dataWrite k a b).outOfService = s.outOfService := rfl
@[simp] theorem dataWrite_ctrs (s : State) (k a : Nat) (b : List Byte) : (s.dataWrite k a b).ctrs = s.ctrs := rfl
@[simp] theorem dataWrite_clrDue (s : State) (k a : Nat) (b : List Byte) : (s.dataWrite k a b).clrDue = s.clrDue := rfl
@[simp] theorem dataWrite_waiters (s : State) (k a : Nat) (b : List Byte) : (s.dataWrite k a b).waiters = s.waiters := rfl
@[simp] theorem dataWrite_poolHeld (s : State) (k a : Nat) (b : List Byte) : (s.dataWrite k a b).poolHeld = s.poolHeld := rfl
@[simp] theorem dataWrite_ready (s : State) (k a : Nat) (b : List Byte) : (s.dataWrite k a b).ready = s.ready := rfl
@[simp] theorem dataWrite_entrySeq (s : State) (k a : Nat) (b : List Byte) : (s.dataWrite k a b).entrySeq = s.entrySeq := rfl
@[simp] theorem dataWrite_qos (s : State) (k a : Nat) (b : List Byte) : (s.dataWrite k a b).qos = s.qos := rfl
@[simp] theorem dataWrite_ops (s : State) (k a : Nat) (b : List Byte) : (s.dataWrite k a b).ops = s.ops := rfl
@[simp] theorem dataWrite_opSeq (s : State) (k a : Nat) (b : List Byte) : (s.dataWrite k a b).opSeq = s.opSeq := rfl
@[simp] theorem dataWrite_served (s : State) (k a : Nat) (b : List Byte) : (s.dataWrite k a b).served = s.served := rfl
@[simp] theorem dataWrite_streams (s : State) (k a : Nat) (b : List Byte) : (s.dataWrite k a b).streams = s.streams := rfl
@[simp] theorem dataWrite_reqs (s : State) (k a : Nat) (b : List Byte) : (s.dataWrite k a b).reqs = s.reqs := rfl
@[simp] theorem dataWrite_arr (s : State) (k a : Nat) (b : List Byte) : (s.dataWrite k a b).arr = s.arr := rfl
@[simp] theorem dataWrite_scales (s : State) (k a : Nat) (b : List Byte) : (s.dataWrite k a b).scales = s.scales := rfl
@[simp] theorem dataWrite_gscales (s : State) (k a : Nat) (b : List Byte) : (s.dataWrite k a b).gscales = s.gscales := rfl
@[simp] theorem dataWrite_tables (s : State) (k a : Nat) (b : List Byte) : (s.dataWrite k a b).tables = s.tables := rfl
@[simp] theorem dataWrite_genHigh (s : State) (k a : Nat) (b : List Byte) : (s.dataWrite k a b).genHigh = s.genHigh := rfl
@[simp] theorem dataWrite_batches (s : State) (k a : Nat) (b : List Byte) : (s.dataWrite k a b).batches = s.batches := rfl
@[simp] theorem dataWrite_exch (s : State) (k a : Nat) (b : List Byte) : (s.dataWrite k a b).exch = s.exch := rfl
@[simp] theorem dataWrite_rounds (s : State) (k a : Nat) (b : List Byte) : (s.dataWrite k a b).rounds = s.rounds := rfl
@[simp] theorem dataWrite_lookups (s : State) (k a : Nat) (b : List Byte) : (s.dataWrite k a b).lookups = s.lookups := rfl
@[simp] theorem dataWrite_applied (s : State) (k a : Nat) (b : List Byte) : (s.dataWrite k a b).applied = s.applied := rfl
@[simp] theorem dataWrite_form (s : State) (k a : Nat) (b : List Byte) : (s.dataWrite k a b).form = s.form := rfl
@[simp] theorem dataWrite_starts (s : State) (k a : Nat) (b : List Byte) : (s.dataWrite k a b).starts = s.starts := rfl
@[simp] theorem dataWrite_fanouts (s : State) (k a : Nat) (b : List Byte) : (s.dataWrite k a b).fanouts = s.fanouts := rfl
@[simp] theorem dataWrite_replay (s : State) (k a : Nat) (b : List Byte) : (s.dataWrite k a b).replay = s.replay := rfl
@[simp] theorem dataWrite_smd (s : State) (k a : Nat) (b : List Byte) : (s.dataWrite k a b).smd = s.smd := rfl
@[simp] theorem dataWrite_journal (s : State) (k a : Nat) (b : List Byte) : (s.dataWrite k a b).journal = s.journal := rfl
@[simp] theorem dataWrite_tests (s : State) (k a : Nat) (b : List Byte) : (s.dataWrite k a b).tests = s.tests := rfl
@[simp] theorem dataWrite_stops (s : State) (k a : Nat) (b : List Byte) : (s.dataWrite k a b).stops = s.stops := rfl
@[simp] theorem dataWrite_badBytes (s : State) (k a : Nat) (b : List Byte) : (s.dataWrite k a b).badBytes = s.badBytes := rfl
@[simp] theorem dataWrite_autoNext (s : State) (k a : Nat) (b : List Byte) : (s.dataWrite k a b).autoNext = s.autoNext := rfl
@[simp] theorem dataWrite_autoDrain (s : State) (k a : Nat) (b : List Byte) : (s.dataWrite k a b).autoDrain = s.autoDrain := rfl

@[simp] theorem draw_pending (s : State) : s.draw.2.pending = s.pending := rfl
@[simp] theorem draw_tick (s : State) : s.draw.2.tick = s.tick := rfl
@[simp] theorem draw_regs (s : State) : s.draw.2.regs = s.regs := rfl
@[simp] theorem draw_pins (s : State) : s.draw.2.pins = s.pins := rfl
@[simp] theorem draw_fuses (s : State) : s.draw.2.fuses = s.fuses := rfl
@[simp] theorem draw_power (s : State) : s.draw.2.power = s.power := rfl
@[simp] theorem draw_boot (s : State) : s.draw.2.boot = s.boot := rfl
@[simp] theorem draw_port (s : State) : s.draw.2.port = s.port := rfl
@[simp] theorem draw_ptp (s : State) : s.draw.2.ptp = s.ptp := rfl
@[simp] theorem draw_sess (s : State) : s.draw.2.sess = s.sess := rfl
@[simp] theorem draw_i3cSamples (s : State) : s.draw.2.i3cSamples = s.i3cSamples := rfl
@[simp] theorem draw_keys (s : State) : s.draw.2.keys = s.keys := rfl
@[simp] theorem draw_qps (s : State) : s.draw.2.qps = s.qps := rfl
@[simp] theorem draw_tasks (s : State) : s.draw.2.tasks = s.tasks := rfl
@[simp] theorem draw_cores (s : State) : s.draw.2.cores = s.cores := rfl
@[simp] theorem draw_mem (s : State) : s.draw.2.mem = s.mem := rfl
@[simp] theorem draw_dmem (s : State) : s.draw.2.dmem = s.dmem := rfl
@[simp] theorem draw_flash (s : State) : s.draw.2.flash = s.flash := rfl
@[simp] theorem draw_progs (s : State) : s.draw.2.progs = s.progs := rfl
@[simp] theorem draw_icache (s : State) : s.draw.2.icache = s.icache := rfl
@[simp] theorem draw_loads (s : State) : s.draw.2.loads = s.loads := rfl
@[simp] theorem draw_dome (s : State) : s.draw.2.dome = s.dome := rfl
@[simp] theorem draw_rgnChange (s : State) : s.draw.2.rgnChange = s.rgnChange := rfl
@[simp] theorem draw_arrivals (s : State) : s.draw.2.arrivals = s.arrivals := rfl
@[simp] theorem draw_tx (s : State) : s.draw.2.tx = s.tx := rfl
@[simp] theorem draw_errs (s : State) : s.draw.2.errs = s.errs := rfl
@[simp] theorem draw_enSpires (s : State) : s.draw.2.enSpires = s.enSpires := rfl
@[simp] theorem draw_ctxHeld (s : State) : s.draw.2.ctxHeld = s.ctxHeld := rfl
@[simp] theorem draw_outOfService (s : State) : s.draw.2.outOfService = s.outOfService := rfl
@[simp] theorem draw_ctrs (s : State) : s.draw.2.ctrs = s.ctrs := rfl
@[simp] theorem draw_clrDue (s : State) : s.draw.2.clrDue = s.clrDue := rfl
@[simp] theorem draw_waiters (s : State) : s.draw.2.waiters = s.waiters := rfl
@[simp] theorem draw_poolHeld (s : State) : s.draw.2.poolHeld = s.poolHeld := rfl
@[simp] theorem draw_ready (s : State) : s.draw.2.ready = s.ready := rfl
@[simp] theorem draw_entrySeq (s : State) : s.draw.2.entrySeq = s.entrySeq := rfl
@[simp] theorem draw_qos (s : State) : s.draw.2.qos = s.qos := rfl
@[simp] theorem draw_ops (s : State) : s.draw.2.ops = s.ops := rfl
@[simp] theorem draw_opSeq (s : State) : s.draw.2.opSeq = s.opSeq := rfl
@[simp] theorem draw_served (s : State) : s.draw.2.served = s.served := rfl
@[simp] theorem draw_streams (s : State) : s.draw.2.streams = s.streams := rfl
@[simp] theorem draw_reqs (s : State) : s.draw.2.reqs = s.reqs := rfl
@[simp] theorem draw_arr (s : State) : s.draw.2.arr = s.arr := rfl
@[simp] theorem draw_scales (s : State) : s.draw.2.scales = s.scales := rfl
@[simp] theorem draw_gscales (s : State) : s.draw.2.gscales = s.gscales := rfl
@[simp] theorem draw_tables (s : State) : s.draw.2.tables = s.tables := rfl
@[simp] theorem draw_genHigh (s : State) : s.draw.2.genHigh = s.genHigh := rfl
@[simp] theorem draw_batches (s : State) : s.draw.2.batches = s.batches := rfl
@[simp] theorem draw_exch (s : State) : s.draw.2.exch = s.exch := rfl
@[simp] theorem draw_rounds (s : State) : s.draw.2.rounds = s.rounds := rfl
@[simp] theorem draw_lookups (s : State) : s.draw.2.lookups = s.lookups := rfl
@[simp] theorem draw_applied (s : State) : s.draw.2.applied = s.applied := rfl
@[simp] theorem draw_form (s : State) : s.draw.2.form = s.form := rfl
@[simp] theorem draw_starts (s : State) : s.draw.2.starts = s.starts := rfl
@[simp] theorem draw_fanouts (s : State) : s.draw.2.fanouts = s.fanouts := rfl
@[simp] theorem draw_replay (s : State) : s.draw.2.replay = s.replay := rfl
@[simp] theorem draw_smd (s : State) : s.draw.2.smd = s.smd := rfl
@[simp] theorem draw_journal (s : State) : s.draw.2.journal = s.journal := rfl
@[simp] theorem draw_tests (s : State) : s.draw.2.tests = s.tests := rfl
@[simp] theorem draw_stops (s : State) : s.draw.2.stops = s.stops := rfl
@[simp] theorem draw_badBytes (s : State) : s.draw.2.badBytes = s.badBytes := rfl
@[simp] theorem draw_autoNext (s : State) : s.draw.2.autoNext = s.autoNext := rfl
@[simp] theorem draw_autoDrain (s : State) : s.draw.2.autoDrain = s.autoDrain := rfl

/-! Updates that are an update of one register. -/

theorem setF_eq (s : State) (a lo n v : Nat) : s.setF a lo n v = s.setReg a (rput (s.reg a) lo n v) := rfl
theorem setB_eq (s : State) (a i : Nat) (b : Bool) : s.setB a i b = s.setReg a (rputBit (s.reg a) i b) := rfl
theorem bump_eq (s : State) (a n : Nat) : s.bump a n = s.setReg a (BitVec.ofNat 32 (satAdd 32 (s.reg a).toNat n)) := rfl
theorem setDevState_eq (s : State) (v : Nat) : s.setDevState v = s.setF aDevStatus 0 4 v := rfl

/-! What an update makes of the part it updates. -/

/-- A register after a register write. -/
theorem reg_setReg (s : State) (a b : Nat) (v : W32) : (s.setReg a v).reg b = if b = a then v else s.reg b := by
  unfold State.reg State.setReg
  by_cases h : b = a
  · subst h; simp only [SMap.get_set, if_true]
  · simp only [SMap.get_set_ne _ _ _ _ _ _ h, if_neg h]

@[simp] theorem reg_setReg_self (s : State) (a : Nat) (v : W32) : (s.setReg a v).reg a = v := by simp [reg_setReg]

/-- A session after a session is replaced. -/
theorem ses_setSes (s : State) (i j : Nat) (v : Session) : (s.setSes i v).ses j = if j = i then v else s.ses j :=
  SMap.get_set _ _ _ _ _

@[simp] theorem ses_setSes_self (s : State) (i : Nat) (v : Session) : (s.setSes i v).ses i = v := by simp [ses_setSes]

/-- A key slot after a key slot is replaced. -/
theorem key_setKey (s : State) (i j : Nat) (v : KeySlot) : (s.setKey i v).key j = if j = i then v else s.key j :=
  SMap.get_set _ _ _ _ _

@[simp] theorem key_setKey_self (s : State) (i : Nat) (v : KeySlot) : (s.setKey i v).key i = v := by simp [key_setKey]

/-- A core after a core is replaced. -/
theorem core_setCore (s : State) (i j : Nat) (c : Core) : (s.setCore i c).core j = if j = i then c else s.core j :=
  SMap.get_set _ _ _ _ _

@[simp] theorem core_setCore_self (s : State) (i : Nat) (c : Core) : (s.setCore i c).core i = c := by simp [core_setCore]

/-- A counter after a counter is set. -/
theorem ctr_setCtr (s : State) (i j v : Nat) : (s.setCtr i v).ctr j = if j = i then v else s.ctr j :=
  SMap.get_set _ _ _ _ _

/-- A general register after a general register is written: g0 stays 0 (R442). -/
theorem rd_wr (c : Core) (a r : Reg) (v : W64) : (c.wr a v).rd r = if r = a ∧ a ≠ 0 then v else c.rd r := by
  unfold Core.wr Core.rd
  by_cases ha : a = 0
  · simp [ha]
  · by_cases hr : r = 0
    · subst hr; simp [ha, Ne.symm ha]
    · by_cases h : r = a
      · subst h; simp [ha, SMap.get_set]
      · have h' : r.val ≠ a.val := fun e => h (Fin.ext e)
        simp [ha, hr, h, h', SMap.get_set]

/-- Writing a general register leaves the rest of the core. -/
theorem wr_eq (c : Core) (a : Reg) (v : W64) : c.wr a v = { c with g := (c.wr a v).g } := by
  unfold Core.wr; split <;> rfl

/-- A descriptor register after a descriptor register is written. -/
theorem rdd_wrd (c : Core) (d e : DReg) (v : BitVec 512) : (c.wrd d v).rdd e = if e = d then v else c.rdd e := by
  unfold Core.wrd Core.rdd
  by_cases h : e = d
  · subst h; simp [SMap.get_set]
  · have h' : e.val ≠ d.val := fun x => h (Fin.ext x)
    simp [h, h', SMap.get_set]

/-- A bit of a number after a set bit is taken away. -/
theorem testBit_sub_two_pow (w i j : Nat) (hw : w.testBit i = true) : (w - 2 ^ i).testBit j = if j = i then false else w.testBit j := by
  have hp : 2 ^ (i + 1) = 2 * 2 ^ i := by rw [pow_succ]; omega
  have hl : w % 2 ^ i < 2 ^ i := Nat.mod_lt _ (Nat.two_pow_pos i)
  have hb : w / 2 ^ i % 2 = 1 := by simpa [Nat.testBit_eq_decide_div_mod_eq] using hw
  have hr : w % 2 ^ (i + 1) = 2 ^ i + w % 2 ^ i := by
    have h := Nat.mod_mul (a := 2 ^ i) (b := 2) (x := w)
    rw [pow_succ, h, hb]; omega
  have hd := Nat.div_add_mod w (2 ^ (i + 1))
  have e : w - 2 ^ i = 2 ^ (i + 1) * (w / 2 ^ (i + 1)) + w % 2 ^ i := by omega
  have e' : w = 2 ^ (i + 1) * (w / 2 ^ (i + 1)) + (2 ^ i + w % 2 ^ i) := by omega
  rw [e]
  conv_rhs => rw [e']
  rw [Nat.testBit_two_pow_mul_add _ (by omega), Nat.testBit_two_pow_mul_add _ (by omega)]
  by_cases h : j = i
  · subst h; simp [Nat.testBit_lt_two_pow hl]
  · by_cases hj : j < i
    · simp [h, Nat.lt_succ_of_lt hj, Nat.testBit_two_pow_add_gt hj]
    · have : ¬ j < i + 1 := by omega
      simp [h, this]

/-- A bit of a number after one bit is set or cleared. -/
theorem testBit_nsetBit (w i j : Nat) (b : Bool) : (nsetBit w i b).testBit j = if j = i then b else w.testBit j := by
  unfold nsetBit
  cases b with
  | true =>
    simp only [if_true, Nat.testBit_or, Nat.testBit_two_pow]
    by_cases h : j = i
    · simp [h]
    · simp [h, Ne.symm h]
  | false =>
    by_cases hw : w.testBit i = true
    · simp only [Bool.false_eq_true, if_false, hw, if_true]
      exact testBit_sub_two_pow w i j hw
    · simp only [Bool.false_eq_true, if_false, hw]
      by_cases h : j = i
      · subst h; simpa using hw
      · simp [h]

/-- A predicate after a predicate is written: p0 stays true (R442). -/
theorem rp_wp (c : Core) (p q : PReg) (b : Bool) : (c.wp p b).rp q = if q = p ∧ p ≠ 0 then b else c.rp q := by
  unfold Core.wp Core.rp
  by_cases hp : p = 0
  · simp [hp]
  · by_cases hq : q = 0
    · subst hq; simp [hp, Ne.symm hp]
    · by_cases h : q = p
      · subst h; simp [hp, testBit_nsetBit]
      · have h' : q.val ≠ p.val := fun e => h (Fin.ext e)
        simp [hp, hq, h, h', testBit_nsetBit]

/-- Writing a predicate leaves the rest of the core. -/
theorem wp_eq (c : Core) (p : PReg) (b : Bool) : c.wp p b = { c with p := (c.wp p b).p } := by
  unfold Core.wp; split <;> rfl

/-! The canonical form of the memories. -/

/-- A write of a Spire store keeps the memory's canonical form. -/
theorem storeWrite_wf (s : State) (a : Nat) (b : List Byte) (h : s.mem.wf = true) : (s.storeWrite a b).mem.wf = true :=
  Mem.wf_writeN b s.mem a h

/-- A write of a core data memory keeps the memory's canonical form. -/
theorem dataWrite_wf (s : State) (k a : Nat) (b : List Byte) (h : s.dmem.wf = true) : (s.dataWrite k a b).dmem.wf = true :=
  Mem.wf_writeN b s.dmem _ h

/-- A range of memory that loses its contents keeps the memory's canonical form. -/
theorem scramble_wf (s : State) (lo hi : Nat) (h : s.mem.wf = true) : (s.scramble lo hi).mem.wf = true :=
  Mem.wf_scramble s.mem lo hi s.draws h

/-! A core's execution. -/

/-- What the Dome cache's bookkeeping of an access may change: registers, the cache, the lines with errors, and memory. -/
def DomeOnly (s t : State) : Prop :=
  ∃ rg dm bad m, t = { s with regs := rg, dome := dm, badBytes := bad, mem := m }

theorem DomeOnly.refl (s : State) : DomeOnly s s := ⟨_, _, _, _, rfl⟩

theorem DomeOnly.trans {s t u : State} (h : DomeOnly s t) (h' : DomeOnly t u) : DomeOnly s u := by
  obtain ⟨_, _, _, _, rfl⟩ := h
  obtain ⟨a, b, c, d, rfl⟩ := h'
  exact ⟨a, b, c, d, rfl⟩

theorem DomeOnly.cores {s t : State} (h : DomeOnly s t) : t.cores = s.cores := by
  obtain ⟨_, _, _, _, rfl⟩ := h; rfl

theorem victimHit_dome (s : State) (l : Nat) : DomeOnly s (s.victimHit l) := by
  unfold State.victimHit; split
  · exact ⟨_, _, _, _, rfl⟩
  · exact .refl s

theorem chooseVictim_dome (s : State) (l : Nat) : DomeOnly s (s.chooseVictim l).2 := ⟨_, _, _, _, rfl⟩

theorem writeBack_dome (s : State) (k : Nat) : DomeOnly s (s.writeBack k) := by
  unfold State.writeBack
  cases SMap.find s.dome.lines k with
  | none => exact .refl s
  | some e =>
    dsimp only
    by_cases hd : e.dirty <;> simp only [hd, if_true, if_false, Bool.false_eq_true]
    · exact ⟨_, _, _, _, rfl⟩
    · exact .refl s

theorem refresh_dome (s : State) (l : Nat) : DomeOnly s (s.refresh l) := by
  unfold State.refresh
  cases SMap.find s.dome.fresh l <;> exact ⟨_, _, _, _, rfl⟩

theorem dropLine_dome (s : State) (k : Nat) : DomeOnly s (s.dropLine k) := by
  unfold State.dropLine
  cases SMap.find s.dome.lines k with
  | none => exact .refl s
  | some e => exact DomeOnly.trans ⟨_, _, _, _, rfl⟩ (refresh_dome _ _)

theorem evict_dome (s : State) (k : Nat) : DomeOnly s (s.evict k) := (writeBack_dome s k).trans (dropLine_dome _ k)

theorem install_dome (s : State) (l w : Nat) : DomeOnly s (s.install l w) := ⟨_, _, _, _, rfl⟩

theorem dirtyLine_dome (s : State) (l w : Nat) : DomeOnly s (s.dirtyLine l w) := by
  unfold State.dirtyLine
  dsimp only
  cases SMap.find s.dome.lines (wayKey l w) with
  | none => exact .refl s
  | some e =>
    dsimp only
    by_cases hd : e.dirty
    · simp only [hd, if_true]; exact .refl s
    · simp only [hd, if_false, Bool.false_eq_true]
      split
      · split
        · exact (writeBack_dome s _).trans ⟨_, _, _, _, rfl⟩
        · exact ⟨_, _, _, _, rfl⟩
      · exact ⟨_, _, _, _, rfl⟩

theorem wroteLine_dome (s : State) (a n l : Nat) : DomeOnly s (s.wroteLine a n l) := by
  unfold State.wroteLine
  split
  · exact ⟨_, _, _, _, rfl⟩
  · dsimp only
    split
    · exact ⟨_, _, _, _, rfl⟩
    · exact .refl s

theorem foldl_dome {α : Type} (f : State → α → State) (h : ∀ s x, DomeOnly s (f s x)) (l : List α) (s : State) :
    DomeOnly s (l.foldl f s) := by
  induction l generalizing s with
  | nil => exact .refl s
  | cons x t ih => exact (h s x).trans (ih (f s x))

/-- Storing bytes changes memory, the lines that hold them and which bytes have errors. -/
theorem storeBytes_dome (s : State) (a : Nat) (b : List Byte) : DomeOnly s (s.storeBytes a b) :=
  DomeOnly.trans ⟨_, _, _, _, rfl⟩ (foldl_dome _ (fun u l => wroteLine_dome u a b.length l) _ _)

theorem settleFill_dome (s : State) (l : Nat) : DomeOnly s (s.settleFill l) := by
  unfold State.settleFill
  cases s.dome.fills.find? fun f : Fill => f.line == l with
  | none => exact .refl s
  | some f =>
    dsimp only
    refine DomeOnly.trans ?_ ⟨_, _, _, _, rfl⟩
    have h1 : ∀ u : State, DomeOnly u (if f.raced then u.bump (aDomeCnt 4) else (u.evict (wayKey l f.way)).install l f.way) := by
      intro u; split
      · exact ⟨_, _, _, _, rfl⟩
      · exact (evict_dome u _).trans (install_dome _ _ _)
    have h2 : ∀ u : State, DomeOnly u (if (f.writes.isEmpty || f.raced) = true then u else u.dirtyLine l f.way) := by
      intro u; split
      · exact .refl u
      · exact dirtyLine_dome u _ _
    exact DomeOnly.trans ⟨_, _, _, _, rfl⟩ (((h1 _).trans (h2 _)).trans (foldl_dome _ (fun u (w : Nat × List Byte) => storeBytes_dome u w.1 w.2) _ _))

/-- An access of a line changes the Dome cache, its registers, the lines with errors and the bytes that waited for a fill, and nothing
else. -/
theorem touch_dome (s : State) (w : Bool) (l : Nat) : DomeOnly s (s.touch w l) := by
  unfold State.touch
  by_cases hb : s.bypass = true
  · rw [if_pos hb]; exact .refl s
  · rw [if_neg hb]
    dsimp only
    have hi : ∀ u : State, DomeOnly u (match u.findWay l with
        | some v => (v, u.bump (aDomeCnt 0))
        | none => (((u.victimHit l).chooseVictim l).1,
            (((u.victimHit l).chooseVictim l).2.evict (wayKey l ((u.victimHit l).chooseVictim l).1)).install l
              ((u.victimHit l).chooseVictim l).1)).2 := by
      intro u
      cases u.findWay l with
      | some v => exact ⟨_, _, _, _, rfl⟩
      | none =>
        exact (((victimHit_dome u l).trans (chooseVictim_dome _ l)).trans (evict_dome _ _)).trans (install_dome _ _ _)
    refine (settleFill_dome s l).trans ?_
    split
    · exact (hi _).trans (dirtyLine_dome _ _ _)
    · exact hi _

/-- Fetching a word leaves every core as it was (R417). -/
theorem icFetch_cores (s : State) (n c pc : Nat) : (s.icFetch n c pc).cores = s.cores := by
  unfold State.icFetch State.icFill
  split
  · rfl
  · have h := (touch_dome s false (s.imageAddr c / 128 + s.icLine c pc)).cores
    dsimp only
    split <;> exact h

end Sys2Proof.Machine
end

