-- ==== Sys2Proof/Laws/Cores.lean ====
section
/-! SUPPORT. What the execution of an instruction at its core's PC comes to, once, for every instruction: the shared operations
fire and fireCore, and the results that WritesGpr, WritesPred and JumpsTo name. -/

namespace Sys2Proof.Machine

/-- Fetching leaves every core as it was. -/
theorem icFetch_core (s : State) (n c pc m : Nat) : (s.icFetch n c pc).core m = s.core m := by
  rw [State.core, State.core, icFetch_cores]

/-- Fetching leaves every core as it was. -/
theorem fetched_core (s : State) (k : CoreRef) (it : Item) (m : Nat) : (s.fetched k it).core m = s.core m := icFetch_core _ _ _ _ _

/-- Where a core executes its instruction, fire is the instruction's effect on the state after the fetch. -/
theorem fire_of_fires {s : State} {i : Instr} {k : CoreRef} {g : Guard} {gs : List Reg} {ds : List DReg} {it : Item}
    (h : Fires s i k g gs ds it) (f : State → Nat → Core → Item → State) :
    s.fire i k g gs ds f = .next (f (s.fetched k it) (coreIdx k) (s.coreOf k) it) := by
  have hr : (gs.any fun r => (s.coreOf k).pending false r.val) = false := by
    simpa [List.any_eq_false] using h.regs
  have hd : (ds.any fun d => (s.coreOf k).pending true d.val) = false := by
    simpa [List.any_eq_false] using h.descs
  have h1 := h.item; have h2 := h.free; have h3 := h.serves; have h4 := h.fetched; have h5 := h.word; have h6 := h.guard
  simp only [State.coreOf] at h1 h2 h4 h5 h6 hr hd
  simp only [State.fire, h1, h2, h3, h4, h5, h6, hr, hd, State.fetched, State.coreOf]
  simp

/-- Where a core executes an instruction whose whole effect is on the core. -/
theorem fireCore_of_fires {s : State} {i : Instr} {k : CoreRef} {g : Guard} {gs : List Reg} {ds : List DReg} {it : Item}
    (h : Fires s i k g gs ds it) (f : Core → Core) :
    s.fireCore i k g gs ds f = .next ((s.fetched k it).setCore (coreIdx k) (f (s.coreOf k)).step) := fire_of_fires h _

/-- Where the guard is false, fire lets the core go on and does nothing else. -/
theorem fire_of_guard_false {s : State} {i : Instr} {k : CoreRef} {g : Guard} {gs : List Reg} {ds : List DReg} {it : Item}
    (f : State → Nat → Core → Item → State) (h1 : (s.coreOf k).run = some it) (h2 : (s.coreOf k).hold = none)
    (h3 : s.spireRuns k.spire.val = true) (h4 : s.fetchLost (coreIdx k) it.ctx (s.coreOf k).pc = false)
    (h5 : s.at? k (s.coreOf k) it.ctx i = true) (h6 : (s.coreOf k).guardHolds g = false) :
    s.fire i k g gs ds f = .next ((s.fetched k it).setCore (coreIdx k) (s.coreOf k).step) := by
  simp only [State.coreOf] at h1 h2 h4 h5 h6
  simp only [State.fire, h1, h2, h3, h4, h5, h6, State.fetched, State.coreOf]
  simp

/-- The fetch that a running core makes. -/
theorem fetchedNow_eq {s : State} {k : CoreRef} {it : Item} (h : (s.coreOf k).run = some it) : s.fetchedNow k = s.fetched k it := by
  rw [State.fetchedNow, h]

/-- A core replaced after the fetch: nothing else differs. -/
theorem onlyCore_setCore {s : State} {k : CoreRef} {it : Item} (h : (s.coreOf k).run = some it) (c : Core) :
    OnlyCore s ((s.fetched k it).setCore (coreIdx k) c) k := by
  refine ⟨?_, fun n hn => by rw [core_setCore, if_neg hn, fetched_core]⟩
  rw [fetchedNow_eq h]
  exact ⟨_, rfl⟩

/-- The core that was replaced. -/
theorem coreOf_setCore (s : State) (k : CoreRef) (c : Core) : (s.setCore (coreIdx k) c).coreOf k = c := core_setCore_self _ _ _

/-- Writing a general register and going on is what WritesGpr says. -/
theorem writesGpr_wr {s : State} {k : CoreRef} {it : Item} (h : (s.coreOf k).run = some it) (a : Reg) (v : W64) :
    WritesGpr s ((s.fetched k it).setCore (coreIdx k) ((s.coreOf k).wr a v).step) k a v := by
  refine ⟨onlyCore_setCore h _, fun r => ?_, ?_⟩
  · rw [coreOf_setCore]; exact rd_wr _ _ _ _
  · rw [coreOf_setCore, wr_eq]; rfl

/-- Writing a predicate and going on is what WritesPred says. -/
theorem writesPred_wp {s : State} {k : CoreRef} {it : Item} (h : (s.coreOf k).run = some it) (p : PReg) (b : Bool) :
    WritesPred s ((s.fetched k it).setCore (coreIdx k) ((s.coreOf k).wp p b).step) k p b := by
  refine ⟨onlyCore_setCore h _, fun q => ?_, ?_⟩
  · rw [coreOf_setCore]; exact rp_wp _ _ _ _
  · rw [coreOf_setCore, wp_eq]; rfl

/-- A new PC alone is what JumpsTo says. -/
theorem jumpsTo_setCore {s : State} {k : CoreRef} {it : Item} (h : (s.coreOf k).run = some it) (pc : Nat) :
    JumpsTo s ((s.fetched k it).setCore (coreIdx k) { s.coreOf k with pc := pc }) k pc :=
  ⟨onlyCore_setCore h _, coreOf_setCore _ _ _⟩

end Sys2Proof.Machine
end

