-- ==== Sys2Proof/Laws/Xmss.lean ====
section
/-! SUPPORT. The hashes and XMSS (R906): lengths of what they answer, and that for every message there are a root and a signature
that verifies (so a bootable image exists). -/

namespace Sys2Proof.Machine

/-- natLe answers n bytes. -/
theorem length_natLe (n : Nat) : ∀ v, (natLe n v).length = n := by
  induction n with
  | zero => intro v; rfl
  | succ n ih => intro v; simp [natLe, ih]

/-- natBe answers n bytes. -/
theorem length_natBe (n v : Nat) : (natBe n v).length = n := by simp [natBe, length_natLe]

/-- A little-endian number of n bytes is below 256^n. -/
theorem leNat_lt : ∀ l : List Byte, leNat l < 256 ^ l.length
  | [] => by simp [leNat]
  | b :: l => by
    have h := leNat_lt l
    have hb := b.isLt
    simp only [leNat, List.length_cons, Nat.pow_succ]
    omega

/-- Reading bytes as a number and writing it gives the bytes. -/
theorem natLe_leNat : ∀ l : List Byte, natLe l.length (leNat l) = l
  | [] => rfl
  | b :: l => by
    have h := natLe_leNat l
    have hb := b.isLt
    simp only [leNat, List.length_cons, natLe]
    have e1 : (b.toNat + 256 * leNat l) / 256 = leNat l := by omega
    rw [e1, h]
    congr 1
    apply BitVec.eq_of_toNat_eq
    simp; omega

/-- A Keccak state has 25 lanes. -/
theorem length_lanes (f : Nat → Nat → W64) : (lanes f).length = 25 := by simp [lanes]

/-- toLanes answers n lanes. -/
theorem length_toLanes (n : Nat) : ∀ l, (toLanes n l).length = n := by
  induction n with
  | zero => intro l; rfl
  | succ n ih => intro l; simp [toLanes, ih]

/-- The permutation answers 25 lanes. -/
theorem length_keccakF (a : List W64) : (keccakF a).length = 25 := by
  unfold keccakF
  have h : ∀ (l : List W64) (b : List W64), l ≠ [] → (l.foldl keccakRound b).length = 25 := by
    intro l
    induction l with
    | nil => intro b h; exact absurd rfl h
    | cons x t ih =>
      intro b _
      by_cases ht : t = []
      · subst ht; simp [keccakRound, chi, length_lanes]
      · exact ih _ ht
  exact h _ _ (by simp [keccakRC])

/-- Absorbing keeps 25 lanes. -/
theorem length_absorb : ∀ (n : Nat) (a : List W64) (l : List Byte), a.length = 25 → (absorb n a l).length = 25
  | 0, _, _, h => h
  | n + 1, a, l, h => by
    unfold absorb
    split
    · exact h
    · exact length_absorb n _ _ (length_keccakF _)

/-- SHAKE256 asked for 32 bytes answers 32. -/
theorem length_shake256 (m : List Byte) : (shake256 m 32).length = 32 := by
  have h := length_absorb
  unfold shake256 sponge
  simp only
  rw [show ceilDiv 32 136 = 1 from rfl]
  simp only [squeeze, List.append_nil, List.length_take]
  rw [List.length_flatMap]
  simp only [length_natLe]
  rw [List.map_const', List.sum_replicate, length_absorb _ _ _ (by simp)]
  rfl

/-- A keyed hash has 32 bytes. -/
theorem length_keyedHash (p : Nat) (k m : List Byte) : (keyedHash p k m).length = 32 := length_shake256 _

/-- A chain of a + b steps is b steps from the end of a steps. -/
theorem chainFrom_add (seed : List Byte) (x : HashAddr) : ∀ (a b i : Nat) (v : List Byte),
    chainFrom seed x (a + b) i v = chainFrom seed x b (i + a) (chainFrom seed x a i v)
  | 0, b, i, v => by simp [chainFrom]
  | a + 1, b, i, v => by
    rw [Nat.succ_add, chainFrom, chainFrom, chainFrom_add seed x a b (i + 1)]
    congr 1; omega

/-- A chain of 32-byte values. -/
theorem length_chainFrom (seed : List Byte) (x : HashAddr) : ∀ (n i : Nat) (v : List Byte), v.length = 32 →
    (chainFrom seed x n i v).length = 32
  | 0, _, _, h => h
  | n + 1, i, _, _ => length_chainFrom seed x n (i + 1) _ (length_keyedHash _ _ _)

/-- Two digits to a byte. -/
theorem length_hexDigits (m : List Byte) : (hexDigits m).length = 2 * m.length := by
  induction m with
  | nil => rfl
  | cons b t ih => simp [hexDigits] at ih ⊢; omega

/-- A digit is at most 15. -/
theorem hexDigits_le (m : List Byte) : ∀ d ∈ hexDigits m, d ≤ 15 := by
  intro d h
  simp only [hexDigits, List.mem_flatMap, List.mem_cons, List.not_mem_nil, or_false] at h
  obtain ⟨b, _, h⟩ := h
  have := b.isLt
  omega

/-- A 32-byte message has 67 digits with its checksum. -/
theorem length_wotsDigits (m : List Byte) (h : m.length = 32) : (wotsDigits m).length = 67 := by
  simp [wotsDigits, length_hexDigits, h, length_natBe]

/-- A digit, of the checksum too, is at most 15. -/
theorem wotsDigits_le (m : List Byte) : ∀ d ∈ wotsDigits m, d ≤ 15 := by
  intro d h
  simp only [wotsDigits, List.mem_append] at h
  exact h.elim (hexDigits_le _ d) fun h => hexDigits_le _ d (List.mem_of_mem_take h)

/-- Completing the chains of a one-time signature gives the ends of the whole chains, whatever was signed. -/
theorem wotsPublic_sign (seed : List Byte) (x : HashAddr) (m v : List Byte) (h : m.length = 32) :
    wotsPublic seed x ((wotsDigits m).zipIdx.map fun e => chainFrom seed { x with w5 := e.2 } e.1 0 v) m
      = (List.range 67).map fun c => chainFrom seed { x with w5 := c } 15 0 v := by
  have hl := length_wotsDigits m h
  apply List.ext_getElem
  · simp [wotsPublic, hl]
  · intro i h1 h2
    have hd : (wotsDigits m)[i]'(by simpa [hl] using h2) ≤ 15 := wotsDigits_le m _ (List.getElem_mem _)
    simp only [wotsPublic, List.getElem_map, List.getElem_zipIdx, List.getElem_zip, List.getElem_range, Nat.zero_add]
    have e := chainFrom_add seed { x with w5 := i } ((wotsDigits m)[i]'(by simpa [hl] using h2))
      (15 - (wotsDigits m)[i]'(by simpa [hl] using h2)) 0 v
    rw [Nat.add_sub_cancel' hd, Nat.zero_add] at e
    exact e.symm

/-- Cutting joined 32-byte values gives them back. -/
theorem pieces32_flatten : ∀ l : List (List Byte), (∀ x ∈ l, x.length = 32) → pieces32 l.length l.flatten = l
  | [], _ => rfl
  | x :: t, h => by
    have hx := h x (List.mem_cons_self ..)
    simp only [List.length_cons, pieces32, List.flatten_cons]
    rw [← hx, List.take_left, List.drop_left, pieces32_flatten t fun y hy => h y (List.mem_cons_of_mem _ hy)]

/-- A climb along 32-byte values. -/
theorem length_climb (seed : List Byte) (x : HashAddr) : ∀ (l : List (List Byte)) (k i : Nat) (v : List Byte), v.length = 32 →
    (climb seed x k i v l).length = 32
  | [], _, _, _, h => h
  | _ :: t, k, i, v, _ => by
    unfold climb
    apply length_climb
    split <;> exact length_keyedHash _ _ _

/-- A climb of at least one step ends in a hash. -/
theorem climb_cons_length (seed : List Byte) (x : HashAddr) (l : List (List Byte)) (a : List Byte) (k i : Nat) (v : List Byte) :
    (climb seed x k i v (a :: l)).length = 32 := by
  unfold climb
  apply length_climb
  split <;> exact length_keyedHash _ _ _

/-- Reading big-endian bytes as a number and writing it gives the bytes. -/
theorem natBe_leNat (l : List Byte) (n : Nat) (h : l.length = n) : natBe n (leNat l.reverse) = l := by
  unfold natBe
  have e := natLe_leNat l.reverse
  rw [List.length_reverse, h] at e
  rw [e, List.reverse_reverse]

/-- The bytes of a list of 32-byte values. -/
theorem length_flatten32 : ∀ l : List (List Byte), (∀ x ∈ l, x.length = 32) → l.flatten.length = 32 * l.length
  | [], _ => rfl
  | x :: t, h => by
    have hx := h x (List.mem_cons_self ..)
    simp only [List.flatten_cons, List.length_append, List.length_cons, length_flatten32 t fun y hy => h y (List.mem_cons_of_mem _ hy)]
    omega

/-- Verification of a signature laid out field by field. -/
theorem xmssVerify_fields (root seed msg idx rho : List Byte) (chains path : List (List Byte)) (hr : root.length = 32) (hs : seed.length = 32)
    (hi : idx.length = 4) (hc : chains.length = 67) (hp : path.length = 20)
    (hl : ∀ x ∈ rho :: (chains ++ path), x.length = 32) :
    xmssVerify (natBe 4 romOid ++ root ++ seed) msg (idx ++ (rho :: (chains ++ path)).flatten)
      = (climb seed { kind := 2 } 0 (leNat idx.reverse) (leafOf seed 0 0 (leNat idx.reverse)
          (wotsPublic seed { w4 := leNat idx.reverse } chains (messageHash rho root (leNat idx.reverse) msg))) path == root) := by
  have h4 : (natBe 4 romOid).length = 4 := length_natBe _ _
  have hn : (rho :: (chains ++ path)).length = 88 := by rw [List.length_cons, List.length_append, hc, hp]
  have hf := length_flatten32 _ hl
  rw [hn] at hf
  have hq := pieces32_flatten _ hl
  rw [hn] at hq
  generalize hP : (rho :: (chains ++ path)).flatten = F at *
  obtain ⟨oid, ho⟩ : ∃ o, o = natBe 4 romOid := ⟨_, rfl⟩
  rw [← ho] at h4 ⊢
  have e1 : slice (oid ++ root ++ seed) 4 32 = root := by
    unfold slice; rw [List.append_assoc, List.drop_left' h4, List.take_left' hr]
  have e2 : slice (oid ++ root ++ seed) 36 32 = seed := by
    unfold slice; rw [List.drop_left' (by rw [List.length_append, h4, hr]), List.take_of_length_le (by rw [hs])]
  have e3 : (oid ++ root ++ seed).take 4 = oid := by rw [List.append_assoc, List.take_left' h4]
  have e4 : (idx ++ F).take 4 = idx := List.take_left' hi
  have e5 : (idx ++ F).drop 4 = F := List.drop_left' hi
  have e6 : (idx ++ F).length = fwSigLen := by rw [List.length_append, hi, hf]; rfl
  have e7 : ((rho :: (chains ++ path)).drop 1).take 67 = chains := by
    rw [List.drop_succ_cons, List.drop_zero, List.take_left' hc]
  have e8 : (rho :: (chains ++ path)).drop 68 = path := by rw [List.drop_succ_cons, List.drop_left' hc]
  unfold xmssVerify
  rw [← ho]
  simp only [e1, e2, e3, e4, e5, e6, e7, e8, hq, List.headD_cons, beq_self_eq_true, Bool.true_and]

/-- For every message and public seed there are a root and a signature that verifies under them: one-time key 0, whose chains start from
zeros, and an authentication path of zeros. -/
theorem xmssVerify_holds (f : Fuses) (msg : List Byte) : ∃ (root : BitVec 256) (sig : List Byte), sig.length = 2820
    ∧ xmssVerify (vendorPub { f with vendorRoot := root }) msg sig = true := by
  obtain ⟨z, hz⟩ : ∃ z : List Byte, z.length = 32 := ⟨zeros 32, by simp [zeros]⟩
  obtain ⟨seed, hs⟩ : ∃ x, x = natBe 32 f.vendorSeed.toNat := ⟨_, rfl⟩
  have hsl : seed.length = 32 := by rw [hs]; exact length_natBe _ _
  obtain ⟨path, hp, hpl⟩ : ∃ p : List (List Byte), p.length = 20 ∧ ∀ x ∈ p, x.length = 32 :=
    ⟨List.replicate 20 z, List.length_replicate, fun x h => by rw [(List.mem_replicate.1 h).2, hz]⟩
  obtain ⟨idx, hi, hi0⟩ : ∃ x : List Byte, x.length = 4 ∧ leNat x.reverse = 0 := ⟨[0, 0, 0, 0], rfl, rfl⟩
  obtain ⟨ends, he⟩ : ∃ e, e = (List.range 67).map fun c => chainFrom seed { ({} : HashAddr) with w5 := c } 15 0 z := ⟨_, rfl⟩
  obtain ⟨root, hr⟩ : ∃ r, r = climb seed { kind := 2 } 0 0 (leafOf seed 0 0 0 ends) path := ⟨_, rfl⟩
  have hrl : root.length = 32 := by
    rw [hr]
    cases path with
    | nil => simp at hp
    | cons a l => exact climb_cons_length _ _ _ _ _ _ _
  have hb : natBe 32 (BitVec.ofNat 256 (leNat root.reverse)).toNat = root := by
    have hlt := leNat_lt root.reverse
    rw [List.length_reverse, hrl] at hlt
    rw [BitVec.toNat_ofNat, Nat.mod_eq_of_lt (by simpa using hlt)]
    exact natBe_leNat root 32 hrl
  obtain ⟨m, hm⟩ : ∃ m, m = messageHash z root 0 msg := ⟨_, rfl⟩
  have hml : m.length = 32 := by rw [hm]; exact length_keyedHash _ _ _
  obtain ⟨chains, hc⟩ : ∃ c, c = (wotsDigits m).zipIdx.map fun e => chainFrom seed { ({} : HashAddr) with w5 := e.2 } e.1 0 z := ⟨_, rfl⟩
  have hcl : chains.length = 67 := by rw [hc, List.length_map, List.length_zipIdx, length_wotsDigits m hml]
  have hw := wotsPublic_sign seed {} m z hml
  rw [← hc, ← he] at hw
  have hl : ∀ x ∈ z :: (chains ++ path), x.length = 32 := by
    intro x h
    rcases List.mem_cons.1 h with rfl | h
    · exact hz
    rcases List.mem_append.1 h with h | h
    · rw [hc] at h
      obtain ⟨e, _, rfl⟩ := List.mem_map.1 h
      exact length_chainFrom _ _ _ _ _ hz
    · exact hpl x h
  have key := xmssVerify_fields root seed msg idx z chains path hrl hsl hi hcl hp hl
  rw [hi0, ← hm] at key
  refine ⟨BitVec.ofNat 256 (leNat root.reverse), idx ++ (z :: (chains ++ path)).flatten, ?_, ?_⟩
  · rw [List.length_append, hi, length_flatten32 _ hl, List.length_cons, List.length_append, hcl, hp]
  · unfold vendorPub
    rw [show ({ f with vendorRoot := BitVec.ofNat 256 (leNat root.reverse) } : Fuses).vendorRoot = BitVec.ofNat 256 (leNat root.reverse) from rfl,
      show ({ f with vendorRoot := BitVec.ofNat 256 (leNat root.reverse) } : Fuses).vendorSeed = f.vendorSeed from rfl, hb, ← hs, key, beq_iff_eq]
    rw [show ({ w4 := 0 } : HashAddr) = {} from rfl, hw, ← hr]
end Sys2Proof.Machine
end

