-- ==== Sys2Proof/Laws/Gcm.lean ====
section
/-! SUPPORT. GCM (R152): encrypting under a key twice gives the data back, so what a partner encrypts is what a received frame carries. -/

namespace Sys2Proof.Machine

/-- Exclusive or twice with the same bytes gives the first list back. -/
theorem xorBlock_xorBlock (a k : List Byte) (h : a.length ≤ k.length) : xorBlock (xorBlock a k) k = a := by
  apply List.ext_getElem
  · simp [xorBlock]; omega
  · intro i h1 h2
    simp only [xorBlock, List.getElem_zipWith]
    rw [BitVec.xor_assoc, BitVec.xor_self, BitVec.xor_zero]

/-- A block under round keys of 16 bytes has 16 bytes. -/
theorem length_aesRounds : ∀ (ks : List (List Byte)) (b : List Byte), b.length = 16 → (∀ k ∈ ks, k.length = 16) → (aesRounds ks b).length = 16
  | [], _, h, _ => h
  | [k], b, h, hk => by
    have := hk k (List.mem_cons_self ..)
    simp [aesRounds, xorBlock, aesShift, this]
  | k :: l :: t, b, h, hk => by
    rw [aesRounds]
    · apply length_aesRounds
      · have := hk k (List.mem_cons_self ..)
        simp [xorBlock, aesMix, aesShift, this]
      · exact fun x hx => hk x (List.mem_cons_of_mem _ hx)
    · simp

/-- A round key has 16 bytes. -/
theorem length_aesNextKey (i : Nat) (p q : List Byte) (hp : p.length = 16) (hq : q.length = 16) : (aesNextKey i p q).length = 16 := by
  unfold aesNextKey
  simp only
  generalize ht : (if i % 2 = 0 then _ else _ : List Byte) = t
  have hl : t.length = 4 := by subst ht; split <;> simp [xorBlock, hq]
  simp [xorBlock, hp, hl]

/-- Every round key has 16 bytes. -/
theorem length_aesKeysFrom : ∀ (n i : Nat) (p q : List Byte), p.length = 16 → q.length = 16 → ∀ k ∈ aesKeysFrom n i p q, k.length = 16
  | 0, _, _, _, _, _, _, hk => by cases hk
  | n + 1, i, p, q, hp, hq, k, hk => by
    have hn := length_aesNextKey i p q hp hq
    rcases List.mem_cons.1 hk with rfl | hk
    · exact hn
    · exact length_aesKeysFrom n _ _ _ hq hn k hk

/-- The cipher of a 16-byte block under a 32-byte key has 16 bytes. -/
theorem length_aes256 (key b : List Byte) (hk : key.length = 32) (hb : b.length = 16) : (aes256 (aesKeys key) b).length = 16 := by
  unfold aes256 aesKeys
  apply length_aesRounds
  · simp [xorBlock, hb, hk]
  · intro k h
    rcases List.mem_cons.1 (by simpa using h) with rfl | h
    · simp [hk]
    · exact length_aesKeysFrom _ _ _ _ (by simp [hk]) (by simp [hk]) k h

/-- The keystream taken off again. -/
theorem gcmStream_twice (key iv : List Byte) (hk : key.length = 32) (hi : iv.length = 12) : ∀ (n i : Nat) (l : List Byte), l.length < n →
    gcmStream (aesKeys key) iv n i (gcmStream (aesKeys key) iv n i l) = l
  | 0, _, _, h => absurd h (Nat.not_lt_zero _)
  | n + 1, i, l, h => by
    cases l with
    | nil => simp [gcmStream]
    | cons x t =>
      have hs : (aes256 (aesKeys key) (iv ++ natBe 4 i)).length = 16 := length_aes256 _ _ hk (by rw [List.length_append, hi, length_natBe])
      generalize hS : aes256 (aesKeys key) (iv ++ natBe 4 i) = S at *
      have e : gcmStream (aesKeys key) iv (n + 1) i (x :: t)
          = xorBlock ((x :: t).take 16) S ++ gcmStream (aesKeys key) iv n (i + 1) ((x :: t).drop 16) := by
        rw [gcmStream, if_neg (by simp), hS]
      rw [e]
      have hb : (xorBlock ((x :: t).take 16) S).length = min 16 (x :: t).length := by
        simp only [xorBlock, List.length_zipWith, List.length_take, hs]; omega
      generalize hB : xorBlock ((x :: t).take 16) S = B at *
      generalize hR : gcmStream (aesKeys key) iv n (i + 1) ((x :: t).drop 16) = R
      have ht := gcmStream_twice key iv hk hi n (i + 1) ((x :: t).drop 16) (by simp only [List.length_drop]; simp only [List.length_cons] at h ⊢; omega)
      rw [hR] at ht
      have hne : (B ++ R).isEmpty = false := by
        cases B with
        | nil => simp only [List.length_nil, List.length_cons] at hb; omega
        | cons b u => rfl
      have hd : (B ++ R).take 16 = B ∧ (B ++ R).drop 16 = R := by
        by_cases h16 : 16 ≤ (x :: t).length
        · have hb16 : B.length = 16 := by rw [hb]; omega
          exact ⟨List.take_left' hb16, List.drop_left' hb16⟩
        · have hr0 : R = [] := by
            rw [← hR, List.drop_eq_nil_of_le (by omega)]
            cases n <;> simp [gcmStream]
          subst hr0
          have : B.length ≤ 16 := by omega
          simp [List.take_of_length_le this, List.drop_eq_nil_of_le this]
      rw [gcmStream, hne, hS, hd.1, hd.2, ht]
      have hx : xorBlock B S = (x :: t).take 16 := by
        rw [← hB]; exact xorBlock_xorBlock _ _ (by rw [hs, List.length_take]; omega)
      simp only [hx, Bool.false_eq_true, if_false, List.take_append_drop]

/-- The keystream keeps the length. -/
theorem length_gcmStream (key iv : List Byte) (hk : key.length = 32) (hi : iv.length = 12) : ∀ (n i : Nat) (l : List Byte), l.length < n →
    (gcmStream (aesKeys key) iv n i l).length = l.length
  | 0, _, _, h => absurd h (Nat.not_lt_zero _)
  | n + 1, i, l, h => by
    rw [gcmStream]
    split
    · rename_i he; rw [List.isEmpty_iff.1 he]
    · rename_i he
      have hs : (aes256 (aesKeys key) (iv ++ natBe 4 i)).length = 16 := length_aes256 _ _ hk (by rw [List.length_append, hi, length_natBe])
      have hl : 0 < l.length := by cases l <;> simp at he ⊢
      rw [List.length_append, length_gcmStream key iv hk hi n (i + 1) _ (by rw [List.length_drop]; omega)]
      simp only [xorBlock, List.length_zipWith, List.length_take, List.length_drop, hs]
      omega

/-- Data encrypted twice is the data. -/
theorem gcmCrypt_twice (key iv data : List Byte) (hk : key.length = 32) (hi : iv.length = 12) :
    gcmCrypt key iv (gcmCrypt key iv data) = data := by
  unfold gcmCrypt
  rw [length_gcmStream key iv hk hi _ _ _ (Nat.lt_succ_self _)]
  exact gcmStream_twice key iv hk hi _ _ _ (Nat.lt_succ_self _)

end Sys2Proof.Machine
end

