-- ==== Sys2Proof/Tests/Slice0.lean ====
section
/-! SUPPORT. Tests: which terms are ill formed, words of each family of Spaner instructions laid out from the manual's tables, and for
each statement with hypotheses a state and operands that meet them. -/

namespace Sys2Proof.Machine

set_option Elab.async false

/-- Spire 0, core 0. -/
def k0 : CoreRef := { spire := 0, core := 0 }
/-- The guard p0: always true. -/
def g0 : Guard := { neg := false, num := 0 }
/-- An engine-issue operand: descriptor register d0, identifier 0, increment 1. -/
def e0 : EOp := { a := 0, b := 0, vc := 0, inc := 1, scope := .spire, vcreg := false }
/-- A synchronisation operand: identifier vc, immediate value v. -/
def o0 (vc : BitVec 16) (v : BitVec 19) : SOp := { vc := vc, b := 0, vcreg := false, c := 0, imm := true, immv := v }

/-! The checks of WellFormed refuse. -/

/-- The guard !p0; B beside an immediate identifier; C or IMMV where the other stands. -/
theorem test_reserved_fields_refused :
    ({ neg := true, num := 0 } : Guard).wf = false ∧ (Instr.fenceDev k0 { neg := true, num := 0 }).wf = false
    ∧ ({ e0 with b := 1 } : EOp).wf = false ∧ (Instr.gather k0 g0 { e0 with b := 1 }).wf = false
    ∧ ({ o0 0 1 with b := 1 } : SOp).wf = false ∧ ({ o0 0 1 with c := 1 } : SOp).wf = false
    ∧ ({ o0 0 1 with imm := false } : SOp).wf = false ∧ (Instr.sig k0 g0 { o0 0 1 with b := 1 }).wf = false
    ∧ (Instr.cread k0 g0 1 (o0 0 1)).wf = false ∧ (Instr.cread k0 g0 1 { o0 0 0 with imm := false, c := 1 }).wf = false := by decide

/-- Shift amounts of 64, branch offsets that are no multiple of 8, ld.d with a sign, the descriptor section where it cannot be named,
and unaligned descriptor bytes. -/
theorem test_operands_refused :
    (Instr.shli k0 g0 1 2 64).wf = false ∧ (Instr.shri k0 g0 1 2 64).wf = false ∧ (Instr.srai k0 g0 1 2 64).wf = false
    ∧ (Instr.shli k0 g0 1 2 63).wf = true
    ∧ (Instr.b k0 g0 4).wf = false ∧ (Instr.bcc k0 g0 .eq 1 2 12).wf = false ∧ (Instr.jal k0 g0 1 1).wf = false
    ∧ (Instr.b k0 g0 (-8)).wf = true ∧ (Instr.jr k0 g0 1 1).wf = true
    ∧ (Instr.ld k0 g0 .d true .dev 1 2 0).wf = false ∧ (Instr.ld k0 g0 .w true .desc 1 2 0).wf = false
    ∧ (Instr.st k0 g0 .w .desc 1 2 0).wf = false ∧ (Instr.dst k0 g0 .desc 1 2 0).wf = false
    ∧ (Instr.dld k0 g0 .desc 1 2 0).wf = true
    ∧ (Instr.dset k0 g0 .h 1 2 1).wf = false ∧ (Instr.dget k0 g0 .d 1 2 4).wf = false ∧ (Instr.dget k0 g0 .d 1 2 56).wf = true := by
  decide

/-! Words from the tables of the instruction-set chapter, for the families that the statement about words leaves out. -/

/-- Words of the predicate, floating-point, memory, descriptor, branch, engine, synchronisation and system instructions. -/
theorem test_words :
    decodeSpaner k0 0 0 (0x05 * 2 ^ 56 + 1 * 2 ^ 51 + 2 * 2 ^ 46 + 3 * 2 ^ 41 + 2 * 2 ^ 29) = some (.pxor k0 g0 1 2 3)
    ∧ decodeSpaner k0 0 0 (0x02 * 2 ^ 56 + 1 * 2 ^ 51 + 2 * 2 ^ 46 + 9 * 2 ^ 32 + 5) = some (.lih k0 g0 1 2 5)
    ∧ decodeSpaner k0 0 0 (0x04 * 2 ^ 56 + 1 * 2 ^ 51 + 2 * 2 ^ 46 + 5 * 2 ^ 32 + 7) = some (.cmpi k0 g0 .geu 1 2 7)
    ∧ decodeSpaner k0 0 0 (0x10 * 2 ^ 56 + 1 * 2 ^ 51 + 2 * 2 ^ 46 + 0x11 * 2 ^ 29) = some (.fcvtLS k0 g0 1 2)
    ∧ decodeSpaner k0 0 0 (0x11 * 2 ^ 56 + 1 * 2 ^ 51 + 2 * 2 ^ 46 + 3 * 2 ^ 41 + 2 * 2 ^ 29) = some (.fcmp k0 g0 .le 1 2 3)
    ∧ decodeSpaner k0 0 0 (0x21 * 2 ^ 56 + 2 * 2 ^ 46 + 3 * 2 ^ 41 + 1 * 2 ^ 35 + 1 * 2 ^ 32 + 16) = some (.st k0 g0 .h .dev 2 3 16)
    ∧ decodeSpaner k0 0 0 (0x44 * 2 ^ 56 + 4 * 2 ^ 51 + 2 * 2 ^ 46 + 2 * 2 ^ 32 + 64) = some (.dld k0 g0 .desc 4 2 64)
    ∧ decodeSpaner k0 0 0 (0x43 * 2 ^ 56 + 4 * 2 ^ 51 + 5 * 2 ^ 46) = some (.dmov k0 g0 4 5)
    ∧ decodeSpaner k0 0 0 (0x33 * 2 ^ 56 + 6 * 2 ^ 46 + 8) = some (.jr k0 g0 6 8)
    ∧ decodeSpaner k0 0 0 (0x50 * 2 ^ 56) = some (.mmaD k0 g0 { e0 with inc := 0 })
    ∧ decodeSpaner k0 3 1 (0x54 * 2 ^ 56 + 1 * 2 ^ 13) = some (.ewiseAdd k0 g0 e0)
    ∧ decodeSpaner k0 2 0 (0x58 * 2 ^ 56 + 1 * 2 ^ 13) = some (.qscanLoad k0 g0 e0)
    ∧ decodeSpaner k0 0 0 (0x5D * 2 ^ 56 + 1 * 2 ^ 13 + 2) = some (.strmAdv k0 g0 e0)
    ∧ decodeSpaner k0 0 0 (0x64 * 2 ^ 56 + 100 * 2 ^ 21 + 1 * 2 ^ 19 + 3) = some (.waitB k0 g0 (o0 100 3))
    ∧ decodeSpaner k0 0 0 (0x70 * 2 ^ 56 + 15 * 2 ^ 51) = some (.spawn k0 g0 15)
    ∧ decodeSpaner k0 0 0 (0x78 * 2 ^ 56 + 3 * 2 ^ 46 + 1 * 2 ^ 34 + 0x010) = some (.csrw k0 g0 3 0x010)
    ∧ decodeSpaner k0 0 0 (0x79 * 2 ^ 56 + 3 * 2 ^ 46 + 0xABCD) = some (.trace k0 g0 3 0xABCD) := by decide +kernel

/-- Reserved opcodes, fields, functions and registers beyond a file spell no instruction. -/
theorem test_reserved_words :
    decodeSpaner k0 0 0 0 = none ∧ decodeSpaner k0 0 0 (0x01 * 2 ^ 56 + 7) = none ∧ decodeSpaner k0 0 0 (0x01 * 2 ^ 56 + 0x15 * 2 ^ 29) = none
    ∧ decodeSpaner k0 0 0 (0x42 * 2 ^ 56 + 16 * 2 ^ 51) = none ∧ decodeSpaner k0 0 0 (0x05 * 2 ^ 56 + 8 * 2 ^ 51) = none
    ∧ decodeSpaner k0 0x15 0 (0x54 * 2 ^ 56) = none ∧ decodeSpaner k0 0 0 (0x68 * 2 ^ 56 + 3) = none := by decide +kernel

/-! A device at work: the states that the witnesses below are built from. -/

/-- Task 1 of key 1, in context 0. -/
def task1 : Task :=
  { key := 1, asn := 1, token := 1, ctx := 0, prio := 0, flags := 0, entry := 0, itemSrc := 0x20000, itemCount := 1, bufs := [],
    deadline := 0, resultMax := 0, tick := 0, payload := [], mode := 0, sess := 0, seq := 1, accepted := true }
/-- Its item. -/
def item1 : Item := { key := 1, asn := 1, ctx := 0, prio := 0, num := 0, frag := 0, degree := 1, words := [] }

/-- The device in RUN with Spires 0 and 1 active, one region of 64 GiB over all stacks, context 0 enabled with one store bank, window 0
over the first 4 GiB with every permission, identifiers 0–7 mapped to counters 0–7 and 100 to a group of four lanes, session 0
enabled for key 1, and its task. -/
def live : State :=
  { ((((((((((((((State.reset.setReg aDevStatus 4).setReg aDevCtl 1).setReg (aSpire 0 0) 0x10000000).setReg (aSpire 1 0) 0x10000000).setReg
      (aRgn 0) 0x80FF0000).setReg (aRgn 0 + 4) 64).setReg (aCtxCtl 0) 1).setReg (aCtx 0 0x010) 0x100).setReg (aWin 0 0) 0).setReg
      (aWin 0 0 + 8) 0x100000).setReg (aWin 0 0 + 12) 0x1F).setReg (aCmap 0 0) 0x80000000).setReg (aCmap 0 0 + 4) 0x80000).setReg
      (aCmap 0 1) 0xC0000064).setReg (aCmap 0 1 + 4) 0x40064 with
    tasks := [task1], keys := [(1, { present := true, owner := true, lastIssued := 1, unreleased := [1] })],
    pins := { resetN := true }, boot := { trained := true, flashFound := true } }

/-- A program whose code is the word w, with 64 bytes of descriptors behind it. -/
def image (w : Nat) : List Byte :=
  zeros 8 ++ natLe 4 0x20 ++ natLe 4 8 ++ natLe 4 0x28 ++ natLe 4 64 ++ zeros 8 ++ natLe 8 w ++ zeros 64
/-- s with core 0 about to execute the word w of a program in the glacier area, its registers as in c. -/
def atWord (w : Nat) (c : Core := {}) (s : State := live) : State :=
  { s with progs := [(0, { image := image w })], cores := [(0, { c with run := some item1 })],
           mem := Mem.writeN s.mem (s.imageAddr 0) (image w) }
/-- s with core 0 about to execute i. -/
def on (i : Instr) (c : Core := {}) (s : State := live) : State := atWord (encodeSpaner i) c s

/-- Core k is ready to execute i, with nothing in flight. -/
def ready (s : State) (i : Instr) (k : CoreRef) (g : Guard) (it : Item) : Bool :=
  (s.coreOf k).run == some it && (s.coreOf k).hold.isNone && s.spireRuns k.spire.val && !s.fetchLost (coreIdx k) it.ctx (s.coreOf k).pc
    && s.at? k (s.coreOf k) it.ctx i && (s.coreOf k).guardHolds g && (s.coreOf k).pend.isEmpty

theorem fires_of_ready {s : State} {i : Instr} {k : CoreRef} {g : Guard} {it : Item} (h : ready s i k g it = true) (gs : List Reg)
    (ds : List DReg) : Fires s i k g gs ds it := by
  simp only [ready, Bool.and_eq_true, beq_iff_eq, Bool.not_eq_true', Option.isNone_iff_eq_none, List.isEmpty_iff] at h
  obtain ⟨⟨⟨⟨⟨⟨h1, h2⟩, h3⟩, h4⟩, h5⟩, h6⟩, h7⟩ := h
  exact ⟨h1, h2, h3, h4, h5, h6, fun _ _ => by simp [Core.pending, h7], fun _ _ => by simp [Core.pending, h7]⟩

/-- A task that can fail, as a Bool. -/
def failable (s : State) (key asn : Nat) : Bool :=
  match s.task? key asn with
  | some x => !s.recorded x && !x.ended && !x.retryDue && x.status.isNone
  | none => false

theorem canFail_of {s : State} {key asn : Nat} (h : failable s key asn = true) : s.canFail key asn := by
  unfold failable at h
  split at h
  · next x hx =>
    simp only [Bool.and_eq_true, Bool.not_eq_true', Option.isNone_iff_eq_none] at h
    exact ⟨x, hx, h.1.1.1, h.1.1.2, h.1.2, h.2⟩
  · cases h

/-! The cores. -/

/-- Integer register functions, one of each. -/
def intRows : List Instr :=
  [.add k0 g0 1 2 3, .sub k0 g0 1 2 3, .and k0 g0 1 2 3, .or k0 g0 1 2 3, .xor k0 g0 1 2 3, .shl k0 g0 1 2 3, .shr k0 g0 1 2 3,
   .sra k0 g0 1 2 3, .mul k0 g0 1 2 3, .mulhu k0 g0 1 2 3, .mulh k0 g0 1 2 3, .divu k0 g0 1 2 3, .remu k0 g0 1 2 3, .div k0 g0 1 2 3,
   .rem k0 g0 1 2 3, .minu k0 g0 1 2 3, .maxu k0 g0 1 2 3, .min k0 g0 1 2 3, .max k0 g0 0 2 3, .popc k0 g0 1 2, .clz k0 g0 1 2]
/-- Immediate functions, compares and predicate logic. -/
def immRows : List Instr :=
  [.addi k0 g0 1 2 5, .andi k0 g0 1 2 5, .ori k0 g0 1 2 5, .xori k0 g0 1 2 5, .shli k0 g0 1 2 63, .shri k0 g0 1 2 63,
   .srai k0 g0 1 2 63, .muli k0 g0 1 2 5, .lih k0 g0 1 2 5, .li k0 g0 1 0xFFFFFFFF, .cmp k0 g0 .eq 0 2 3, .cmpi k0 g0 .lt 1 2 5,
   .pand k0 g0 1 2 3, .por k0 g0 1 2 3, .pxor k0 g0 1 2 3, .pandn k0 g0 1 2 3]
/-- Floating point. -/
def fpRows : List Instr :=
  [.fadd k0 g0 false 1 2 3, .fsub k0 g0 true 1 2 3, .fmul k0 g0 false 1 2 3, .fdiv k0 g0 false 1 2 3, .fmin k0 g0 false 1 2 3,
   .fmax k0 g0 false 1 2 3, .ffma k0 g0 true 1 2 3, .fsqrt k0 g0 false 1 2, .fabs k0 g0 false 1 2, .fneg k0 g0 false 1 2,
   .fcvtSL k0 g0 1 2, .fcvtLS k0 g0 1 2, .fcvtBfS k0 g0 1 2, .fcvtSBf k0 g0 1 2, .fcmp k0 g0 .un 1 2 3]
/-- Branches, descriptor registers and the system instructions. -/
def moveRows : List Instr :=
  [.b k0 g0 0xFFFFFFF8, .bcc k0 g0 .eq 1 2 8, .bcc k0 g0 .ne 1 2 8, .jal k0 g0 0 8, .jr k0 g0 0 8, .jr k0 g0 0 4,
   .dset k0 g0 .d 1 2 56, .dget k0 g0 .b 1 2 63, .dclr k0 g0 1, .dmov k0 g0 1 2, .endI k0 g0, .spawn k0 g0 1, .fenceSpire k0 g0,
   .fenceDev k0 g0, .fenceSys k0 g0, .csrr k0 g0 1 0, .csrr k0 g0 1 0x00A, .csrw k0 g0 0 0x010, .csrw k0 g0 0 0, .trace k0 g0 2 7,
   .cread k0 g0 1 { o0 0 0 with imm := false }, .cread k0 g0 1 { o0 100 0 with imm := false }, .cread k0 g0 1 { o0 9 0 with imm := false }]
/-- The instructions of a core alone. -/
def coreRows : List Instr := intRows ++ immRows ++ fpRows ++ moveRows

/-- Core 0 is ready to execute i in the state where it stands at its PC, and its task can fail. -/
def rowOk (i : Instr) : Bool := ready (on i) i k0 g0 item1 && failable (on i) 1 1

theorem coreRows_ok : coreRows.all rowOk = true := by decide +kernel

/-- Every one of them executes in some state, in which its task can also fail (the premises of the statements about integer,
floating-point, predicate, branch, descriptor and special-register instructions). -/
theorem wit_core_rows : ∀ i ∈ coreRows, ∀ gs ds, Fires (on i) i k0 g0 gs ds item1 ∧ (on i).canFail 1 1 := by
  intro i hi gs ds
  have h := List.all_eq_true.mp coreRows_ok i hi
  simp only [rowOk, Bool.and_eq_true] at h
  exact ⟨fires_of_ready h.1 gs ds, canFail_of h.2⟩

/-- An instruction that loads from or stores to an address that g2 gives, in every space, at the bounds of the space. -/
def memCore (a : Nat) : Core := { g := [(2, BitVec.ofNat 64 a)] }

/-- Loads and stores at the last bytes of data memory, of the context's bank, and of the window; of the descriptor section. -/
theorem wit_loads_and_stores :
    ([Instr.ld k0 g0 .b true .data 1 2 0xFFFFFFFF, .st k0 g0 .b .data 2 1 0xFFFFFFFF].all fun i =>
        ready (on i (memCore 0x8000)) i k0 g0 item1 && decide ((on i (memCore 0x8000)).addrOf k0 2 0xFFFFFFFF = 0x7FFF)) = true
    ∧ ([Instr.dld k0 g0 .data 1 2 0, .dst k0 g0 .data 1 2 0].all fun i =>
        ready (on i (memCore 0x7FC0)) i k0 g0 item1 && decide ((on i (memCore 0x7FC0)).addrOf k0 2 0 = 0x7FC0)) = true
    ∧ ([Instr.ld k0 g0 .d false .dev 1 2 0, .st k0 g0 .d .dev 2 1 0, .dld k0 g0 .dev 1 2 0, .dst k0 g0 .dev 1 2 0].all fun i =>
        let s := on i (memCore (storeBase + 2 ^ 18 - 64))
        ready s i k0 g0 item1 && s.inBanks 0 0 (storeBase + 2 ^ 18 - 64) 64 && decide (s.addrOf k0 2 0 = storeBase + 2 ^ 18 - 64)) = true
    ∧ ([Instr.ld k0 g0 .w true .dev 1 2 0, .st k0 g0 .w .dev 2 1 0, .dld k0 g0 .dev 1 2 0, .dst k0 g0 .dev 1 2 0].all fun i =>
        ready (on i (memCore (2 ^ 32 - 64))) i k0 g0 item1 && (on i (memCore (2 ^ 32 - 64))).dome.fills.isEmpty) = true
    ∧ (on (.dst k0 g0 .dev 1 2 0) (memCore (2 ^ 32 - 64))).tierOk k0 item1 (2 ^ 32 - 64) 64 .wr
    ∧ (on (.ld k0 g0 .w true .dev 1 2 0) (memCore (2 ^ 32 - 64))).tierOk k0 item1 (2 ^ 32 - 64) 4 .rd
    ∧ (let s := on (.dld k0 g0 .desc 1 0 0)
       ready s (.dld k0 g0 .desc 1 0 0) k0 g0 item1 = true ∧ 0 < (s.prog 0).descLen
        ∧ (s.fetched k0 item1).imageLost 0 ((s.prog 0).descOff + 0) 64 = false) := by
  unfold State.tierOk; decide +kernel

/-- Accesses that end the task: unaligned, past the data memory, past the address space, past the bank, past the window, past the
descriptor section. -/
theorem wit_bad_accesses :
    ([(Instr.ld k0 g0 .h true .data 1 2 0, 1), (.ld k0 g0 .b true .data 1 2 0, 0x8000), (.st k0 g0 .d .dev 2 1 0, 4),
      (.ld k0 g0 .b true .dev 1 2 0, 2 ^ 48), (.ld k0 g0 .b true .dev 1 2 0, storeBase + 2 ^ 18), (.dld k0 g0 .desc 1 2 0, 64),
      (.dld k0 g0 .data 1 2 0, 32), (.dst k0 g0 .data 1 2 0, 0x8000), (.st k0 g0 .b .data 2 1 0, 0x8000)].all
        fun (e : Instr × Nat) => ready (on e.1 (memCore e.2)) e.1 k0 g0 item1 && decide ((on e.1 (memCore e.2)).addrOf k0 2 0 = e.2)
          && failable (on e.1 (memCore e.2)) 1 1) = true
    ∧ live.inBanks 0 0 (storeBase + 2 ^ 18) 1 = false ∧ live.access 0 (2 ^ 32) 4 .rd = .denied 0xFFFF
    ∧ live.access 0 (2 ^ 32 - 4) 8 .wr = .denied 0xFFFF ∧ ((on (.ld k0 g0 .b true .dev 1 2 0) (memCore 0)).prog 0).descLen ≤ 64
    ∧ ready (on (.ld k0 g0 .w true .dev 1 2 0) (memCore (2 ^ 32))) (.ld k0 g0 .w true .dev 1 2 0) k0 g0 item1 = true
    ∧ ready (on (.st k0 g0 .d .dev 2 1 0) (memCore (2 ^ 32))) (.st k0 g0 .d .dev 2 1 0) k0 g0 item1 = true := by decide +kernel

/-- live with its task in a T7SYNC context. -/
def liveT7 : State := { live with tasks := [{ task1 with mode := 4 }] }

/-- sig, arrive and the waits: counters and groups that the map names, the first identifier past an entry, values at their bounds. -/
theorem wit_synchronisation :
    (live.translate 0 0 = some (.ctr 0) ∧ live.translate 0 7 = some (.ctr 7) ∧ live.translate 0 8 = none
      ∧ live.translate 0 100 = some (.group 100 4) ∧ live.waiters = [])
    ∧ ([Instr.sig k0 g0 (o0 0 1), .sig k0 g0 (o0 7 524287), .sig k0 g0 (o0 0 0), .sig k0 g0 (o0 8 1), .sig k0 g0 (o0 100 1),
        .arrive k0 g0 (o0 100 3), .arrive k0 g0 (o0 100 4), .arrive k0 g0 (o0 0 0), .waitGe k0 g0 (o0 0 0), .waitGe k0 g0 (o0 0 1),
        .waitGe k0 g0 (o0 100 0), .waitC k0 g0 (o0 0 0), .waitB k0 g0 (o0 100 0), .waitB k0 g0 (o0 100 1), .waitB k0 g0 (o0 0 0)].all
          rowOk) = true
    ∧ ([Instr.waitC k0 g0 (o0 0 0), .waitC k0 g0 (o0 0 1)].all fun i => ready (on i {} liveT7) i k0 g0 item1) = true
    ∧ (liveT7.task? 1 1).map (fun (x : Task) => x.mode / 4 % 2) = some 1 ∧ (live.task? 1 1).map (fun (x : Task) => x.mode / 4 % 2) = some 0
    ∧ (on (.sig k0 g0 { o0 0 0 with imm := false, c := 2 }) (memCore (2 ^ 32))).sval k0 { o0 0 0 with imm := false, c := 2 } = 2 ^ 32
    ∧ (on (.sig k0 g0 (o0 0 1))).sval k0 (o0 0 1) = 1 := by decide +kernel

/-- A wait that has been woken, and one that has not; loads in flight to a general and to a descriptor register. -/
theorem wit_arrivals_and_retirement :
    let w : Waiter := { core := 0, key := 1, asn := 1, ctx := 0, kind := 1, vc := 0, phys := 0, lanes := 0, target := 1, since := 0 }
    let s : State := { live with cores := [(0, { run := some item1, hold := some .wait, pend := [{ desc := false, num := 31, val := 5 }, { desc := true, num := 15, val := 5 }] })] }
    (s.coreOf k0).hold = some .wait ∧ (s.coreOf k0).pend ≠ [] ∧ ({ s with waiters := [{ w with woken := true }] } : State).poolHeld = []
    ∧ (∃ x ∈ ({ s with waiters := [{ w with woken := true }] } : State).waiters, x.core = coreIdx k0 ∧ x.woken = true)
    ∧ ∀ x ∈ ({ s with waiters := [w] } : State).waiters, x.core = coreIdx k0 → x.woken = false := by decide +kernel

/-- A false guard; a core that runs nothing, holds, or stands at another instruction. -/
theorem wit_guards_and_other_places :
    let i := Instr.add k0 { neg := false, num := 7 } 1 2 3
    (i.core? = some k0 ∧ i.guard? = some { neg := false, num := 7 } ∧ ready (on i { p := 128 }) i k0 { neg := false, num := 7 } item1 = true
      ∧ ((on i).coreOf k0).guardHolds { neg := false, num := 7 } = false ∧ (on i).fetchLost 0 0 0 = false
      ∧ (on i).at? k0 ((on i).coreOf k0) 0 i = true ∧ ((on i).coreOf k0).run = some item1 ∧ ((on i).coreOf k0).hold = none
      ∧ (on i).spireRuns 0 = true)
    ∧ (live.coreOf k0).run = none ∧ State.reset.spireRuns 0 = false ∧ (on i).at? k0 ((on i).coreOf k0) 0 (.fenceDev k0 g0) = false
    ∧ ((on i { hold := some .wait }).coreOf k0).hold ≠ none := by decide +kernel

/-- Encodings: every operand at the top of its range; a word that decodes. -/
theorem wit_encodings :
    (Instr.jal k0 { neg := true, num := 7 } 31 0xFFFFFFF8).core? = some k0 ∧ (Instr.jal k0 { neg := true, num := 7 } 31 0xFFFFFFF8).wf = true
    ∧ rowSelected 0 0 (.jal k0 { neg := true, num := 7 } 31 0xFFFFFFF8) = true ∧ rowSelected 3 19 (.ewiseAnd k0 g0 e0) = true
    ∧ decodeSpaner k0 0 0 (0x68 * 2 ^ 56) = some (.fenceSpire k0 g0) ∧ fld 0xFF00000000000000 56 8 = 0xFF
    ∧ fld (0x68 * 2 ^ 56 + 2 ^ 40) 37 3 = 0 ∧ fld (0x68 * 2 ^ 56 + 2 ^ 40) 40 1 = 1 := by decide +kernel

/-! Engine issue. -/

/-- A descriptor with these fields: offset, bytes, value. -/
def desc (l : List (Nat × Nat × Nat)) : List Byte := l.foldl (fun b e => putBytes b e.1 (natLe e.2.1 e.2.2)) (zeros 64)

/-- An agg descriptor on one row of 32 FP32 values, with its areas in the context's bank. -/
def aggD (op func out : Nat) : List Byte :=
  desc [(0, 1, op), (1, 1, func), (2, 1, 9), (3, 1, out), (6, 2, 32), (8, 8, storeBase), (0x10, 8, storeBase + 0x10000),
    (0x18, 8, storeBase + 0x8000), (0x20, 8, storeBase + 0x4000), (0x28, 4, 1), (0x2C, 4, 1)]
/-- An mma descriptor: one row, K and N of 128, headerless weights. -/
def mmaD : List Byte :=
  desc [(2, 1, 9), (3, 1, 0x10), (4, 2, 4), (8, 8, storeBase), (0x10, 8, storeBase + 0x10000), (0x18, 8, storeBase + 0x20000), (0x20, 4, 1),
    (0x24, 2, 1), (0x26, 2, 1)]
/-- A row-engine request on table 0 with one list position, through stream n. -/
def rowD (op n : Nat) : List Byte :=
  desc ([(0, 1, op), (0x28, 4, 1), (0x30, 2, n)] ++ if op = 2 then [(1, 1, 1), (3, 1, 2), (0x2C, 4, 1)] else [])
/-- A stream descriptor: type, flags, identifier, one row of 4 KiB slots. -/
def strmD (ty flags id : Nat) : List Byte :=
  desc [(0, 1, ty), (1, 1, flags), (2, 2, id), (5, 1, 12), (if ty = 2 then 0x10 else 0x08, 8, 0x40000),
    (if ty = 2 ∨ flags / 16 = 1 then 0x08 else 0x10, 8, storeBase), (0x18, 4, 1), (0x1C, 4, 512)]

/-- An operation of task 1 on core 0. -/
def op0 (opc func : Nat) (d : List Byte) : Op :=
  { id := 1, core := 0, key := 1, asn := 1, ctx := 0, item := 0, frag := 0, n := 0, opc := opc, func := func, desc := d, vc := 0, phys := 0,
    inc := 1, scope := 0, pc := 0, word := 0 }

/-- A stream as strm.arm leaves it. -/
def strm0 (ty flags id : Nat) : Strm := { desc := strmD ty flags id, arm := op0 0x5D 0 (strmD ty flags id), home := 0, held := 8192 }

/-- live with 64 stream contexts, table 0 with one version, an inbound and an outbound row-engine stream and a slotted one. -/
def work : State :=
  { live.setReg (aCtx 0 0x014) 0x10000 with
    tables := [(0, { owner := 0, versions := [{ gen := 1, bytes := zeros 128 }] })],
    streams := [(0, strm0 3 1 0), (1, strm0 3 0x11 1), (2, strm0 1 3 2)], opSeq := 5 }

/-- The engine-issue instructions of the array, the aggregate unit and the quantiser, each with a descriptor. -/
def unitRows : List (Instr × List Byte × Nat × Nat) :=
  [(.mmaD k0 g0 e0, mmaD, 0x50, 0), (.mmaS k0 g0 e0, mmaD, 0x51, 0),
   (.spcmp k0 g0 e0, desc [(0, 1, 3), (4, 4, 1), (8, 8, storeBase), (0x10, 8, storeBase + 0x4000), (0x20, 8, storeBase + 0x10000)], 0x52, 0),
   (.segred k0 g0 e0, aggD 1 1 9, 0x54, 0), (.combine k0 g0 e0, aggD 2 1 9, 0x54, 0), (.smBlock k0 g0 e0, aggD 0x10 0 8, 0x54, 0),
   (.smRescale k0 g0 e0, aggD 0x11 0 9, 0x54, 0), (.smFinal k0 g0 e0, aggD 0x12 0 9, 0x54, 0),
   (.smMerge k0 g0 e0, aggD 0x13 0 9, 0x54, 0), (.segSoftmax k0 g0 e0, aggD 0x14 0 9, 0x54, 0),
   (.optstep k0 g0 e0, desc [(0, 1, 6), (4, 4, 32), (8, 8, storeBase), (0x10, 8, storeBase + 0x1000), (0x18, 8, storeBase + 0x2000),
     (0x20, 8, storeBase + 0x3000), (0x38, 4, 1)], 0x55, 0),
   (.scan k0 g0 e0, desc [(1, 1, 9), (8, 8, storeBase), (0x10, 4, 1), (0x14, 2, 32)], 0x58, 0), (.derive k0 g0 e0, desc [(0, 1, 1)], 0x58, 0),
   (.qscanLoad k0 g0 e0, desc [(0, 1, 2), (8, 8, storeBase)], 0x58, 0), (.qscanStore k0 g0 e0, desc [(0, 1, 3), (8, 8, storeBase)], 0x58, 0),
   (.qconv k0 g0 e0, desc [(0, 1, 9), (6, 2, 32), (8, 8, storeBase), (0x10, 8, storeBase + 0x1000), (0x30, 4, 1)], 0x59, 0)]
/-- The element-wise instructions. -/
def ewiseRows : List (Instr × List Byte × Nat × Nat) :=
  [Instr.ewiseCopy k0 g0 e0, .ewiseAdd k0 g0 e0, .ewiseSub k0 g0 e0, .ewiseMul k0 g0 e0, .ewiseDiv k0 g0 e0, .ewiseMin k0 g0 e0,
   .ewiseMax k0 g0 e0, .ewiseFma k0 g0 e0, .ewiseScale k0 g0 e0, .ewiseRelu k0 g0 e0, .ewiseGelu k0 g0 e0, .ewiseSilu k0 g0 e0,
   .ewiseSigmoid k0 g0 e0, .ewiseTanh k0 g0 e0, .ewiseExp k0 g0 e0, .ewiseLog k0 g0 e0, .ewiseRsqrt k0 g0 e0, .ewiseAbs k0 g0 e0,
   .ewiseOr k0 g0 e0, .ewiseAnd k0 g0 e0].zipIdx.map fun (i, n) => (i, aggD 3 n 9, 0x54, 0)
/-- The issues to the row engines and to the streams. -/
def streamRows : List (Instr × List Byte × Nat × Nat) :=
  [(.gather k0 g0 e0, rowD 1 0, 0x5C, 0), (.gatherReduce k0 g0 e0, rowD 2 0, 0x5C, 0), (.gatherAmax k0 g0 e0, rowD 3 0, 0x5C, 0),
   (.scatter k0 g0 e0, rowD 4 1, 0x5C, 0), (.scatterAdd k0 g0 e0, rowD 5 1, 0x5C, 0), (.prefetchBatch k0 g0 e0, rowD 6 0, 0x5C, 0),
   (.strmArm k0 g0 e0, strmD 1 0 3, 0x5D, 0), (.strmRearm k0 g0 e0, strmD 1 3 2, 0x5D, 1), (.strmAdv k0 g0 e0, strmD 1 3 2, 0x5D, 2),
   (.strmClose k0 g0 e0, strmD 1 3 2, 0x5D, 3)]

/-- work with core 0 at instruction i, descriptor d in d0. -/
def issuing (i : Instr) (d : List Byte) : State := on i { d := [(0, BitVec.ofNat 512 (leNat d))] } work

/-- The issue has a counter, it is its turn, and its unit accepts it. -/
def issueOk (e : Instr × List Byte × Nat × Nat) : Bool :=
  let s := issuing e.1 e.2.1
  let u := s.fetched k0 item1
  ready s e.1 k0 g0 item1 && u.hasRoom 0 (unitOf e.2.2.1) && (List.range 16).all (fun j => !u.waitsFor (unitOf e.2.2.1) j)
    && match u.issueCtr (s.coreOf k0) 0 e0 with
      | some ctr => u.verdict (u.opOf 0 (s.coreOf k0) item1 e0 e.2.2.1 e.2.2.2 ctr) == .accept
      | none => false

/-- Every engine-issue instruction is accepted in some state. -/
theorem wit_engine_issue : (unitRows ++ ewiseRows ++ streamRows).all issueOk = true := by decide +kernel

/-- An issue that its unit refuses, one without a counter, one with the queue full, and one that holds. -/
theorem wit_engine_issue_refused :
    let s := issuing (.ewiseAdd k0 g0 e0) (desc [(0, 1, 3), (1, 1, 1)])
    let u := s.fetched k0 item1
    let full : State := { s with ops := (List.range 64).map fun n => { op0 0x54 0 [] with id := n } }
    let held : State := { work with streams := [(2, { strm0 1 3 2 with rearm := some (op0 0x5D 1 []) })] }
    ready s (.ewiseAdd k0 g0 e0) k0 g0 item1 = true ∧ failable s 1 1 = true
    ∧ u.verdict (u.opOf 0 (s.coreOf k0) item1 e0 0x54 0 (0, 0)) = .refuse 0
    ∧ u.issueCtr (s.coreOf k0) 0 { e0 with vc := 8 } = none ∧ full.hasRoom 0 (unitOf 0x54) = false
    ∧ held.verdict (op0 0x5D 1 (strmD 1 3 2)) = .hold := by decide +kernel

/-! Items, the dispatcher and operations. -/

/-- live with cores changed. -/
def withCores (l : List (Nat × Core)) (s : State := live) : State := { s with cores := l }

/-- A program with one entry PC, 0. -/
def entryImage : List Byte := zeros 6 ++ natLe 2 1 ++ natLe 4 0x80 ++ natLe 4 8 ++ zeros 48 ++ natLe 8 0 ++ zeros 56 ++ natLe 8 0

/-- The start of an item at the program's entry, by its number and by its PC; one whose PC is no entry. -/
theorem wit_item_start :
    let s := fun (pc : Nat) => withCores [(0, { next := some { item1 with words := natLe 8 pc ++ zeros 56 }, owner := (1, pc % 2) })]
      { live with progs := [(0, { image := entryImage })] }
    (s 0).startPc { item1 with words := natLe 8 0 ++ zeros 56 } = some 0
    ∧ (s 1).startPc { item1 with words := natLe 8 (2 ^ 64 - 1) ++ zeros 56 } = some 0
    ∧ (s 8).startPc { item1 with words := natLe 8 8 ++ zeros 56 } = none ∧ failable (s 8) 1 1 = true
    ∧ (s 0).spireRuns 0 = true ∧ (s 0).spireState 0 = 1 ∧ (s 0).clrDue.testBit 0 = false ∧ ((s 0).coreOf k0).run = none
    ∧ ((s 1).coreOf k0).owner = (1, 1) ∧ ((s 0).coreOf k0).owner ≠ (1, 1)
    ∧ ((s 0).coreOf k0).next = some { item1 with words := natLe 8 0 ++ zeros 56 } := by decide +kernel

/-- A ready entry of task 1 at priority p. -/
def entry1 (id p : Nat) : Entry := { id := id, key := 1, asn := 1, ctx := 0, prio := p, num := 0, degree := 1, words := zeros 64 }

/-- An empty ready list; entries at the lowest and the highest priority. -/
theorem wit_next_slot :
    let s : State := { live with ready := [entry1 1 0, entry1 2 7] }
    let l := s.eligible 0
    let q := s.qosNow (priosOf s.waiting)
    live.eligible 0 = [] ∧ (live.coreOf k0).next = none ∧ live.spireRuns 0 = true ∧ live.spireState 0 = 1 ∧ live.works = true
    ∧ q.choose s.contended s.narrowFirst (priosOf l) = some 7 ∧ nextCtx l 7 (SMap.get q.last 15 7) = some 0
    ∧ (l.find? fun (x : Entry) => x.prio == 7 && x.ctx == 0) = some (entry1 2 7)
    ∧ ((priosOf l).map q.owed).sum < 256 - q.placed ∧ s.traceOff := by unfold State.traceOff; decide +kernel

/-- An item that ends with a load in flight, with nothing, and as the last fragment of a calving entry. -/
theorem wit_item_end :
    let s := fun (c : Core) => withCores [(0, { c with run := some { item1 with entry := 7 }, hold := some .ending })]
      { live with ready := [{ entry1 7 0 with kind := 1, frags := 2, nextFrag := 2, ended := 1 }] }
    ((s { pend := [{ desc := false, num := 1, val := 0 }] }).coreOf k0).pend ≠ [] ∧ ((s {}).coreOf k0).hold = some .ending
    ∧ (s {}).ops = [] ∧ ((s {}).coreOf k0).pend = []
    ∧ ((s {}).ready.find? fun (x : Entry) => x.id == 7).map (fun (e : Entry) => (e.ended + 1, e.frags)) = some (2, 2)
    ∧ (live.task? 1 1).map (fun (x : Task) => (x.accepted, x.retryDue, x.itemCount, x.expanded)) = some (true, false, 1, 0)
    ∧ (withCores [(0, { run := some item1, hold := some .ending })] { live with tasks := [{ task1 with expanded := 1 }] }).ready = []
    := by decide +kernel

/-- spawn of a record of the item's context and of another; a record that is well formed and one that is not; ready lists with room. -/
theorem wit_spawn :
    let i := Instr.spawn k0 g0 0
    let c := fun (ctx rsv : Nat) => ({ d := [(0, BitVec.ofNat 512 (leNat (desc [(0x3D, 1, ctx), (0x3F, 1, rsv)])))] } : Core)
    ready (on i (c 0 0)) i k0 g0 item1 = true ∧ getLe (descBytes (((on i (c 0 0)).coreOf k0).rdd 0)) 0x3D 1 % 16 = 0
    ∧ ready (on i (c 1 0)) i k0 g0 item1 = true ∧ getLe (descBytes (((on i (c 1 0)).coreOf k0).rdd 0)) 0x3D 1 % 16 = 1
    ∧ (on i (c 0 0)).freeEntries ≠ 0 ∧ ((on i { c 0 0 with hold := some .spawn }).coreOf k0).hold = some .spawn
    ∧ recordOk (desc []) 0 = true ∧ recordOk (desc [(0x3F, 1, 1)]) 0 = false
    ∧ (on i (c 0 0)).wordAt 0 ((on i (c 0 0)).coreOf k0) 0 / 2 ^ 51 % 16 = 0 := by decide +kernel

/-- Ready lists that are full. -/
theorem wit_no_free_entry : ∃ l, ({ live with ready := l } : State).freeEntries = 0 :=
  have h (n : Nat) : ({ live with ready := List.replicate n (entry1 1 0) } : State).freeEntries = 262144 - n := by
    have hc : live.cores = [] := rfl
    simp [State.freeEntries, State.entriesUsed, hc]
  ⟨List.replicate 262144 (entry1 1 0), (h _).trans (Nat.sub_self _)⟩

/-- A task whose item array is declared, and one whose is not; a task that is due for a retry. -/
theorem wit_task_expand :
    let t := { task1 with bufs := [{ addr := 0x20000, len := 64, kind := 0 }] }
    let s : State := { live with tasks := [t] }
    s.task? 1 1 = some t ∧ t.expandable = true ∧ s.ctxHeld.testBit 0 = false ∧ s.rb (aDisp 0x004) 31 = false ∧ s.turnOf t = true
    ∧ t.arrayDeclared = true ∧ t.shadowNeed = 0 ∧ s.recorded t = false ∧ s.freeEntries ≠ 0 ∧ s.dome.fills = []
    ∧ s.checkAcc 0 0x20000 64 .rd = none ∧ recordOk (Mem.readN s.mem 0x20000 64) 0 = true
    ∧ task1.arrayDeclared = false ∧ task1.expandable = true ∧ live.turnOf task1 = true ∧ task1.reserved = 0
    ∧ ({ t with retryDue := true }).retryDue = true ∧ t.cancelled = false ∧ s.ops = [] ∧ t.shadows = []
    ∧ (s.setReg (aDisp 0x004) 0x80000000).rb (aDisp 0x004) 31 = true := by decide +kernel

/-- An undefined word, an engine word whose descriptor names nothing under each guard, a PC at the end of the code, and a wait. -/
theorem wit_illegal_words_and_stalls :
    let e := fun (g : Guard) => (0x54 * 2 ^ 56 + g.num.val * 2 ^ 37 + 1 * 2 ^ 13 : Nat)
    let w : Waiter := { core := 0, key := 1, asn := 1, ctx := 0, kind := 1, vc := 0, phys := 0, lanes := 0, target := 1, since := 0 }
    ((atWord 0).fetch 0 0 0 = some 0 ∧ decodeSpaner k0 0 0 0 = none ∧ engineWord? 0 = none ∧ failable (atWord 0) 1 1 = true)
    ∧ (atWord (e g0)).fetch 0 0 0 = some (e g0) ∧ decodeSpaner k0 0 0 (e g0) = none ∧ engineWord? (e g0) = some (g0, e0)
    ∧ ((atWord (e g0)).coreOf k0).guardHolds g0 = true ∧ ((atWord (e g0)).coreOf k0).pending true 0 = false
    ∧ engineWord? (e { g0 with num := 7 }) = some ({ g0 with num := 7 }, e0) ∧ ((atWord 0).coreOf k0).guardHolds { g0 with num := 7 } = false
    ∧ ((atWord 0 { pc := 8 }).prog 0).codeLen ≤ ((atWord 0 { pc := 8 }).coreOf k0).pc ∧ (atWord 0).spireRuns 0 = true
    ∧ (atWord 0).fetchLost 0 0 0 = false
    ∧ ({ atWord 0 { hold := some .wait } with waiters := [w] } : State).coreHolds 0 ≠ [] := by decide +kernel

/-- Operations: one waiting to start with the unit free and with it busy, one that has not started and one that has; an issue held at a
unit with room and with none. -/
theorem wit_operations :
    let o := op0 0x54 0 (aggD 3 1 9)
    let s := fun (l : List Op) => ({ work with ops := l } : State)
    let h : State := { on (.ewiseAdd k0 g0 e0) { hold := some .issue, d := [(0, BitVec.ofNat 512 (leNat (aggD 3 1 9)))] } work with ops := [] }
    (s [o]).queued 0 1 = [o] ∧ (∀ x ∈ (s [o]).ops, x.inUnit 0 1 = true → x.started = false)
    ∧ (s [{ o with id := 2, started := true }, o]).queued 0 1 = [o] ∧ (s []).queued 0 3 = []
    ∧ (s [op0 0x50 0 mmaD]).queued 0 0 = [op0 0x50 0 mmaD] ∧ (op0 0x50 0 mmaD).isMma = true
    ∧ (s [o]).op? 1 = some o ∧ o.started = false ∧ (s [{ o with started := true }]).op? 1 = some { o with started := true }
    ∧ (s [{ o with started := true }]).opDead { o with started := true } = false ∧ o.inc ≠ 0 ∧ o.isMma = false
    ∧ (h.heldOp 0).map (fun o => (o.opc, h.verdict o)) = some (0x54, .accept) ∧ h.hasRoom 0 1 = true ∧ h.waitsFor 1 0 = true
    ∧ (SMap.get h.served 15 (unitKey 0 1) + 1 + 0) % 16 = 0
    ∧ ({ h with ops := (List.range 64).map fun n => { o with id := n } } : State).hasRoom 0 1 = false := by decide +kernel

/-- Element-wise operations on one row of 32 words, FP32 and INT32, at the bounds of their functions. -/
theorem wit_element_wise :
    let d := fun (f fmt : Nat) => putBytes (putBytes (aggD 3 f fmt) 2 [BitVec.ofNat 8 fmt]) 3 [BitVec.ofNat 8 fmt]
    let s : State := { work with ops := [{ op0 0x54 0 (d 1 9) with started := true }, { op0 0x54 0 (d 6 10) with id := 2, started := true }] }
    (s.op? 1).map (fun (o : Op) => (o.opc, agOp o.desc, agFunc o.desc)) = some (0x54, 3, 1)
    ∧ (s.op? 1).map (fun (o : Op) => (agS o.desc, agD o.desc, agBrow o.desc)) = some (9, 9, false)
    ∧ (s.op? 2).map (fun (o : Op) => (o.opc, agOp o.desc, agFunc o.desc)) = some (0x54, 3, 6)
    ∧ (s.op? 2).map (fun (o : Op) => (agS o.desc, agD o.desc, agBrow o.desc)) = some (10, 10, false)
    := by decide +kernel

/-! Row-engine requests, streams and the array. -/

/-- A table of four rows of 32 BF16 values without a directory, at 1 MiB. -/
def tab : List Byte := desc [(0, 8, 4), (0x10, 8, 0x100000), (0x2E, 2, 32), (0x32, 2, 0x10)]
/-- Operation 1: a gather or another request of one index. -/
def req0 (op : Nat) : RowReq := { op := { op0 0x5C 0 (rowD op 0) with started := true }, passOn := true }
/-- work with request q, whose operation has started, and table 0 as above. -/
def rowWork (q : RowReq) : State :=
  { work with reqs := [q], ops := [q.op], streams := [], tables := [(0, { owner := 0, versions := [{ gen := 1, bytes := tab ++ zeros 64 }] })] }
/-- A route of list position 0 to row 0 in unit 0. -/
def route0 : Route := { pos := 0, unit := 0, idx := 0, hot := false }

/-- The splitter: no usable version; offsets that are wrong and right; an index that is served. -/
theorem wit_splitter :
    let q := req0 1
    let s := rowWork q
    s.req? 1 = some q ∧ q.accepted = false ∧ s.opStarted 1 = true ∧ failable s 1 1 = true
    ∧ (match s.rqVersion q.op with | .ok v => v.gen == 1 && v.bytes == tab ++ zeros 64 | .error _ => false) = true
    ∧ (match ({ s with tables := [] } : State).rqVersion q.op with | .ok _ => false | .error r => r == 0) = true
    ∧ (match (s.openBatch q.op 0).rqOperands q.op with
        | .ok (x, u) => x.idx == [0] && x.bad.isNone && !(u.routeOne 0 (tab ++ zeros 64) q.op.desc 0 0).isBad
        | .error _ => false) = true
    ∧ rqHasSeg (rowD 2 0) = true ∧ (match (rowWork (req0 2)).rqOperands (req0 2).op with
        | .ok (x, _) => x.bad.isSome | .error _ => false) = true
    ∧ rqOp (rowD 6 0) = 6 := by decide +kernel

/-- The lists of a gather and of a reduction with one segment can be read, and every row of the table has a unit. -/
theorem wit_splitter_completes :
    let q := req0 2
    let s := { rowWork q with mem := Mem.writeN {} 4 [1] }
    (match s.rqVersion q.op with | .ok v => v.gen == 1 && v.bytes == tab ++ zeros 64 | .error _ => false) = true ∧ s.listsGo q.op ∧ (rowWork (req0 1)).listsGo (req0 1).op
    ∧ (∀ i, i < tdRows (tab ++ zeros 64) → (s.unitAt (homeAddr (tab ++ zeros 64) i)).isSome = true)
    ∧ unpack 32 (rqNseg q.op.desc + 1) (Mem.readN s.mem (rqSeg q.op.desc) (4 * (rqNseg q.op.desc + 1))) = [0, 1]
    ∧ rqCount q.op.desc = 1 ∧ s.calm := by
  intro q s
  have h : tdRows (tab ++ zeros 64) = 4 := by decide +kernel
  rw [h]
  unfold State.listsGo State.granted State.lineGood State.calm
  refine ⟨by decide +kernel, by decide +kernel, by decide +kernel, by decide +kernel, by decide +kernel, by decide +kernel, rfl, rfl⟩

/-- A unit's turn with a table that is well formed and with one that is not; a segment that is done and one that is not; a copy to a stack
in service and to one that has failed; sketch increments; the end of a request. -/
theorem wit_row_units :
    let q : RowReq := { req0 1 with accepted := true, tdesc := tab, gen := 1, routes := [route0] }
    let s := rowWork q
    let p : RowReq := { req0 2 with accepted := true, tdesc := tab, routes := [route0], offs := [0, 1] }
    let c : RowReq := { q with copies := [{ stack := 0, addr := 0x200000, bytes := [1] }] }
    let k : RowReq := { q with routes := [], sketch := [(0, 3)] }
    let up := s.setReg aMemNear 0x01000000
    ((s.unitHolds 0).find? fun (x : RowReq) => x.op.id == 1) = some q ∧ q.sourcesIn 0 = true ∧ s.tableOk tab = true
    ∧ s.sentTo q 0 = [route0] ∧ s.copiesDue q 0 = false ∧ s.sentTo { q with routes := [] } 0 = []
    ∧ (match s.serveAt q 0 [route0] with | .ok (q1, _) => q1.rows.length == 1 | .error _ => false) = true
    ∧ s.rowStands 0 0 tab route0
    ∧ s.tableOk (zeros 64) = false
    ∧ p.segDone 0 = false ∧ ({ p with routes := [{ route0 with done := true }] }).segDone 0 = true ∧ rqOp p.op.desc = 2 ∧ 0 < rqNseg p.op.desc
    ∧ SMap.find p.rows 0 = none ∧ s.stackUp 0 = false ∧ up.stackUp 0 = true ∧ c.copies.length = 1
    ∧ up.checkAcc 0 0x200000 1 .wr = none
    ∧ (k.sketch.filter fun e => e.1 == 0) = [(0, 3)] ∧ k.at_ 0 = [] ∧ (q.sketch.filter fun e => e.1 == 0) = []
    ∧ s.reqOver q = false ∧ s.reqOver { q with routes := [] } = true ∧ rqEmap q.op.desc = 0 ∧ s.works = true ∧ s.calm
    ∧ s.rowSent { p with badOff := some 1 } 0 = true ∧ ({ s with streams := [(0, { strm0 3 1 0 with reqs := [1] })] } : State).rowSent { p with badOff := some 17 } 16 = false := by
  unfold State.rowStands State.granted State.lineGood State.calm; decide +kernel

/-- Streams: waiting ones of each type; slots to fill and to drain; a stream without slots; a request pass; an arm at the head of the
stream unit's queue. -/
theorem wit_streams :
    let st := fun (n : Nat) (x : Strm) => ({ work with streams := [(n, x)] } : State)
    let w := { strm0 1 2 2 with joined := true }
    let a := { w with state := 2, passOn := true }
    let o := { strm0 2 2 2 with joined := true, state := 2, passOn := true }
    let f := { strm0 1 0 2 with joined := true, state := 2, passOn := true }
    let rows2 := fun (x : Strm) => ({ x with desc := putBytes x.desc 0x18 (natLe 4 16) } : Strm)
    let q := req0 1
    let g := { strm0 3 1 0 with state := 2, reqs := [1] }
    (st 2 w).strm? 2 = some w ∧ w.advs = [] ∧ (st 2 w).grantable 2 w = true ∧ sdType w.desc = 1 ∧ 0 < sdRows w.desc
    ∧ (st 2 (strm0 1 2 2)).grantable 2 (strm0 1 2 2) = false
    ∧ (st 0 { strm0 3 1 0 with joined := true }).grantable 0 { strm0 3 1 0 with joined := true } = true ∧ sdType (strm0 3 1 0).desc = 3
    ∧ (st 2 (rows2 a)).nextRows (rows2 a) = 8 ∧ (st 2 (rows2 a)).passRows (rows2 a) = 16 ∧ sdSlot a.desc = true ∧ sdOutbound a.desc = false
    ∧ (st 2 (rows2 a)).rowsReady (rows2 a) 0 8 = true ∧ (st 2 a).slotFree a = true ∧ (st 2 { a with filled := 2 }).slotFree { a with filled := 2 } = false
    ∧ (match (st 2 (rows2 a)).fillRows 8 (rows2 a) 0 0 512 with | .ok _ => true | .error _ => false) = true
    ∧ sdOutbound o.desc = true ∧ o.handed ≤ o.filled
    ∧ (match (st 2 (rows2 o)).drainRows 8 { rows2 o with handed := 1 } 0 0 512 with | .ok _ => true | .error _ => false) = true
    ∧ sdSlot f.desc = false ∧ sdComp f.desc = false ∧ (st 2 (rows2 f)).nextRows (rows2 f) = 8
    ∧ (rowWork q).req? 1 = some q ∧ 0 < reqRows q.op.desc ∧ g.passOn = false ∧ (rowWork q).opStarted 1 = true
    ∧ shortPath (putBytes (strmD 1 0 3) 0x1C (natLe 4 256)) = true ∧ shortPath (strmD 1 2 3) = false ∧ work.physStrm 0 (sdId (strmD 1 2 3)) = some 3
    ∧ (st 3 (strm0 1 2 3)).grantable 3 { strm0 1 2 3 with joined := true } = true
    ∧ ({ st 3 (strm0 1 2 3) with streams := [(2, a), (3, strm0 1 2 3)] } : State).grantable 3 { strm0 1 2 3 with joined := true } = false
    := by decide +kernel

/-- Rows that can be moved: of an inbound stream from granted memory, of an outbound one, of a stream of requests. -/
theorem wit_rows_go :
    let x := fun (d : Nat) => ({ strm0 d 2 2 with joined := true, state := 2, passOn := true } : Strm)
    work.rowsGo (x 1) 1 ∧ work.rowsGo (x 2) 1 ∧ work.rowsGo (strm0 3 1 0) 1 := by
  intro x
  refine ⟨Or.inr (Or.inr ⟨by decide +kernel, fun i h => ?_⟩), Or.inr (Or.inr ⟨by decide +kernel, fun i h => ?_⟩), Or.inl (by decide +kernel)⟩
  all_goals obtain rfl : i = 0 := by omega
  all_goals unfold State.granted State.lineGood; dsimp only; decide +kernel

/-- The array: no operation to load for, a tile whose bytes are at hand, latches that are full, a tile outside the bank, a tile to apply. -/
theorem wit_array :
    let o := { op0 0x50 0 mmaD with started := true }
    let x : Tile := { cls := 0, fmt := 0, kl := 128, ref := 0, gscale := false, body := [], k0 := 0, t := 0 }
    let s := fun (r : ArrRun) => ({ work with ops := [o], arr := [(1, r)] } : State)
    let bad := { o with desc := putBytes mmaD 0x18 (natLe 8 (storeBase + 2 ^ 18)) }
    work.loadOp 0 = none ∧ (s { started := true }).loadOp 0 = some o ∧ mmHdrless o.desc = true ∧ mmWstream o.desc = false
    ∧ hdrlessTile 0x50 (mmW o.desc) = (1, 128) ∧ 128 ≤ mmK o.desc ∧ (s { started := true }).opBanks o (storeBase + 0x20000) (tileBody 1 0) = true
    ∧ (s { started := true }).opBanks bad (storeBase + 2 ^ 18) (tileBody 1 0) = false ∧ ({ x with cls := 1, body := [] }).codes ≠ none
    ∧ 2 ≤ ({ started := true, loaded := 2, tiles := [x, x] } : ArrRun).tiles.length
    ∧ (s { started := true, tiles := [x], loaded := 1 }).arrayOp 0 = some o ∧ o.isMma = true
    ∧ ((s { started := true, tiles := [x], loaded := 1 }).run 1).tiles = [x] ∧ x.k0 + x.kl = mmK o.desc := by decide +kernel

/-! Register writes. -/

/-- The request of session 0 with SEQ 1, and that of I3C. -/
def r0 : Req := { who := .sess 0, seq := 1 }
/-- live with session 0 open for key 1, an owner key. -/
def host : State := { live.setReg (aSessCfg 0) 0x11 with sess := [(0, { isOpen := true, key := 1, epoch := 1, txLimit := 64, rxLimit := 64 })] }
/-- host with no context enabled and no task. -/
def quiet : State := { host.setReg (aCtxCtl 0) 0 with tasks := [] }
/-- quiet in state n. -/
def quietIn (n : Nat) : State := quiet.setReg aDevStatus (BitVec.ofNat 32 n)

/-- A write that takes effect, as a Bool. -/
def takes (s : State) (a : Nat) (v : W32) (r : Req := r0) : Bool := s.regGate r a == some 0 && s.mayWrite r.who a v && !s.rb (aDet 0x100) 1

theorem takesWrite_of {s : State} {a : Nat} {v : W32} {r : Req} (h : takes s a v r = true) : TakesWrite s r a v := by
  simp only [takes, Bool.and_eq_true, beq_iff_eq, Bool.not_eq_true'] at h
  exact ⟨h.1.1, h.1.2, h.2⟩

/-- Every register with a plain write takes one, the first and the last of each index; I3C's registers too. -/
theorem wit_register_writes :
    plainRegs.all (fun e => takes host e.1 0xFFFFFFFF) = true
    ∧ takes host (aLife 0) 1 { who := .i3c, seq := 0 } = true ∧ takes host (aSec 0x010) 1 { who := .i3c, seq := 0 } = true
    ∧ takes host (aSec 0x02C) 1 { who := .i3c, seq := 0 } = true ∧ takes host (aSec 0x034) 1 { who := .i3c, seq := 0 } = false
    ∧ (host.ses 0).isOpen = true ∧ host.ctlHeld = false ∧ (live.ses 0).isOpen = false ∧ host.isOwner 0 = true
    ∧ (quietIn 6).devState = stRecovery ∧ host.devState ≠ stRecovery ∧ host.replaying = false
    ∧ (host.setReg (aDet 0x12C) 0x10000000).replaying = true ∧ regInfo 0x3000 = none ∧ regInfo aDevCtl ≠ none
    ∧ ((host.setReg (aDet 0x100) 2).rb (aDet 0x100) 1 = true ∧ (host.setReg (aDet 0x100) 2).regGate r0 (aLife 0) = some 0
      ∧ (host.setReg (aDet 0x100) 2).mayWrite (.sess 0) (aLife 0) 1 = true) := by decide +kernel

/-- A session without an owner key: it may write what its mask, its key and its slot name, and nothing else. -/
theorem wit_partner_rights :
    let s := { host.setReg (aSessMask 0) 2 with keys := [(1, { present := true })] }
    s.isOwner 0 = false ∧ s.rb (aSessMask 0) 1 = true ∧ s.rb (aSessMask 0) 0 = false ∧ s.rf (aSessCfg 0) 4 4 = 1
    ∧ takes s (aCtx 1 0) 0 = true ∧ takes s (aCtx 1 0xFFC) 0 = true ∧ takes s (aCtx 2 0) 0 = false ∧ takes s (aCtx 0 0) 0 = false ∧ takes s (aWin 1 63 + 12) 0 = true
    ∧ takes s (aDet 0x154) 0x11 = true ∧ takes s (aDet 0x154) 0x01 = false ∧ takes s (aLife 0) 0 = true ∧ takes s aDevCtl 0 = false := by
  decide +kernel

/-- The writes that clear counters, of the first and the last unit of each kind. -/
theorem wit_counter_clears :
    ((List.range 24).map (fun u => (aRe u 0, (1 : W32)))
        ++ [(aReGlb, 1), (aStrm 0x020, 1), (aSync 0, 1), (aDisp 0, 1), (aSps 0, 1), (aSpire 0 0x0F0, 1), (aSpire 63 0x0F0, 1), (aErr 0, 1),
            (aPortCtl, 1), (aQntCtl, 0x1FFF), (aQntCtl, 0x1040), (aDet 0x100, 1), (aDomeCtl, 2)]).all (fun e => takes host e.1 e.2) = true
    ∧ host.anyLocked = true ∧ rfld (0x1FFF : W32) 0 12 ≠ host.rf aQntCtl 0 12 ∧ rfld (0x1040 : W32) 0 12 = host.rf aQntCtl 0 12
    ∧ rbit (2 : W32) 0 = host.rb aDomeCtl 0 := by decide +kernel

/-- Registers whose writes have limits: lanes that failed and none; windows of a locked and an unlocked context, that fit and do not;
trace sizes at their bounds; power, weight and stall values at theirs; regions. -/
theorem wit_limited_writes :
    (takes host aPortCfg 0 = true ∧ host.rf aPortStatus 8 8 = 0 ∧ (host.setReg aPortStatus 0x8000).rf aPortStatus 8 8 ≠ 0)
    ∧ (takes host (aDomeSeed 31) 0 = true ∧ takes host (aWin 0 0) 0 = true ∧ takes host (aWin 15 63 + 12) 0x10 = true
      ∧ host.ctxLocked 0 = true ∧ host.ctxLocked 15 = false
      ∧ ((host.setReg (aWin 15 63 + 8) 1).setReg (aWin 15 63 + 12) 0x10).winValid 15 63 = true
      ∧ ((host.setReg (aWin 15 63 + 8) 1).setReg (aWin 15 63 + 12) 0x10).winLen 15 63 = 4096
      ∧ (host.setReg (aWin 15 63 + 12) 0x10).winLen 15 63 = 0 ∧ host.winBase 15 63 = 0)
    ∧ ([0, 7, 24, 6, 25].all fun n => takes host (aDisp 0x058) (BitVec.ofNat 32 n) && takes host (aCtx 0 0x038) (BitVec.ofNat 32 n)
        && takes host (aCtx 15 0x038) (BitVec.ofNat 32 n)) = true
    ∧ ([0, 599, 1501, 65535].all fun n => takes host aPwrLimit (BitVec.ofNat 32 n)) = true
    ∧ (takes host (aDisp 0x020) 0 = true ∧ takes host (aDisp 0x03C) 0 = true ∧ takes host (aStrm 28) 255 = true)
    ∧ (takes host (aSync 4) 0 = true ∧ host.anyLocked = true ∧ takes quiet (aSync 4) 0 = true ∧ quiet.anyLocked = false) := by decide +kernel

/-- Regions: set valid in a state that allows it and in one that does not, with sizes at their bounds, over another region and beside it;
cleared; a change under way. -/
theorem wit_regions :
    let s := fun (n base size : Nat) =>
      (((quietIn 3).setReg aMemNear 0xFF004000).setReg (aRgn n + 8) 8).setReg (aRgn n + 4) (BitVec.ofNat 32 (65536 * base + size))
    takes (quietIn 3) (aRgn 15) 0x80FF0000 = true ∧ (quietIn 3).rb (aRgn 15) 31 = false ∧ (quietIn 3).devState = stReady
    ∧ (quietIn 3).anyLocked = false ∧ quiet.devState ≠ stReady ∧ (quietIn 3).rf (aRgn 15 + 4) 0 10 = 0
    ∧ (s 15 0 513).rf (aRgn 15 + 4) 0 10 = 513 ∧ (s 15 1 512).rf (aRgn 15 + 4) 16 9 = 1
    ∧ (s 15 63 1).rgnConflict 15 { (s 15 63 1).rgnVal 15 with a := (s 15 63 1).mixed (aRgn 15) 0x80FF0000 } = true
    ∧ (s 15 64 448).rgnConflict 15 { (s 15 64 448).rgnVal 15 with a := (s 15 64 448).mixed (aRgn 15) 0x80FF0000 } = false
    ∧ (s 15 64 448).fuses.stackGib = 64 ∧ takes (s 15 64 448) (aRgn 15) 0x80FF0000 = true
    ∧ takes (quietIn 3) (aRgn 0) 0x00FF0000 = true ∧ (quietIn 3).rb (aRgn 0) 31 = true
    ∧ rputBit ((quietIn 3).mixed (aRgn 0) 0x00FF0000) 31 false = rputBit ((quietIn 3).reg (aRgn 0)) 31 false
    ∧ rputBit ((quietIn 3).mixed (aRgn 0) 0x007F0000) 31 false ≠ rputBit ((quietIn 3).reg (aRgn 0)) 31 false
    ∧ ({ quiet with rgnChange := some { n := 0, value := 0x00FF0000, req := r0 } } : State).dome.fills = [] := by decide +kernel

/-- DEV_CTL: RUN set in READY, in a state that refuses it and where each check fails; cleared; MAINT in READY with and without tasks. -/
theorem wit_device_control :
    let off := fun (n : Nat) => (quietIn n).setReg aDevCtl 0
    takes (off 3) aDevCtl 1 = true ∧ (off 3).rb aDevCtl 0 = false ∧ (off 3).devState = stReady ∧ (off 2).devState ≠ stReady
    ∧ (off 2).devState ≠ stRun ∧ takes (off 2) aDevCtl 1 = true ∧ (off 3).boot.popOk = true
    ∧ ({ off 3 with boot := { popOk := false } } : State).boot.popOk = false ∧ (off 3).rf aPortStatus 8 8 = 0
    ∧ (((off 3).setReg (aCtxCtl 15) 1).setReg (aCtx 15 0x020) 0x8003).ctxEn 15 = true
    ∧ (((off 3).setReg (aCtxCtl 15) 1).setReg (aCtx 15 0x020) 0x8003).activeSpires = 2
    ∧ (List.range 8).any (fun k => (off 3).rb (aSessCfg k) 0 && !((off 3).key ((off 3).rf (aSessCfg k) 4 4)).present) = false
    ∧ (List.range 8).any (fun k => ({ off 3 with keys := [] } : State).rb (aSessCfg k) 0
        && !(({ off 3 with keys := [] } : State).key ((off 3).rf (aSessCfg k) 4 4)).present) = true
    ∧ takes quiet aDevCtl 0 = true ∧ quiet.rb aDevCtl 0 = true ∧ quiet.devState = stRun
    ∧ takes (off 3) aDevCtl 2 = true ∧ (off 3).rb aDevCtl 1 = false ∧ (off 3).tasks = [] ∧ ({ off 3 with tasks := [task1] } : State).tasks ≠ []
    ∧ ((quietIn 5).setReg aDevCtl 2).rb aDevCtl 1 = true ∧ ((quietIn 5).setReg aDevCtl 2).devState = stMaint
    ∧ rfld (1 : W32) 8 4 ≠ 0x5 ∧ rfld (1 : W32) 8 4 ≠ 0xA := by decide +kernel

/-- Contexts: mode bits of a locked and an unlocked one, EN set with each check passed and failed and cleared, RESET with a task alive and
with none; a drained Spire. -/
theorem wit_context_control :
    let p := { quiet.setReg (aCtxStatus 15) 2 with progs := [(15, { image := entryImage })] }
    takes host (aCtxCtl 0) 4 = true ∧ (4 ^^^ host.reg (aCtxCtl 0)) &&& 0x1C ≠ 0 ∧ host.ctxLocked 0 = true
    ∧ takes host (aCtxCtl 15) 0x1C = true ∧ host.ctxLocked 15 = false ∧ takes host (aCtxCtl 0) 0 = true ∧ host.ctxEn 0 = true
    ∧ (0 ^^^ host.reg (aCtxCtl 0)) &&& 0x1C = 0 ∧ takes host (aCtxCtl 15) 2 = true ∧ takes host (aCtxCtl 15) 1 = true
    ∧ host.ctxEn 15 = false ∧ host.rb (aCtxStatus 15) 1 = false ∧ p.checkEn 15 false = 0 ∧ takes p (aCtxCtl 15) 1 = true
    ∧ p.ctxRuns 15 = false ∧ ({ p with cores := [(0, { run := some { item1 with ctx := 15 } })] } : State).ctxRuns 15 = true
    ∧ (host.setReg (aCtxStatus 0) 4).rb (aCtxStatus 0) 2 = true ∧ host.ctxActive 0 = true ∧ quiet.ctxActive 0 = false
    ∧ (host.setReg (aSpire 63 0) 0x30000000).spireState 63 = 3 ∧ host.spireState 63 ≠ 3 := by decide +kernel

/-! Resets, the Dome cache, tests, tables, keys, replay and boot. -/

/-- Resets: written with the device ready to boot and not; pins that rise and fall; trips; the watchdog's states; the warm entry. -/
theorem wit_resets :
    let q := quiet
    takes q aDevCtl 0xA01 = true ∧ takes q aDevCtl 0x501 = true ∧ rbit (0xA01 : W32) 0 = q.rb aDevCtl 0 ∧ rbit (0x501 : W32) 1 = q.rb aDevCtl 1
    ∧ rfld (0xA01 : W32) 8 4 = 0xA ∧ rfld (0x501 : W32) 8 4 = 0x5 ∧ q.pins.pwrGood = true ∧ q.pins.resetN = true ∧ q.pins.tapHold = false
    ∧ q.boot.flashFound = true ∧ State.reset.boot.flashFound = false ∧ ¬ (q.boot.cold = true ∧ q.boot.trained = false)
    ∧ (let s : State := { q with pins := {}, boot := { q.boot with warmByPin := true } }
       s.pins.pwrGood = true ∧ s.pins.resetN = false ∧ s.boot.warmByPin = true ∧ s.devState ≠ stHalted)
    ∧ ({ q with pins := { pwrGood := false } } : State).pins.vaux = true ∧ ({ q with pins := { vaux := false } } : State).pins.vaux = false
    ∧ stTraining ≤ q.devState ∧ q.devState ≤ stMaint ∧ stTraining ≤ (quietIn 2).devState ∧ (quietIn 5).devState ≤ stMaint
    ∧ q.pins.thermTrip = false ∧ q.pins.vaux = true
    ∧ ({ q with boot := { q.boot with warmEntry := true } } : State).boot.warmEntry = true ∧ q.dome.fills = [] := by decide +kernel

/-- A dirty line of address 0 in way 0. -/
def lineWork : State :=
  { live with dome := { lines := [(wayKey 0 0, { tag := lineTag 0, dirty := true, stamp := 1 })], under := [(0, zeros 128)], stamps := 2 } }

/-- The Dome cache: bypass, a hit, a miss, a line in the victim buffer, a fill under way, a write of a whole line, the last byte of one; the
end of the tiers. -/
theorem wit_dome_accesses :
    let f : Fill := { line := 1, way := 3, writes := [], readers := [], raced := false, victim := some 2 }
    let s := { lineWork with dome := { lineWork.dome with fills := [f] } }
    (live.setReg aDomeStatus 0xFFFF0001).bypass = true ∧ live.bypass = false ∧ lineWork.findWay 0 = some 0 ∧ live.findWay 0 = none
    ∧ live.unbackedAt 0 = false ∧ 127 % 128 + 1 ≤ 128 ∧ 0 % 128 + 128 ≤ 128 ∧ live.inVictim 0 = false ∧ s.inVictim 2 = true
    ∧ (∃ g ∈ s.dome.fills, g.line = 1) ∧ (s.dome.fills.find? fun (f : Fill) => f.line == 1) = some f ∧ (∀ f ∈ live.dome.fills, f.line ≠ 1)
    ∧ SMap.find lineWork.dome.lines (wayKey 0 0) = some { tag := 0, dirty := true, stamp := 1 } ∧ lineOf (wayKey 0 0) 0 = 0
    ∧ live.unbackedAt (64 * gib) = true ∧ live.unbackedAt (64 * gib - 1) = false := by decide +kernel

/-- The Dome cache's control: ways and maintenance busy and not; ranges that are empty, that fill a tier and that leave it; a buffer of a
task in a range; bypass asked for and left. -/
theorem wit_dome_control :
    let m := fun (lo len : Nat) => ((host.setReg (aDomeCtl + 0x010) (BitVec.ofNat 32 lo)).setReg (aDomeCtl + 0x018) (BitVec.ofNat 32 len))
    let busy := host.setReg aDomeStatus 0xFFFF0006
    takes host aDomeWaymask 0 = true ∧ host.wayBusy = false ∧ host.mntBusy = false ∧ busy.wayBusy = true ∧ busy.mntBusy = true
    ∧ takes host aDomeCtl 1 = true ∧ rbit (1 : W32) 1 = false ∧ host.rb aDomeCtl 0 = false ∧ (host.setReg aDomeCtl 1).rb aDomeCtl 0 = true
    ∧ (host.setReg aDomeStatus 0xFFFF0008).rb aDomeStatus 3 = true ∧ host.rb aDomeStatus 3 = false
    ∧ ([1, 2, 3, 4].all fun op => takes host (aDomeCtl + 0x020) (BitVec.ofNat 32 op) && takes busy (aDomeCtl + 0x020) (BitVec.ofNat 32 op)) = true
    ∧ 128 * ((m 0 0).reg (aDomeCtl + 0x018)).toNat = 0 ∧ 128 * ((m 0 0xFFFFFFFF).reg (aDomeCtl + 0x018)).toNat + 128 = 2 ^ 39
    ∧ 2 ^ 39 < ((m 0x80 0xFFFFFFFF).reg (aDomeCtl + 0x010)).toNat + 128 * ((m 0x80 0xFFFFFFFF).reg (aDomeCtl + 0x018)).toNat + 128
    ∧ (∃ x ∈ ({ m 0 1 with tasks := [{ task1 with bufs := [{ addr := 127, len := 1, kind := 0 }] }] } : State).tasks,
        ∃ b ∈ x.bufs, 0 < b.len ∧ 0 < b.addr + b.len ∧ b.addr < 128)
    ∧ (m 0 1).tasks.all (fun x => x.bufs.isEmpty) = true ∧ (host.setReg aDomeStatus 0xFFFF0001).bypass = true ∧ host.bypass = false
    ∧ ({ host with dome := { disabling := true, mnt := some { op := 4, lo := 0, hi := 128 } } } : State).dome.fills = []
    ∧ (∀ e ∈ lineWork.dome.under, e.2.length = 128) := by decide +kernel

/-- Drains, self-tests and the automatic test. -/
theorem wit_drains_and_tests :
    let d := fun (n : Nat) => host.setReg (aSpire 1 0) (BitVec.ofNat 32 (n * 2 ^ 28))
    let a := { host.setReg (aErr 0x004) 0x10000 with autoNext := 1 }
    takes host (aDisp 0x010) 0x101 = true ∧ takes host (aDisp 0x010) 0x201 = true ∧ host.spireState 1 = 1 ∧ host.spireState 0 = 1
    ∧ (d 3).spireState 1 = 3 ∧ host.spireState 63 ≠ 1 ∧ host.cores = [] ∧ host.spireStreams 1 = false
    ∧ ((withCores [(31, { run := some item1 })] host).core 31).run ≠ none
    ∧ takes host (aErr 0x014) 0x1FFF = true ∧ takes host (aErr 0x018) 0x101 = true ∧ takes host (aErr 0x018) 0x200 = true
    ∧ host.tests = [] ∧ (d 5).spireState 1 = 5 ∧ (quietIn 5).devState = stMaint ∧ host.devState ≠ stMaint
    ∧ ({ host with tests := [.spire 1 true false] } : State).tests = [.spire 1 true false]
    ∧ a.rf (aErr 0x004) 16 16 ≠ 0 ∧ a.fwRuns = true ∧ a.tests = [] ∧ a.spiresFrom 1 = [1, 0] ∧ a.drainBad 1 = false ∧ a.autoDrain = false
    ∧ ((d 2).setReg (aErr 0x004) 0x10000).drainBad 1 = true ∧ host.rf (aErr 0x004) 16 16 = 0 := by decide +kernel

/-- Table commands: a table of the context, of another, none; versions that stay and that go; a record that is valid, is not, and cannot be
read. -/
theorem wit_table_commands :
    let v : Version := { gen := 1, bytes := tab ++ zeros 64 }
    let s := { host with tables := [(0, { owner := 15, versions := [v, { v with gen := 2 }] }), (4095, { owner := 0, versions := [v] })] }
    let new := putBytes (tab ++ zeros 64) 0x42 (natLe 2 1 ++ natLe 4 3)
    let new := putBytes new 0x48 (natLe 8 4)
    takes s (aCtx 15 0x08C) 0x10000000 = true ∧ takes s (aCtx 15 0x08C) 0x40000FFF = true
    ∧ (SMap.find s.tables 4095).map (·.owner) = some 0 ∧ (SMap.find s.tables 0).map (·.owner) = some 15 ∧ SMap.find s.tables 1 = none
    ∧ s.checkAcc 15 (s.tblAddr 15) 128 .rd = some (.perm 0xFFFF) ∧ s.checkAcc 0 (s.tblAddr 0) 128 .rd = none
    ∧ s.recordValid 1 (zeros 128) = false ∧ (s.stayLive 0 { owner := 15, versions := [v, { v with gen := 2 }] }).length ≤ 4
    ∧ ({ owner := 15, versions := [v, { v with gen := 2 }] } : Table).top = some { v with gen := 2 } ∧ v.dist = false ∧ v.marked = false
    ∧ s.batches = [] ∧ s.recordValid 0 new = true ∧ s.recordValid 1 new = true := by decide +kernel

/-- Keys: install and erase with the slot busy and free, as the last owner key and not; over I3C with tasks and with none; signing jobs. -/
theorem wit_keys_and_signing :
    let s := { host with keys := [(1, { present := true, owner := true }), (15, { present := true, owner := true })] }
    let att := rput (0x80000000 : W32) 0 4 0
    takes host (aSec 0x030) 0 = true ∧ takes host (aSec 0x030) 0 { who := .i3c, seq := 0 } = true ∧ host.keyBusy 1 = true ∧ host.keyBusy 15 = false
    ∧ host.keyMask (fun (k : KeySlot) => k.present && k.owner) = 2 ∧ s.keyMask (fun (k : KeySlot) => k.present && k.owner) = 0x8002
    ∧ s.keyBusy 15 = false ∧ takes s (aSec 0x030) 0x8000000F = true ∧ takes s (aSec 0x030) 0xC0000000 { who := .i3c, seq := 0 } = true
    ∧ host.tasks ≠ [] ∧ quiet.tasks = [] ∧ takes host (aSec 0x068) att = true ∧ rbit att 31 = true ∧ host.smd.sign = none ∧ host.smd.att = none
    ∧ host.checkAcc 0 0 (0xC0 + 9893) .wr = none ∧ host.checkAcc 1 0 (0xC0 + 9893) .wr = some (.perm 0xFFFF)
    ∧ takes host (aDet 0x154) 0x80000010 = true ∧ ((quiet.setReg (aDet 0x140) 1).setReg (aDet 0x148) 1).rf (aDet 0x148) 0 17 = 1
    ∧ ((quiet.setReg (aDet 0x140) 1).setReg (aDet 0x148) 0x10001).rf (aDet 0x148) 0 17 = 65537
    ∧ quiet.task? 1 1 = none ∧ host.task? 1 1 ≠ none ∧ 1 ∈ (quiet.key 1).unreleased ∧ 2 ∉ (quiet.key 1).unreleased
    ∧ quiet.signRefusal 1 1 1 = 0 ∧ quiet.signRefusal 1 1 2 ≠ 0 ∧ host.slotOfKey 1 = some 0 := by decide +kernel

/-- No signature index is left, and the last block of them is. -/
theorem wit_signature_indices :
    ({ live with smd := { nextResv := 2 ^ 40 } } : State).noIndex
    ∧ (∀ s : State, s.smd = { nextResv := 2 ^ 40 - 4096 } → s.noIndex → Config.mramFails s.draws = true)
    ∧ ¬ ({ live with smd := { nextResv := 2 ^ 40, block := some (2 ^ 40 - 1, 2 ^ 40) } } : State).noIndex := by
  refine ⟨⟨?_, .inl (by decide)⟩, fun s e h => ?_, fun h => ?_⟩
  · intro n e h; cases h
  · exact h.2.resolve_left (by rw [e]; decide)
  · exact absurd (h.1 _ _ rfl) (by decide)

/-- Replay and peers: records to feed of each kind; a group to form, formed, dissolved; formation complete and not. -/
theorem wit_replay_and_peers :
    let x : RplRec := { rseq := 1, tick := 0, kind := 3, full := true, key := 1, ctx := 0, ref := 0, digest := [], body := zeros 0x19 }
    let s := { quiet.setReg (aDet 0x12C) 0x10000000 with replay := { ring := [x], next := 1, stop := 1 } }
    let g := ({ (host.setReg (aPeer 0x04) 0x00010000).setReg (aPeer 0x14) 0x40000000 with form := some { req := r0 } } : State)
    let o := ({ g with sess := g.sess ++ [(17, { isOpen := true })] } : State)
    takes quiet (aDet 0x128) 1 = true ∧ quiet.devState = stRun ∧ quiet.tasks = [] ∧ quiet.pair (aDet 0x120) = 0 ∧ host.tasks ≠ []
    ∧ (∃ y ∈ ({ s.setReg (aDet 0x120) 1 with tasks := [] } : State).replay.ring, y.rseq = (s.setReg (aDet 0x120) 1).pair (aDet 0x120))
    ∧ takes s (aDet 0x128) 2 = true ∧ s.replaying = true ∧ quiet.replaying = false ∧ s.rf (aDet 0x12C) 28 4 = 1
    ∧ (s.replay.ring.find? fun (y : RplRec) => y.rseq == s.replay.next) = some x ∧ s.feedHeld { x with kind := 2 } = false
    ∧ takes host (aPeer 0) 1 = true ∧ takes host (aPeer 0) 2 = true ∧ host.peerState = 0 ∧ host.form = none ∧ g.peerState = 1
    ∧ (host.setReg (aPeer 0x04) 0x00010000).groupSize = 2
    ∧ (host.setReg (aPeer 0x04) 0x00010000).checkAcc 0 (host.setReg (aPeer 0x04) 0x00010000).peerTable 64 .rd = none
    ∧ (host.setReg (aPeer 0x08) 0x1).checkAcc ((host.setReg (aPeer 0x08) 0x1).rf (aPeer 0x08) 0 4) 0 64 .rd = some (.perm 0xFFFF)
    ∧ host.liveExchange = false ∧ g.groupSize = 2 ∧ g.myRank = 0 ∧ (g.ses 17).isOpen = false ∧ (o.ses 17).isOpen = true
    ∧ (∀ q, q < o.groupSize → q ≠ o.myRank → (o.ses (16 + q)).isOpen = true) ∧ o.ctxEn 0 = true ∧ o.rb (aCtxCtl 0) 4 = false
    ∧ (o.setReg (aCtxCtl 0) 0x11).rb (aCtxCtl 0) 4 = true := by decide +kernel

/-- The header of a flash image whose body is empty. -/
def flashHead : List Byte := natLe 4 0x57464C4E ++ natLe 4 1 ++ zeros 24 ++ shake256 [] 32

/-- Boot: pins, an image that is good, one that is not, training and enumeration, a cold and a warm boot. -/
theorem wit_boot :
    let s := fun (n : Nat) (b : Boot) => ({ quietIn n with boot := b } : State)
    ({ quietIn 0 with pins := {} } : State).pins.resetN = false ∧ ({ quietIn 0 with pins := {} } : State).pins.pwrGood = true
    ∧ ({ quietIn 0 with pins := { tapHold := true, resetN := true } } : State).pins.tapHold = true ∧ (s 0 {}).boots
    ∧ (s 1 {}).devState = stBoot ∧ imageCause (s 1 {}).fuses (s 1 {}).flashImage = 2 ∧ (s 2 {}).devState = stTraining ∧ (s 2 {}).boot.trained = false
    ∧ (s 2 {}).boot.cold = true ∧ (s 2 { cold := false }).boot.cold = false
    ∧ ((s 2 { trained := true }).boot.trained = true ∧ (s 2 { trained := true }).boot.enumerated = false)
    ∧ (s 2 { cold := false, trained := true }).boot.scanned = false ∧ (s 2 { trained := true, enumerated := true }).boot.enumerated = true
    ∧ (s 2 { cold := false, enumerated := true, scanned := true, savedRun := true, savedEn := 1 }).boot.scanned = true
    ∧ (s 2 {}).checkRun = 0 ∧ ({ s 2 {} with boot := { popOk := false } } : State).checkRun ≠ 0
    ∧ (s 2 {}).tasks.any (s 2 {}).recorded = false := by unfold State.boots; decide +kernel

theorem readN_append (m : Mem) (k : Nat) : ∀ (n a : Nat), Mem.readN m a (n + k) = Mem.readN m a n ++ Mem.readN m (a + n) k
  | 0, a => by simp [Mem.readN]
  | n + 1, a => by rw [Nat.succ_add, Mem.readN, Mem.readN, readN_append m k n (a + 1), Nat.add_right_comm]; rfl

theorem length_readN (m : Mem) : ∀ (n a : Nat), (Mem.readN m a n).length = n
  | 0, _ => rfl
  | n + 1, a => by rw [Mem.readN, List.length_cons, length_readN m n (a + 1)]

/-- The header block of an image with an empty body. -/
def flashBlock : List Byte := flashHead ++ zeros 4032

theorem flashBlock_facts : flashBlock.length = 4096 ∧ getLe flashBlock 0x10 8 = 0 ∧ getLe flashBlock 0 4 = 0x57464C4E ∧ getLe flashBlock 4 4 = 1
    ∧ zeroAt flashBlock 0x18 8 ∧ zeroAt flashBlock 0x40 4032 ∧ getLe flashBlock 0x0E 2 ≤ 0x00A1
    ∧ shake256 [] 32 = slice flashBlock 0x20 32 := by decide +kernel

/-- A flash that holds the block and a signature is staged whole. -/
theorem flashed_image (s : State) (sig : List Byte) (hs : sig.length = 2820) (h : s.flash = Mem.writeN {} 0 (flashBlock ++ sig)) :
    s.flashImage = flashBlock ++ sig := by
  have hl := flashBlock_facts.1
  have hr : Mem.readN s.flash 0 (4096 + 2820) = flashBlock ++ sig := by
    rw [h]
    have e : (flashBlock ++ sig).length = 4096 + 2820 := by rw [List.length_append, hl, hs]
    rw [← e, Mem.readN_writeN]
  have hh : Mem.readN s.flash 0 4096 = flashBlock := by
    have e := readN_append s.flash 2820 4096 0
    rw [hr] at e
    have hn : (Mem.readN s.flash 0 4096).length = flashBlock.length := by rw [hl, length_readN]
    exact (List.append_inj_left e hn.symm).symm
  unfold State.flashImage
  rw [hh, flashBlock_facts.2.1]
  exact hr

theorem imageCause_block (f : Fuses) (sig : List Byte) (hs : sig.length = 2820) :
    imageCause f (flashBlock ++ sig) = if xmssVerify (vendorPub f) flashBlock sig then 0 else 4 := by
  have hl := flashBlock_facts.1
  obtain ⟨-, h1, h2, h3, h4, h5, h6, h7⟩ := flashBlock_facts
  have e1 : slice (flashBlock ++ sig) 0 4096 = flashBlock := by unfold slice; rw [List.drop_zero, List.take_left' hl]
  have e2 : slice (flashBlock ++ sig) (0x1000 + 0) fwSigLen = sig := by
    unfold slice; rw [List.drop_left' hl, List.take_of_length_le (by rw [hs]; decide)]
  have e3 : slice (flashBlock ++ sig) 0x1000 0 = [] := by unfold slice; rw [List.take_zero]
  unfold imageCause
  simp only [e1, h1, e2, e3, h2, h3, h4, h5, h7]
  have h8 : ¬ (0x00A1 < getLe flashBlock 0x0E 2) := by omega
  generalize xmssVerify _ _ _ = b
  cases b <;> simp [h8, fwSigLen]

/-- A device in BOOT whose flash holds an image that passes every check. -/
theorem wit_boot_image : ∃ s : State, s.devState = stBoot ∧ imageCause s.fuses s.flashImage = 0 := by
  obtain ⟨q, hb⟩ : ∃ q : State, q.devState = stBoot := ⟨quietIn 1, by decide +kernel⟩
  obtain ⟨root, sig, hs, hv⟩ := xmssVerify_holds q.fuses flashBlock
  obtain ⟨m, hm⟩ : ∃ m, m = Mem.writeN {} 0 (flashBlock ++ sig) := ⟨_, rfl⟩
  refine ⟨{ q with fuses := { q.fuses with vendorRoot := root }, flash := m }, hb, ?_⟩
  rw [flashed_image _ sig hs hm, imageCause_block _ sig hs, if_pos hv]

/-- Power and pins: passes with a hot, a cool and an overdrawn device; guards at their limits; I3C reads; sampled pairs. -/
theorem wit_power_and_pins :
    (quietIn 1).devState = stBoot ∧ (quietIn 0).devState = stReset ∧ live.pins.pwrGood = true ∧ TapState.shiftDr ≠ .testLogicReset
    ∧ live.pins.straps.toNat + 0x58 = 0x58 ∧ live.fwRuns = true ∧ (quietIn 1).fwRuns = false ∧ (live.ses 0).isOpen = false ∧ (host.ses 0).isOpen = true
    ∧ host.sampledValue (aTime 0x010) = some 0 ∧ i3cReads aDevId = true ∧ i3cReads 0x28000 = false ∧ live.pins.vaux = true
    ∧ ({ live with pins := { vaux := false } } : State).pins.vaux = false ∧ live.port.refclkLost = false
    ∧ ({ live with port := { refclkLost := true } } : State).port.refclkLost = true ∧ live.smd.lifeSec = []
    ∧ ({ live with smd := { lifeNew := [(458752, 1)] } } : State).smd.lifeNew = [(458752, 1)]
    ∧ (List.range 4).all (fun q => decide (live.setpoint q < 2000)) = true := by decide +kernel

/-! The port, sessions and messages. -/

/-- A UDP frame on sub-port p. -/
def frame (p : Fin 8) (len : Nat) (tag : Option MacsecTag := none) (dport : Nat := 0) : Frame :=
  { sub := p, len := len, kind := .udp dport, dstMac := 0, vlan := 0, ce := false, macsec := tag, src := {}, bytes := [] }

/-- The port: sub-ports in training, up and down, with MACsec and without; lanes; frames at the length limit, that match a session and
that do not; pauses; rates; the PTP servo at its limits. -/
theorem wit_port :
    let up := host.setReg aPortStatus 0x01FF0000
    let sec := up.setReg aPortCfg 0x01000000
    SMap.get ({ host with port := { training := [(0, true)] } } : State).port.training false 0 = true ∧ SMap.get host.port.training false 7 = false
    ∧ host.macsecOn 0 = false ∧ sec.macsecOn 0 = true ∧ up.subUp 0 = true ∧ up.subUp 7 = false
    ∧ up.subOfLane 0 = some 0 ∧ ({ up with pins := { up.pins with ethTx := true } } : State).pins.ethTx = true ∧ up.pins.ethTx = false
    ∧ 1 < popCount 8 (up.lanesOf 0) ∧ popCount 8 (({ up with port := { lanes := [(0, 1)] } } : State).lanesOf 0) ≤ 1
    ∧ (frame 0 9216).len ≤ 9216 ∧ 9216 < (frame 0 9217).len ∧ up.lportOf (frame 0 64) 0x5A50 = some 0 ∧ up.lportOf (frame 1 64) 0 = none
    ∧ up.peerPort (frame 1 64) 0 = false ∧ sec.muted 0 = false ∧ (sec.setKey (sec.macsecKey 0) { mute := [0] }).muted 0 = true ∧ (frame 0 64).macsec = none
    ∧ (up.setReg aPortCfg 0x100).rb aPortCfg 8 = true
    ∧ up.rb aPortCfg 8 = false ∧ SMap.find host.port.pauses 0 = none
    ∧ SMap.find ({ host with port := { pauses := [(63, 5)] } } : State).port.pauses 63 = some 5
    ∧ (∀ d, SMap.find host.port.lastCut 0 = some d → d + 10000 ≤ host.tick)
    ∧ SMap.find ({ host with port := { lastCut := [(0, 1)], lastNote := [(0, 1)] } } : State).port.lastCut 0 = some 1
    ∧ SMap.find host.port.lastNote 0 = none ∧ up.subUp up.ptpSub = true ∧ host.subUp host.ptpSub = false ∧ host.ptp.seen = false
    ∧ servoErr 20 0 = 20 ∧ servoErr 1000001 0 = 1000001
    ∧ 16 ≤ ({ up with ptp := { good := 16 } } : State).ptp.good ∧ host.ptp.good < 16 ∧ host.ptp.err.natAbs ≤ 100
    ∧ 100 < ({ up with ptp := { err := -101 } } : State).ptp.err.natAbs := by
  intro up sec
  refine ⟨by decide, by decide, by decide +kernel, by decide +kernel, by decide +kernel, by decide +kernel, by decide +kernel, by decide,
    by decide, by decide +kernel, by decide +kernel, by decide, by decide, by decide +kernel, by decide +kernel, by decide +kernel, by decide +kernel, by decide +kernel,
    by decide, by decide +kernel, by decide +kernel, by decide, by decide, ?_, by decide, by decide, by decide +kernel,
    by decide +kernel, by decide, by decide +kernel, by decide +kernel, by decide, by decide, by decide, by decide⟩
  · intro d h; cases h

/-- An IPv4 packet with a UDP datagram for the port of the data link protocol, and its encryption under the key of sub-port 0. -/
def packet : List Byte := natBe 2 0x0800 ++ ([0x45, 0] ++ natBe 2 30 ++ zeros 5 ++ [17] ++ zeros 10) ++ (zeros 2 ++ natBe 2 0x5A50 ++ natBe 2 10 ++ zeros 2 ++ [1, 2])
/-- A partner's tag with GEN 1 and packet number 1. -/
def tagOn (data icv : List Byte) : MacsecTag := { an := 1, pn := 1, sci := 1, data := data, icv := icv }

theorem icvOk_tagOn (s : State) (keys : List Byte × List Byte) (data icv : List Byte) (hk : keys = macsecKeys (s.key (s.macsecKey 0)).key 1 0)
    (hv : icv = macsecIcv keys 2 1 1 1 0 0 data) : s.icvOk (frame 0 64 (some (tagOn data icv))) (tagOn data icv) 1 = true := by
  unfold State.icvOk
  dsimp only [tagOn, frame]
  rw [show (1 : BitVec 64).toNat = 1 from rfl, show (1 : BitVec 2).toNat = 1 from rfl, show (0 : BitVec 48).toNat = 0 from rfl,
    show (0 : Fin 8).val = 0 from rfl, ← hk, ← hv]
  simp

/-- A tag with the right check value that is new, whose data carries a datagram for session 0; and the same where its number was seen. -/
theorem wit_macsec_tags : ∃ x : MacsecTag,
    let f := frame 0 64 (some x)
    let keys := macsecKeys (host.key (host.macsecKey 0)).key x.sci.toNat 0
    let g := Frame.inner f (gcmCrypt keys.1 (macsecIv keys.2 2 (host.pnOf 0 x)) x.data)
    let s := (host.setKey (host.macsecKey 0) { host.key (host.macsecKey 0) with genRx := [(0, 1)] }).setRx 0
      { key := host.macsecKey 0, mac := 0, gen := 1, top := 5, seen := [1] }
    (¬ host.tagRefused 0 f x ∧ s.tagRefused 0 f x) ∧ g.kind = .udp 0x5A50 ∧ host.lportOf g 0x5A50 = some 0 ∧ g.bytes = [1, 2] := by
  obtain ⟨keys, hk⟩ : ∃ k, k = macsecKeys (host.key (host.macsecKey 0)).key 1 0 := ⟨_, rfl⟩
  have hl : keys.1.length = 32 ∧ keys.2.length = 12 := by rw [hk]; decide +kernel
  have hi : (macsecIv keys.2 2 1).length = 12 := by simp [macsecIv, xorBlock, length_natBe, hl.2]
  obtain ⟨data, hd⟩ : ∃ d, d = gcmCrypt keys.1 (macsecIv keys.2 2 1) packet := ⟨_, rfl⟩
  obtain ⟨icv, hv⟩ : ∃ v, v = macsecIcv keys 2 1 1 1 0 0 data := ⟨_, rfl⟩
  have h := icvOk_tagOn host keys data icv hk hv
  obtain ⟨x, hx⟩ : ∃ x, x = tagOn data icv := ⟨_, rfl⟩
  have h3 : x.sci = 1 ∧ x.pn = 1 ∧ x.data = data := by rw [hx]; exact ⟨rfl, rfl, rfl⟩
  have hp : ∀ s : State, (if (s.rxChannel 0 0).gen = 1 then (s.rxChannel 0 0).top - 63 else 0) = 0 → s.pnOf 0 x = 1 := by
    intro s e
    unfold State.pnOf
    rw [h3.1, h3.2.1, show (1 : BitVec 64).toNat / 65536 = 0 from rfl, show (1 : BitVec 64).toNat % 65536 = 1 from rfl]
    simp only [e]
    rfl
  have hg : Frame.inner (frame 0 64 (some x)) (gcmCrypt keys.1 (macsecIv keys.2 2 1) data) = Frame.inner (frame 0 64 (some x)) packet := by
    rw [hd, gcmCrypt_twice _ _ _ hl.1 hi]
  have hpk : ∀ t, (Frame.inner (frame 0 64 t) packet) = { frame 0 64 t with kind := .udp 0x5A50, bytes := [1, 2] } := by
    intro t; rfl
  refine ⟨x, ?_⟩
  have h1 := hp host (by decide +kernel)
  simp only [h1, h3.1, h3.2.2, show (1 : BitVec 64).toNat = 1 from rfl, ← hk, hg, hpk]
  refine ⟨⟨?_, Or.inr (Or.inr ?_)⟩, trivial, ?_, trivial⟩
  · rintro (e | e | e)
    · rw [h1, hx] at e; exact absurd (h.symm.trans e) (by decide)
    · rw [h3.1] at e; exact absurd e (by decide +kernel)
    · rw [h3.1] at e; exact absurd e.1 (by decide +kernel)
  · rw [h3.1, hp _ (by decide +kernel)]; decide +kernel
  · exact (by decide +kernel : host.lportOf { frame 0 64 with kind := .udp 0x5A50, bytes := [1, 2] } 0x5A50 = some 0)

/-- Sessions: HELLO with the bound key and another, a slot without one; PROVE after it and before, with the right tag and a wrong one; messages
in order and not; retransmissions at their limit. -/
theorem wit_sessions :
    let p := natLe 2 1 ++ zeros 38
    let x := p ++ zeros 80
    let s := { host with sess := [(0, { isOpen := true, key := 1, epoch := 1, transcript := some x, ackDue := some 5, txBuf :=
      [{ seq := 1, typ := 0x12, payload := [], sent := some 0, timeouts := 15 }, { seq := 2, typ := 0x12, payload := [], sent := some 0, timeouts := 14 }] })] }
    stReady ≤ host.devState ∧ host.devState ≤ stRecovery ∧ (quietIn 2).devState < stReady ∧ p.length = 40 ∧ zeroAt p 2 6 = true
    ∧ getLe p 0 2 = host.slotKey 0 ∧ (host.key (host.slotKey 0)).present = true ∧ (host.key (host.slotKey 1)).present = false
    ∧ getLe (zeros 40) 0 2 ≠ host.slotKey 0 ∧ (s.ses 0).transcript = some x ∧ (host.ses 0).transcript = none ∧ x.length = 120
    ∧ proveTag (s.key (s.slotKey 0)).key x = natLe 32 0xa97c235d20abc5c772786a6484378c967762e0f4bccbafe528ef6cebea46d550
    ∧ (natLe 32 0xa97c235d20abc5c772786a6484378c967762e0f4bccbafe528ef6cebea46d550).length = 32 ∧ natLe 32 0xa97c235d20abc5c772786a6484378c967762e0f4bccbafe528ef6cebea46d550 ≠ zeros 32
    ∧ (s.ses 0).ackDue = some 5 ∧ (host.ses 0).ackDue = none ∧ (host.ses 1).isOpen = false
    ∧ ((s.ses 0).txBuf.find? fun m => m.seq == 1).map (·.timeouts) = some 15 ∧ ((s.ses 0).txBuf.find? fun m => m.seq == 2).map (·.timeouts) = some 14
    ∧ (∀ m ∈ (host.ses 0).txBuf, m.seq ≠ 1) ∧ host.checksDue = false
    ∧ (host.setSes 0 { host.ses 0 with rxBuf := [{ seq := 1, typ := tyLoad, payload := [], arrival := 1 }] }).checksDue = true := by decide +kernel

/-- The header and payload of session 0's next message, and its datagram with the tag. -/
def head0 : List Byte := natLe 1 1 ++ natLe 1 tySignal ++ natLe 2 0 ++ natLe 4 (sessionWord 0 0 1) ++ natLe 8 1 ++ natLe 8 0 ++ zeros 4 ++ natLe 4 8 ++ zeros 8
/-- The datagram. -/
def dgram : List Byte := head0 ++ natLe 16 0x7850bfc6faefb74bfb8fc3d63c603b74

/-- A datagram whose tag is right and whose message is the next. -/
theorem wit_datagrams :
    let s := { host with port := { rx := [(0, {}, dgram), (0, {}, head0 ++ zeros 16), (0, {}, zeros 31)] } }
    (s.port.rx.find? fun e => e.1 == 0 && e.2.2 == dgram) = some (0, {}, dgram) ∧ NextMessage s 0 dgram
    ∧ (zeros 31).length < 32 ∧ (head0 ++ zeros 16).length = 56 ∧ hSession (head0 ++ zeros 16) ≠ 0
    ∧ kmac256 (s.ses 0).ks ((0 : Byte) :: head0) 16 "NLT9 DWP" ≠ zeros 16 ∧ hType dgram ≠ tyHello ∧ s.checksDue = false := by
  intro s
  refine ⟨by decide +kernel, ⟨by decide +kernel, by decide +kernel, by decide +kernel, by decide +kernel, by decide +kernel, by decide +kernel⟩,
    by decide +kernel, by decide +kernel, by decide +kernel, by decide +kernel, by decide +kernel, by decide +kernel⟩

/-- Queue pairs: a live one and none; records that are good and bad; the last number. -/
theorem wit_queue_pairs :
    let b := putBytes (zeros 64) 0x2A [1]
    let x : Qp := { words := b, sess := 0, ctx := 0, sq := 0, rq := 0xFFFFFF }
    let s := { host with qps := [(4095, some x)] }
    s.liveQp 4095 = some x ∧ host.liveQp 0 = none ∧ ({ host with qps := [(0, some { x with err := true })] } : State).liveQp 0 = none
    ∧ s.replaying = false ∧ s.firstBad 0 1 true = none ∧ getLe b 0x2B 1 ≤ 0
    ∧ s.regGate r0 0x10144 = some 0 ∧ s.rb (aDet 0x100) 1 = false ∧ b.length = 64 ∧ qpRecordOk b = true ∧ qpRecordOk (zeros 64) = false
    ∧ s.qp? 0 = none ∧ s.qp? 4095 = some x ∧ s.rb (aSessCfg (getLe b 0 1)) 0 = true ∧ s.isOwner 0 = true
    ∧ rfld (4095 : W32) 12 20 = 0 ∧ rfld (4096 : W32) 12 20 = 1
    ∧ ({ s with keys := [(1, { present := true })] } : State).isOwner 0 = false := by
  decide +kernel

/-- Packet sequence numbers of a live queue pair whose next is 0xFFFFFF: due, a duplicate, ahead; messages of its session. -/
theorem wit_packets :
    let x : Qp := { words := putBytes (zeros 64) 0x2A [1], sess := 0, ctx := 0, sq := 0, rq := 0xFFFFFF }
    let s := { host with qps := [(4095, some x)] }
    let again := fun (n : Nat) => n ≠ x.rq ∧ (x.rq + 2 ^ 24 - n) % 2 ^ 24 ≤ 2 ^ 23
    stReady ≤ s.devState ∧ s.devState ≤ stRecovery ∧ s.works = true ∧ x.err = false ∧ (0xFFFFFF : BitVec 24).toNat = x.rq
    ∧ again 0xFFFFFE ∧ again 0x7FFFFF ∧ ¬ again 0x7FFFFE ∧ ¬ again 0 ∧ (quietIn 6).works = false ∧ x.sess = (0 : Fin 8).val
    ∧ (s.tasks.all fun y => y.bufs.isEmpty) = true ∧ (quietIn 1).devState < stReady := by decide +kernel

/-- What leaves the port: a frame whose priority a pause holds, one on a sub-port that is up, one that MACsec tags. -/
theorem wit_frames_leave :
    let up := host.setReg aPortStatus 0x01FF0000
    let m : OutMsg := .roceAck 0 0
    let s := { up with qps := [(0, some { words := zeros 64, sess := 0, ctx := 0, sq := 0, rq := 0 })] }
    let f := (s.frameOf {} m).map fun (f : OutFrame) => (f.sub, f.prio)
    f = some (0, some 0) ∧ s.subUp 0 = true ∧ s.macsecOn 0 = false ∧ SMap.find s.port.pauses 0 = none
    ∧ (SMap.find ({ s with port := { s.port with pauses := [(0, 9)] } } : State).port.pauses 0).isSome = true
    ∧ (s.setReg aPortCfg 0x01000000).macsecOn 0 = true ∧ s.muted 0 = false ∧ m ≠ .pfc 0 0 true := by decide +kernel

/-- An R_Key that grants an access and ones that do not. -/
theorem wit_rkeys :
    let x : Qp := { words := zeros 64, sess := 0, ctx := 0, sq := 0, rq := 0xFFFFFF }
    host.rkeyGrants x 0 0 4096 .rwr ∧ host.rkeyGrants x 0 (2 ^ 32 - 1) 1 .rrd ∧ ¬ host.rkeyGrants x 0 (2 ^ 32 - 1) 2 .rwr
    ∧ ¬ host.rkeyGrants x 1 0 1 .rwr := by
  simp only [State.rkeyGrants]; decide +kernel

/-! Messages about memory, work and results. -/

/-- s where session 0 has reached its message 1, of this type and payload. -/
def msg (typ : Nat) (p : List Byte) (s : State := host) : State :=
  s.setSes 0 { s.ses 0 with rxBuf := [{ seq := 1, typ := typ, payload := p, arrival := 1 }] }
/-- Turn, as a Bool, for message 1 of session 0. -/
def turn (s : State) (typ : Nat) (p : List Byte) : Bool :=
  (s.ses 0).isOpen && (s.ses 0).rxDone == 0 && (s.ses 0).rxBuf == [{ seq := 1, typ := typ, payload := p, arrival := 1 }]
    && s.inTurn r0 && !s.waits r0 && s.fanouts.isEmpty

theorem turn_of {s : State} {typ : Nat} {p : List Byte} (h : turn s typ p = true) : Turn s 0 1 typ p := by
  simp only [turn, Bool.and_eq_true, beq_iff_eq, Bool.not_eq_true', List.isEmpty_iff] at h
  obtain ⟨⟨⟨⟨⟨h1, h2⟩, h3⟩, h4⟩, h5⟩, h6⟩ := h
  exact ⟨h1, by rw [show (0 : Fin 8).val = 0 from rfl, h2], ⟨1, h3⟩, h4, h5, h6⟩

/-- Every message type reaches its turn in a device at work, in RECOVERY, under replay and with a partner key alone. -/
theorem wit_turns :
    ∀ typ ∈ seqTypes, ∀ p : List Byte, p = [] ∨ p = zeros 16 → turn (msg typ p) typ p = true ∧ turn (msg typ p (quietIn 6)) typ p = true
      ∧ turn (msg typ p (host.setReg (aDet 0x12C) 0x10000000)) typ p = true
      ∧ turn (msg typ p { host with keys := [(1, { present := true })] }) typ p = true := by
  intro typ ht p hp
  fin_cases ht <;> rcases hp with rfl | rfl <;> decide +kernel

/-- WRITE and READ: formed and not, granted and not, in use and not; the last byte of the window. -/
theorem wit_memory_messages :
    let w := fun (a : Nat) (n : Nat) => zeros 8 ++ natLe 8 a ++ zeros n
    let rd := fun (a n : Nat) => zeros 8 ++ natLe 8 a ++ natLe 4 n ++ natLe 4 7
    let busy := { host with tasks := [{ task1 with bufs := [{ addr := 0, len := 64, kind := 0 }] }] }
    zeroAt (w 0 4) 1 7 = true ∧ (w (2 ^ 32 - 1) 1).length = 17 ∧ (rd 0 1).length = 0x18 ∧ zeroAt (rd 0 1) 1 7 = true ∧ getLe (rd 0 1048576) 0x10 4 = 1048576
    ∧ host.isOwner 0 = true ∧ host.checkAcc 0 (2 ^ 32 - 1) 1 .wr = none ∧ host.checkAcc 0 (2 ^ 32 - 1) 2 .wr ≠ none
    ∧ host.checkAcc 0 0 1048576 .rd = none ∧ (match host.checkAcc 0 (2 ^ 32 - 1) 2 .rd with | some (.perm _) => true | _ => false) = true
    ∧ host.inUse 0 64 false = false ∧ busy.inUse 63 1 false = true ∧ busy.inUse 63 1 true = false ∧ busy.inUse 64 1 false = false
    ∧ { busy with tasks := [{ task1 with bufs := [{ addr := 0, len := 64, kind := 2 }] }] }.inUse 0 1 true = true
    ∧ host.dome.fills = [] ∧ 1 + 8 ≤ host.maxPay 0 ∧ (host.ses 0).txNext ≤ (host.ses 0).txLimit
    ∧ ({ host with keys := [(1, { present := true })] } : State).isOwner 0 = false ∧ (host.setReg (aSessMask 0) 0).rb (aSessMask 0) 0 = false := by decide +kernel

/-- A program image: its magic, version, one entry, code of one word at 0x80 and no descriptors. -/
def image1 (major : Nat) : List Byte :=
  natLe 4 0x50534E53 ++ natLe 2 major ++ natLe 2 1 ++ natLe 4 0x80 ++ natLe 4 8 ++ natLe 4 0x100 ++ natLe 4 0 ++ natLe 8 0x100 ++ zeros 32
    ++ natLe 8 0 ++ zeros 56 ++ natLe 8 0 ++ zeros 120

/-- LOAD_PROGRAM: parts that fit and that do not; images accepted, refused, and refused by a check; a context that is idle and active. -/
theorem wit_load_program :
    let p := fun (last off : Nat) (b : List Byte) => natLe 1 15 ++ natLe 1 last ++ zeros 6 ++ natLe 8 off ++ b
    let m := host.fwMajor
    getLe (p 1 0 []) 0 1 = 15 ∧ getLe (p 1 0 []) 1 1 = 1 ∧ getLe (p 2 0 []) 1 1 = 2 ∧ zeroAt (p 1 0 []) 2 6 = true
    ∧ SMap.get ({ host with loads := [(15, image1 m)] } : State).loads [] 15 = image1 m ∧ (image1 m).length = 256
    ∧ SMap.get host.loads [] 15 = [] ∧ getLe (p 0 256 []) 8 8 = 256
    ∧ host.ctxActive 15 = false ∧ host.ctxActive 0 = true ∧ host.ctxEn 15 = false ∧ host.replaying = false ∧ host.imageRefusal (image1 m) = 0
    ∧ host.checkLoad 15 { image := image1 m } = 0
    ∧ ((host.setReg (aCmap 15 0) 0x80000000).setReg (aCmap 15 0 + 4) 0x80000).checkLoad 15 { image := image1 m } ≠ 0 ∧ host.imageRefusal (image1 (m + 1)) = nkUnsupported
    ∧ host.imageRefusal [] = nkMalformed := by decide +kernel

/-- GET_RESULT, RELEASE and CANCEL: results held, released, never issued and not yet committed; tasks alive and committed. -/
theorem wit_result_messages :
    let done := { host with tasks := [], keys := [(1, { present := true, owner := true, lastIssued := 2, lastCommitted := 1, unreleased := [1, 2] })] }
    let rel := fun (asn count : Nat) => natLe 8 asn ++ natLe 4 count ++ zeros 4
    host.task? 1 1 = some task1 ∧ done.task? 1 1 = none ∧ (done.ses 0).key = 1 ∧ 1 ∈ (done.key 1).unreleased ∧ 3 ∉ (done.key 1).unreleased
    ∧ done.lostAt (done.rslotAt 0 1) = false ∧ done.dome.fills = [] ∧ (zeros 16).length = 16 ∧ 64 + 64 ≤ done.maxPay 0
    ∧ (rel 1 1).length = 16 ∧ zeroAt (rel 1 1) 12 4 = true ∧ getLe (rel 1 1) 8 4 = 1
    ∧ ¬ max 1 ((done.key 1).lastCommitted + 1) ≤ min 1 (done.key 1).lastIssued ∧ max 2 ((done.key 1).lastCommitted + 1) ≤ min 2 (done.key 1).lastIssued
    ∧ ¬ max 3 ((done.key 1).lastCommitted + 1) ≤ min 3 (done.key 1).lastIssued ∧ (done.key 1).lastIssued < 3
    ∧ (natLe 8 1).length = 8 ∧ host.recorded task1 = false ∧ 1 ≤ (done.key 1).lastIssued ∧ done.task? 1 0 = none ∧ done.task? 1 3 = none := by
  decide +kernel

/-- CONTROL_RD and CONTROL_WR: the last register, one past the space and an odd address; a write of one word, and of two of which the second
names no register. -/
theorem wit_control_messages :
    let rd := fun (a n : Nat) => natLe 4 a ++ natLe 2 n ++ zeros 6
    let wr := fun (a n : Nat) => natLe 4 a ++ natLe 2 n ++ zeros 2 ++ zeros (4 * n)
    (rd aDevId 1).length = 12 ∧ zeroAt (rd aDevId 256) 6 2 = true ∧ getLe (rd 0x13FFFC 1) 0 4 + 4 * getLe (rd 0x13FFFC 1) 4 2 ≤ 0x140000
    ∧ getLe (rd 0x140000 1) 0 4 % 4 = 0 ∧ 12 ≤ host.maxPay 0 ∧ (host.ses 0).txNext ≤ (host.ses 0).txLimit
    ∧ (wr (aLife 0) 1).length = 12 ∧ (wr (aLife 0) 2).length = 16 ∧ zeroAt (wr (aLife 0) 2) 6 2 = true ∧ host.ctlHeld = false
    ∧ (plainRegs.filter fun e => (regInfo (e.1 + 4)).isNone) ≠ [] ∧ (plainRegs.all fun e => host.mayWrite (.sess 0) e.1 0) = true
    ∧ host.rb (aDet 0x100) 1 = false ∧ regInfo 0x3000 = none
    ∧ ({ host with keys := [(1, { present := true })] } : State).mayWrite (.sess 0) aDevCtl 0 = false := by decide +kernel

/-- SIGNAL and START_AT: each refusal and what passes; the boundaries of the lead time and of the list. -/
theorem wit_signal_messages :
    let partner := { host with keys := [(1, { present := true })] }.setReg (aSessMask 0) 0
    let lock := (host.setReg aPortStatus 0x80).setReg aPortCfg 0
    let full := { lock with starts := List.replicate 64 { tick := 5, ctx := 0, vc := 0, value := 1 } }
    SignalBad host 0 0 0 0 true nkMalformed ∧ SignalBad host 0 16 0 1 true nkMalformed ∧ SignalBad host 0 15 0 1 true nkCtxDisabled
    ∧ SignalBad host 0 0 4096 1 true nkPermission ∧ SignalBad partner 0 0 0 1 true nkPermission
    ∧ SignalGood host 0 0 0 1 true 0 ∧ lock.rb aPortStatus 7 = true ∧ lock.rb aPortCfg 3 = false ∧ host.rb aPortStatus 7 = false
    ∧ lock.untilPtp 9999 < 10000 ∧ 10000 ≤ lock.untilPtp 10000 ∧ lock.starts.length < 64 ∧ 64 ≤ full.starts.length ∧ lock.groupFormed = false := by
  intro partner lock full
  refine ⟨?_, ?_, ?_, ?_, ?_, ?_, by decide +kernel, by decide +kernel, by decide +kernel, by decide +kernel, by decide +kernel, by decide +kernel,
    by decide +kernel, by decide +kernel⟩
  · exact Or.inl ⟨by decide, rfl⟩
  · exact Or.inl ⟨by decide, rfl⟩
  · exact Or.inr (Or.inr (Or.inl ⟨by decide, Or.inl (by decide +kernel), by decide +kernel, rfl⟩))
  · refine Or.inr (Or.inr (Or.inr ⟨by decide, Or.inl (by decide +kernel), by decide +kernel, ?_, rfl⟩))
    intro q h
    have e : host.translate 0 4096 = none := by decide +kernel
    rw [e] at h; cases h
  · exact Or.inr (Or.inl ⟨by decide, by unfold State.mayUse; decide +kernel, rfl⟩)
  · exact ⟨by decide, by decide, rfl, Or.inl (by decide +kernel), by decide +kernel, by decide +kernel⟩

/-- A group of two formed devices, of rank 0, with the session of rank 1 open. -/
def grp : State :=
  let s := (host.setReg (aPeer 0x14) 0x80000000).setReg (aPeer 0x04) 0x10000
  s.setSes 17 { isOpen := true, epoch := 1, txLimit := 64, rxLimit := 64 }

/-- START_AT with FANOUT in a formed group; timed starts in order and not; telemetry; the session's owner and the place of an update. -/
theorem wit_starts_telemetry_firmware :
    let two := { host with starts := [{ tick := 5, ctx := 0, vc := 0, value := 1 }, { tick := 4, ctx := 0, vc := 4096, value := 1 }] }
    let tel := host.setSes 0 { host.ses 0 with telPeriod := 1000000, telDue := 5 }
    let fw := fun (off last n : Nat) => natLe 8 off ++ natLe 4 last ++ zeros 4 ++ zeros n
    grp.groupFormed = true ∧ grp.otherRanks = [1] ∧ (grp.ses 17).isOpen = true
    ∧ two.starts[0]? ≠ none ∧ two.starts[2]? = none ∧ two.starts.any (fun y => y.tick < 5) = true ∧ two.starts.all (fun y => 4 ≤ y.tick) = true
    ∧ two.translate 0 0 = some (.ctr 0) ∧ two.translate 0 4096 = none
    ∧ (tel.ses 0).telPeriod ≠ 0 ∧ (host.ses 0).telPeriod = 0 ∧ (tel.ses 0).txNext ≤ (tel.ses 0).txLimit ∧ (natLe 8 1000000 ++ natLe 4 15).length = 12
    ∧ zeroAt (fw 0 0 4096) 12 4 = true ∧ ((fw 0 0 4096).drop 16).length ≤ 4096 ∧ getLe (fw 4096 1 64) 8 4 = 1
    ∧ host.isOwner 0 = true ∧ (quietIn 3).devState = stReady ∧ (quietIn 6).devState = stRecovery ∧ (quietIn 5).devState = stMaint
    ∧ host.devState ≠ stReady ∧ host.devState ≠ stMaint
    ∧ ({ quietIn 3 with boot := { trained := true, updOwner := some 0, updNext := 4096, updHead := zeros 4096 } } : State).boot.updHead.length ≤ 4096 := by
  decide +kernel

/-! Accepted work. -/

/-- A SUBMIT payload with one buffer: token, flags, RESULT_MAX, buffer address and length, kind. -/
def sub (token flags rmax addr len kind : Nat) : List Byte :=
  zeros 2 ++ natLe 2 flags ++ zeros 4 ++ natLe 8 token ++ natLe 8 0x20000 ++ natLe 4 1 ++ natLe 1 1 ++ zeros 11 ++ natLe 4 rmax ++ zeros 4
    ++ natLe 8 addr ++ natLe 6 len ++ natLe 1 kind ++ zeros 1

/-- SUBMIT: full and not; formed and not; a known token in a task accepted and not; tokens not new; states, contexts and buffers that stop it;
each check of SUBMIT; a result slot too small, busy and free. -/
theorem wit_submit :
    let p := sub 2 0 0 0 64 0
    let s := { host with keys := [(1, { present := true, owner := true, lastIssued := 1, tokenAccepted := 1, unreleased := [1] })] }
    let b := subBufs p
    subOk p = true ∧ subOk [] = false ∧ p.length = 0x40 ∧ s.replaying = false ∧ s.tasks.length < 262144 ∧ s.journal.mirroring = false
    ∧ ({ s with journal := { mirroring := true } } : State).journal.mirroring = true
    ∧ (s.tasks.find? fun (y : Task) => y.key == 1 && y.token == 1) = some task1 ∧ task1.accepted = true
    ∧ (s.tasks.find? fun (y : Task) => y.key == 1 && y.token == 2) = none ∧ getLe p 8 8 = 2 ∧ (s.key 1).tokenAccepted < 2
    ∧ getLe (sub 1 0 0 0 64 0) 8 8 ≤ (s.key 1).tokenAccepted ∧ s.isOwner 0 = true ∧ s.devState = stRun ∧ s.rb aDevCtl 0 = true
    ∧ s.journal.single = false ∧ s.ctxEn 0 = true ∧ s.rb (aCtxStatus 0) 2 = false ∧ (s.setReg aDevCtl 0).rb aDevCtl 0 = false
    ∧ (b.all fun x => s.winValid 0 0 && decide (s.winBase 0 0 ≤ x.addr) && decide (x.addr + x.len ≤ s.winBase 0 0 + s.winLen 0 0)
        && s.winGrants 0 0 (if x.kind = 0 then .rd else .wr)) = true
    ∧ s.subCode p = 0 ∧ s.subCode (sub 2 4 0 0 64 0) ≠ 0 ∧ 64 ≤ s.rslotSize 0 ∧ s.rslotSize 0 < getLe (sub 2 0 0xFFFFFF 0 64 0) 0x28 4 + 64
    ∧ ((s.key 1).unreleased.filter fun a => a % s.rslots 0 == ((s.key 1).lastIssued + 1) % s.rslots 0) = []
    ∧ ([2 - s.rslots 0, 2 + s.rslots 0].filter fun a => a % s.rslots 0 == 2 % s.rslots 0) ≠ [] := by decide +kernel

/-- A SUBMIT that every check lets pass, in its turn, in a session that held it. -/
theorem wit_admissible :
    let p := sub 2 0 0 0 64 0
    let u := { msg tySubmit p { host with keys := [(1, { present := true, owner := true })] } with tasks := [] }
    let s := u.setSes 0 { u.ses 0 with held := true }
    turn u tySubmit p = true ∧ Admissible u 0 p ∧ (s.ses 0).held = true ∧ s.works = true ∧ s.replaying = false
    ∧ s.tasks.length < 262144 ∧ s.journal.mirroring = false ∧ (quietIn 6).works = false := by
  intro p u s
  refine ⟨by decide +kernel, ⟨by decide +kernel, by decide +kernel, ?_, by decide +kernel, by decide +kernel, by decide +kernel,
    by decide +kernel, by decide +kernel, by decide +kernel⟩, by decide +kernel, by decide +kernel, by decide +kernel, by decide +kernel,
    by decide +kernel, by decide +kernel⟩
  unfold State.mayUse; decide +kernel

/-- No window reaches above the first 4 GiB: a buffer there is not covered. -/
theorem wit_submit_uncovered :
    ∃ b ∈ subBufs (sub 2 0 0 (2 ^ 32 - 1) 2 1), (List.range 64).all (fun w => !host.winCovers 0 w b.addr b.len) = true := by decide +kernel

/-- Held submissions, journal writes, mirroring, and tasks that are due to commit and not. -/
theorem wit_commit :
    let m : Msg := { seq := 1, typ := tySubmit, payload := sub 2 0 0 0 64 0, arrival := 1 }
    let held := (msg tySubmit m.payload).setSes 0 { (msg tySubmit m.payload).ses 0 with held := true }
    let new := { msg tySubmit m.payload with tasks := [{ task1 with accepted := false }] }
    let done := fun (t : Task) => ({ host with tasks := [{ t with ended := true }] } : State)
    (∃ y ∈ ({ host with tasks := [{ task1 with accepted := false }, { task1 with asn := 2, accepted := false }] } : State).tasks,
      y.key = 1 ∧ y.accepted = false ∧ y.asn < 2)
    ∧ (held.ses 0).held = true ∧ (held.ses 0).isOpen = true ∧ (held.ses 0).head? = some m ∧ (host.ses 0).head? = none ∧ m.typ = tySubmit
    ∧ new.task? 1 1 = some { task1 with accepted := false } ∧ new.fanouts = [] ∧ new.journal.mirroring = false ∧ (new.ses 0).rxBuf = [m] ∧ task1.seq = 1
    ∧ m.seq = (new.ses 0).rxDone + 1 ∧ (new.ses 0).txNext ≤ (new.ses 0).txLimit ∧ host.task? 1 1 = some task1 ∧ host.task? 15 1 = none
    ∧ ({ host with journal := { mirroring := true } } : State).journal.mirroring = true
    ∧ host.slotOfKey 1 = some 0 ∧ host.slotOfKey 15 = none ∧ (done task1).task? 1 1 = some { task1 with ended := true }
    ∧ 1 = ((done task1).key 1).lastCommitted + 1 ∧ (done task1).ops = [] ∧ task1.ended = false ∧ task1.log = []
    ∧ (done { task1 with status := some (0x0100, 1) }).task? 1 1 = some { task1 with status := some (0x0100, 1), ended := true }
    ∧ (done { task1 with late := true }).task? 1 1 = some { task1 with late := true, ended := true } := by decide +kernel

/-- The result slot of the task lies in memory, or not. -/
theorem wit_result_slot :
    let s := (host.setReg (aSess 0 0x010) 0x40000).setReg (aSess 0 0x014) 0
    s.calm ∧ s.access 0 (s.rslotAt 0 1 + 8) 56 .wr = .ok ∧ s.access 0 (s.rslotAt 0 1) 8 .wr = .ok
    ∧ s.unbackedAt (s.rslotAt 0 1) = false ∧ s.lostAt (s.rslotAt 0 1) = false ∧ s.rslotAt 0 1 % 4096 + 64 ≤ 4096
    ∧ (host.setReg (aSess 0 0x014) 0xFFFF).unbackedAt ((host.setReg (aSess 0 0x014) 0xFFFF).rslotAt 0 1) = true
    ∧ s.devState = stRun ∧ (s.setReg aDevCtl 0).rb aDevCtl 0 = false := by unfold State.calm; decide +kernel

/-! Exchanges. -/

/-- A version record of a distributed table: 4 rows of 32 values, owner of index i is i modulo the group. -/
def distTab (eager : Nat) : List Byte :=
  putBytes (putBytes (tab ++ zeros 64) 0x40 [2, BitVec.ofNat 8 eager, 2]) 0x48 (natLe 8 8)
/-- An EXCHANGE descriptor of a kind over table 0, one row. -/
def xD (kind : Nat) : List Byte :=
  desc [(0, 1, 5), (5, 1, 12), (8, 8, storeBase), (0x10, 8, if kind = 1 then storeBase + 0x1000 else storeBase), (0x18, 4, 1), (0x1C, 4, 128), (0x2A, 1, kind)]
/-- The exchange of such a stream; started with rank 1 due. -/
def exch0 (kind : Nat) (on : Bool) : Exch :=
  { op := op0 0x5D 0 (xD kind), kind := kind, table := 0, batch := 0, gen := 1, record := distTab 0, started := on, due := if on then [1] else [] }
/-- Stream 0 in a pass of an EXCHANGE arm of this kind. -/
def xStrm (kind row : Nat) : Strm :=
  { desc := xD kind, arm := op0 0x5D 0 (xD kind), home := 0, held := 8192, state := 2, passOn := true, row := row }
/-- A device in its group with that stream and its exchange. -/
def xWork (kind : Nat) (on : Bool := false) (s : State := grp) (row : Nat := 1) : State :=
  { s with streams := [(0, xStrm kind row)], exch := [exch0 kind on], tables := [(0, { owner := 0, versions := [{ gen := 1, bytes := distTab 0 }] })], opSeq := 5 }

/-- Arm, as a Bool, for stream 0. -/
def armed (s : State) (kind : Nat) (x : Strm) (e : Exch) : Bool :=
  s.strm? 0 == some x && x.state == 2 && x.passOn && sdIsX x.desc kind && s.exch? x.arm.id == some e && !e.started

theorem arm_of {s : State} {kind : Nat} {x : Strm} {e : Exch} (h : armed s kind x e = true) : Arm s 0 kind x e := by
  simp only [armed, Bool.and_eq_true, beq_iff_eq, Bool.not_eq_true'] at h
  obtain ⟨⟨⟨⟨⟨h1, h2⟩, h3⟩, h4⟩, h5⟩, h6⟩ := h
  exact ⟨h1, h2, h3, h4, h5, h6⟩

/-- Exchanges of each kind in a formed group and in none, with a rank that is reached and one that is not. -/
theorem wit_exchange_streams :
    ([1, 2, 3, 4].all fun k => armed (xWork k) k (xStrm k 1) (exch0 k false) && armed (xWork k false host) k (xStrm k 1) (exch0 k false)
        && failable (xWork k) 1 1 && failable (xWork k false host) 1 1) = true
    ∧ tdHot (distTab 0) = 0 ∧ grp.groupFormed = true ∧ host.groupFormed = false ∧ grp.myRank = 0 ∧ grp.groupSize = 2 ∧ (grp.ses 17).isOpen = true
    ∧ (grp.ses 18).isOpen = false ∧ (match (xWork 1).xIndices (exch0 1 false) (sdSrc (xD 1)) with | .ok (l, u) => l == [some 0] && (u.ses 17).isOpen | .error _ => false) = true
    ∧ (match (xWork 2).xIndices (exch0 2 false) (sdDst (xD 2)) with | .ok (_, u) => (u.ses 17).isOpen && !(u.ses 18).isOpen | .error _ => false) = true
    ∧ (xWork 2).passRows (xStrm 2 1) ≤ 1 ∧ 0 < (xWork 2).passRows (xStrm 2 0)
    ∧ (xWork 2).xVersion 0 1 = some (0, distTab 0) ∧ vrEager (distTab 0) = false ∧ (xWork 2).applied = [] ∧ (xWork 2).rounds = [] := by
  decide +kernel

/-- grp where the session of rank 1 has reached its message 1 with this payload. -/
def pmsg (p : List Byte) (s : State := xWork 2) : State :=
  s.setSes 17 { s.ses 17 with rxBuf := [{ seq := 1, typ := tyExchange, payload := p, arrival := 1 }] }
/-- PeerTurn, as a Bool, for message 1 of rank 1. -/
def pturn (s : State) (p : List Byte) : Bool :=
  (s.ses 17).isOpen && (s.ses 17).rxDone == 0 && (s.ses 17).rxBuf == [{ seq := 1, typ := tyExchange, payload := p, arrival := 1 }]
    && s.inTurn { who := .peer 1, seq := 1 } && !s.waits { who := .peer 1, seq := 1 } && s.fanouts.isEmpty

theorem pturn_of {s : State} {p : List Byte} (h : pturn s p = true) : PeerTurn s 1 1 p := by
  simp only [pturn, Bool.and_eq_true, beq_iff_eq, Bool.not_eq_true', List.isEmpty_iff] at h
  obtain ⟨⟨⟨⟨⟨h1, h2⟩, h3⟩, h4⟩, h5⟩, h6⟩ := h
  exact ⟨h1, by rw [show 16 + 1 = 17 from rfl, h2], ⟨1, h3⟩, h4, h5, h6⟩

/-- A part: XID, kind, flags, table, generation, count and body. -/
def part (xid kind flags table count : Nat) (b : List Byte := []) : List Byte :=
  ({ xid := xid, kind := kind, flags := flags, table := table, batch := 0, gen := 1, count := count, first := 0, body := [] } : PartMsg).head 1 ++ b

/-- One row of 32 zeros for index 0, as entry and as reply. -/
def entry0 : List Byte := entryBytes (0, List.replicate 32 0)

/-- Messages of each kind: for a table that is there and one that is not, bodies that are good and bad, an XID known and unknown, each flag. -/
theorem wit_parts :
    let on := fun k => xWork k true
    let xid := (on 2).xidOf (exch0 2 true)
    ([1, 2, 3, 0x81, 0x82, 0x83].all fun k => pturn (pmsg (part 0 k 1 0 0)) (part 0 k 1 0 0) && (partOf (part 0 k 1 0 0)).kind == k) = true
    ∧ (grp.setReg aDevStatus 6).devState = stRecovery ∧ grp.devState ≠ stRecovery
    ∧ (xWork 2).xVersion 7 1 = none ∧ (xWork 2).xVersion 0 1 = some (0, distTab 0) ∧ grp.myRank ≠ 1
    ∧ unpack 32 1 (partOf (part 0 1 1 0 1 (natLe 4 1))).body = [1] ∧ (xWork 2).ownIndex (distTab 0) 1 = none
    ∧ (match (xWork 2).serveOwn 0 (distTab 0) [1] with | .ok _ => true | .error _ => false) = true
    ∧ (on 1).exchOfXid xid = some (exch0 1 true) ∧ (on 2).exchOfXid xid = some (exch0 2 true) ∧ (on 2).exchOfXid (xid + 1) = none
    ∧ failable (on 2) 1 1 = true ∧ (exch0 1 true).due = [1] ∧ takeBlocks 1 32 [] = none ∧ (takeBlocks 1 32 (entry0.drop 8)).isSome = true
    ∧ (takeEntries 1 32 entry0).isSome = true ∧ takeEntries 1 32 [] = none ∧ tdDim (distTab 0) = 32
    ∧ nbit (partOf (part 0 0x82 4 0 0)).flags 2 = true ∧ nbit (partOf (part 0 0x82 8 0 0)).flags 3 = true
    ∧ nbit (partOf (part 0 0x82 16 0 0)).flags 4 = true ∧ (partOf (part 0 2 0 0 0)).last = false
    ∧ (([{ table := 0, gen := 1, batch := 0, hot := [], lost := false }] : List Applied).find? fun a => a.table == 0 && a.gen == 1 && a.batch == 0).isSome = true := by
  decide +kernel

/-- An exchange's index lists, in a Spire's store and in memory; a row of this device's share of a table, where it can be served. -/
theorem wit_lists_and_rows :
    let s := xWork 2
    let r := s.rowNamed (distTab 0) 0 { pos := 0, unit := 0, idx := 0, hot := false }
    s.listReads (exch0 1 false) storeBase ∧ s.listReads (exch0 1 false) 0x1000 ∧ s.calm
    ∧ s.listOf (exch0 1 false) storeBase = [some 0] ∧ s.ownIndex (distTab 0) 0 = some 0 ∧ s.ownIndex (distTab 0) 1 = none
    ∧ tdSketchEn (distTab 0) = false ∧ s.unitAt (homeAddr (distTab 0) 0) = some 0 ∧ r.addr = 0x100000
    ∧ s.rowStands 0 0 (distTab 0) { pos := 0, unit := 0, idx := 0, hot := false } := by
  simp only [State.listReads, State.calm, State.rowStands, State.granted, State.lineGood]; decide +kernel

/-- A round of which both parts have arrived. -/
def round0 : Round :=
  { table := 0, gen := 1, batch := 0, set := false, parts := [{ rank := 0, xid := 4, last := true }, { rank := 1, xid := 5, last := true, entries := [(0, [])] }] }

/-- Rounds that are full and not; parts of one round in another order. -/
theorem wit_rounds :
    let s := { grp with rounds := [round0], tables := (xWork 2).tables }
    (s.rounds.find? fun (ro : Round) => ro.table == 0 && ro.gen == 1 && ro.batch == 0 && s.roundFull ro) = some round0 ∧ s.groupFormed = true ∧ s.exch = []
    ∧ s.roundFull { round0 with parts := round0.parts.take 1 } = false ∧ s.xVersion 0 1 ≠ none ∧ s.xVersion 7 1 = none
    ∧ (1, 5) ∈ round0.asks ∧ s.myRank ≠ 1 ∧ (s.ses 17).isOpen = true
    ∧ round0.parts.isPerm (round0.parts.reverse) = true ∧ (round0.parts.map fun (p : UPart) => p.rank).Nodup := by decide +kernel

/-! Faults. -/

/-- Links and units that are not; memory and no memory; tasks with retries left and none; lines dirty and clean, bad and good; records open
and closed. -/
theorem wit_faults :
    let old := fun (n : Nat) => ({ live with tasks := [{ task1 with retries := n }] } : State)
    let e : ErrRec := { first := 0, originTick := 0, last := 0, seq := 3, rootSeq := 3, echo := 0, origin := 0, reporter := 0, cls := 4, isOpen := true,
                        root := true, persist := false, status := 0, detail := 0, ctx := 0, key := 0, asn := 0, addr := 0, body := [], cluster := 0 }
    (0x560 ≤ 0x577 ∧ 0x577 < 0x578) ∧ (0x520 ≤ 0x52F ∧ 0x52F < 0x530) ∧ 0x596 ∈ [0x592, 0x593, 0x596] ∧ 0x594 ∉ [0x592, 0x593, 0x596]
    ∧ unitSpire 0x596 = none ∧ unitSpire 0x577 = none ∧ failable (old 1) 1 1 = true ∧ failable (old 2) 1 1 = true ∧ failable live 2 1 = false
    ∧ live.tierAt 0 = true ∧ live.tierAt (2 ^ 60) = false ∧ task1.owns 0 = false
    ∧ ({ task1 with bufs := [{ addr := 0, len := 64, kind := 2 }] } : Task).bufs ≠ [] ∧ live.task? 9 1 = none
    ∧ lineWork.findWay 0 = some 0 ∧ live.findWay 0 = none
    ∧ SMap.find lineWork.dome.lines (wayKey 0 0) = some { tag := 0, dirty := true, stamp := 1 }
    ∧ lineWork.heldGood 0 = true ∧ live.heldGood 0 = false
    ∧ live.pins.nearSelfRefresh = false ∧ live.badBytes = [] ∧ live.stops = [] ∧ 1 < live.failLimit
    ∧ (({ live with errs := [e] } : State).errs.find? fun (x : ErrRec) => x.isOpen) = some e ∧ (live.errs.find? fun (x : ErrRec) => x.isOpen) = none := by
  decide +kernel

/-- The journal outlives a fault of a unit: with both copies standing, whatever the unit; with one copy, a unit that does not hold it. -/
theorem wit_journal_stays : (∀ u, live.journalStays u) ∧ ({ live with journal := { single := true, a := 1, b := 1 } } : State).journalStays 0x570 :=
  ⟨fun _ => Or.inr (Or.inl (by decide)), Or.inr (Or.inr (by decide))⟩

/-! Results worked out by hand from the manual's tables. -/

/-- Core 0 after it executes i with r2 = b and r3 = c. -/
def after (i : Instr) (b c : W64) : Core :=
  match exec i (on i { g := [(2, b), (3, c)] }) with
  | .next t => t.coreOf k0
  | _ => {}
/-- Register r1 then. -/
def result (i : Instr) (b c : W64) : W64 := (after i b c).rd 1

/-- R452: wrapping sums, the corners of division, high halves of products, shift amounts modulo 64, and signed order. -/
theorem test_integer_results :
    result (.add k0 g0 1 2 3) (-1) 2 = 1 ∧ result (.sub k0 g0 1 2 3) 0 1 = -1 ∧ result (.divu k0 g0 1 2 3) 7 0 = -1
    ∧ result (.div k0 g0 1 2 3) 7 0 = -1 ∧ result (.remu k0 g0 1 2 3) 7 0 = 7 ∧ result (.rem k0 g0 1 2 3) (-7) 0 = -7
    ∧ result (.div k0 g0 1 2 3) (2 ^ 63) (-1) = 2 ^ 63 ∧ result (.rem k0 g0 1 2 3) (2 ^ 63) (-1) = 0 ∧ result (.div k0 g0 1 2 3) (-7) 2 = -3
    ∧ result (.rem k0 g0 1 2 3) (-7) 2 = -1 ∧ result (.mulhu k0 g0 1 2 3) (-1) 2 = 1 ∧ result (.mulh k0 g0 1 2 3) (-1) 2 = -1
    ∧ result (.sra k0 g0 1 2 3) (-8) 1 = -4 ∧ result (.shr k0 g0 1 2 3) (-8) 1 = 0x7FFFFFFFFFFFFFFC ∧ result (.min k0 g0 1 2 3) (-1) 1 = -1
    ∧ result (.minu k0 g0 1 2 3) (-1) 1 = 1 ∧ result (.popc k0 g0 1 2) 0xF0 0 = 4 ∧ result (.clz k0 g0 1 2) 1 0 = 63
    ∧ (after (.add k0 g0 0 2 3) 1 2).rd 0 = 0 ∧ (after (.add k0 g0 1 2 3) 1 2).pc = 8 := by decide +kernel

/-- R457–R460: a sum, a tie to even, the quiet NaN, one rounding of ffma, conversions and their saturation, in FP32 and BF16. -/
theorem test_float_results :
    result (.fadd k0 g0 false 1 2 3) 0x3F800000 0x3F800000 = 0x40000000 ∧ result (.fadd k0 g0 false 1 2 3) 0x4B800000 0x3F800000 = 0x4B800000
    ∧ result (.fadd k0 g0 false 1 2 3) 0x4B800000 0x40400000 = 0x4B800002 ∧ result (.fsub k0 g0 false 1 2 3) 0x7F800000 0x7F800000 = 0x7FC00000
    ∧ result (.fmul k0 g0 false 1 2 3) 0x00000001 0x3F000000 = 0 ∧ result (.fdiv k0 g0 false 1 2 3) 0x3F800000 0 = 0x7F800000
    ∧ result (.fadd k0 g0 true 1 2 3) 0x3F80 0x3B80 = 0x3F80 ∧ result (.fsqrt k0 g0 false 1 2) 0x40800000 0 = 0x40000000
    ∧ result (.fcvtLS k0 g0 1 2) 0x40200000 0 = 2 ∧ result (.fcvtLS k0 g0 1 2) 0x40600000 0 = 4 ∧ result (.fcvtLS k0 g0 1 2) 0x7F800000 0 = 2 ^ 63 - 1
    ∧ result (.fcvtLS k0 g0 1 2) 0x7FC00000 0 = 0 ∧ result (.fcvtSL k0 g0 1 2) (-1) 0 = 0xBF800000
    ∧ result (.fcvtBfS k0 g0 1 2) 0x3F808000 0 = 0x3F80 ∧ result (.fcvtSBf k0 g0 1 2) 0x3F80 0 = 0x3F800000
    ∧ (fp32.decode 0x3F800000).isFin = true ∧ (fp32.decode 0x7FC00000).isNaN = true ∧ (bf16.decode 0x7FC0).isNaN = true := by decide +kernel

/-- R470, R471: jal keeps the address of the next instruction, and branches go by their offset. -/
theorem test_branches :
    (after (.jal k0 g0 1 16) 0 0).pc = 16 ∧ result (.jal k0 g0 1 16) 0 0 = 8 ∧ (after (.jr k0 g0 2 8) 32 0).pc = 40
    ∧ (after (.bcc k0 g0 .eq 2 3 24) 5 5).pc = 24 ∧ (after (.bcc k0 g0 .eq 2 3 24) 5 6).pc = 8 ∧ (after (.bcc k0 g0 .ltu 2 3 24) (-1) 0).pc = 8
    ∧ (after (.bcc k0 g0 .lt 2 3 24) (-1) 0).pc = 24 := by decide +kernel

/-! The state after reset. -/

/-- The state after reset meets the invariant, and a step from it answers. -/
theorem test_reset_canonical : State.reset.Canonical ∧ step State.reset = .next State.reset.idle := ⟨⟨by decide, by decide⟩, rfl⟩

/-! What the second look at the statements added: engine results, denied accesses, waking, shares, and what else changed. -/

/-- Operation 1 with this descriptor, under way in work with bytes at the start of the Spire's store. -/
def opOf (opc : Nat) (d : List Byte) : Op := { op0 opc 0 d with started := true }
def opWork (opc : Nat) (d : List Byte) (m : List Byte := []) : State :=
  { work with ops := [opOf opc d], mem := Mem.writeN work.mem storeBase m }

theorem doing_of {s : State} (h : s.works = true) (opc : Nat) (d : List Byte) (m : Mem) :
    Doing { s with ops := [opOf opc d], mem := m } 1 (opOf opc d) opc := ⟨h, rfl, rfl, rfl⟩

theorem doing_opWork (opc : Nat) (d m : List Byte) : Doing (opWork opc d m) 1 (opOf opc d) opc :=
  doing_of (by decide +kernel : work.works = true) opc d _

/-- qscan's descriptor on one row of 32: mode, formats, flags, group size. -/
def qsD (m sf tf fl gs : Nat) : List Byte :=
  desc [(0, 1, m), (1, 1, sf), (2, 1, tf), (3, 1, fl), (4, 2, gs), (8, 8, storeBase), (0x10, 4, 1), (0x14, 2, 32)]
/-- qconv's, to FP4 with a promotion buffer. -/
def qcD1 : List Byte :=
  desc [(0, 1, 9), (2, 1, 1), (6, 2, 32), (8, 8, storeBase), (0x10, 8, storeBase + 0x1000), (0x18, 8, storeBase + 0x2000), (0x30, 4, 1), (0x34, 4, 32),
    (0x38, 8, storeBase + 0x3000)]

/-- qscan in each mode on sources of zeros, of one value, of two, and with an infinity; group scales; scale registers of each kind; a qconv. -/
theorem wit_quantiser :
    let s := fun (d : List Byte) (m : List Byte) => opWork 0x58 d m
    let l := fun (tf : Nat) (m : List Byte) => (List.range 32).map ((s (qsD 0 9 tf 0 0) m).valAt 9 storeBase)
    let k := fun (v tag : Nat) => (s (qsD 1 0 0 0 0) []).setScale (opOf 0x58 (qsD 1 0 0 0 0)) 0 { value := v, tag := tag }
    let ones := (List.range 32).flatMap fun _ => natLe 4 0x3F800000
    let two := natLe 4 0xBF800000 ++ natLe 4 0x40000000
    ([qsD 0 9 0 0 0, qsD 0 9 2 2 0, qsD 0 9 0 1 32, qsD 0 9 5 3 128, qsD 1 0 6 0 0, qsD 2 0 0 0 0, qsD 3 0 0 0 0].all
        fun d => (s d []).qscanOk (opOf 0x58 d)) = true
    ∧ (l 0 [] = List.replicate 32 0 ∧ IsAmax (List.replicate 32 0) 0)
    ∧ (l 0 ones = List.replicate 32 0x3F800000 ∧ IsAmax (List.replicate 32 0x3F800000) 0x3F800000 ∧ (0x3F800000 : Nat) ≠ infF)
    ∧ l 2 two = [0xBF800000, 0x40000000] ++ List.replicate 30 0 ∧ IsAmax ([0xBF800000, 0x40000000] ++ List.replicate 30 0) 0x40000000
    ∧ (ltF 0xBF800000 0x40000000 = true ∧ ltF 0xBF800000 0 = true ∧ ltF 0 0x40000000 = true)
    ∧ IsAmax [0x7F800000, 0x7FC00000] infF
    ∧ ((k 0 1).scale (opOf 0x58 (qsD 1 0 0 0 0)) 0).kind = true ∧ ((k 0 1).scale (opOf 0x58 (qsD 1 0 0 0 0)) 0).value = 0
    ∧ ((k 0x40000000 1).scale (opOf 0x58 (qsD 1 0 0 0 0)) 0).value = 0x40000000 ∧ ((k 0 0).scale (opOf 0x58 (qsD 1 0 0 0 0)) 0).kind = false
    ∧ (opWork 0x59 qcD1 []).qconvOk (opOf 0x59 qcD1) = true ∧ ((opWork 0x59 qcD1 []).scale (opOf 0x59 qcD1) 0).kind = false ∧ qcPromo qcD1 = true
    ∧ ((opWork 0x59 qcD1 []).setReg aQntCtl 0).rf aQntCtl 0 12 * 1 < 4096 * 1 ∧ qcCnt qcD1 ≠ 0 ∧ 0 < work.rf (aCtx 0 0x010) 8 6 := by
  unfold IsAmax; decide +kernel

/-- agg's descriptor on two rows of 32 FP32 values and two segments. -/
def agD2 (op func fl : Nat) : List Byte := putBytes (putBytes (putBytes (aggD op func 9) 0x28 (natLe 4 2)) 0x2C (natLe 4 2)) 4 (natLe 2 fl)

/-- The aggregate unit accepts each operation; offsets that rise, that leave a segment empty, and that do not; an INT32 reduction; causal and
first forms; an optstep of each gradient format. -/
theorem wit_aggregate_unit :
    let ok := fun (d : List Byte) => (opWork 0x54 d).aggOk (opOf 0x54 d)
    let os := fun (f first : Nat) => desc [(0, 1, f), (1, 1, first), (4, 4, 32), (8, 8, storeBase), (0x10, 8, storeBase + 0x1000), (0x18, 8, storeBase + 0x2000),
      (0x20, 8, storeBase + 0x3000), (0x38, 4, 1)]
    let int := putBytes (agD2 1 1 0) 2 [10, 10]
    let offs := fun (l : List Nat) (k : Nat) => l.getD k 0
    ([1, 2, 3, 4].all fun f => ok (agD2 1 f 0) && ok (agD2 2 f 0)) = true ∧ ok (agD2 1 5 1) = true ∧ ok (agD2 2 5 0) = true ∧ ok int = true
    ∧ ([0x10, 0x11, 0x12, 0x13, 0x14].all fun o => ok (if o = 0x10 then putBytes (agD2 o 0 10) 3 [8] else agD2 o 0 8)) = true
    ∧ ok (putBytes (agD2 0x10 0 0) 3 [8]) = true ∧ agS int = 10 ∧ agD int = 10 ∧ agCausal (agD2 0x10 0 10) = true ∧ agFirst (agD2 0x10 0 10) = true
    ∧ offsetsRise (offs [0, 1, 2]) 2 2 ∧ offsetsRise (offs [0, 0, 2]) 2 2 ∧ ¬ offsetsRise (offs [0, 3, 2]) 2 2 ∧ failable (opWork 0x54 (agD2 1 1 0)) 1 1 = true
    ∧ (opWork 0x55 (os 6 0)).optOk (opOf 0x55 (os 6 0)) = true ∧ (opWork 0x55 (os 0 1)).optOk (opOf 0x55 (os 0 1)) = true := by
  unfold offsetsRise; decide +kernel

/-- A tile of an mma that brings its products alone, and a panel for spcmp. -/
theorem wit_array_values :
    let d := putBytes mmaD 2 [9]
    let x : Tile := { cls := 1, fmt := mmW d, kl := 128, ref := 0, gscale := false, body := zeros 8192, k0 := 0, t := 0 }
    let s : State := { opWork 0x50 d with arr := [(1, { started := true, tiles := [x], loaded := 1, act := storeBase })] }
    let p := fun (fl : Nat) => desc [(0, 1, 3), (1, 1, fl), (4, 4, 1), (8, 8, storeBase), (0x10, 8, storeBase + 0x8000), (0x20, 8, storeBase + 0x20000)]
    (∃ ws, PlainTile s (opOf 0x50 d) x ws) ∧ s.arrayOp 0 = some (opOf 0x50 d) ∧ mmAzpt d = false ∧ mmZout d = 0 ∧ mmO d = 9 ∧ 128 ≤ mmN d
    ∧ (opWork 0x52 (p 0)).spcmpOk (opOf 0x52 (p 0)) = true ∧ (opWork 0x52 (p 6)).spcmpOk (opOf 0x52 (p 6)) = true ∧ spMask (p 6) = false
    ∧ overlaps (spDst (p 0)) (spRoom (p 0)) (spLen (p 0)) 8 = false := by
  intro d x s p
  have hl : ∀ w n (l : List Byte), w = 4 → 2 * l.length = n → (unpack w n l).length = n := by
    rintro w n l rfl h
    have e : ceilDiv (2 * l.length * 4) 8 = l.length := by unfold ceilDiv; omega
    simp only [unpack, ← h, e]
    simp; omega
  refine ⟨⟨unpack 4 16384 (zeros 8192), ⟨⟨by decide, by rfl, hl _ _ _ rfl (by rw [zeros, List.length_replicate])⟩, by decide +kernel, by decide +kernel, by decide +kernel,
    by decide +kernel, Or.inl rfl⟩⟩, by decide +kernel, by decide +kernel, by decide +kernel, by decide +kernel, by decide +kernel, by decide +kernel,
    by decide +kernel, by decide +kernel, by decide +kernel⟩

/-- Denied accesses of dld and dst; a trace entry that goes to memory and one that is dropped. -/
theorem wit_denied_and_traced :
    ([Instr.dld k0 g0 .dev 1 2 0, .dst k0 g0 .dev 1 2 0].all fun i =>
      let s := on i (memCore (2 ^ 32))
      ready s i k0 g0 item1 && failable s 1 1 && s.access 0 (2 ^ 32) 64 .rd == .denied 0xFFFF && s.access 0 (2 ^ 32) 64 .wr == .denied 0xFFFF
        && decide (s.addrOf k0 2 0 = 2 ^ 32)) = true
    ∧ (let i := Instr.trace k0 g0 2 7
       let s := fun (hi : W32) => on i {} ((live.setReg (aCtx 0 0x038) 5).setReg (aCtx 0 0x034) hi)
       (ready (s 0) i k0 g0 item1 = true ∧ (s 0).rf (aCtx 0 0x038) 0 5 = 5 ∧ (s 0).access 0 0 32 .wr = .ok ∧ (s 0).dome.fills = [] ∧ (s 0).dome.fresh = [])
       ∧ ready (s 1) i k0 g0 item1 = true ∧ (s 1).access 0 (2 ^ 32) 32 .wr = .denied 0xFFFF) := by decide +kernel

/-- Waiters of different cores on one counter, woken by a signal and by an arrival; a woken wait retires while others are held for want of an entry. -/
theorem wit_waking :
    let w := fun (n kind target : Nat) => ({ core := n, key := 1, asn := 1, ctx := 0, kind := kind, vc := 0, phys := 0, lanes := 0, target := target, since := 0 } : Waiter)
    let s : State := { live with waiters := [w 1 1 1, w 2 2 1, w 3 1 2] }
    let r : State := { live with cores := [(0, { run := some item1, hold := some .wait })], waiters := [{ w 0 1 1 with woken := true }], poolHeld := [w 4 1 0, w 5 2 9] }
    (s.waiters.Pairwise fun a b => a.core ≠ b.core)
    ∧ ([Instr.sig k0 g0 (o0 0 1), .sig k0 g0 (o0 7 524287), .arrive k0 g0 (o0 100 3)].all fun i => ready (on i {} s) i k0 g0 item1) = true
    ∧ s.translate 0 0 = some (.ctr 0) ∧ s.translate 0 100 = some (.group 100 4) ∧ s.finds 0 1 (w 1 1 1) ∧ ¬ s.finds 0 1 (w 3 1 2)
    ∧ (r.coreOf k0).hold = some .wait ∧ r.works = true ∧ (∃ x ∈ r.waiters, x.core = coreIdx k0 ∧ x.woken = true) ∧ (∀ x ∈ r.poolHeld, x.kind = 3 → 0 < x.lanes)
    ∧ (quietIn 6).works = false := by
  unfold State.finds; decide +kernel

/-- More items than empty next slots, with two priorities owed. -/
theorem wit_shares :
    let s : State := { live with ready := (List.range 40).map fun i => entry1 i (i % 2), qos := { placed := 1, share := [(0, 5), (1, 3)] } }
    let l := s.eligible 0
    let q := s.qosNow (priosOf s.waiting)
    s.contended = true ∧ 0 < q.owed 0 ∧ 0 < q.owed 1 ∧ q.choose s.contended s.narrowFirst (priosOf l) = some 1 ∧ nextCtx l 1 (SMap.get q.last 15 1) = some 0
    ∧ (∃ x ∈ l, x.prio = 0) ∧ ∃ x ∈ l, x.prio = 1 := by decide +kernel

/-- Commits: a task that is first and due, one behind a copy still to be written, one behind an earlier task; a result composed before; a key that no
slot names; operations and copies under way. -/
theorem wit_commit_order :
    let done := { task1 with ended := true }
    let s : State := { host with tasks := [done] }
    let q : RowReq := { op := opOf 0x5C (rowD 4 0), accepted := true, copies := [{ stack := 0, addr := 0, bytes := [] }] }
    s.works = true ∧ (∀ y ∈ s.tasks, y.key = done.key → done.asn ≤ y.asn) ∧ done.accepted = true ∧ (s.key 1).lastCommitted = 0 ∧ s.ops = [] ∧ s.reqs = []
    ∧ s.slotOfKey 1 = some 0 ∧ (s.setReg (aSessCfg 0) 0x21).slotOfKey 1 = none ∧ ({ done with head := some (zeros 8) } : Task).head = some (zeros 8)
    ∧ ({ s with reqs := [q] } : State).underWay 1 1 = true ∧ s.underWay 1 1 = false ∧ (∃ x ∈ ({ s with reqs := [q] } : State).reqs, x.copies ≠ [])
    ∧ ¬ (∀ y ∈ ({ s with tasks := [{ task1 with asn := 0 }, done] } : State).tasks, y.key = done.key → done.asn ≤ y.asn) := by decide +kernel

/-- Units that the table lists and that it does not; waiters' units; a journal record of an accepted task, of one admitted, and of a recorded one; a byte
in error and none. -/
theorem wit_error_commands :
    isUnit 0x577 = true ∧ isUnit 0x578 = false ∧ isUnit 0x530 = false ∧ isUnit 0x597 = true ∧ isUnit 0x598 = false ∧ (∀ w ∈ [0x500, 0x3FF], isUnit w = true)
    ∧ live.recorded task1 = false ∧ task1.accepted = true ∧ ({ task1 with accepted := false }).accepted = false
    ∧ ({ live with keys := [(1, { lastCommitted := 1 })] } : State).recorded task1 = true
    ∧ live.tierBad 0 = 0 ∧ ({ live with badBytes := [(5, 1)] } : State).tierBad 5 = 1 ∧ (∀ e ∈ live.stops, e.2 ≠ failKey 0x560) := by decide +kernel

/-- A look-up under way that keeps a version; a round that is known; a HELLO before a command and before a datagram; sub-port 0 silent and not. -/
theorem wit_held_back :
    let s : State := { host with lookups := [{ rank := 1, xid := 1, table := 0, gen := 1 }] }
    let hello : List Byte := natLe 1 1 ++ natLe 1 tyHello ++ zeros 46
    let h : State := { host with port := { rx := [(0, {}, hello)] } }
    (∃ p ∈ s.lookups, p.table = 0 ∧ p.gen = 1) ∧ s.works = true ∧ (∃ e ∈ h.port.rx, rxHello e = true) ∧ (∀ e ∈ host.port.rx, rxHello e = false)
    ∧ h.waitsBehind 0 = true ∧ host.waitsBehind 0 = false ∧ h.checksDue = false ∧ hType hello = tyHello ∧ hSession hello = 0
    ∧ (host.setKey 1 { mute := [0] }).muted 0 = true ∧ host.muted 0 = false ∧ ([0] : List Nat).Nodup := by decide +kernel

/-- I3C transfers: addresses that the device hears, of the right length and not, of registers it answers for; a boundary scan of each park state. -/
theorem wit_serial_ports :
    let wr := natLe 3 aDevStatus
    wr.length = 3 ∧ leNat wr = aDevStatus ∧ (natLe 3 (aLife 0) ++ zeros 4).length = 7 ∧ leNat ((natLe 3 (aLife 0) ++ zeros 4).take 3) = aLife 0
    ∧ (∀ n, I3cDest.static 0x58 = .static n → n = 0x58 + live.pins.straps.toNat) ∧ live.pins.vaux = true ∧ live.pins.pwrGood = true
    ∧ ({ live with pins := { pwrGood := false } } : State).pins.pwrGood = false ∧ TapState.shiftDr ≠ .pauseDr ∧ TapState.runTestIdle ≠ .testLogicReset
    ∧ i3cReads 0x28000 = false ∧ i3cReads aPwrStatus = true := by
  refine ⟨by decide +kernel, by decide +kernel, by decide +kernel, by decide +kernel, ?_, by decide +kernel, by decide +kernel, by decide +kernel, by decide,
    by decide, by decide +kernel, by decide +kernel⟩
  rintro n ⟨⟩
  decide +kernel

/-- Queue pairs: reserved bits with the pair free and in use; packets of a session that was received before and not. Keys: tasks admitted only. -/
theorem wit_other_refusals :
    let x : Qp := { words := zeros 64, sess := 0, ctx := 0, sq := 0, rq := 0 }
    let a : State := { host with tasks := [{ task1 with accepted := false }] }
    rfld (4096 : W32) 12 20 ≠ 0 ∧ host.qp? 0 = none ∧ ({ host with qps := [(0, some x)] } : State).qp? 0 ≠ none
    ∧ (∀ e ∈ host.port.rx, ¬ (e.1 = 0 ∧ e.2.2 = zeros 31)) ∧ (zeros 31).length < 32
    ∧ (∀ y ∈ a.tasks, y.accepted = false ∧ y.key < 16) ∧ (∃ y ∈ host.tasks, y.accepted = true)
    ∧ ({ host with tests := [.spire 1 true false, .full] } : State).tests ≠ [] ∧ ([0x01F, 0x560].filter fun u => unitSpire u == some 1) ≠ []
    ∧ ([0x560].filter fun u => unitSpire u == some 1) = [] := by decide +kernel

end Sys2Proof.Machine
end

section
namespace Sys2Proof.Machine

/-! ## The canonical form and what keeps it

Only Mem.write and its kin, SMap.set and SMap.filter make a memory or a register space anew, and the laws of maps say that they keep
the canonical form. Every function of the model that answers a state has a lemma here that says so of it, in the order of the model's
files: its proof follows the function's branches and cites the lemmas of what the branch calls. -/

variable {s t : State}

/-- The canonical form, part by part. -/
theorem canonical_iff (s : State) : s.Canonical ↔ s.mem.wf = true ∧ s.dmem.wf = true ∧ s.flash.wf = true ∧ s.scales.wf = true
    ∧ s.gscales.wf = true ∧ SMap.wf regReset s.regs = true := by
  simp only [State.Canonical, State.memOk, Bool.and_eq_true, and_assoc]

theorem State.Canonical.mem (h : s.Canonical) : s.mem.wf = true := by
  obtain ⟨hw, -⟩ := (canonical_iff s).mp h
  exact hw
theorem State.Canonical.dmem (h : s.Canonical) : s.dmem.wf = true := by
  obtain ⟨-, hw, -⟩ := (canonical_iff s).mp h
  exact hw
theorem State.Canonical.flash (h : s.Canonical) : s.flash.wf = true := by
  obtain ⟨-, -, hw, -⟩ := (canonical_iff s).mp h
  exact hw
theorem State.Canonical.scales (h : s.Canonical) : s.scales.wf = true := by
  obtain ⟨-, -, -, hw, -⟩ := (canonical_iff s).mp h
  exact hw
theorem State.Canonical.gscales (h : s.Canonical) : s.gscales.wf = true := by
  obtain ⟨-, -, -, -, hw, -⟩ := (canonical_iff s).mp h
  exact hw
theorem State.Canonical.regs (h : s.Canonical) : SMap.wf regReset s.regs = true := by
  obtain ⟨-, -, -, -, -, hw⟩ := (canonical_iff s).mp h
  exact hw

/-- A change of the parts that are neither a memory nor the register space. -/
theorem State.Canonical.update {pending : List Instr} {tick : Nat} {pins : Pins} {fuses : Fuses} {power : Power} {boot : Boot}
    {port : Port} {ptp : Ptp} {sess : SMap Session} {i3cSamples : SMap Nat} {keys : SMap KeySlot} {qps : SMap (Option Qp)}
    {tasks : List Task} {cores : SMap Core} {progs : SMap Program} {icache : SMap ICLine} {loads : SMap (List Byte)} {dome : Dome}
    {rgnChange : Option RgnChange} {arrivals : Nat} {tx : List OutMsg} {draws : Nat} {errs : List ErrRec} {enSpires : SMap Nat}
    {ctxHeld outOfService : Nat} {ctrs : SMap Nat} {clrDue : Nat} {waiters poolHeld : List Waiter} {ready : List Entry}
    {entrySeq : Nat} {qos : Qos} {ops : List Op} {opSeq : Nat} {served : SMap Nat} {streams : SMap Strm} {reqs : List RowReq}
    {arr : SMap ArrRun} {tables : SMap Table} {genHigh : SMap Nat} {batches : List Batch} {exch : List Exch} {rounds : List Round}
    {lookups : List PeerLookup} {applied : List Applied} {form : Option Formation} {starts : List TStart} {fanouts : List Fanout}
    {replay : Replay} {smd : Smd} {journal : Journal} {tests : List SelfTest} {stops : List (Nat × Nat)} {badBytes : SMap Nat}
    {autoNext : Nat} {autoDrain : Bool}
    (h : s.Canonical) : State.Canonical { s with
      pending := pending, tick := tick, pins := pins, fuses := fuses, power := power, boot := boot, port := port, ptp := ptp, sess
      := sess, i3cSamples := i3cSamples, keys := keys, qps := qps, tasks := tasks, cores := cores, progs := progs, icache :=
      icache, loads := loads, dome := dome, rgnChange := rgnChange, arrivals := arrivals, tx := tx, draws := draws, errs := errs,
      enSpires := enSpires, ctxHeld := ctxHeld, outOfService := outOfService, ctrs := ctrs, clrDue := clrDue, waiters := waiters,
      poolHeld := poolHeld, ready := ready, entrySeq := entrySeq, qos := qos, ops := ops, opSeq := opSeq, served := served,
      streams := streams, reqs := reqs, arr := arr, tables := tables, genHigh := genHigh, batches := batches, exch := exch, rounds
      := rounds, lookups := lookups, applied := applied, form := form, starts := starts, fanouts := fanouts, replay := replay, smd
      := smd, journal := journal, tests := tests, stops := stops, badBytes := badBytes, autoNext := autoNext, autoDrain :=
      autoDrain } := h

theorem State.Canonical.withMem {m : Mem} (h : s.Canonical) (hm : m.wf = true) : State.Canonical { s with mem := m } :=
  (canonical_iff _).mpr ⟨hm, h.dmem, h.flash, h.scales, h.gscales, h.regs⟩
theorem State.Canonical.withDmem {m : Mem} (h : s.Canonical) (hm : m.wf = true) : State.Canonical { s with dmem := m } :=
  (canonical_iff _).mpr ⟨h.mem, hm, h.flash, h.scales, h.gscales, h.regs⟩
theorem State.Canonical.withFlash {m : Mem} (h : s.Canonical) (hm : m.wf = true) : State.Canonical { s with flash := m } :=
  (canonical_iff _).mpr ⟨h.mem, h.dmem, hm, h.scales, h.gscales, h.regs⟩
theorem State.Canonical.withScales {m : Mem} (h : s.Canonical) (hm : m.wf = true) : State.Canonical { s with scales := m } :=
  (canonical_iff _).mpr ⟨h.mem, h.dmem, h.flash, hm, h.gscales, h.regs⟩
theorem State.Canonical.withGscales {m : Mem} (h : s.Canonical) (hm : m.wf = true) : State.Canonical { s with gscales := m } :=
  (canonical_iff _).mpr ⟨h.mem, h.dmem, h.flash, h.scales, hm, h.regs⟩
theorem State.Canonical.withRegs {m : SMap W32} (h : s.Canonical) (hm : SMap.wf regReset m = true) :
    State.Canonical { s with regs := m } :=
  (canonical_iff _).mpr ⟨h.mem, h.dmem, h.flash, h.scales, h.gscales, hm⟩

/-! Answers of other shapes than a state. -/

/-- Every next state that a command answers is in canonical form. -/
inductive Out.Canonical : Out → Prop
  | next {t : State} (h : t.Canonical) : Out.Canonical (.next t)
  | fault {f : Fault} : Out.Canonical (.fault f)
  | refused {r : Refusal} : Out.Canonical (.refused r)

/-- The state beside a value is in canonical form. -/
structure SndCanonical {α : Type} (p : α × State) : Prop where
  snd : p.2.Canonical

/-- An optional state is in canonical form where there is one. -/
inductive OptCanonical : Option State → Prop
  | some {t : State} (h : t.Canonical) : OptCanonical (some t)
  | none : OptCanonical none

/-- What a computation that may fail answers: its errors are in E and its results in P. -/
inductive Answers {ε α : Type} (E : ε → Prop) (P : α → Prop) : Except ε α → Prop
  | error {e : ε} (h : E e) : Answers E P (.error e)
  | ok {a : α} (h : P a) : Answers E P (.ok a)

/-- A register write leaves the canonical form, however it is answered. -/
inductive WRes.Canonical : WRes → Prop
  | ok {t : State} (h : t.Canonical) : WRes.Canonical (.ok t)
  | nak {t : State} {n : Nat} (h : t.Canonical) : WRes.Canonical (.nak t n)
  | pend {t : State} (h : t.Canonical) : WRes.Canonical (.pend t)

/-- So does a sequence of register writes. -/
inductive SeqRes.Canonical : SeqRes → Prop
  | done {t : State} (h : t.Canonical) : SeqRes.Canonical (.done t)
  | stop {t : State} {n v : Nat} (h : t.Canonical) : SeqRes.Canonical (.stop t n v)
  | wait {t : State} (h : t.Canonical) : SeqRes.Canonical (.wait t)

/-- The state after a unit's failure is in canonical form. -/
structure UnitErr.Canonical (e : UnitErr) : Prop where
  after : e.after.Canonical

section Shapes
variable {α β ε : Type} {E : ε → Prop} {P : α → Prop} {Q : β → Prop}

theorem State.Canonical.next (h : s.Canonical) : Out.Canonical (.next s) := .next h
theorem State.Canonical.ok (h : s.Canonical) : WRes.Canonical (.ok s) := .ok h
theorem State.Canonical.nak_ {n : Nat} (h : s.Canonical) : WRes.Canonical (.nak s n) := .nak h
theorem State.Canonical.pend (h : s.Canonical) : WRes.Canonical (.pend s) := .pend h
theorem State.Canonical.done (h : s.Canonical) : SeqRes.Canonical (.done s) := .done h
theorem State.Canonical.stop {n v : Nat} (h : s.Canonical) : SeqRes.Canonical (.stop s n v) := .stop h
theorem State.Canonical.wait (h : s.Canonical) : SeqRes.Canonical (.wait s) := .wait h
theorem State.Canonical.some (h : s.Canonical) : OptCanonical (some s) := .some h
theorem State.Canonical.pair {a : α} (h : s.Canonical) : SndCanonical (a, s) := ⟨h⟩

/-- What an answer holds, once it is known. -/
theorem Out.Canonical.of_next (h : Out.Canonical (.next t)) : t.Canonical := by cases h; assumption
theorem SndCanonical.of_eq {p : α × State} {a : α} (h : SndCanonical p) (e : p = (a, t)) : t.Canonical := by subst e; exact h.snd
theorem OptCanonical.of_eq {o : Option State} (h : OptCanonical o) (e : o = Option.some t) : t.Canonical := by
  subst e; cases h; assumption
theorem Answers.of_ok {x : Except ε α} {a : α} (h : Answers E P x) (e : x = .ok a) : P a := by subst e; cases h; assumption
theorem Answers.of_error {x : Except ε α} {a : ε} (h : Answers E P x) (e : x = .error a) : E a := by subst e; cases h; assumption
theorem WRes.Canonical.of_ok {r : WRes} (h : r.Canonical) (e : r = .ok t) : t.Canonical := by subst e; cases h; assumption
theorem WRes.Canonical.of_nak {r : WRes} {n : Nat} (h : r.Canonical) (e : r = .nak t n) : t.Canonical := by
  subst e; cases h; assumption
theorem WRes.Canonical.of_pend {r : WRes} (h : r.Canonical) (e : r = .pend t) : t.Canonical := by subst e; cases h; assumption
theorem SeqRes.Canonical.of_done {r : SeqRes} (h : r.Canonical) (e : r = .done t) : t.Canonical := by subst e; cases h; assumption
theorem SeqRes.Canonical.of_stop {r : SeqRes} {n v : Nat} (h : r.Canonical) (e : r = .stop t n v) : t.Canonical := by
  subst e; cases h; assumption
theorem SeqRes.Canonical.of_wait {r : SeqRes} (h : r.Canonical) (e : r = .wait t) : t.Canonical := by subst e; cases h; assumption

/-- A computation goes on from what another answers. -/
theorem Answers.bind {x : Except ε α} {f : α → Except ε β} (hx : Answers E P x) (hf : ∀ a, P a → Answers E Q (f a)) :
    Answers E Q (x >>= f) := by
  cases x with
  | error e => exact .error (hx.of_error rfl)
  | ok a => exact hf a (hx.of_ok rfl)

/-- A computation's errors are put into another form. -/
theorem Answers.mapError {ε' : Type} {E' : ε' → Prop} {x : Except ε α} {f : ε → ε'} (hx : Answers E P x) (hf : ∀ e, E e → E' (f e)) :
    Answers E' P (x.mapError f) := by
  cases x with
  | error e => exact .error (hf e (hx.of_error rfl))
  | ok a => exact .ok (hx.of_ok rfl)

/-- Of two states in canonical form either is. -/
theorem State.Canonical.ite {c : Prop} {_ : Decidable c} (hs : s.Canonical) (ht : t.Canonical) : (if c then s else t).Canonical := by
  split <;> assumption
theorem Out.Canonical.ite {c : Prop} {_ : Decidable c} {o p : Out} (ho : o.Canonical) (hp : p.Canonical) :
    Out.Canonical (if c then o else p) := by
  split <;> assumption
theorem WRes.Canonical.ite {c : Prop} {_ : Decidable c} {r q : WRes} (hr : r.Canonical) (hq : q.Canonical) :
    (if c then r else q).Canonical := by
  split <;> assumption
theorem SeqRes.Canonical.ite {c : Prop} {_ : Decidable c} {r q : SeqRes} (hr : r.Canonical) (hq : q.Canonical) :
    (if c then r else q).Canonical := by
  split <;> assumption
theorem SndCanonical.ite {c : Prop} {_ : Decidable c} {p q : α × State} (hp : SndCanonical p) (hq : SndCanonical q) :
    SndCanonical (if c then p else q) := by
  split <;> assumption
theorem OptCanonical.ite {c : Prop} {_ : Decidable c} {o p : Option State} (ho : OptCanonical o) (hp : OptCanonical p) :
    OptCanonical (if c then o else p) := by
  split <;> assumption
theorem Answers.ite {c : Prop} {_ : Decidable c} {x y : Except ε α} (hx : Answers E P x) (hy : Answers E P y) :
    Answers E P (if c then x else y) := by
  split <;> assumption

/-- A fold keeps the canonical form where each of its steps does. -/
theorem State.Canonical.foldl {f : State → α → State} {l : List α} (h : s.Canonical)
    (hf : ∀ t x, t.Canonical → (f t x).Canonical) : (l.foldl f s).Canonical := by
  induction l generalizing s with
  | nil => exact h
  | cons x l ih => exact ih (hf s x h)

theorem SndCanonical.foldl {f : β × State → α → β × State} {l : List α} {p : β × State} (h : SndCanonical p)
    (hf : ∀ q x, SndCanonical q → SndCanonical (f q x)) : SndCanonical (l.foldl f p) := by
  induction l generalizing p with
  | nil => exact h
  | cons x l ih => exact ih (hf p x h)

/-- So does a fold of computations that may fail. -/
theorem State.Canonical.foldlM {f : State → α → Except ε State} {l : List α} (h : s.Canonical)
    (hf : ∀ t x, t.Canonical → Answers E State.Canonical (f t x)) : Answers E State.Canonical (l.foldlM f s) := by
  induction l generalizing s with
  | nil => exact .ok h
  | cons x l ih => exact (hf s x h).bind fun t ht => ih ht

end Shapes

theorem State.Canonical.setReg {a : Nat} {v : W32} (h : s.Canonical) : (s.setReg a v).Canonical :=
  h.withRegs (SMap.wf_set regReset s.regs a v h.regs)
theorem State.Canonical.resetRegs {lo hi : Nat} (h : s.Canonical) : (s.resetRegs lo hi).Canonical :=
  h.withRegs (SMap.wf_filter regReset s.regs _ h.regs)

/-- A range of the data memory is cleared where a condition asks for it. -/
theorem State.Canonical.clearDmem {c : Prop} {_ : Decidable c} {lo hi : Nat} (h : s.Canonical) :
    State.Canonical { s with dmem := if c then s.dmem else s.dmem.clearRange lo hi } := by
  split
  · exact h
  · exact h.withDmem (Mem.wf_clearRange _ _ _ h.dmem)

/-! ### Accessors of the state -/

theorem State.Canonical.setF {a lo n v : Nat} (h : s.Canonical) : (s.setF a lo n v).Canonical := h.setReg
theorem State.Canonical.setB {a i : Nat} {b : Bool} (h : s.Canonical) : (s.setB a i b).Canonical := h.setReg
theorem State.Canonical.setPair {lo v : Nat} (h : s.Canonical) : (s.setPair lo v).Canonical := h.setReg.setReg
theorem State.Canonical.bump {a n : Nat} (h : s.Canonical) : (s.bump a n).Canonical := h.setReg
theorem State.Canonical.clearRegs {l : List Nat} (h : s.Canonical) : (s.clearRegs l).Canonical :=
  h.foldl fun _ _ ht => ht.setReg
theorem State.Canonical.passTo {t : Nat} (h : s.Canonical) : (s.passTo t).Canonical := h.update
theorem State.Canonical.draw (h : s.Canonical) : SndCanonical s.draw := h.update.pair
theorem State.Canonical.setSes {i : Nat} {v : Session} (h : s.Canonical) : (s.setSes i v).Canonical := h.update
theorem State.Canonical.setKey {k : Nat} {v : KeySlot} (h : s.Canonical) : (s.setKey k v).Canonical := h.update
theorem State.Canonical.setCore {k : Nat} {c : Core} (h : s.Canonical) : (s.setCore k c).Canonical := h.update
theorem State.Canonical.setDevState {v : Nat} (h : s.Canonical) : (s.setDevState v).Canonical := h.setF
theorem State.Canonical.modTask {key asn : Nat} {f : Task → Task} (h : s.Canonical) : (s.modTask key asn f).Canonical :=
  h.update
theorem State.Canonical.emit {m : OutMsg} (h : s.Canonical) : (s.emit m).Canonical := h.update

/-! ### MACsec -/

theorem State.Canonical.setMacsec {p : Nat} {m : Macsec} (h : s.Canonical) : (s.setMacsec p m).Canonical := h.update

/-! ### What leaves the port -/

theorem State.Canonical.leave {f : OutFrame} (h : s.Canonical) : (s.leave f).Canonical :=
  h.ite (h.update.ite (h.ite (h.update.ite h.setMacsec.update)))
theorem State.Canonical.transmit {f : OutFrame} (h : s.Canonical) : (s.transmit f).Canonical := h.update.ite h.leave
theorem State.Canonical.release (h : s.Canonical) : s.release.Canonical := h.update.foldl fun _ _ ht => ht.leave

theorem State.Canonical.send {dst : NetAddr} {m : OutMsg} (h : s.Canonical) : (s.send dst m).Canonical := by
  unfold State.send
  dsimp only
  split
  · exact h.emit.transmit
  · exact h.emit

theorem State.Canonical.sendPfc {sub prio : Nat} {off : Bool} (h : s.Canonical) : (s.sendPfc sub prio off).Canonical := by
  unfold State.sendPfc
  split
  · exact h.update.leave
  · exact h

theorem State.Canonical.pfcSync (h : s.Canonical) : s.pfcSync.Canonical := h.foldl fun _ _ ht => ht.ite ht.sendPfc
theorem State.Canonical.subDown {p : Nat} (h : s.Canonical) : (s.subDown p).Canonical := h.setB.update

/-! ### Error reports -/

theorem State.Canonical.report {s0 : State} {r : ErrReport} (h : s0.Canonical) : (s0.report r).Canonical := by
  unfold State.report
  dsimp only
  split
  · exact h.draw.snd.update
  · exact (h.draw.snd.setReg.setReg.bump.ite h.draw.snd.setReg).update

/-! ### The near tier as a cache, and data memory -/

theorem State.Canonical.putLine {k : Nat} {e : Line} (h : s.Canonical) : (s.putLine k e).Canonical := h.update
theorem State.Canonical.setTierBad {l m : Nat} (h : s.Canonical) : (s.setTierBad l m).Canonical := h.update

theorem State.Canonical.writeBack {k : Nat} (h : s.Canonical) : (s.writeBack k).Canonical := by
  unfold State.writeBack
  split
  · exact h
  · exact h.setTierBad.update.bump.ite h

theorem State.Canonical.refresh {l : Nat} (h : s.Canonical) : (s.refresh l).Canonical := by
  unfold State.refresh
  split
  · exact (h.withMem (Mem.wf_writeN _ _ _ h.mem)).update
  · exact h

theorem State.Canonical.dropLine {k : Nat} (h : s.Canonical) : (s.dropLine k).Canonical := by
  unfold State.dropLine
  split
  · exact h
  · exact h.update.refresh

theorem State.Canonical.discard {k : Nat} (h : s.Canonical) : (s.discard k).Canonical := by
  unfold State.discard
  split
  · exact h
  · dsimp only
    split
    · exact (h.withMem (Mem.wf_writeN _ _ _ h.mem)).update
    · exact h.dropLine

theorem State.Canonical.evict {k : Nat} (h : s.Canonical) : (s.evict k).Canonical := h.writeBack.dropLine
theorem State.Canonical.chooseVictim {l : Nat} (h : s.Canonical) : SndCanonical (s.chooseVictim l) := h.setReg.bump.pair
theorem State.Canonical.install {l way : Nat} (h : s.Canonical) : (s.install l way).Canonical := h.putLine
theorem State.Canonical.allocate {l : Nat} (h : s.Canonical) : (s.allocate l).Canonical := h.chooseVictim.snd.evict.install

theorem State.Canonical.dirtyLine {l way : Nat} (h : s.Canonical) : (s.dirtyLine l way).Canonical := by
  unfold State.dirtyLine
  dsimp only
  split
  · exact h
  · refine State.Canonical.ite h ?_
    refine State.Canonical.update ?_
    refine State.Canonical.ite ?_ h
    split
    · exact h.writeBack
    · exact h

theorem State.Canonical.wroteLine {a n l : Nat} (h : s.Canonical) : (s.wroteLine a n l).Canonical := by
  unfold State.wroteLine
  split
  · exact h.setTierBad
  · dsimp only
    split
    · exact h.putLine
    · exact h

theorem State.Canonical.storeBytes {a : Nat} {b : List Byte} (h : s.Canonical) : (s.storeBytes a b).Canonical :=
  (h.withMem (Mem.wf_writeN _ _ _ h.mem)).foldl fun _ _ ht => ht.wroteLine

theorem State.Canonical.settleFill {l : Nat} (h : s.Canonical) : (s.settleFill l).Canonical := by
  unfold State.settleFill
  split
  · exact h
  · exact (((h.update.bump.ite h.update.evict.install).ite (h.update.bump.ite h.update.evict.install).dirtyLine).foldl (fun
        _ _ ht2 => ht2.storeBytes)).update

theorem State.Canonical.victimHit {l : Nat} (h : s.Canonical) : (s.victimHit l).Canonical := h.bump.ite h

theorem State.Canonical.touch {write : Bool} {l : Nat} (h : s.Canonical) : (s.touch write l).Canonical := by
  unfold State.touch
  refine State.Canonical.ite h ?_
  refine State.Canonical.ite ?_ ?_
  · refine State.Canonical.dirtyLine ?_
    refine SndCanonical.snd ?_
    split
    · exact h.settleFill.bump.pair
    · exact h.settleFill.victimHit.chooseVictim.snd.evict.install.pair
  · refine SndCanonical.snd ?_
    split
    · exact h.settleFill.bump.pair
    · exact h.settleFill.victimHit.chooseVictim.snd.evict.install.pair

theorem State.Canonical.touchRange {a n : Nat} (h : s.Canonical) : (s.touchRange a n).Canonical :=
  h.ite (h.foldl (fun _ _ ht => ht.touch))
theorem State.Canonical.readTier {a n : Nat} (h : s.Canonical) : SndCanonical (s.readTier a n) := h.touchRange.pair
theorem State.Canonical.writeTier {a : Nat} {b : List Byte} (h : s.Canonical) : (s.writeTier a b).Canonical :=
  (h.ite (h.foldl (fun _ _ ht => ht.touch))).storeBytes
theorem State.Canonical.putResult {c a : Nat} {b : List Byte} (h : s.Canonical) : (s.putResult c a b).Canonical :=
  h.writeTier.ite h
theorem State.Canonical.cleanAll {ks : List Nat} (h : s.Canonical) : (s.cleanAll ks).Canonical :=
  h.foldl fun _ _ ht => ht.writeBack
theorem State.Canonical.evictAll {ks : List Nat} (h : s.Canonical) : (s.evictAll ks).Canonical := h.foldl fun _ _ ht => ht.evict
theorem State.Canonical.scramble {lo hi : Nat} (h : s.Canonical) : (s.scramble lo hi).Canonical :=
  h.draw.snd.withMem (Mem.wf_scramble _ _ _ _ h.draw.snd.mem)

/-! ### Answers on the wire -/

theorem State.Canonical.grant {i : Nat} (h : s.Canonical) : (s.grant i).Canonical := h.ite h.setSes

theorem State.Canonical.emitDwp {i typ flags seq : Nat} {payload : List Byte} (h : s.Canonical) :
    (s.emitDwp i typ flags seq payload).Canonical :=
  h.grant.setSes.send

theorem State.Canonical.emitPlain {i : Nat} {dst : NetAddr} {typ : Nat} {payload : List Byte} (h : s.Canonical) :
    (s.emitPlain i dst typ payload).Canonical :=
  h.setSes.send

theorem State.Canonical.sendSeq {i typ : Nat} {payload : List Byte} {ans : Nat} (h : s.Canonical) :
    (s.sendSeq i typ payload ans).Canonical :=
  h.ite (h.setSes.emitDwp.ite h.setSes)

theorem State.Canonical.answer {i typ : Nat} {payload : List Byte} (h : s.Canonical) : (s.answer i typ payload).Canonical :=
  h.sendSeq
theorem State.Canonical.nak {i seq typ reason value : Nat} (h : s.Canonical) : (s.nak i seq typ reason value).Canonical :=
  h.answer

theorem State.Canonical.nakPlain {i : Nat} {dst : NetAddr} {typ reason : Nat} (h : s.Canonical) :
    (s.nakPlain i dst typ reason).Canonical :=
  h.emitPlain

theorem State.Canonical.sendAck {i : Nat} (h : s.Canonical) : (s.sendAck i).Canonical := h.emitDwp
theorem State.Canonical.doneHead {i : Nat} (h : s.Canonical) : (s.doneHead i).Canonical := h.setSes.pfcSync
theorem State.Canonical.peerNak {i : Nat} {p : List Byte} (h : s.Canonical) : (s.peerNak i p).Canonical := h.update

theorem State.Canonical.skipBad {n i : Nat} (h : s.Canonical) : (State.skipBad n s i).Canonical := by
  induction n generalizing s with
  | zero => exact h
  | succ n ih =>
    unfold State.skipBad
    split
    · exact (ih h.nak.doneHead).ite ((ih h.peerNak.doneHead).ite h)
    · exact h

theorem State.Canonical.finish {i : Nat} (h : s.Canonical) : (s.finish i).Canonical := h.doneHead.skipBad

theorem State.Canonical.settleFanout {f : Fanout} (h : s.Canonical) : (s.settleFanout f).Canonical := by
  unfold State.settleFanout
  refine State.Canonical.ite h ?_
  refine State.Canonical.ite ?_ ?_
  · refine State.Canonical.finish ?_
    split
    · exact h.update.nak
    · exact h.update
  · split
    · exact h.update.nak
    · exact h.update

theorem State.Canonical.settleFanouts (h : s.Canonical) : s.settleFanouts.Canonical := h.foldl fun _ _ ht => ht.settleFanout
theorem State.Canonical.finishMsg {r : Req} {typ : Nat} {p : List Byte} (h : s.Canonical) : (s.finishMsg r typ p).Canonical :=
  (h.finish.ite h).settleFanouts

theorem State.Canonical.onMsg {r : Req} {typ : Nat} {p : List Byte} {f : State → State} (h : s.Canonical)
    (hf : ∀ t, t.Canonical → (f t).Canonical) :
    (s.onMsg r typ p f).Canonical :=
  (hf s h).finishMsg.ite h

theorem State.Canonical.refuse {r : Req} {typ reason value : Nat} (h : s.Canonical) : (s.refuse r typ reason value).Canonical :=
  h.nak

theorem sendPieces_canonical {n i tag off : Nat} {b : List Byte} (h : s.Canonical) :
    (sendPieces n s i tag off b).Canonical := by
  induction n generalizing s off b with
  | zero => exact h
  | succ n ih => exact h.answer.ite (ih h.answer)

theorem State.Canonical.sendReadData {i tag : Nat} {b : List Byte} (h : s.Canonical) : (s.sendReadData i tag b).Canonical :=
  sendPieces_canonical h
theorem State.Canonical.pump {i : Nat} (h : s.Canonical) : (s.pump i).Canonical := h.setSes.foldl fun _ _ ht => ht.emitDwp
theorem State.Canonical.closeSession {i : Nat} (h : s.Canonical) : (s.closeSession i).Canonical := h.setSes.update

/-! ### Accumulators and counters of synchronisation -/

theorem State.Canonical.setCtr {p v : Nat} (h : s.Canonical) : (s.setCtr p v).Canonical := h.update
theorem State.Canonical.noteT7 {key asn vc phys : Nat} (h : s.Canonical) : (s.noteT7 key asn vc phys).Canonical := h.modTask
theorem State.Canonical.wakeOne {w : Waiter} (h : s.Canonical) : (s.wakeOne w).Canonical := h.ite (h.noteT7.setCtr.ite h).update
theorem State.Canonical.wake {phys : Nat} (h : s.Canonical) : (s.wake phys).Canonical := h.foldl fun _ _ ht => ht.wakeOne
theorem State.Canonical.addCtr {ctx key asn vc phys n : Nat} (h : s.Canonical) : (s.addCtr ctx key asn vc phys n).Canonical :=
  h.ite (h.noteT7.setCtr.ite h.noteT7.setCtr.bump.report).wake
theorem State.Canonical.register {w : Waiter} (h : s.Canonical) : OptCanonical (s.register w) :=
  h.update.some.ite (h.update.setReg.some.ite OptCanonical.none)
theorem State.Canonical.unhold {core : Nat} (h : s.Canonical) : (s.unhold core).Canonical := h.update
theorem State.Canonical.passWait {w : Waiter} (h : s.Canonical) : (s.passWait w).Canonical := (h.noteT7.setCtr.ite h).setCore

theorem State.Canonical.admitHeld {w : Waiter} (h : s.Canonical) : (s.admitHeld w).Canonical := by
  unfold State.admitHeld
  refine State.Canonical.ite h.unhold.passWait ?_
  split
  · exact h
  · rename_i e1
    exact (h.register.of_eq e1).unhold

theorem State.Canonical.admitPool (h : s.Canonical) : s.admitPool.Canonical := h.foldl fun _ _ ht => ht.admitHeld
theorem State.Canonical.dropWaiter {core : Nat} (h : s.Canonical) : (s.dropWaiter core).Canonical := h.update.unhold.admitPool
theorem State.Canonical.clearCtxCtrs {c : Nat} (h : s.Canonical) : (s.clearCtxCtrs c).Canonical :=
  h.foldl fun _ _ ht => ht.setCtr
theorem State.Canonical.switchClear {c : Nat} (h : s.Canonical) : (s.switchClear c).Canonical := h.ite h.clearCtxCtrs
theorem State.Canonical.residueCheck {t : Task} (h : s.Canonical) : (s.residueCheck t).Canonical :=
  h.ite (h.setReg.ite h.setReg.bump.report)

/-! ### Tasks: queues, ends and results -/

theorem State.Canonical.ringPut {c lo cfg cnt : Nat} {granted : Bool} {e : List Byte} (h : s.Canonical) :
    (s.ringPut c lo cfg cnt granted e).Canonical :=
  h.ite (h.setReg.writeTier.ite (h.setReg.ite h).setF)

theorem State.Canonical.dtrace {reason asn item frag sp core ctx key prio : Nat} (h : s.Canonical) :
    (s.dtrace reason asn item frag sp core ctx key prio).Canonical :=
  h.ite h.ringPut

theorem State.Canonical.traceItem {reason : Nat} {i : Item} {k : Nat} (h : s.Canonical) : (s.traceItem reason i k).Canonical :=
  h.dtrace

theorem State.Canonical.traceEnt {reason : Nat} {e : Entry} {frag : Nat} (h : s.Canonical) :
    (s.traceEnt reason e frag).Canonical :=
  h.dtrace

theorem State.Canonical.countSpawns (h : s.Canonical) : s.countSpawns.Canonical :=
  h.ite (h.foldl (fun _ _ ht => ht.bump.setCore))

theorem State.Canonical.updateBp {s0 : State} (h : s0.Canonical) : s0.updateBp.Canonical :=
  h.countSpawns.setF.setB.setB.bump.dtrace.pfcSync.ite (h.countSpawns.setF.setB.setB.dtrace.pfcSync.ite
      h.countSpawns.setF.setB.setB)

theorem State.Canonical.setSpireState {sp v : Nat} (h : s.Canonical) : (s.setSpireState sp v).Canonical := h.setF.dtrace
theorem State.Canonical.checkDrained (h : s.Canonical) : s.checkDrained.Canonical :=
  h.foldl fun _ _ ht => ht.setSpireState.ite ht
theorem State.Canonical.dueClears (h : s.Canonical) : s.dueClears.Canonical :=
  h.foldl fun _ _ ht => ht.switchClear.update.ite ht
theorem State.Canonical.lifeAdd {set i n : Nat} (h : s.Canonical) : (s.lifeAdd set i n).Canonical := h.update

theorem State.Canonical.stopCore {key asn k : Nat} (h : s.Canonical) : (s.stopCore key asn k).Canonical := by
  unfold State.stopCore
  dsimp only
  split
  · refine State.Canonical.ite ?_ ?_
    · refine State.Canonical.dropWaiter ?_
      refine State.Canonical.setCore ?_
      split
      · exact h.traceItem.setCore.ite h
      · exact h
    · split
      · exact h.traceItem.setCore.ite h
      · exact h
  · split
    · exact h.traceItem.setCore.ite h
    · exact h

theorem State.Canonical.stopItems {key asn : Nat} (h : s.Canonical) : (s.stopItems key asn).Canonical :=
  ((h.foldl (fun _ _ ht => ht.traceEnt)).update.foldl (fun _ _ ht1 => ht1.stopCore)).updateBp
theorem State.Canonical.idleStrm {p : Nat} (h : s.Canonical) : (s.idleStrm p).Canonical := h.update
theorem State.Canonical.stopStreams {key asn : Nat} (h : s.Canonical) : (s.stopStreams key asn).Canonical :=
  (h.foldl (fun _ _ ht => ht.idleStrm)).bump.update
theorem State.Canonical.closeBatches {key asn : Nat} (h : s.Canonical) : (s.closeBatches key asn).Canonical := h.update
theorem State.Canonical.closeParked {key asn : Nat} (h : s.Canonical) : (s.closeParked key asn).Canonical :=
  h.foldl fun _ _ ht => ht.idleStrm
theorem State.Canonical.stopTask {key asn : Nat} (h : s.Canonical) : (s.stopTask key asn).Canonical :=
  h.stopItems.stopStreams.closeBatches.dueClears.checkDrained

theorem State.Canonical.endTask {key asn : Nat} (h : s.Canonical) : (s.endTask key asn).Canonical := by
  unfold State.endTask
  split
  · exact h
  · exact h.ite h.residueCheck.closeParked.closeBatches.modTask.dueClears.checkDrained

theorem State.Canonical.failTask {key asn status detail : Nat} (h : s.Canonical) :
    (s.failTask key asn status detail).Canonical := by
  unfold State.failTask
  split
  · exact h
  · exact h.ite h.modTask.stopTask.endTask

theorem State.Canonical.retryTask {key asn origin : Nat} (h : s.Canonical) : (s.retryTask key asn origin).Canonical := by
  unfold State.retryTask
  split
  · exact h
  · exact h.ite (h.bump.lifeAdd.report.failTask.ite h.lifeAdd.modTask.stopTask)

theorem State.Canonical.withdraw {k : Nat} (h : s.Canonical) : (s.withdraw k).Canonical := by
  unfold State.withdraw
  dsimp only
  split
  · exact h
  · exact h.setCore.traceItem.bump.update.ite h.setCore.traceItem.bump.update

theorem State.Canonical.withdrawSpire {sp : Nat} (h : s.Canonical) : (s.withdrawSpire sp).Canonical :=
  (h.foldl (fun _ _ ht => ht.withdraw)).updateBp

/-! ### Passes of a tile program -/

theorem State.Canonical.dropOp {id : Nat} (h : s.Canonical) : (s.dropOp id).Canonical := h.update
theorem State.Canonical.increment {o : Op} (h : s.Canonical) : (s.increment o).Canonical := h.addCtr
theorem State.Canonical.complete {o : Op} (h : s.Canonical) : (s.complete o).Canonical := h.dropOp.increment
theorem State.Canonical.unitIllegal {o : Op} {reason : Nat} (h : s.Canonical) : (s.unitIllegal o reason).Canonical :=
  h.report.failTask
theorem State.Canonical.setStrm {p : Nat} {x : Strm} (h : s.Canonical) : (s.setStrm p x).Canonical := h.update
theorem State.Canonical.modExch {id : Nat} {f : Exch → Exch} (h : s.Canonical) : (s.modExch id f).Canonical := h.update
theorem State.Canonical.dropExch {id : Nat} (h : s.Canonical) : (s.dropExch id).Canonical := h.update
theorem State.Canonical.modReq {id : Nat} {f : RowReq → RowReq} (h : s.Canonical) : (s.modReq id f).Canonical := h.update

theorem State.Canonical.orphanAdvs {x : Strm} (h : s.Canonical) : (s.orphanAdvs x).Canonical := by
  unfold State.orphanAdvs
  split
  · exact h
  · exact (h.foldl (fun _ _ ht2 => ht2.dropOp)).unitIllegal

theorem State.Canonical.strmIdle {p : Nat} {x : Strm} (h : s.Canonical) : (s.strmIdle p x).Canonical := by
  unfold State.strmIdle
  refine State.Canonical.checkDrained ?_
  refine State.Canonical.orphanAdvs ?_
  split
  · exact h.idleStrm.complete
  · exact h.idleStrm

theorem State.Canonical.countSegments {x : Strm} (h : s.Canonical) : (s.countSegments x).Canonical := h.bump.ite h

theorem State.Canonical.passEnd {p : Nat} (h : s.Canonical) : (s.passEnd p).Canonical := by
  unfold State.passEnd
  split
  · exact h
  · dsimp only
    split
    · exact (h.countSegments.dropExch.ite (h.countSegments.dropExch.dropOp.ite
          h.countSegments.dropExch.complete)).setStrm.ite (h.countSegments.dropExch.ite (h.countSegments.dropExch.dropOp.ite
          h.countSegments.dropExch.complete)).setStrm
    · exact (h.countSegments.dropExch.ite (h.countSegments.dropExch.dropOp.ite
          h.countSegments.dropExch.complete)).setStrm.ite ((h.countSegments.dropExch.ite
          (h.countSegments.dropExch.dropOp.ite h.countSegments.dropExch.complete)).strmIdle.ite
          (h.countSegments.dropExch.ite (h.countSegments.dropExch.dropOp.ite h.countSegments.dropExch.complete)).setStrm)

theorem State.Canonical.checkPass {p : Nat} (h : s.Canonical) : (s.checkPass p).Canonical := by
  unfold State.checkPass
  split
  · exact h.passEnd.ite h
  · exact h

theorem State.Canonical.runAdv {p : Nat} {o : Op} (h : s.Canonical) : (s.runAdv p o).Canonical := by
  unfold State.runAdv
  split
  · exact h
  · exact (h.setStrm.complete.ite h).ite (h.setStrm.complete.ite h)

theorem State.Canonical.runAdvs {p : Nat} (h : s.Canonical) : (s.runAdvs p).Canonical := by
  unfold State.runAdvs
  split
  · exact (h.foldl (fun _ _ ht1 => ht1.runAdv)).checkPass
  · exact h

/-! ### What the units share: operands, charges, copies -/

theorem State.Canonical.copyChan {die : Nat} (h : s.Canonical) : SndCanonical (s.copyChan die) := h.draw.snd.pair

theorem State.Canonical.copyChans (h : s.Canonical) : SndCanonical s.copyChans := by
  unfold State.copyChans
  split
  · rename_i e
    split
    · rename_i e1
      exact ((h.copyChan.of_eq e).copyChan.of_eq e1).pair

theorem State.Canonical.recopy {ch : Nat} {x : Shadow} (h : s.Canonical) : SndCanonical (s.recopy ch x) := by
  unfold State.recopy
  refine SndCanonical.ite h.pair ?_
  refine SndCanonical.ite h.pair ?_
  split
  · rename_i e
    exact (h.copyChan.of_eq e).pair

theorem State.Canonical.recopyAll {ch : Nat} {l : List Shadow} (h : s.Canonical) : SndCanonical (State.recopyAll ch l s) := by
  induction l generalizing s with
  | nil => exact h.pair
  | cons x l ih => exact (ih h.recopy.snd).snd.pair

theorem State.Canonical.loseCopies {ch : Nat} (h : s.Canonical) : (s.loseCopies ch).Canonical :=
  h.foldl fun _ _ ht => ht.recopyAll.snd.modTask
theorem State.Canonical.restoreShadows {t : Task} (h : s.Canonical) : (s.restoreShadows t).Canonical :=
  h.foldl fun _ _ ht => ht.scramble.ite ht.writeTier
theorem State.Canonical.journalSingle {ch : Nat} (h : s.Canonical) : (s.journalSingle ch).Canonical := h.update.setB.setF.setF
theorem State.Canonical.unadmit (h : s.Canonical) : s.unadmit.Canonical := (h.foldl (fun _ _ ht => ht.setKey)).update

theorem State.Canonical.loseTask {key asn : Nat} (h : s.Canonical) : (s.loseTask key asn).Canonical := by
  unfold State.loseTask
  split
  · exact h
  · exact h.ite h.modTask.stopTask.endTask

theorem State.Canonical.journalGone {ch : Nat} (h : s.Canonical) : (s.journalGone ch).Canonical :=
  h.journalSingle.setB.update.unadmit.foldl fun _ _ ht => ht.loseTask

theorem State.Canonical.journalMove {failed survivor : Nat} {isA : Bool} (h : s.Canonical) :
    (s.journalMove failed survivor isA).Canonical := by
  unfold State.journalMove
  split
  · exact h.update
  · exact h.journalSingle

theorem State.Canonical.journalFail {ch : Nat} (h : s.Canonical) : (s.journalFail ch).Canonical :=
  h.ite (h.journalGone.ite ((h.journalMove.ite h.journalGone).ite (h.journalMove.ite h.journalMove)))
theorem State.Canonical.retryUnit {u origin : Nat} (h : s.Canonical) : (s.retryUnit u origin).Canonical :=
  h.foldl fun _ _ ht => ht.retryTask
theorem State.Canonical.loseRecords {ch : Nat} (h : s.Canonical) : (s.loseRecords ch).Canonical := h.update.setPair

theorem State.Canonical.removeMem {u : Nat} (h : s.Canonical) : (s.removeMem u).Canonical :=
  h.ite (h.update.setB.setB.lifeAdd.report.retryUnit.ite
      h.update.setB.setB.lifeAdd.report.retryUnit.loseCopies.loseRecords.journalFail)

theorem State.Canonical.loseCounters {sp : Nat} (h : s.Canonical) : (s.loseCounters sp).Canonical :=
  h.update.foldl fun _ _ ht => (ht.update.ite ht).setB.setF
theorem State.Canonical.disown {k : Nat} (h : s.Canonical) : (s.disown k).Canonical := h.setCore

theorem State.Canonical.loseSpireMem {sp : Nat} (h : s.Canonical) : (s.loseSpireMem sp).Canonical := by
  unfold State.loseSpireMem
  extract_lets s0 s1
  have h1 : s1.Canonical := (h.foldl fun _ _ ht => ht.disown).scramble
  obtain ⟨hmem, hdmem, hflash, hscales, hgscales, hregs⟩ := (canonical_iff _).mp h1.draw.snd
  exact (canonical_iff _).mpr ⟨hmem, Mem.wf_scramble _ _ _ _ hdmem, hflash, Mem.wf_scramble _ _ _ _ hscales,
    Mem.wf_scramble _ _ _ _ hgscales, hregs⟩

theorem State.Canonical.removeSpire {sp origin : Nat} (h : s.Canonical) : (s.removeSpire sp origin).Canonical :=
  h.ite (((h.setSpireState.withdrawSpire.lifeAdd.report.foldl (fun _ _ ht => ht.retryTask)).loseSpireMem.loseCounters.ite
      (h.setSpireState.withdrawSpire.lifeAdd.report.foldl (fun _ _ ht1 => ht1.retryTask)).loseSpireMem).update.foldl (fun _
      _ ht2 => ht2.runAdvs))

theorem State.Canonical.noteFault {u : Nat} (h : s.Canonical) : (s.noteFault u).Canonical := by
  unfold State.noteFault
  refine State.Canonical.ite h.update ?_
  split
  · exact h.update.removeSpire
  · exact h.update.removeMem.ite h.update

theorem State.Canonical.dataError {key asn a : Nat} (h : s.Canonical) : (s.dataError key asn a).Canonical := by
  unfold State.dataError
  split
  · exact h
  · exact (h.draw.snd.bump.lifeAdd.report.retryTask.ite h.draw.snd.bump.lifeAdd.report.failTask).ite
        (h.draw.snd.bump.lifeAdd.report.retryTask.ite h.draw.snd.bump.lifeAdd.report.failTask).noteFault

theorem State.Canonical.failAcc {key asn : Nat} {b : Bad} (h : s.Canonical) : (s.failAcc key asn b).Canonical := by
  unfold State.failAcc
  split
  · exact h.failTask
  · exact h.dataError

theorem State.Canonical.keepPart {key asn : Nat} {g : Nat × Nat} (h : s.Canonical) : (s.keepPart key asn g).Canonical :=
  h.readTier.snd.copyChans.snd.modTask

theorem State.Canonical.shadow {key asn a n : Nat} (h : s.Canonical) : (s.shadow key asn a n).Canonical := by
  unfold State.shadow
  split
  · exact h
  · exact h.ite (h.foldl (fun _ _ ht2 => ht2.keepPart))

theorem State.Canonical.taskWrite {key asn a : Nat} {b : List Byte} (h : s.Canonical) : (s.taskWrite key asn a b).Canonical :=
  h.ite h.shadow.writeTier
theorem State.Canonical.storeWrite {a : Nat} {b : List Byte} (h : s.Canonical) : (s.storeWrite a b).Canonical :=
  h.withMem (Mem.wf_writeN _ _ _ h.mem)

/-! ### A core's instruction -/

theorem State.Canonical.imageRead {c off n : Nat} (h : s.Canonical) : (s.imageRead c off n).Canonical := h.touchRange
theorem State.Canonical.imageError {key asn c off n : Nat} (h : s.Canonical) : (s.imageError key asn c off n).Canonical :=
  h.draw.snd.bump.lifeAdd.report.failTask.ite h.draw.snd.bump.lifeAdd.report.failTask.noteFault

theorem State.Canonical.icFill {n c line : Nat} (h : s.Canonical) : (s.icFill n c line).Canonical := by
  unfold State.icFill
  refine State.Canonical.ite h ?_
  dsimp only
  split
  · exact h.touch.update
  · exact h.touch.draw.snd.update

theorem State.Canonical.icFetch {n c pc : Nat} (h : s.Canonical) : (s.icFetch n c pc).Canonical := h.icFill
theorem State.Canonical.fetchError {i : Item} {pc : Nat} (h : s.Canonical) : (s.fetchError i pc).Canonical := h.imageError

theorem State.Canonical.illegal {k : Nat} {i : Item} {pc word reason : Nat} (h : s.Canonical) :
    (s.illegal k i pc word reason).Canonical :=
  h.report.failTask

theorem State.Canonical.illegalAt {k : Nat} {i : Item} {reason : Nat} (h : s.Canonical) : (s.illegalAt k i reason).Canonical :=
  h.illegal

theorem State.Canonical.fire {i : Instr} {k : CoreRef} {g : Guard} {gs : List Reg} {ds : List DReg}
    {f : State → Nat → Core → Item → State} (h : s.Canonical) (hf : ∀ t n c it, t.Canonical → (f t n c it).Canonical) :
    Out.Canonical (s.fire i k g gs ds f) := by
  unfold State.fire
  dsimp only
  split
  · exact h.next
  · exact h.next.ite (h.fetchError.next.ite (h.next.ite (h.icFetch.setCore.next.ite (h.icFetch.next.ite (hf _ _ _ _
        h.icFetch).next))))

theorem State.Canonical.fireCore {i : Instr} {k : CoreRef} {g : Guard} {gs : List Reg} {ds : List DReg} {f : Core → Core}
    (h : s.Canonical) :
    Out.Canonical (s.fireCore i k g gs ds f) :=
  h.fire fun _ _ _ _ ht => ht.setCore

theorem execIllegalInstruction_canonical {k : CoreRef} (h : s.Canonical) : Out.Canonical (execIllegalInstruction k s) := by
  unfold execIllegalInstruction
  dsimp only
  split
  · exact h.next
  · refine Out.Canonical.ite h.next ?_
    split
    · exact h.illegalAt.next
    · refine Out.Canonical.ite h.fetchError.next ?_
      refine Out.Canonical.ite h.next ?_
      split
      · exact h.icFetch.setCore.next.ite (h.icFetch.next.ite h.icFetch.illegalAt.next)
      · exact h.icFetch.illegalAt.next

/-! ### Floating-point instructions -/

theorem State.Canonical.fpu {i : Instr} {k : CoreRef} {g : Guard} {a b c : Reg} {f : W64 → W64 → W64 → Nat × FFlags}
    (h : s.Canonical) :
    Out.Canonical (s.fpu i k g a b c f) :=
  h.fireCore

theorem execFadd_canonical {k : CoreRef} {g : Guard} {bf : Bool} {a b c : Reg} (h : s.Canonical) :
    Out.Canonical (execFadd k g bf a b c s) :=
  h.fpu

theorem execFsub_canonical {k : CoreRef} {g : Guard} {bf : Bool} {a b c : Reg} (h : s.Canonical) :
    Out.Canonical (execFsub k g bf a b c s) :=
  h.fpu

theorem execFmul_canonical {k : CoreRef} {g : Guard} {bf : Bool} {a b c : Reg} (h : s.Canonical) :
    Out.Canonical (execFmul k g bf a b c s) :=
  h.fpu

theorem execFdiv_canonical {k : CoreRef} {g : Guard} {bf : Bool} {a b c : Reg} (h : s.Canonical) :
    Out.Canonical (execFdiv k g bf a b c s) :=
  h.fpu

theorem execFmin_canonical {k : CoreRef} {g : Guard} {bf : Bool} {a b c : Reg} (h : s.Canonical) :
    Out.Canonical (execFmin k g bf a b c s) :=
  h.fpu

theorem execFmax_canonical {k : CoreRef} {g : Guard} {bf : Bool} {a b c : Reg} (h : s.Canonical) :
    Out.Canonical (execFmax k g bf a b c s) :=
  h.fpu

theorem execFfma_canonical {k : CoreRef} {g : Guard} {bf : Bool} {a b c : Reg} (h : s.Canonical) :
    Out.Canonical (execFfma k g bf a b c s) :=
  h.fpu

theorem execFsqrt_canonical {k : CoreRef} {g : Guard} {bf : Bool} {a b : Reg} (h : s.Canonical) :
    Out.Canonical (execFsqrt k g bf a b s) :=
  h.fpu

theorem execFabs_canonical {k : CoreRef} {g : Guard} {bf : Bool} {a b : Reg} (h : s.Canonical) :
    Out.Canonical (execFabs k g bf a b s) :=
  h.fpu

theorem execFneg_canonical {k : CoreRef} {g : Guard} {bf : Bool} {a b : Reg} (h : s.Canonical) :
    Out.Canonical (execFneg k g bf a b s) :=
  h.fpu

theorem execFcvtSL_canonical {k : CoreRef} {g : Guard} {a b : Reg} (h : s.Canonical) : Out.Canonical (execFcvtSL k g a b s) :=
  h.fpu
theorem execFcvtLS_canonical {k : CoreRef} {g : Guard} {a b : Reg} (h : s.Canonical) : Out.Canonical (execFcvtLS k g a b s) :=
  h.fpu
theorem execFcvtBfS_canonical {k : CoreRef} {g : Guard} {a b : Reg} (h : s.Canonical) : Out.Canonical (execFcvtBfS k g a b s) :=
  h.fpu
theorem execFcvtSBf_canonical {k : CoreRef} {g : Guard} {a b : Reg} (h : s.Canonical) : Out.Canonical (execFcvtSBf k g a b s) :=
  h.fpu

theorem execFcmp_canonical {k : CoreRef} {g : Guard} {cd : FCond} {p : PReg} {b c : Reg} (h : s.Canonical) :
    Out.Canonical (execFcmp k g cd p b c s) :=
  h.fireCore

/-! ### What a load in flight lands -/

theorem State.Canonical.leavePark (h : s.Canonical) : s.leavePark.Canonical := h.update.ite h

theorem State.Canonical.scanDr {x : BoundaryScan} (h : s.Canonical) : (s.scanDr x).Canonical := by
  unfold State.scanDr
  dsimp only
  split
  · exact h.update.emit
  · exact h.update
  · exact h

/-! ### Integer instructions -/

theorem State.Canonical.alu {i : Instr} {k : CoreRef} {g : Guard} {a b c : Reg} {f : W64 → W64 → W64} (h : s.Canonical) :
    Out.Canonical (s.alu i k g a b c f) :=
  h.fireCore

theorem State.Canonical.aluI {i : Instr} {k : CoreRef} {g : Guard} {a b : Reg} {imm : W64} {f : W64 → W64 → W64}
    (h : s.Canonical) :
    Out.Canonical (s.aluI i k g a b imm f) :=
  h.fireCore

theorem execAdd_canonical {k : CoreRef} {g : Guard} {a b c : Reg} (h : s.Canonical) : Out.Canonical (execAdd k g a b c s) :=
  h.alu
theorem execSub_canonical {k : CoreRef} {g : Guard} {a b c : Reg} (h : s.Canonical) : Out.Canonical (execSub k g a b c s) :=
  h.alu
theorem execAnd_canonical {k : CoreRef} {g : Guard} {a b c : Reg} (h : s.Canonical) : Out.Canonical (execAnd k g a b c s) :=
  h.alu
theorem execOr_canonical {k : CoreRef} {g : Guard} {a b c : Reg} (h : s.Canonical) : Out.Canonical (execOr k g a b c s) := h.alu
theorem execXor_canonical {k : CoreRef} {g : Guard} {a b c : Reg} (h : s.Canonical) : Out.Canonical (execXor k g a b c s) :=
  h.alu
theorem execShl_canonical {k : CoreRef} {g : Guard} {a b c : Reg} (h : s.Canonical) : Out.Canonical (execShl k g a b c s) :=
  h.alu
theorem execShr_canonical {k : CoreRef} {g : Guard} {a b c : Reg} (h : s.Canonical) : Out.Canonical (execShr k g a b c s) :=
  h.alu
theorem execSra_canonical {k : CoreRef} {g : Guard} {a b c : Reg} (h : s.Canonical) : Out.Canonical (execSra k g a b c s) :=
  h.alu
theorem execMul_canonical {k : CoreRef} {g : Guard} {a b c : Reg} (h : s.Canonical) : Out.Canonical (execMul k g a b c s) :=
  h.alu
theorem execMulhu_canonical {k : CoreRef} {g : Guard} {a b c : Reg} (h : s.Canonical) : Out.Canonical (execMulhu k g a b c s) :=
  h.alu
theorem execMulh_canonical {k : CoreRef} {g : Guard} {a b c : Reg} (h : s.Canonical) : Out.Canonical (execMulh k g a b c s) :=
  h.alu
theorem execDivu_canonical {k : CoreRef} {g : Guard} {a b c : Reg} (h : s.Canonical) : Out.Canonical (execDivu k g a b c s) :=
  h.alu
theorem execRemu_canonical {k : CoreRef} {g : Guard} {a b c : Reg} (h : s.Canonical) : Out.Canonical (execRemu k g a b c s) :=
  h.alu
theorem execDiv_canonical {k : CoreRef} {g : Guard} {a b c : Reg} (h : s.Canonical) : Out.Canonical (execDiv k g a b c s) :=
  h.alu
theorem execRem_canonical {k : CoreRef} {g : Guard} {a b c : Reg} (h : s.Canonical) : Out.Canonical (execRem k g a b c s) :=
  h.alu
theorem execMinu_canonical {k : CoreRef} {g : Guard} {a b c : Reg} (h : s.Canonical) : Out.Canonical (execMinu k g a b c s) :=
  h.alu
theorem execMaxu_canonical {k : CoreRef} {g : Guard} {a b c : Reg} (h : s.Canonical) : Out.Canonical (execMaxu k g a b c s) :=
  h.alu
theorem execMin_canonical {k : CoreRef} {g : Guard} {a b c : Reg} (h : s.Canonical) : Out.Canonical (execMin k g a b c s) :=
  h.alu
theorem execMax_canonical {k : CoreRef} {g : Guard} {a b c : Reg} (h : s.Canonical) : Out.Canonical (execMax k g a b c s) :=
  h.alu
theorem execPopc_canonical {k : CoreRef} {g : Guard} {a b : Reg} (h : s.Canonical) : Out.Canonical (execPopc k g a b s) := h.alu
theorem execClz_canonical {k : CoreRef} {g : Guard} {a b : Reg} (h : s.Canonical) : Out.Canonical (execClz k g a b s) := h.alu

theorem execAddi_canonical {k : CoreRef} {g : Guard} {a b : Reg} {imm : W32} (h : s.Canonical) :
    Out.Canonical (execAddi k g a b imm s) :=
  h.aluI

theorem execAndi_canonical {k : CoreRef} {g : Guard} {a b : Reg} {imm : W32} (h : s.Canonical) :
    Out.Canonical (execAndi k g a b imm s) :=
  h.aluI

theorem execOri_canonical {k : CoreRef} {g : Guard} {a b : Reg} {imm : W32} (h : s.Canonical) :
    Out.Canonical (execOri k g a b imm s) :=
  h.aluI

theorem execXori_canonical {k : CoreRef} {g : Guard} {a b : Reg} {imm : W32} (h : s.Canonical) :
    Out.Canonical (execXori k g a b imm s) :=
  h.aluI

theorem execShli_canonical {k : CoreRef} {g : Guard} {a b : Reg} {imm : W32} (h : s.Canonical) :
    Out.Canonical (execShli k g a b imm s) :=
  h.aluI

theorem execShri_canonical {k : CoreRef} {g : Guard} {a b : Reg} {imm : W32} (h : s.Canonical) :
    Out.Canonical (execShri k g a b imm s) :=
  h.aluI

theorem execSrai_canonical {k : CoreRef} {g : Guard} {a b : Reg} {imm : W32} (h : s.Canonical) :
    Out.Canonical (execSrai k g a b imm s) :=
  h.aluI

theorem execMuli_canonical {k : CoreRef} {g : Guard} {a b : Reg} {imm : W32} (h : s.Canonical) :
    Out.Canonical (execMuli k g a b imm s) :=
  h.aluI

theorem execLi_canonical {k : CoreRef} {g : Guard} {a : Reg} {imm : W32} (h : s.Canonical) :
    Out.Canonical (execLi k g a imm s) :=
  h.aluI

theorem execLih_canonical {k : CoreRef} {g : Guard} {a b : Reg} {imm : W32} (h : s.Canonical) :
    Out.Canonical (execLih k g a b imm s) :=
  h.aluI

theorem execCmp_canonical {k : CoreRef} {g : Guard} {cd : Cond} {p : PReg} {b c : Reg} (h : s.Canonical) :
    Out.Canonical (execCmp k g cd p b c s) :=
  h.fireCore

theorem execCmpi_canonical {k : CoreRef} {g : Guard} {cd : Cond} {p : PReg} {b : Reg} {imm : W32} (h : s.Canonical) :
    Out.Canonical (execCmpi k g cd p b imm s) :=
  h.fireCore

theorem execPand_canonical {k : CoreRef} {g : Guard} {p b c : PReg} (h : s.Canonical) : Out.Canonical (execPand k g p b c s) :=
  h.fireCore
theorem execPor_canonical {k : CoreRef} {g : Guard} {p b c : PReg} (h : s.Canonical) : Out.Canonical (execPor k g p b c s) :=
  h.fireCore
theorem execPxor_canonical {k : CoreRef} {g : Guard} {p b c : PReg} (h : s.Canonical) : Out.Canonical (execPxor k g p b c s) :=
  h.fireCore

theorem execPandn_canonical {k : CoreRef} {g : Guard} {p b c : PReg} (h : s.Canonical) :
    Out.Canonical (execPandn k g p b c s) :=
  h.fireCore

/-! ### Memory instructions -/

theorem State.Canonical.dataWrite {k a : Nat} {b : List Byte} (h : s.Canonical) : (s.dataWrite k a b).Canonical :=
  h.withDmem (Mem.wf_writeN _ _ _ h.dmem)
theorem State.Canonical.pendLoad {n : Nat} {p : PendLoad} (h : s.Canonical) : (s.pendLoad n p).Canonical := h.setCore

theorem State.Canonical.coreLoad {k : Nat} {it : Item} {sp : Space} {a n : Nat} {desc : Bool} {reg : Nat} {v : Nat → Nat}
    (h : s.Canonical) :
    (s.coreLoad k it sp a n desc reg v).Canonical := by
  unfold State.coreLoad
  dsimp only
  split
  · exact h.illegalAt
  · exact h.setCore
  · exact h.pendLoad
  · split
    · exact h.failAcc
    · exact h.readTier.snd.pendLoad

theorem State.Canonical.coreStore {k : Nat} {it : Item} {sp : Space} {a : Nat} {b : List Byte} (h : s.Canonical) :
    (s.coreStore k it sp a b).Canonical := by
  unfold State.coreStore
  dsimp only
  split
  · exact h.illegalAt
  · exact h.dataWrite.setCore
  · exact h.storeWrite.setCore
  · split
    · exact h.failAcc
    · exact h.taskWrite.setCore

theorem execLd_canonical {k : CoreRef} {g : Guard} {sz : ASize} {sign : Bool} {sp : Space} {a b : Reg} {off : W32}
    (h : s.Canonical) :
    Out.Canonical (execLd k g sz sign sp a b off s) :=
  h.fire fun _ _ _ _ ht => ht.coreLoad

theorem execSt_canonical {k : CoreRef} {g : Guard} {sz : ASize} {sp : Space} {b c : Reg} {off : W32} (h : s.Canonical) :
    Out.Canonical (execSt k g sz sp b c off s) :=
  h.fire fun _ _ _ _ ht => ht.coreStore

theorem State.Canonical.descLoad {k : Nat} {it : Item} {off d : Nat} (h : s.Canonical) : (s.descLoad k it off d).Canonical :=
  h.illegalAt.ite (h.imageError.ite h.imageRead.pendLoad)

theorem execDld_canonical {k : CoreRef} {g : Guard} {sp : Space} {d : DReg} {b : Reg} {off : W32} (h : s.Canonical) :
    Out.Canonical (execDld k g sp d b off s) :=
  h.fire fun _ _ _ _ ht => ht.descLoad.ite ht.coreLoad

theorem execDst_canonical {k : CoreRef} {g : Guard} {sp : Space} {d : DReg} {b : Reg} {off : W32} (h : s.Canonical) :
    Out.Canonical (execDst k g sp d b off s) :=
  h.fire fun _ _ _ _ ht => ht.coreStore

theorem execLoadComplete_canonical {k : CoreRef} (h : s.Canonical) : Out.Canonical (execLoadComplete k s) := by
  unfold execLoadComplete
  refine Out.Canonical.ite h.next ?_
  dsimp only
  split
  · exact h.next
  · exact h.setCore.next

theorem execB_canonical {k : CoreRef} {g : Guard} {imm : W32} (h : s.Canonical) : Out.Canonical (execB k g imm s) :=
  h.fire fun _ _ _ _ ht => ht.setCore

theorem execBcc_canonical {k : CoreRef} {g : Guard} {cd : Cond} {b c : Reg} {imm : W32} (h : s.Canonical) :
    Out.Canonical (execBcc k g cd b c imm s) :=
  h.fire fun _ _ _ _ ht => ht.setCore

theorem execJal_canonical {k : CoreRef} {g : Guard} {a : Reg} {imm : W32} (h : s.Canonical) :
    Out.Canonical (execJal k g a imm s) :=
  h.fire fun _ _ _ _ ht => ht.setCore

theorem execJr_canonical {k : CoreRef} {g : Guard} {b : Reg} {imm : W32} (h : s.Canonical) :
    Out.Canonical (execJr k g b imm s) :=
  h.fire fun _ _ _ _ ht => ht.illegalAt.ite ht.setCore

theorem execDset_canonical {k : CoreRef} {g : Guard} {sz : ASize} {d : DReg} {b : Reg} {byte : BitVec 6} (h : s.Canonical) :
    Out.Canonical (execDset k g sz d b byte s) :=
  h.fireCore

theorem execDget_canonical {k : CoreRef} {g : Guard} {sz : ASize} {a : Reg} {d : DReg} {byte : BitVec 6} (h : s.Canonical) :
    Out.Canonical (execDget k g sz a d byte s) :=
  h.fireCore

theorem execDclr_canonical {k : CoreRef} {g : Guard} {d : DReg} (h : s.Canonical) : Out.Canonical (execDclr k g d s) :=
  h.fireCore
theorem execDmov_canonical {k : CoreRef} {g : Guard} {d e : DReg} (h : s.Canonical) : Out.Canonical (execDmov k g d e s) :=
  h.fireCore
theorem execFenceSpire_canonical {k : CoreRef} {g : Guard} (h : s.Canonical) : Out.Canonical (execFenceSpire k g s) :=
  h.fireCore
theorem execFenceDev_canonical {k : CoreRef} {g : Guard} (h : s.Canonical) : Out.Canonical (execFenceDev k g s) := h.fireCore
theorem execFenceSys_canonical {k : CoreRef} {g : Guard} (h : s.Canonical) : Out.Canonical (execFenceSys k g s) := h.fireCore

theorem execCsrr_canonical {k : CoreRef} {g : Guard} {a : Reg} {sel : BitVec 12} (h : s.Canonical) :
    Out.Canonical (execCsrr k g a sel s) := by
  unfold execCsrr
  refine State.Canonical.fire h fun _ _ _ _ ht => ?_
  split
  · exact ht.setCore
  · exact ht.illegalAt

theorem execCsrw_canonical {k : CoreRef} {g : Guard} {b : Reg} {sel : BitVec 12} (h : s.Canonical) :
    Out.Canonical (execCsrw k g b sel s) :=
  h.fire fun _ _ _ _ ht => ht.illegalAt.ite ht.setCore

theorem execTrace_canonical {k : CoreRef} {g : Guard} {b : Reg} {tag : BitVec 16} (h : s.Canonical) :
    Out.Canonical (execTrace k g b tag s) :=
  h.fire fun _ _ _ _ ht => ht.setCore.ringPut

/-! ### Synchronisation instructions -/

theorem State.Canonical.retire {k : Nat} (h : s.Canonical) : (s.retire k).Canonical := h.setCore

theorem execSig_canonical {k : CoreRef} {g : Guard} {o : SOp} (h : s.Canonical) : Out.Canonical (execSig k g o s) := by
  unfold execSig
  refine State.Canonical.fire h fun _ _ _ _ ht => ?_
  dsimp only
  split
  · exact ht.illegalAt.ite ht.addCtr.retire
  · exact ht.illegalAt

theorem State.Canonical.waitAt {w : Waiter} (h : s.Canonical) : (s.waitAt w).Canonical := by
  unfold State.waitAt
  refine State.Canonical.ite h.passWait ?_
  refine State.Canonical.setCore ?_
  dsimp only
  split
  · rename_i e
    exact h.register.of_eq e
  · exact h.bump.update

theorem State.Canonical.waitOn {k : Nat} {it : Item} {kind vc phys lanes target : Nat} (h : s.Canonical) :
    (s.waitOn k it kind vc phys lanes target).Canonical :=
  h.waitAt

theorem execWaitGe_canonical {k : CoreRef} {g : Guard} {o : SOp} (h : s.Canonical) : Out.Canonical (execWaitGe k g o s) := by
  unfold execWaitGe
  refine State.Canonical.fire h fun _ _ _ _ ht => ?_
  dsimp only
  split
  · exact ht.waitOn
  · exact ht.illegalAt

theorem execWaitC_canonical {k : CoreRef} {g : Guard} {o : SOp} (h : s.Canonical) : Out.Canonical (execWaitC k g o s) := by
  unfold execWaitC
  refine State.Canonical.fire h fun _ _ _ _ ht => ?_
  dsimp only
  split
  · exact ht.illegalAt.ite ht.waitOn
  · exact ht.illegalAt

theorem execArrive_canonical {k : CoreRef} {g : Guard} {o : SOp} (h : s.Canonical) : Out.Canonical (execArrive k g o s) := by
  unfold execArrive
  refine State.Canonical.fire h fun _ _ _ _ ht => ?_
  dsimp only
  split
  · exact ht.illegalAt.ite ht.addCtr.retire
  · exact ht.illegalAt

theorem execWaitB_canonical {k : CoreRef} {g : Guard} {o : SOp} (h : s.Canonical) : Out.Canonical (execWaitB k g o s) := by
  unfold execWaitB
  refine State.Canonical.fire h fun _ _ _ _ ht => ?_
  dsimp only
  split
  · exact ht.waitOn
  · exact ht.illegalAt

theorem execCread_canonical {k : CoreRef} {g : Guard} {a : Reg} {o : SOp} (h : s.Canonical) :
    Out.Canonical (execCread k g a o s) := by
  unfold execCread
  refine State.Canonical.fire h fun _ _ _ _ ht => ?_
  split
  · exact ht.setCore
  · exact ht.setCore
  · exact ht.illegalAt

theorem execWaitRetire_canonical {k : CoreRef} (h : s.Canonical) : Out.Canonical (execWaitRetire k s) :=
  h.next.ite (h.setCore.dropWaiter.next.ite h.next)

/-! ### Work of a task: accumulators, ends, next passes -/

theorem State.Canonical.pushRecord {t : Task} {num prio : Nat} {rec : List Byte} (h : s.Canonical) :
    (s.pushRecord t num prio rec).Canonical :=
  h.update.bump.traceEnt.updateBp.ite h.update.updateBp

theorem State.Canonical.expandLoop {n key asn : Nat} (h : s.Canonical) : (State.expandLoop n s key asn).Canonical := by
  induction n generalizing s with
  | zero => exact h
  | succ n ih =>
    unfold State.expandLoop
    split
    · exact h
    · refine h.ite ?_
      dsimp only
      split
      · exact h.failAcc
      · exact h.readTier.snd.failTask.ite (ih h.readTier.snd.pushRecord.modTask)

theorem State.Canonical.expandFirst {t : Task} (h : s.Canonical) : (s.expandFirst t).Canonical :=
  h.failTask.ite (h.failTask.ite ((h.ite h.bump.modTask).ite h.modTask.expandLoop))

theorem execTaskExpand_canonical {key : Fin 16} {asn : Nat} (h : s.Canonical) : Out.Canonical (execTaskExpand key asn s) := by
  unfold execTaskExpand
  split
  · exact h.next
  · exact h.next.ite (h.expandFirst.next.ite h.expandLoop.next)

theorem execTaskRetry_canonical {key : Fin 16} {asn : Nat} (h : s.Canonical) : Out.Canonical (execTaskRetry key asn s) := by
  unfold execTaskRetry
  split
  · exact h.next
  · exact h.next.ite h.restoreShadows.bump.modTask.expandLoop.next

theorem State.Canonical.prefetchEntry {k : Nat} {i : Item} (h : s.Canonical) : (s.prefetchEntry k i).Canonical := by
  unfold State.prefetchEntry
  split
  · exact h.ite h.icFetch
  · exact h

theorem State.Canonical.placeEntry {k : Nat} {e : Entry} (h : s.Canonical) : (s.placeEntry k e).Canonical :=
  (h.update.setCore.bump.prefetchEntry.bump.ite h.update.setCore.bump.prefetchEntry).traceItem.updateBp

theorem execNextSlotFill_canonical {k : CoreRef} (h : s.Canonical) : Out.Canonical (execNextSlotFill k s) := by
  unfold execNextSlotFill
  refine Out.Canonical.ite h.next ?_
  dsimp only
  split
  · exact h.next
  · split
    · exact h.next
    · split
      · exact h.next
      · exact h.update.placeEntry.next

theorem execItemStart_canonical {k : CoreRef} (h : s.Canonical) : Out.Canonical (execItemStart k s) := by
  unfold execItemStart
  dsimp only
  split
  · refine h.next.ite ?_
    split
    · exact h.setCore.traceItem.updateBp.illegal.next
    · exact (h.clearDmem.setCore.traceItem.updateBp.bump.ite h.clearDmem.setCore.traceItem.updateBp).next
  · exact h.next

theorem execEndI_canonical {k : CoreRef} {g : Guard} (h : s.Canonical) : Out.Canonical (execEndI k g s) :=
  h.fire fun _ _ _ _ ht => ht.setCore

theorem State.Canonical.fragEnd {i : Item} (h : s.Canonical) : (s.fragEnd i).Canonical := by
  unfold State.fragEnd
  refine State.Canonical.ite h ?_
  split
  · exact h
  · exact h.update.ite h.update.traceEnt

theorem State.Canonical.checkComplete {key asn : Nat} (h : s.Canonical) : (s.checkComplete key asn).Canonical := by
  unfold State.checkComplete
  split
  · exact h
  · exact h.endTask.ite h

theorem execItemEnd_canonical {k : CoreRef} (h : s.Canonical) : Out.Canonical (execItemEnd k s) := by
  unfold execItemEnd
  dsimp only
  split
  · exact h.next
  · exact h.next.ite h.setCore.traceItem.fragEnd.checkComplete.dueClears.checkDrained.next

theorem execSpawn_canonical {k : CoreRef} {g : Guard} {d : DReg} (h : s.Canonical) : Out.Canonical (execSpawn k g d s) :=
  h.fire fun _ _ _ _ ht => ht.illegalAt.ite (ht.bump.ite ht).setCore

theorem execSpawnAccept_canonical {k : CoreRef} (h : s.Canonical) : Out.Canonical (execSpawnAccept k s) := by
  unfold execSpawnAccept
  dsimp only
  split
  · exact h.next
  · refine Out.Canonical.ite h.next ?_
    refine Out.Canonical.ite (h.ite h.bump.setCore).next ?_
    split
    · exact h.next
    · exact h.failTask.next.ite h.setCore.dtrace.pushRecord.modTask.next

/-! ### Starts and completions of units -/

theorem State.Canonical.markStarted {id : Nat} (h : s.Canonical) : (s.markStarted id).Canonical := h.update
theorem State.Canonical.sparseFault {o : Op} (h : s.Canonical) : (s.sparseFault o).Canonical := h.failTask
theorem State.Canonical.rowFault {o : Op} {origin kind : Nat} (h : s.Canonical) : (s.rowFault o origin kind).Canonical :=
  h.report.failTask
theorem State.Canonical.offsetFault {o : Op} (h : s.Canonical) : (s.offsetFault o).Canonical := h.rowFault

theorem State.Canonical.opRead {o : Op} {a n : Nat} (h : s.Canonical) :
    Answers State.Canonical SndCanonical (s.opRead o a n) := by
  unfold State.opRead
  refine Answers.ite (Answers.ok h.pair) ?_
  refine Answers.ite (Answers.ok h.pair) ?_
  split
  · exact Answers.error h.failAcc
  · exact Answers.ok h.readTier

theorem State.Canonical.opWrite {o : Op} {a : Nat} {b : List Byte} (h : s.Canonical) :
    Answers State.Canonical State.Canonical (s.opWrite o a b) := by
  unfold State.opWrite
  refine Answers.ite (Answers.ok h) ?_
  refine Answers.ite (Answers.ok h.storeWrite) ?_
  refine Answers.ite (Answers.ok h) ?_
  split
  · exact Answers.error h.failAcc
  · exact Answers.ok h.taskWrite

/-! ### Scales -/

theorem State.Canonical.setScale {o : Op} {n : Nat} {r : Scale} (h : s.Canonical) : (s.setScale o n r).Canonical :=
  h.withScales (Mem.wf_writeN _ _ _ h.scales)
theorem State.Canonical.setGs {o : Op} {n e : Nat} (h : s.Canonical) : (s.setGs o n e).Canonical :=
  h.withGscales (Mem.wf_write _ _ _ h.gscales)

theorem State.Canonical.setGss {o : Op} {l : List Nat} {n : Nat} (h : s.Canonical) : (s.setGss o n l).Canonical := by
  induction l generalizing s n with
  | nil => exact h
  | cons e l ih => exact ih h.setGs

theorem State.Canonical.countDerived {r : Derived} (h : s.Canonical) : (s.countDerived r).Canonical :=
  (h.bump.ite h).bump.ite (h.bump.ite h)
theorem State.Canonical.countTern {fmt : Nat} {l : List Nat} (h : s.Canonical) : (s.countTern fmt l).Canonical := h.ite h.bump

/-! ### Versions of a table -/

theorem State.Canonical.openBatch {o : Op} {n : Nat} (h : s.Canonical) : (s.openBatch o n).Canonical := h.ite h.update

/-! ### The stream unit -/

theorem State.Canonical.exchAccept {o : Op} (h : s.Canonical) : (s.exchAccept o).Canonical := by
  unfold State.exchAccept
  refine State.Canonical.ite h ?_
  refine State.Canonical.ite h.update ?_
  dsimp only
  split
  · exact h.openBatch.update
  · exact h.openBatch

theorem State.Canonical.strmAccept {o : Op} (h : s.Canonical) : (s.strmAccept o).Canonical := by
  unfold State.strmAccept
  split
  · exact h
  · refine State.Canonical.ite (h.ite h.exchAccept.setStrm) ?_
    split
    · exact h
    · exact h.exchAccept.setStrm.ite (h.setStrm.ite h)

theorem State.Canonical.checkExch (h : s.Canonical) : s.checkExch.Canonical := h.foldl fun _ _ ht => ht.checkPass.runAdvs.ite ht
theorem State.Canonical.grantStrm {p : Nat} {x : Strm} (h : s.Canonical) : (s.grantStrm p x).Canonical :=
  h.setStrm.ite h.setStrm.checkPass

theorem State.Canonical.tierRow {x : Strm} {r : Nat} (h : s.Canonical) :
    Answers State.Canonical SndCanonical (s.tierRow x r) := by
  unfold State.tierRow
  refine Answers.ite h.opRead ?_
  refine Answers.bind h.opRead fun _ ht => ?_
  refine Answers.ite (Answers.error ht.snd.sparseFault) ?_
  refine Answers.bind ht.snd.opRead fun _ ht1 => ?_
  dsimp only
  split
  · exact Answers.ok ht1.snd.pair
  · exact Answers.error ht1.snd.sparseFault

theorem State.Canonical.inRow {x : Strm} {r : Nat} (h : s.Canonical) : Answers State.Canonical SndCanonical (s.inRow x r) :=
  Answers.ite (Answers.ok h.pair) (Answers.ite (Answers.ok h.pair) h.tierRow)

theorem State.Canonical.fillRows {n r off step : Nat} {x : Strm} (h : s.Canonical) :
    Answers State.Canonical State.Canonical (State.fillRows n s x r off step) := by
  induction n generalizing s r off with
  | zero => exact Answers.ok h
  | succ n ih => exact h.inRow.bind fun _ hp => ih (hp.snd.foldl fun _ _ ht => ht.storeWrite)

theorem State.Canonical.outRow {x : Strm} {r : Nat} {b : List Byte} (h : s.Canonical) :
    Answers State.Canonical State.Canonical (s.outRow x r b) := by
  unfold State.outRow
  refine Answers.ite ?_ (Answers.ite (Answers.ok h.modExch) (h.opWrite.ite h.opWrite))
  refine Answers.ok ?_
  split
  · exact h.modReq
  · exact h

theorem State.Canonical.drainRows {n r off step : Nat} {x : Strm} (h : s.Canonical) :
    Answers State.Canonical State.Canonical (State.drainRows n s x r off step) := by
  induction n generalizing s r off with
  | zero => exact Answers.ok h
  | succ n ih => exact h.outRow.bind fun _ ht => ih ht

theorem State.Canonical.deadline {x : Strm} (h : s.Canonical) : (s.deadline x).Canonical := h.bump.modTask.ite h

theorem execSlotFillComplete_canonical {n : Fin 16384} (h : s.Canonical) : Out.Canonical (execSlotFillComplete n s) := by
  unfold execSlotFillComplete
  refine Out.Canonical.ite h.next ?_
  dsimp only
  split
  · exact h.next
  · refine Out.Canonical.ite h.next ?_
    split
    · rename_i e2
      exact (h.fillRows.of_error e2).next
    · rename_i e3
      exact (h.fillRows.of_ok e3).deadline.setStrm.increment.runAdvs.next

theorem execSlotDrainComplete_canonical {n : Fin 16384} (h : s.Canonical) : Out.Canonical (execSlotDrainComplete n s) := by
  unfold execSlotDrainComplete
  refine Out.Canonical.ite h.next ?_
  dsimp only
  split
  · exact h.next
  · refine Out.Canonical.ite h.next ?_
    split
    · rename_i e2
      exact (h.drainRows.of_error e2).next
    · rename_i e3
      exact (h.drainRows.of_ok e3).deadline.setStrm.increment.checkPass.runAdvs.next

theorem execGranuleComplete_canonical {n : Fin 16384} (h : s.Canonical) : Out.Canonical (execGranuleComplete n s) := by
  unfold execGranuleComplete
  refine Out.Canonical.ite h.next ?_
  dsimp only
  split
  · exact h.next
  · refine Out.Canonical.ite h.next ?_
    split
    · rename_i e2
      exact ((h.drainRows.ite h.fillRows).of_error e2).next
    · rename_i e3
      exact ((h.drainRows.ite h.fillRows).of_ok e3).deadline.setStrm.checkPass.next

theorem execBufferGrant_canonical {n : Fin 16384} (h : s.Canonical) : Out.Canonical (execBufferGrant n s) := by
  unfold execBufferGrant
  refine Out.Canonical.ite h.next ?_
  split
  · exact (h.grantStrm.runAdvs.ite h).next
  · exact h.next

theorem State.Canonical.passStart {p : Nat} (h : s.Canonical) : (s.passStart p).Canonical := by
  unfold State.passStart
  split
  · split
    · exact h
    · exact h.ite h.setStrm.modReq
  · exact h

theorem execRequestPassStart_canonical {n : Fin 16384} (h : s.Canonical) : Out.Canonical (execRequestPassStart n s) :=
  (h.passStart.runAdvs.ite h).next

theorem State.Canonical.shortMove {o : Op} (h : s.Canonical) : (s.shortMove o).Canonical := by
  unfold State.shortMove
  dsimp only
  split
  · rename_i e
    exact ((h.drainRows.ite h.fillRows).of_error e).dropOp
  · rename_i e1
    exact ((h.drainRows.ite h.fillRows).of_ok e1).bump.complete

theorem State.Canonical.strmStart {o : Op} (h : s.Canonical) : (s.strmStart o).Canonical := by
  unfold State.strmStart
  refine State.Canonical.ite h.markStarted ?_
  split
  · exact h.markStarted
  · split
    · exact h.markStarted.dropOp.unitIllegal.ite h.markStarted.dropOp
    · exact (h.markStarted.setStrm.grantStrm.runAdvs.ite h.markStarted.setStrm.bump).ite
          ((h.markStarted.setStrm.checkPass.runAdvs.ite h.markStarted).ite ((h.markStarted.strmIdle.ite h.markStarted).ite
          h.markStarted.setStrm.runAdvs))

/-! ### The array -/

theorem State.Canonical.setRun {id : Nat} {r : ArrRun} (h : s.Canonical) : (s.setRun id r).Canonical := h.update
theorem State.Canonical.mmaStart {o : Op} (h : s.Canonical) : (s.mmaStart o).Canonical := h.setRun
theorem State.Canonical.spoilOut {o : Op} (h : s.Canonical) : (s.spoilOut o).Canonical := h.scramble
theorem State.Canonical.abandon {o : Op} (h : s.Canonical) : (s.abandon o).Canonical := h.dropOp.update

theorem State.Canonical.pullSlots {k n : Nat} {o : Op} (h : s.Canonical) : (State.pullSlots k s o n).Canonical := by
  induction k generalizing s with
  | zero => exact h
  | succ k ih =>
    unfold State.pullSlots
    refine h.ite ?_
    split
    · exact h
    · split
      · exact h
      · split
        · exact h
        · exact (ih h.setRun.setStrm.runAdvs).ite h.setRun.setStrm

theorem State.Canonical.weightBytes {o : Op} {n : Nat} (h : s.Canonical) : SndCanonical (s.weightBytes o n) :=
  h.pullSlots.pair.ite h.pair
theorem State.Canonical.placeTile {o : Op} {t : Tile} (h : s.Canonical) : (s.placeTile o t).Canonical := h.setRun
theorem State.Canonical.consume {o : Op} {n : Nat} (h : s.Canonical) : (s.consume o n).Canonical := h.setRun

theorem State.Canonical.loadBody {o : Op} {t : Tile} {h n : Nat} (hs : s.Canonical) : (s.loadBody o t h n).Canonical := by
  unfold State.loadBody
  refine State.Canonical.ite hs.spoilOut.sparseFault.abandon ?_
  refine State.Canonical.ite hs.unitIllegal.abandon ?_
  refine State.Canonical.ite hs.weightBytes.snd ?_
  dsimp only
  split
  · exact hs.weightBytes.snd.spoilOut.sparseFault.abandon
  · exact hs.weightBytes.snd.consume.countTern.placeTile

theorem State.Canonical.loadTile {o : Op} (h : s.Canonical) : (s.loadTile o).Canonical := by
  unfold State.loadTile
  refine State.Canonical.ite (h.ite h.loadBody) ?_
  refine State.Canonical.ite h.unitIllegal.abandon ?_
  refine State.Canonical.ite h.weightBytes.snd ?_
  split
  · exact h.weightBytes.snd.spoilOut.sparseFault.abandon
  · exact h.weightBytes.snd.ite h.weightBytes.snd.loadBody

theorem execTileLoadComplete_canonical {sp : Fin 64} (h : s.Canonical) : Out.Canonical (execTileLoadComplete sp s) := by
  unfold execTileLoadComplete
  refine Out.Canonical.ite h.next ?_
  split
  · exact h.loadTile.next
  · exact h.next

theorem State.Canonical.writeBlock {o : Op} {r : ArrRun} (h : s.Canonical) : (s.writeBlock o r).Canonical :=
  (h.foldl (fun _ _ ht => ht.storeWrite)).ite (h.foldl (fun _ _ ht1 => ht1.storeWrite)).bump
theorem State.Canonical.writeZmap {o : Op} (h : s.Canonical) : (s.writeZmap o).Canonical := h.ite h.storeWrite

theorem State.Canonical.countTile {sp cls steps skipped : Nat} (h : s.Canonical) :
    (s.countTile sp cls steps skipped).Canonical :=
  h.bump.setReg.ite h.bump.setReg.bump

theorem State.Canonical.applyTile {o : Op} {r0 : ArrRun} {t : Tile} {rest : List Tile} (h : s.Canonical) :
    (s.applyTile o r0 t rest).Canonical :=
  h.countTile.countTern.setRun.ite (h.countTile.countTern.writeBlock.setRun.writeZmap.ite
      h.countTile.countTern.writeBlock.setRun)

theorem execTileApply_canonical {sp : Fin 64} (h : s.Canonical) : Out.Canonical (execTileApply sp s) := by
  unfold execTileApply
  refine Out.Canonical.ite h.next ?_
  split
  · exact h.next
  · dsimp only
    split
    · exact (h.applyTile.ite h).next
    · exact h.next

theorem State.Canonical.mmaRun {o : Op} (h : s.Canonical) : (s.mmaRun o).Canonical := h.setScale.update

/-! Sys2Proof/Machine/Agg.lean -/

theorem State.Canonical.aggWrite {sp fmt a : Nat} {l : List (Nat × Bool)} (h : s.Canonical) :
    (s.aggWrite sp fmt a l).Canonical :=
  h.storeWrite.ite h.storeWrite.bump

theorem State.Canonical.segred {o : Op} (h : s.Canonical) : (s.segred o).Canonical :=
  h.offsetFault.ite (h.aggWrite.ite h.aggWrite)
theorem State.Canonical.combine {o : Op} (h : s.Canonical) : (s.combine o).Canonical := h.aggWrite.ite h.aggWrite
theorem State.Canonical.ewise {o : Op} (h : s.Canonical) : (s.ewise o).Canonical := h.aggWrite.ite h.aggWrite
theorem State.Canonical.smBlock {o : Op} (h : s.Canonical) : (s.smBlock o).Canonical := h.aggWrite.storeWrite
theorem State.Canonical.smRescale {o : Op} (h : s.Canonical) : (s.smRescale o).Canonical := h.aggWrite
theorem State.Canonical.smFinal {o : Op} (h : s.Canonical) : (s.smFinal o).Canonical := h.aggWrite
theorem State.Canonical.smMerge {o : Op} (h : s.Canonical) : (s.smMerge o).Canonical := h.aggWrite.storeWrite
theorem State.Canonical.segSoftmax {o : Op} (h : s.Canonical) : (s.segSoftmax o).Canonical := h.offsetFault.ite h.aggWrite
theorem State.Canonical.aggRun {o : Op} (h : s.Canonical) : (s.aggRun o).Canonical :=
  h.segred.ite (h.combine.ite (h.ewise.ite (h.smBlock.ite (h.smRescale.ite (h.smFinal.ite (h.smMerge.ite h.segSoftmax))))))

/-! ### The optimizer -/

theorem State.Canonical.writeScaled {fmt a : Nat} {l : List Nat} (h : s.Canonical) : (s.writeScaled fmt a l).Canonical :=
  h.storeWrite.storeWrite.bump.bump
theorem State.Canonical.optRun {o : Op} (h : s.Canonical) : (s.optRun o).Canonical :=
  h.storeWrite.writeScaled.writeScaled.bump.bump

/-! ### The quantiser -/

theorem State.Canonical.scanGroups {o : Op} {l : List Nat} (h : s.Canonical) : (s.scanGroups o l).Canonical := h.setGss.setScale
theorem State.Canonical.qscanScan {o : Op} (h : s.Canonical) : (s.qscanScan o).Canonical :=
  h.scanGroups.ite h.setScale.countDerived
theorem State.Canonical.qscanDerive {o : Op} (h : s.Canonical) : (s.qscanDerive o).Canonical := h.ite h.setScale.countDerived
theorem State.Canonical.qscanRun {o : Op} (h : s.Canonical) : (s.qscanRun o).Canonical :=
  h.qscanScan.ite (h.qscanDerive.ite (h.setScale.ite h.storeWrite))
theorem State.Canonical.writeGsout {d : List Byte} {es : List Nat} (h : s.Canonical) : (s.writeGsout d es).Canonical :=
  h.ite h.storeWrite.bump.bump
theorem State.Canonical.rewriteGsout {d : List Byte} {es : List Nat} (h : s.Canonical) : (s.rewriteGsout d es).Canonical :=
  h.ite h.storeWrite

theorem State.Canonical.writeQmap {d : List Byte} {isZero : Nat → Bool} {codes : List Nat} (h : s.Canonical) :
    (s.writeQmap d isZero codes).Canonical :=
  h.ite h.storeWrite

theorem State.Canonical.promote {o : Op} {x : Scale} {es l : List Nat} {ds : List FVal} (h : s.Canonical) :
    (s.promote o x es l ds).Canonical :=
  (h.storeWrite.setScale.setGss.rewriteGsout.ite h.storeWrite.setScale).writeQmap.bump

theorem State.Canonical.writeCounts {o : Op} {r : QcPass} {promoted : Bool} (h : s.Canonical) :
    (s.writeCounts o r promoted).Canonical :=
  h.ite h.storeWrite

theorem State.Canonical.qconvDerive {o : Op} (h : s.Canonical) : (s.qconvDerive o).Canonical := h.ite h.setScale.countDerived

theorem State.Canonical.qconvRun {s0 : State} {o : Op} (h : s0.Canonical) : (s0.qconvRun o).Canonical :=
  (h.qconvDerive.storeWrite.writeGsout.writeQmap.bump.bump.promote.ite
      h.qconvDerive.storeWrite.writeGsout.writeQmap.bump.bump).writeCounts

/-! ### Sparse operations -/

theorem State.Canonical.spPanels {o : Op} {masks : List (List Nat)} {n i len : Nat} (h : s.Canonical) :
    (s.spPanels o masks n i len).1.Canonical := by
  induction n generalizing s i len with
  | zero => exact h
  | succ n ih =>
    unfold State.spPanels
    dsimp only
    split
    · exact ih (h.storeWrite.ite h.storeWrite.bump)
    · exact ih (h.storeWrite.bump.ite h.storeWrite)

theorem State.Canonical.spcmpRun {o : Op} (h : s.Canonical) : (s.spcmpRun o).Canonical :=
  h.imageError.ite ((h.imageRead.ite h).sparseFault.ite (h.imageRead.ite h).spPanels.storeWrite)

/-! ### Checks -/

theorem State.Canonical.noteRefusal {code : Nat} {ctx : Option Nat} {y : Cause} (h : s.Canonical) :
    (s.noteRefusal code ctx y).Canonical :=
  h.ite h.setReg.bump

theorem State.Canonical.answerCtx {c code : Nat} {y : Cause} (h : s.Canonical) : (s.answerCtx c code y).Canonical :=
  h.setF.noteRefusal
theorem State.Canonical.answerDev {code : Nat} {y : Cause} (h : s.Canonical) : (s.answerDev code y).Canonical :=
  h.setF.noteRefusal
theorem State.Canonical.answerRun {y : Cause} (h : s.Canonical) : (s.answerRun y).Canonical :=
  ((h.foldl (fun _ _ ht => ht.setF)).ite h).answerDev
theorem State.Canonical.setShape {c : Nat} (h : s.Canonical) : (s.setShape c).Canonical := h.update.setF
theorem State.Canonical.ctxSwitch {c : Nat} (h : s.Canonical) : (s.ctxSwitch c).Canonical := h.update.ite h.switchClear
theorem State.Canonical.enableCtx {c : Nat} {v : W32} {y : Cause} (h : s.Canonical) : SndCanonical (s.enableCtx c v y) :=
  h.imageRead.answerCtx.pair.ite h.imageRead.answerCtx.setReg.update.setShape.ctxSwitch.pair

/-! ### Row records -/

theorem State.Canonical.probeLine {u a n l : Nat} (h : s.Canonical) : (s.probeLine u a n l).Canonical :=
  h.bump.ite (h.bump.ite (h.victimHit.ite h.bump))
theorem State.Canonical.probeLines {u a n : Nat} {l : List Nat} (h : s.Canonical) : (s.probeLines u a n l).Canonical :=
  h.foldl fun _ _ ht => ht.probeLine

theorem State.Canonical.probeRead {c u a n : Nat} (h : s.Canonical) :
    Answers SndCanonical SndCanonical (s.probeRead c u a n) := by
  unfold State.probeRead
  split
  · exact Answers.error h.pair
  · exact Answers.ok h.probeLines.pair

theorem State.Canonical.rowLoc {c u : Nat} {d : List Byte} {i : Nat} {hot : Bool} {rep : Option (Nat × Nat)} (h : s.Canonical)
    :
    Answers SndCanonical SndCanonical (s.rowLoc c u d i hot rep) :=
  Answers.ite (Answers.ite (Answers.ok h.pair) (Answers.error h.pair)) (h.probeRead.bind (fun _ ht => Answers.ite
      (Answers.ok ht.snd.pair) (Answers.ite (Answers.ok ht.snd.pair) (Answers.error ht.snd.pair))))

theorem State.Canonical.reBump {u off n : Nat} (h : s.Canonical) : (s.reBump u off n).Canonical := h.ite h.bump

theorem State.Canonical.readRow {c u dim : Nat} {r : RowAt} (h : s.Canonical) :
    Answers SndCanonical SndCanonical (s.readRow c u dim r) :=
  h.probeRead.bind fun _ ht => Answers.ok ht.snd.reBump.pair

theorem State.Canonical.writeRowBytes {c u : Nat} {task : Option (Nat × Nat)} {a : Nat} {b : List Byte} (h : s.Canonical) :
    Answers SndCanonical State.Canonical (s.writeRowBytes c u task a b) := by
  unfold State.writeRowBytes
  split
  · exact Answers.error h.pair
  · refine Answers.ok ?_
    refine State.Canonical.bump ?_
    split
    · exact h.taskWrite
    · exact h.writeTier

theorem State.Canonical.sketchAdd {d : List Byte} {u i : Nat} (h : s.Canonical) : (s.sketchAdd d u i).Canonical :=
  h.foldl fun _ _ ht => ht.writeTier

/-! ### Row requests -/

theorem State.Canonical.rqAccept {o : Op} (h : s.Canonical) : (s.rqAccept o).Canonical := by
  unfold State.rqAccept
  refine State.Canonical.ite (h.ite h.modTask).update ?_
  split
  · exact (h.ite h.modTask).update
  · split
    · exact (h.ite h.modTask).update
    · exact (h.ite h.modTask).update.setStrm

theorem State.Canonical.dropReq {id : Nat} (h : s.Canonical) : (s.dropReq id).Canonical := h.dropOp.update

theorem State.Canonical.rqRead {o : Op} {a n : Nat} (h : s.Canonical) :
    Answers State.Canonical SndCanonical (s.rqRead o a n) := by
  unfold State.rqRead
  split
  · exact Answers.error h.failAcc
  · exact Answers.ite (Answers.ok h.pair) (Answers.ok h.readTier)

theorem State.Canonical.countDrops {l : List Routed} (h : s.Canonical) : (s.countDrops l).Canonical :=
  (h.ite h.bump).ite (h.ite h.bump).bump
theorem State.Canonical.putReqLast {q : RowReq} (h : s.Canonical) : (s.putReqLast q).Canonical := h.update

theorem State.Canonical.rqOperands {o : Op} (h : s.Canonical) : Answers State.Canonical SndCanonical (s.rqOperands o) := by
  unfold State.rqOperands
  extract_lets d seen bad n no goOn2 goOn1
  have h2 : ∀ p, SndCanonical p → Answers State.Canonical SndCanonical (goOn2 p) :=
    fun _ hp => hp.snd.rqRead.bind fun _ hq => .ok hq.snd.pair
  have h1 : ∀ p, SndCanonical p → Answers State.Canonical SndCanonical (goOn1 p) :=
    fun _ hp => (hp.snd.rqRead.bind h2).ite ((Answers.ok hp.snd.pair).bind h2)
  exact (h.rqRead.bind h1).ite ((Answers.ok h.pair).bind h1)

theorem State.Canonical.splitWith {q : RowReq} {v : Version} (h : s.Canonical) : (s.splitWith q v).Canonical := by
  unfold State.splitWith
  dsimp only
  split
  · rename_i e
    exact (h.rqOperands.of_error e).dropReq
  · rename_i e1
    split
    · exact (h.rqOperands.of_ok e1).snd.countDrops.failAcc.dropReq
    · exact (h.rqOperands.of_ok e1).snd.countDrops.offsetFault.dropReq.ite ((h.rqOperands.of_ok e1).snd.countDrops.ite
          (h.rqOperands.of_ok e1).snd.countDrops.bump).putReqLast

/-! ### Row engines -/

theorem State.Canonical.reachBad {q : RowReq} (h : s.Canonical) : (s.reachBad q).Canonical := by
  unfold State.reachBad
  split
  · exact h
  · exact h.offsetFault.dropReq.ite h

theorem execSplitterAccept_canonical {id : Nat} (h : s.Canonical) : Out.Canonical (execSplitterAccept id s) := by
  unfold execSplitterAccept
  refine Out.Canonical.ite h.next ?_
  split
  · exact h.next
  · refine Out.Canonical.ite h.reachBad.next ?_
    refine Out.Canonical.ite h.next ?_
    split
    · exact h.unitIllegal.dropReq.next
    · exact (h.ite h.openBatch).splitWith.next

theorem State.Canonical.failRow {q : RowReq} {u : Nat} {e : RowErr} (h : s.Canonical) : (s.failRow q u e).Canonical := by
  unfold State.failRow
  refine State.Canonical.dropReq ?_
  split
  · exact h.bump.rowFault
  · exact h.failAcc

theorem State.Canonical.countIdx {u : Nat} {hot : Bool} {n : Nat} (h : s.Canonical) : (s.countIdx u hot n).Canonical :=
  h.reBump.reBump

theorem State.Canonical.locate {c u : Nat} {t : List Byte} {r : Route} (h : s.Canonical) :
    Answers SndCanonical SndCanonical (s.locate c u t r) :=
  h.rowLoc

theorem State.Canonical.setReq {q : RowReq} (h : s.Canonical) : (s.setReq q).Canonical := h.modReq
theorem State.Canonical.flushSketch {q : RowReq} {u : Nat} (h : s.Canonical) : (s.flushSketch q u).Canonical :=
  (h.foldl (fun _ _ ht => ht.sketchAdd)).setReq
theorem State.Canonical.spillSketch {u : Nat} (h : s.Canonical) : (s.spillSketch u).Canonical :=
  h.ite (h.foldl (fun _ _ ht => ht.flushSketch))
theorem State.Canonical.noteSketch {q : RowReq} {u i n : Nat} (h : s.Canonical) : (s.noteSketch q u i n).Canonical :=
  h.ite (h.modReq.spillSketch.ite (h.ite h.modReq.bump))

theorem State.Canonical.servedIdx {q : RowReq} {u i : Nat} {hot : Bool} {n : Nat} (h : s.Canonical) :
    (s.servedIdx q u i hot n).Canonical :=
  h.countIdx.noteSketch

theorem State.Canonical.readIdx {q : RowReq} {u : Nat} {r : Route} (h : s.Canonical) :
    Answers SndCanonical SndCanonical (s.readIdx q u r) := by
  unfold State.readIdx
  dsimp only
  refine Answers.bind h.locate fun _ ht => ?_
  split
  · exact Answers.ok ht.snd.bump.pair
  · exact ht.snd.readRow.bind fun _ ht3 => Answers.ok ht3.snd.servedIdx.pair

theorem State.Canonical.readIdxs {q : RowReq} {u : Nat} {l : List Route} (h : s.Canonical) :
    Answers SndCanonical SndCanonical (State.readIdxs q u l s) := by
  induction l generalizing s with
  | nil => exact Answers.ok h.pair
  | cons r l ih => exact h.readIdx.bind fun _ h1 => (ih h1.snd).bind fun _ h2 => Answers.ok h2.snd.pair

theorem State.Canonical.putRow {q : RowReq} {u : Nat} {hot : Bool} {a : RowAt} {vals : List Nat} (h : s.Canonical) :
    Answers SndCanonical State.Canonical (s.putRow q u hot a vals) :=
  h.reBump.writeRowBytes.bind fun _ ht => Answers.ok (ht.modReq.ite ht)

theorem State.Canonical.scatterIdx {q : RowReq} {u : Nat} {g : Route × List Route} (h : s.Canonical) :
    Answers SndCanonical State.Canonical (s.scatterIdx q u g) := by
  unfold State.scatterIdx
  dsimp only
  refine Answers.bind h.locate fun _ ht => ?_
  split
  · exact Answers.ok ht.snd.bump
  · exact ((ht.snd.bump.ite ht.snd).servedIdx.foldlM (fun _ _ ht3 => ht3.putRow)).ite ((ht.snd.bump.ite
        ht.snd).servedIdx.readRow.bind (fun _ ht4 => ht4.snd.putRow))

theorem State.Canonical.logIdx {q : RowReq} {u : Nat} {g : Route × List Route} (h : s.Canonical) :
    Answers SndCanonical State.Canonical (s.logIdx q u g) := by
  unfold State.logIdx
  dsimp only
  refine Answers.bind h.locate fun _ ht => ?_
  split
  · exact Answers.ok ht.snd.bump
  · split
    · exact Answers.error ht.snd.pair
    · exact Answers.ok ht.snd.servedIdx.modTask

theorem State.Canonical.scatterAll {q : RowReq} {u : Nat} {exact : Bool} {l : List (Route × List Route)} (h : s.Canonical) :
    Answers SndCanonical State.Canonical (s.scatterAll q u exact l) := by
  induction l generalizing s with
  | nil => exact .ok h
  | cons g l ih => exact (h.logIdx.bind fun _ ht => ih ht).ite (h.scatterIdx.bind fun _ ht => ih ht)

theorem State.Canonical.pfLine {c u n l : Nat} (h : s.Canonical) : (s.pfLine c u n l).Canonical := by
  unfold State.pfLine
  refine State.Canonical.ite h.bump ?_
  dsimp only
  split
  · exact h.settleFill.bump
  · exact (h.settleFill.victimHit.allocate.ite h.settleFill.reBump.allocate).bump

theorem State.Canonical.pfProbed {c l : Nat} (h : s.Canonical) : (s.pfProbed c l).Canonical :=
  h.bump.ite (h.settleFill.ite h.settleFill.allocate.bump)
theorem State.Canonical.pfEntry {c u : Nat} {t : List Byte} {r : Route} (h : s.Canonical) : (s.pfEntry c u t r).Canonical :=
  h.ite (h.foldl (fun _ _ ht => ht.pfProbed))

theorem State.Canonical.pfIdx {q : RowReq} {u : Nat} {r : Route} (h : s.Canonical) : (s.pfIdx q u r).Canonical := by
  unfold State.pfIdx
  dsimp only
  split
  · rename_i e
    exact (h.locate.of_ok e).snd.bump.pfEntry
  · rename_i e1
    exact (h.locate.of_ok e1).snd.servedIdx.pfEntry.foldl fun _ _ ht2 => ht2.pfLine
  · rename_i e3
    exact (h.locate.of_error e3).snd.servedIdx.pfEntry.bump
  · rename_i e4
    exact (h.locate.of_error e4).snd.servedIdx.pfEntry

theorem State.Canonical.serveAt {q : RowReq} {u : Nat} {rs : List Route} (h : s.Canonical) :
    Answers SndCanonical SndCanonical (s.serveAt q u rs) :=
  (h.scatterAll.bind (fun _ ht => Answers.ok ht.pair)).ite (Answers.ite (Answers.ok (h.foldl (fun _ _ ht1 =>
      ht1.pfIdx)).pair) (h.readIdxs.bind (fun _ ht2 => Answers.ite (Answers.ok ht2.snd.pair) (Answers.ok
      ht2.snd.reBump.pair))))

theorem State.Canonical.skipPrefetch {u : Nat} {rs : List Route} (h : s.Canonical) : (s.skipPrefetch u rs).Canonical :=
  h.countIdx.reBump.bump

theorem execUnitRequestStart_canonical {id : Nat} {u : Fin 24} (h : s.Canonical) :
    Out.Canonical (execUnitRequestStart id u s) := by
  unfold execUnitRequestStart
  refine Out.Canonical.ite h.next ?_
  split
  · exact h.next
  · refine Out.Canonical.ite h.next ?_
    refine Out.Canonical.ite (h.skipPrefetch.setReq.next.ite h.bump.rowFault.dropReq.next) ?_
    split
    · rename_i e2
      exact (h.serveAt.of_error e2).snd.failRow.next
    · rename_i e3
      exact (h.serveAt.of_ok e3).snd.setReq.next

theorem execUnitPartialCombine_canonical {id seg : Nat} (h : s.Canonical) :
    Out.Canonical (execUnitPartialCombine id seg s) := by
  unfold execUnitPartialCombine
  refine Out.Canonical.ite h.next ?_
  split
  · exact h.next
  · exact h.next.ite (h.ite h.bump).setReq.next

theorem State.Canonical.buryReqs (h : s.Canonical) : s.buryReqs.Canonical := h.update

theorem execReplicaWrite_canonical {id : Nat} (h : s.Canonical) : Out.Canonical (execReplicaWrite id s) := by
  unfold execReplicaWrite
  refine Out.Canonical.ite h.next ?_
  split
  · exact h.next
  · split
    · exact h.next
    · refine Out.Canonical.ite h.setReq.buryReqs.next ?_
      split
      · rename_i e4
        exact (h.writeRowBytes.of_error e4).snd.setReq.failRow.next
      · rename_i e5
        exact (h.writeRowBytes.of_ok e5).setReq.buryReqs.next

theorem execSketchFlush_canonical {id : Nat} {u : Fin 24} (h : s.Canonical) : Out.Canonical (execSketchFlush id u s) := by
  unfold execSketchFlush
  refine Out.Canonical.ite h.next ?_
  split
  · exact h.next
  · exact h.next.ite h.flushSketch.buryReqs.next

theorem State.Canonical.reqEnd {q : RowReq} (h : s.Canonical) : (s.reqEnd q).Canonical := by
  unfold State.reqEnd
  dsimp only
  split
  · rename_i e
    exact ((Answers.ite (Answers.ok (h.foldl (fun _ _ ht1 => ht1.sketchAdd)).setReq) (h.foldl (fun _ _ ht2 =>
        ht2.sketchAdd)).setReq.opWrite).of_error e).dropReq
  · rename_i e3
    exact (((Answers.ite (Answers.ok (h.foldl (fun _ _ ht4 => ht4.sketchAdd)).setReq) (h.foldl (fun _ _ ht5 =>
        ht5.sketchAdd)).setReq.opWrite).of_ok e3).setScale.ite ((Answers.ite (Answers.ok (h.foldl (fun _ _ ht6 =>
        ht6.sketchAdd)).setReq) (h.foldl (fun _ _ ht7 => ht7.sketchAdd)).setReq.opWrite).of_ok e3)).update.complete

/-! ### Issue of unit instructions -/

theorem State.Canonical.takeOp {o : Op} (h : s.Canonical) : (s.takeOp o).Canonical :=
  h.update.setCore.rqAccept.ite (h.update.setCore.strmAccept.ite h.update.setCore)
theorem State.Canonical.holdIssue {k : Nat} (h : s.Canonical) : (s.holdIssue k).Canonical := h.setCore

theorem State.Canonical.issue {i : Instr} {k : CoreRef} {g : Guard} {e : EOp} {opc func : Nat} (h : s.Canonical) :
    Out.Canonical (s.issue i k g e opc func) := by
  unfold State.issue
  refine State.Canonical.fire h fun _ _ _ _ ht => ?_
  split
  · exact ht.illegalAt
  · refine State.Canonical.ite ht.holdIssue ?_
    split
    · exact ht.takeOp
    · exact ht.unitIllegal
    · exact ht.holdIssue

theorem execMmaD_canonical {k : CoreRef} {g : Guard} {e : EOp} (h : s.Canonical) : Out.Canonical (execMmaD k g e s) := h.issue
theorem execMmaS_canonical {k : CoreRef} {g : Guard} {e : EOp} (h : s.Canonical) : Out.Canonical (execMmaS k g e s) := h.issue
theorem execSpcmp_canonical {k : CoreRef} {g : Guard} {e : EOp} (h : s.Canonical) : Out.Canonical (execSpcmp k g e s) := h.issue
theorem execSegred_canonical {k : CoreRef} {g : Guard} {e : EOp} (h : s.Canonical) : Out.Canonical (execSegred k g e s) :=
  h.issue
theorem execCombine_canonical {k : CoreRef} {g : Guard} {e : EOp} (h : s.Canonical) : Out.Canonical (execCombine k g e s) :=
  h.issue
theorem execEwiseCopy_canonical {k : CoreRef} {g : Guard} {e : EOp} (h : s.Canonical) : Out.Canonical (execEwiseCopy k g e s) :=
  h.issue
theorem execEwiseAdd_canonical {k : CoreRef} {g : Guard} {e : EOp} (h : s.Canonical) : Out.Canonical (execEwiseAdd k g e s) :=
  h.issue
theorem execEwiseSub_canonical {k : CoreRef} {g : Guard} {e : EOp} (h : s.Canonical) : Out.Canonical (execEwiseSub k g e s) :=
  h.issue
theorem execEwiseMul_canonical {k : CoreRef} {g : Guard} {e : EOp} (h : s.Canonical) : Out.Canonical (execEwiseMul k g e s) :=
  h.issue
theorem execEwiseDiv_canonical {k : CoreRef} {g : Guard} {e : EOp} (h : s.Canonical) : Out.Canonical (execEwiseDiv k g e s) :=
  h.issue
theorem execEwiseMin_canonical {k : CoreRef} {g : Guard} {e : EOp} (h : s.Canonical) : Out.Canonical (execEwiseMin k g e s) :=
  h.issue
theorem execEwiseMax_canonical {k : CoreRef} {g : Guard} {e : EOp} (h : s.Canonical) : Out.Canonical (execEwiseMax k g e s) :=
  h.issue
theorem execEwiseFma_canonical {k : CoreRef} {g : Guard} {e : EOp} (h : s.Canonical) : Out.Canonical (execEwiseFma k g e s) :=
  h.issue

theorem execEwiseScale_canonical {k : CoreRef} {g : Guard} {e : EOp} (h : s.Canonical) :
    Out.Canonical (execEwiseScale k g e s) :=
  h.issue

theorem execEwiseRelu_canonical {k : CoreRef} {g : Guard} {e : EOp} (h : s.Canonical) : Out.Canonical (execEwiseRelu k g e s) :=
  h.issue
theorem execEwiseGelu_canonical {k : CoreRef} {g : Guard} {e : EOp} (h : s.Canonical) : Out.Canonical (execEwiseGelu k g e s) :=
  h.issue
theorem execEwiseSilu_canonical {k : CoreRef} {g : Guard} {e : EOp} (h : s.Canonical) : Out.Canonical (execEwiseSilu k g e s) :=
  h.issue

theorem execEwiseSigmoid_canonical {k : CoreRef} {g : Guard} {e : EOp} (h : s.Canonical) :
    Out.Canonical (execEwiseSigmoid k g e s) :=
  h.issue

theorem execEwiseTanh_canonical {k : CoreRef} {g : Guard} {e : EOp} (h : s.Canonical) : Out.Canonical (execEwiseTanh k g e s) :=
  h.issue
theorem execEwiseExp_canonical {k : CoreRef} {g : Guard} {e : EOp} (h : s.Canonical) : Out.Canonical (execEwiseExp k g e s) :=
  h.issue
theorem execEwiseLog_canonical {k : CoreRef} {g : Guard} {e : EOp} (h : s.Canonical) : Out.Canonical (execEwiseLog k g e s) :=
  h.issue

theorem execEwiseRsqrt_canonical {k : CoreRef} {g : Guard} {e : EOp} (h : s.Canonical) :
    Out.Canonical (execEwiseRsqrt k g e s) :=
  h.issue

theorem execEwiseAbs_canonical {k : CoreRef} {g : Guard} {e : EOp} (h : s.Canonical) : Out.Canonical (execEwiseAbs k g e s) :=
  h.issue
theorem execEwiseOr_canonical {k : CoreRef} {g : Guard} {e : EOp} (h : s.Canonical) : Out.Canonical (execEwiseOr k g e s) :=
  h.issue
theorem execEwiseAnd_canonical {k : CoreRef} {g : Guard} {e : EOp} (h : s.Canonical) : Out.Canonical (execEwiseAnd k g e s) :=
  h.issue
theorem execSmBlock_canonical {k : CoreRef} {g : Guard} {e : EOp} (h : s.Canonical) : Out.Canonical (execSmBlock k g e s) :=
  h.issue
theorem execSmRescale_canonical {k : CoreRef} {g : Guard} {e : EOp} (h : s.Canonical) : Out.Canonical (execSmRescale k g e s) :=
  h.issue
theorem execSmFinal_canonical {k : CoreRef} {g : Guard} {e : EOp} (h : s.Canonical) : Out.Canonical (execSmFinal k g e s) :=
  h.issue
theorem execSmMerge_canonical {k : CoreRef} {g : Guard} {e : EOp} (h : s.Canonical) : Out.Canonical (execSmMerge k g e s) :=
  h.issue

theorem execSegSoftmax_canonical {k : CoreRef} {g : Guard} {e : EOp} (h : s.Canonical) :
    Out.Canonical (execSegSoftmax k g e s) :=
  h.issue

theorem execOptstep_canonical {k : CoreRef} {g : Guard} {e : EOp} (h : s.Canonical) : Out.Canonical (execOptstep k g e s) :=
  h.issue
theorem execScan_canonical {k : CoreRef} {g : Guard} {e : EOp} (h : s.Canonical) : Out.Canonical (execScan k g e s) := h.issue
theorem execDerive_canonical {k : CoreRef} {g : Guard} {e : EOp} (h : s.Canonical) : Out.Canonical (execDerive k g e s) :=
  h.issue
theorem execQscanLoad_canonical {k : CoreRef} {g : Guard} {e : EOp} (h : s.Canonical) : Out.Canonical (execQscanLoad k g e s) :=
  h.issue

theorem execQscanStore_canonical {k : CoreRef} {g : Guard} {e : EOp} (h : s.Canonical) :
    Out.Canonical (execQscanStore k g e s) :=
  h.issue

theorem execQconv_canonical {k : CoreRef} {g : Guard} {e : EOp} (h : s.Canonical) : Out.Canonical (execQconv k g e s) := h.issue
theorem execGather_canonical {k : CoreRef} {g : Guard} {e : EOp} (h : s.Canonical) : Out.Canonical (execGather k g e s) :=
  h.issue

theorem execGatherReduce_canonical {k : CoreRef} {g : Guard} {e : EOp} (h : s.Canonical) :
    Out.Canonical (execGatherReduce k g e s) :=
  h.issue

theorem execGatherAmax_canonical {k : CoreRef} {g : Guard} {e : EOp} (h : s.Canonical) :
    Out.Canonical (execGatherAmax k g e s) :=
  h.issue

theorem execScatter_canonical {k : CoreRef} {g : Guard} {e : EOp} (h : s.Canonical) : Out.Canonical (execScatter k g e s) :=
  h.issue

theorem execScatterAdd_canonical {k : CoreRef} {g : Guard} {e : EOp} (h : s.Canonical) :
    Out.Canonical (execScatterAdd k g e s) :=
  h.issue

theorem execPrefetchBatch_canonical {k : CoreRef} {g : Guard} {e : EOp} (h : s.Canonical) :
    Out.Canonical (execPrefetchBatch k g e s) :=
  h.issue

theorem execStrmArm_canonical {k : CoreRef} {g : Guard} {e : EOp} (h : s.Canonical) : Out.Canonical (execStrmArm k g e s) :=
  h.issue
theorem execStrmRearm_canonical {k : CoreRef} {g : Guard} {e : EOp} (h : s.Canonical) : Out.Canonical (execStrmRearm k g e s) :=
  h.issue
theorem execStrmAdv_canonical {k : CoreRef} {g : Guard} {e : EOp} (h : s.Canonical) : Out.Canonical (execStrmAdv k g e s) :=
  h.issue
theorem execStrmClose_canonical {k : CoreRef} {g : Guard} {e : EOp} (h : s.Canonical) : Out.Canonical (execStrmClose k g e s) :=
  h.issue

theorem execIssueAccept_canonical {k : CoreRef} (h : s.Canonical) : Out.Canonical (execIssueAccept k s) := by
  unfold execIssueAccept
  refine Out.Canonical.ite h.next ?_
  dsimp only
  split
  · exact h.next
  · refine Out.Canonical.ite h.next ?_
    split
    · exact h.takeOp.next
    · exact h.unitIllegal.next
    · exact h.next

theorem State.Canonical.rqStart {o : Op} (h : s.Canonical) : (s.rqStart o).Canonical := by
  unfold State.rqStart
  refine State.Canonical.ite h.markStarted ?_
  split
  · exact h.markStarted
  · split
    · exact h.markStarted.passStart.runAdvs.ite h.markStarted
    · exact h.markStarted

theorem State.Canonical.startOp {o : Op} (h : s.Canonical) : (s.startOp o).Canonical :=
  h.markStarted.mmaStart.ite (h.rqStart.ite (h.strmStart.ite h.markStarted))

theorem execOperationStart_canonical {sp : Fin 64} {u : Fin 4} (h : s.Canonical) :
    Out.Canonical (execOperationStart sp u s) := by
  unfold execOperationStart
  refine Out.Canonical.ite h.next ?_
  split
  · exact h.next
  · exact h.next.ite h.startOp.next

theorem State.Canonical.runOp {o : Op} (h : s.Canonical) : (s.runOp o).Canonical :=
  h.mmaRun.ite (h.spcmpRun.ite (h.aggRun.ite (h.optRun.ite (h.qscanRun.ite h.qconvRun))))
theorem State.Canonical.finishOp {t : State} {o : Op} (ht : t.Canonical) : (s.finishOp t o).Canonical :=
  ht.dropOp.ite ht.complete

theorem execOperationComplete_canonical {id : Nat} (h : s.Canonical) : Out.Canonical (execOperationComplete id s) := by
  unfold execOperationComplete
  refine Out.Canonical.ite h.next ?_
  split
  · exact h.next
  · refine Out.Canonical.ite h.next ?_
    refine Out.Canonical.ite ?_ ((h.shortMove.ite h).next.ite (h.next.ite h.runOp.finishOp.next))
    split
    · exact (h.reqEnd.ite h).next
    · exact h.next

/-! ### Register commands -/

theorem State.Canonical.setSample {w : Who} {lo v : Nat} (h : s.Canonical) : (s.setSample w lo v).Canonical := by
  unfold State.setSample
  split
  · exact h.update
  · exact h.setSes

theorem State.Canonical.readReg {w : Who} {a : Nat} (h : s.Canonical) : SndCanonical (s.readReg w a) := by
  unfold State.readReg
  split
  · exact h.setSample.pair
  · refine SndCanonical.ite h.pair ?_
    refine SndCanonical.ite h.pair ?_
    split
    · exact h.pair
    · exact h.pair

theorem State.Canonical.readRegs {n a : Nat} {w : Who} (h : s.Canonical) : SndCanonical (State.readRegs n s w a) := by
  induction n generalizing s a with
  | zero => exact h.pair
  | succ n ih => exact (ih h.readReg.snd).snd.pair

theorem State.Canonical.put {a : Nat} {v : W32} (h : s.Canonical) : (s.put a v).Canonical := h.setReg
theorem State.Canonical.cntClr {v : W32} {bit : Nat} {l : List Nat} (h : s.Canonical) : (s.cntClr v bit l).Canonical :=
  h.clearRegs.ite h

/-! ### Dome, power and clocks -/

theorem State.Canonical.serve {id a n : Nat} (h : s.Canonical) : (s.serve id a n).Canonical := h.update

theorem State.Canonical.domeHit {id a n w : Nat} {data : Option (List Byte)} (h : s.Canonical) :
    (s.domeHit id a n w data).Canonical := by
  unfold State.domeHit
  split
  · exact h.serve
  · exact h.dirtyLine.storeBytes

theorem State.Canonical.startFill {id a n : Nat} {data : Option (List Byte)} (h : s.Canonical) :
    (s.startFill id a n data).Canonical :=
  h.chooseVictim.snd.evict.update

theorem State.Canonical.joinFill {id a n : Nat} {data : Option (List Byte)} (h : s.Canonical) :
    (s.joinFill id a n data).Canonical :=
  h.update

theorem State.Canonical.missHere {id a n : Nat} {data : Option (List Byte)} (h : s.Canonical) :
    (s.missHere id a n data).Canonical :=
  h.chooseVictim.snd.evict.install.domeHit

theorem State.Canonical.domeAccess {id a n : Nat} {data : Option (List Byte)} (h : s.Canonical) :
    (s.domeAccess id a n data).Canonical := by
  unfold State.domeAccess
  refine State.Canonical.ite ?_ ?_
  · split
    · exact h.serve
    · exact h.storeBytes
  · refine State.Canonical.ite h.joinFill ?_
    split
    · exact h.bump.domeHit
    · exact h.victimHit.missHere.ite (h.missHere.ite h.startFill)

theorem execDomeAccess_canonical {id addr len : Nat} {data : Option (List Byte)} (h : s.Canonical) :
    Out.Canonical (execDomeAccess id addr len data s) :=
  h.next.ite h.domeAccess.next

theorem execDomeFillComplete_canonical {line : Nat} (h : s.Canonical) : Out.Canonical (execDomeFillComplete line s) :=
  (h.settleFill.ite h).next
theorem State.Canonical.settleAll {p : Fill → Bool} (h : s.Canonical) : (s.settleAll p).Canonical :=
  h.foldl fun _ _ ht => ht.settleFill
theorem State.Canonical.raceFills {op : Nat} (h : s.Canonical) : (s.raceFills op).Canonical := h.update
theorem State.Canonical.mntRun {op : Nat} (h : s.Canonical) : (s.mntRun op).Canonical :=
  (h.cleanAll.ite (h.evictAll.ite (h.foldl (fun _ _ ht => ht.discard)))).raceFills.update.setB

theorem State.Canonical.wMnt {v : W32} (h : s.Canonical) : (s.wMnt v).Canonical := by
  unfold State.wMnt
  dsimp only
  split
  · exact h.nak_
  · exact h.mntRun.ok

theorem execMaintenanceComplete_canonical (h : s.Canonical) : Out.Canonical (execMaintenanceComplete s) := by
  unfold execMaintenanceComplete
  refine Out.Canonical.ite h.next ?_
  split
  · exact h.next
  · exact (h.settleAll.update.setB.setB.ite h.settleAll.update.setB).next

theorem State.Canonical.wWaymask {v : W32} (h : s.Canonical) : (s.wWaymask v).Canonical :=
  h.nak_.ite (h.setReg.setF.ite h.setReg.setF.setB).ok
theorem execWayPowerDownComplete_canonical (h : s.Canonical) : Out.Canonical (execWayPowerDownComplete s) :=
  h.next.ite (h.next.ite h.settleAll.evictAll.setF.setB.next)

theorem State.Canonical.reviveLines (h : s.Canonical) : s.reviveLines.Canonical := by
  refine (h.foldl fun t e ht => ?_).update
  dsimp only
  split
  · exact ht.ite (ht.withMem (Mem.wf_writeN _ _ _ ht.mem)).update
  · exact ht

theorem State.Canonical.wDomeCtl {key : Option Nat} {v : W32} (h : s.Canonical) : (s.wDomeCtl key v).Canonical :=
  (h.answerDev.nak_.ite h.answerDev.reviveLines.setB.setB.cntClr.ok).ite (h.setB.setB.update.cntClr.ok.ite h.cntClr.ok)
theorem execDomeBypassEnter_canonical (h : s.Canonical) : Out.Canonical (execDomeBypassEnter s) :=
  h.next.ite (h.next.ite (h.settleAll.cleanAll.update.foldl (fun _ _ ht => ht.refresh)).setB.next)
theorem State.Canonical.wSeed {k : Nat} {v : W32} (h : s.Canonical) : (s.wSeed k v).Canonical := h.setReg
theorem State.Canonical.flushNear (h : s.Canonical) : s.flushNear.Canonical := h.settleAll.evictAll

/-! ### Memory commands -/

theorem State.Canonical.applyRegion {n : Nat} {v : W32} (h : s.Canonical) : (s.applyRegion n v).Canonical :=
  h.flushNear.setReg.scramble.ite h.flushNear.setReg

theorem State.Canonical.wRgnA {req : Req} {n : Nat} {v : W32} {wait : Bool} (h : s.Canonical) :
    (s.wRgnA req n v wait).Canonical := by
  unfold State.wRgnA
  refine WRes.Canonical.ite h.nak_ ?_
  refine WRes.Canonical.ite (h.nak_.ite (h.ok.ite (h.update.pend.ite h.applyRegion.ok))) ?_
  refine WRes.Canonical.ite ?_ h.setReg.ok
  split
  · exact h.nak_
  · exact h.update.pend.ite h.applyRegion.ok

theorem State.Canonical.wRgnBC {n a : Nat} {v : W32} (h : s.Canonical) : (s.wRgnBC n a v).Canonical :=
  h.nak_.ite (h.nak_.ite h.put.ok)

theorem execRegionChangeComplete_canonical {n : Fin 16} (h : s.Canonical) : Out.Canonical (execRegionChangeComplete n s) := by
  unfold execRegionChangeComplete
  refine Out.Canonical.ite h.next ?_
  split
  · exact (h.update.applyRegion.ite h).next
  · exact h.next

theorem State.Canonical.wWindow {c w a : Nat} {v : W32} (h : s.Canonical) : (s.wWindow c w a v).Canonical :=
  h.nak_.ite (h.nak_.ite h.put.setF.ok)
theorem State.Canonical.wGrsv {v : W32} (h : s.Canonical) : (s.wGrsv v).Canonical :=
  h.nak_.ite (h.nak_.ite (h.nak_.ite (h.nak_.ite h.put.ok)))
theorem execHbmRefresh_canonical (stack : Fin 8) (bank : Nat) (h : s.Canonical) : Out.Canonical (execHbmRefresh stack bank s) :=
  h.next
theorem execHbmPhyRetrain_canonical (stack : Fin 8) (h : s.Canonical) : Out.Canonical (execHbmPhyRetrain stack s) := h.next

theorem execGlacierRefresh_canonical (chan : Fin 16) (bank : Nat) (h : s.Canonical) :
    Out.Canonical (execGlacierRefresh chan bank s) :=
  h.next

theorem execDqsOscillatorTracking_canonical (chan : Fin 16) (h : s.Canonical) :
    Out.Canonical (execDqsOscillatorTracking chan s) :=
  h.next

theorem execGlacierRetrain_canonical (chan : Fin 16) (h : s.Canonical) : Out.Canonical (execGlacierRetrain chan s) := h.next

/-! ### The port -/

theorem State.Canonical.newGen {p : Nat} (h : s.Canonical) : (s.newGen p).Canonical := h.ite (h.setKey.ite h.setKey.setMacsec)
theorem State.Canonical.setRx {p : Nat} {w : RxChannel} (h : s.Canonical) : (s.setRx p w).Canonical := h.setMacsec
theorem State.Canonical.macsecAccept {f : Frame} {t : MacsecTag} (h : s.Canonical) : OptCanonical (s.macsecAccept f t) :=
  OptCanonical.ite OptCanonical.none (h.setKey.setRx.some.ite (OptCanonical.ite OptCanonical.none h.setRx.some))
theorem execMacsecRekey_canonical {p : Fin 8} (h : s.Canonical) : Out.Canonical (execMacsecRekey p s) := (h.newGen.ite h).next
theorem State.Canonical.retrain (h : s.Canonical) : s.retrain.Canonical := (h.setReg.foldl (fun _ _ ht => ht.subDown)).update
theorem State.Canonical.wPortCfg {key : Option Nat} {v : W32} (h : s.Canonical) : (s.wPortCfg key v).Canonical :=
  h.answerDev.nak_.ite h.answerDev.setReg.retrain.ok
theorem execSubportLinkUp_canonical {p : Fin 8} (h : s.Canonical) : Out.Canonical (execSubportLinkUp p s) :=
  h.next.ite (h.update.setB.setF.newGen.ite h.update.setB.setF).pfcSync.next

theorem State.Canonical.loseLane {l : Nat} (h : s.Canonical) : (s.loseLane l).Canonical := by
  unfold State.loseLane
  split
  · exact h
  · exact h.ite h.setB.setF.subDown.lifeAdd.report.report.update

theorem execLaneFailure_canonical {l : Fin 8} (h : s.Canonical) : Out.Canonical (execLaneFailure l s) := h.loseLane.next
theorem State.Canonical.markQp {q : Nat} (h : s.Canonical) : (s.markQp q).Canonical := h.ite h.update.send
theorem State.Canonical.takeDatagram {slot : Nat} {f : Frame} (h : s.Canonical) : (s.takeDatagram slot f).Canonical :=
  (h.update.setSes.ite h.update).pfcSync

theorem State.Canonical.matchFrame {f : Frame} (h : s.Canonical) : (s.matchFrame f).Canonical := by
  unfold State.matchFrame
  split
  · split
    · exact h.takeDatagram
    · exact h.takeDatagram.ite h.bump
  · exact (h.markQp.ite h).ite h.bump
  · exact h

theorem execFrameReceive_canonical {f : Frame} (h : s.Canonical) : Out.Canonical (execFrameReceive f s) := by
  unfold execFrameReceive
  refine Out.Canonical.ite h.next ?_
  refine Out.Canonical.ite h.matchFrame.next ?_
  refine Out.Canonical.ite h.bump.next ?_
  split
  · exact h.bump.next
  · split
    · exact h.bump.next
    · rename_i e3
      exact (h.macsecAccept.of_eq e3).matchFrame.next

theorem execPfcPauseReceive_canonical {p prio : Fin 8} {ticks : Nat} (h : s.Canonical) :
    Out.Canonical (execPfcPauseReceive p prio ticks s) :=
  h.next.ite h.update.release.next

theorem execPfcPauseExpiry_canonical {p prio : Fin 8} (h : s.Canonical) : Out.Canonical (execPfcPauseExpiry p prio s) := by
  unfold execPfcPauseExpiry
  dsimp only
  split
  · exact h.next
  · exact h.passTo.update.release.next

theorem State.Canonical.ecnCut {k : Nat} (h : s.Canonical) : (s.ecnCut k).Canonical := h.update.ite h.update
theorem execEcnRateCut_canonical {tgt : RateTarget} (h : s.Canonical) : Out.Canonical (execEcnRateCut tgt s) := h.ecnCut.next

theorem execEcnRateRecovery_canonical {tgt : RateTarget} (h : s.Canonical) : Out.Canonical (execEcnRateRecovery tgt s) := by
  unfold execEcnRateRecovery
  dsimp only
  split
  · exact h.next
  · exact h.passTo.update.next

theorem execPtpSyncReceive_canonical {smp : PtpSample} (h : s.Canonical) : Out.Canonical (execPtpSyncReceive smp s) :=
  h.next.ite h.send.setReg.update.next
theorem execPtpLockAcquire_canonical (h : s.Canonical) : Out.Canonical (execPtpLockAcquire s) := (h.setB.ite h).next
theorem execPtpLockLoss_canonical {missed : Bool} (h : s.Canonical) : Out.Canonical (execPtpLockLoss missed s) :=
  h.update.setB.next.ite h.next
theorem execSynceLockChange_canonical {lock : Bool} (h : s.Canonical) : Out.Canonical (execSynceLockChange lock s) :=
  h.setB.next

/-! ### Registers of sessions and queue pairs -/

theorem State.Canonical.killQps {p : Nat → Qp → Bool} (h : s.Canonical) : (s.killQps p).Canonical := h.update
theorem State.Canonical.dropQps {k : Nat} (h : s.Canonical) : (s.dropQps k).Canonical := h.killQps
theorem State.Canonical.dropKeyQps {key : Nat} (h : s.Canonical) : (s.dropKeyQps key).Canonical :=
  h.foldl fun _ _ ht => ht.dropQps
theorem State.Canonical.wSessCfg {k : Nat} {v : W32} (h : s.Canonical) : (s.wSessCfg k v).Canonical :=
  h.nak_.ite (h.nak_.ite (h.put.dropQps.pfcSync.ok.ite h.put.pfcSync.ok))

theorem State.Canonical.wSess {k off : Nat} {v : W32} (h : s.Canonical) : (s.wSess k off v).Canonical :=
  h.wSessCfg.ite (h.setReg.ok.ite ((h.nak_.ite h.put.ok).ite ((h.nak_.ite h.setReg.ok).ite ((h.nak_.ite
      h.put.pfcSync.ok).ite h.put.pfcSync.ok))))

theorem State.Canonical.wPortCtl {v : W32} (h : s.Canonical) : (s.wPortCtl v).Canonical := h.cntClr
theorem State.Canonical.wKsess {v : W32} (h : s.Canonical) : (s.wKsess v).Canonical := h.nak_.ite h.put.ok
theorem State.Canonical.setQpView {w : Who} {l : List Nat} (h : s.Canonical) : (s.setQpView w l).Canonical := h.setSes
theorem State.Canonical.qpResult {w : Who} {r : Nat} (h : s.Canonical) : (s.qpResult w r).Canonical := h.setQpView
theorem State.Canonical.qpLoad {w : Who} {q : Nat} (h : s.Canonical) : (s.qpLoad w q).Canonical := h.setQpView
theorem State.Canonical.qpDo {w : Who} {op q : Nat} {b : List Byte} (h : s.Canonical) : (s.qpDo w op q b).Canonical :=
  h.update.ite (h.killQps.ite h.qpLoad)

theorem State.Canonical.qpCmd {w : Who} {idx : W32} {b : List Byte} {cmd : W32} (h : s.Canonical) :
    (s.qpCmd w idx b cmd).Canonical := by
  unfold State.qpCmd
  split
  · exact h.qpResult.nak_
  · exact h.qpDo.qpResult.ok

/-! ### Table commands -/

theorem State.Canonical.reportUe {c key : Option Nat} {a : Nat} (h : s.Canonical) : (s.reportUe c key a).Canonical :=
  h.draw.snd.bump.lifeAdd.report.noteFault

theorem State.Canonical.noteBad {c : Nat} {key : Option Nat} {b : Option Bad} (h : s.Canonical) :
    (s.noteBad c key b).Canonical := by
  unfold State.noteBad
  split
  · exact h.ite h.reportUe
  · exact h

theorem State.Canonical.recordUnreadable {c : Nat} {key : Option Nat} (h : s.Canonical) :
    OptCanonical (s.recordUnreadable c key) := by
  unfold State.recordUnreadable
  cases s.checkAcc c (s.tblAddr c) 128 .rd with
  | none => exact OptCanonical.none
  | some b => exact h.noteBad.some

theorem State.Canonical.installVersion {c t : Nat} {b : List Byte} (h : s.Canonical) : (s.installVersion c t b).Canonical :=
  h.update

theorem State.Canonical.tblSwitch {key : Option Nat} {c t : Nat} (h : s.Canonical) : (s.tblSwitch key c t).Canonical := by
  unfold State.tblSwitch
  dsimp only
  split
  · rename_i e
    exact (h.recordUnreadable.of_eq e).nak_
  · exact h.readTier.snd.nak_.ite (h.readTier.snd.answerCtx.nak_.ite h.readTier.snd.answerCtx.installVersion.ok)

theorem State.Canonical.tblRetire {c t : Nat} (h : s.Canonical) : (s.tblRetire c t).Canonical := by
  unfold State.tblRetire
  split
  · exact h.update
  · exact h

theorem State.Canonical.tblQuery {c t : Nat} (h : s.Canonical) : (s.tblQuery c t).Canonical := h.setReg.setReg.setReg

theorem State.Canonical.tblReclaim {c t : Nat} (h : s.Canonical) : (s.tblReclaim c t).Canonical := by
  unfold State.tblReclaim
  dsimp only
  split
  · exact h.update
  · exact h

theorem WRes.Canonical.query {c t : Nat} {r : WRes} (h : r.Canonical) : (WRes.query c t r).Canonical := by
  cases r with
  | ok u => exact (h.of_ok rfl).tblQuery.ok
  | nak u n => exact h
  | pend u => exact h

theorem State.Canonical.wTblCmd {key : Option Nat} {c : Nat} {v : W32} (h : s.Canonical) : (s.wTblCmd key c v).Canonical :=
  h.nak_.ite (h.nak_.ite (h.tblSwitch.query.ite ((h.tblRetire.tblQuery.ok.ite h.ok).ite (h.tblQuery.ok.ite
      h.tblReclaim.tblQuery.ok))))

theorem State.Canonical.putTable {t : Nat} {x : Table} (h : s.Canonical) : (s.putTable t x).Canonical := h.update

theorem execVersionReclaim_canonical {t : Fin 4096} {gen : Nat} (h : s.Canonical) :
    Out.Canonical (execVersionReclaim t gen s) := by
  unfold execVersionReclaim
  refine Out.Canonical.ite h.next ?_
  split
  · exact h.next
  · split
    · exact h.next
    · exact h.next.ite h.putTable.next

/-! ### HELLO and sessions -/

theorem State.Canonical.fresh {n : Nat} (h : s.Canonical) : SndCanonical (s.fresh n) := h.draw.snd.pair

theorem State.Canonical.onHello {w : Who} {src : NetAddr} {p : List Byte} (h : s.Canonical) :
    (s.onHello w src p).Canonical := by
  unfold State.onHello
  refine State.Canonical.ite h.nakPlain ?_
  refine State.Canonical.ite h.answerDev.nakPlain ?_
  refine State.Canonical.ite h.answerDev.nakPlain ?_
  split
  · rename_i e
    exact (h.answerDev.fresh.of_eq e).setSes.emitPlain

theorem State.Canonical.newEpoch {i : Nat} (h : s.Canonical) : SndCanonical (s.newEpoch i) := h.draw.snd.pair
theorem State.Canonical.clearSeq {a : Nat} (h : s.Canonical) : (s.clearSeq a).Canonical := h.ite h.writeTier
theorem State.Canonical.clearResults {i : Nat} (h : s.Canonical) : (s.clearResults i).Canonical :=
  h.ite (h.foldl (fun _ _ ht => ht.clearSeq)).setKey
theorem State.Canonical.countReached (h : s.Canonical) : s.countReached.Canonical := h.setF
theorem State.Canonical.closeKey {i k : Nat} (h : s.Canonical) : (s.closeKey i k).Canonical :=
  h.foldl fun _ _ ht => ht.closeSession.ite ht

theorem State.Canonical.openSes {i epoch : Nat} {ks : List Byte} {src : NetAddr} {credit : Nat} (h : s.Canonical) :
    (s.openSes i epoch ks src credit).Canonical :=
  (h.closeKey.ite h.closeSession).setSes.grant.pfcSync.ite (h.closeKey.ite h.closeSession).setSes.grant.countReached

theorem State.Canonical.confirm {i : Nat} {tag : List Byte} (h : s.Canonical) : (s.confirm i tag).Canonical := h.emitDwp

theorem State.Canonical.onProve {w : Who} {src : NetAddr} {credit : Nat} {p : List Byte} (h : s.Canonical) :
    (s.onProve w src credit p).Canonical := by
  unfold State.onProve
  dsimp only
  split
  · exact h.nakPlain
  · exact h.nakPlain.ite (h.nakPlain.ite h.newEpoch.snd.clearResults.openSes.confirm)

theorem State.Canonical.helloTo {q : Nat} (h : s.Canonical) : (s.helloTo q).Canonical := by
  unfold State.helloTo
  split
  · rename_i e
    exact (h.fresh.of_eq e).setSes.emitPlain

theorem State.Canonical.onPeerHello {q : Nat} {p : List Byte} (h : s.Canonical) : (s.onPeerHello q p).Canonical := by
  unfold State.onPeerHello
  dsimp only
  split
  · exact h
  · refine State.Canonical.ite h ?_
    refine State.Canonical.emitPlain ?_
    split
    · exact h.setSes.update
    · exact h.setSes

theorem State.Canonical.onConfirm {q session credit : Nat} {p : List Byte} (h : s.Canonical) :
    (s.onConfirm q session credit p).Canonical := by
  unfold State.onConfirm
  dsimp only
  split
  · exact h
  · exact h.ite h.openSes

theorem State.Canonical.hello {w : Who} {src : NetAddr} {p : List Byte} (h : s.Canonical) : (s.hello w src p).Canonical := by
  unfold State.hello
  split
  · exact h
  · exact h.onHello
  · exact h.onPeerHello.ite h.onHello

theorem execHello_canonical {w : Who} {src : NetAddr} {p : List Byte} (h : s.Canonical) : Out.Canonical (execHello w src p s) :=
  (h.hello.ite h).next
theorem execProve_canonical {w : Who} {src : NetAddr} {p : List Byte} (h : s.Canonical) : Out.Canonical (execProve w src p s) :=
  (h.onProve.ite h).next

/-! ### Peers -/

theorem State.Canonical.lostRank {q : Nat} (h : s.Canonical) : (s.lostRank q).Canonical :=
  (h.foldl (fun _ _ ht => ht.failTask)).update
theorem State.Canonical.closePeers (h : s.Canonical) : s.closePeers.Canonical :=
  (h.foldl (fun _ _ ht => ht.closeSession.lostRank.ite ht)).update
theorem State.Canonical.setPeerState {v : Nat} {mixed : Bool} (h : s.Canonical) : (s.setPeerState v mixed).Canonical :=
  h.setF.setB

theorem State.Canonical.formStart {r : Req} {msg : Bool} (h : s.Canonical) : (s.formStart r msg).Canonical := by
  unfold State.formStart
  refine WRes.Canonical.ite h.nak_ ?_
  split
  · exact h.noteBad.nak_
  · exact ((h.closePeers.readTier.snd.update.setPeerState.countReached.foldl (fun _ _ ht2 => ht2.setSes)).foldl (fun _ _ ht3
        => ht3.helloTo)).pend

theorem State.Canonical.dissolve (h : s.Canonical) : s.dissolve.Canonical :=
  h.nak_.ite h.closePeers.setPeerState.countReached.ok

theorem State.Canonical.wPeerCtl {r : Req} {msg : Bool} {v : W32} (h : s.Canonical) : (s.wPeerCtl r msg v).Canonical := by
  unfold State.wPeerCtl
  refine WRes.Canonical.ite ?_ (h.formStart.ite h.ok)
  split
  · rename_i e
    refine WRes.Canonical.ite (h.dissolve.of_ok e).ok ?_
    split
    · exact h.nak_
    · exact (h.dissolve.of_ok e).formStart
  · exact h.dissolve

theorem State.Canonical.wPeer {r : Req} {msg : Bool} {off : Nat} {v : W32} (h : s.Canonical) :
    (s.wPeer r msg off v).Canonical :=
  h.wPeerCtl.ite (h.ok.ite (h.nak_.ite h.put.ok))

theorem State.Canonical.formDone {f : Formation} {mixed : Bool} (h : s.Canonical) : (s.formDone f mixed).Canonical :=
  (h.update.foldl (fun _ _ ht => ht.answerCtx)).setPeerState.nak_.ite (h.update.foldl (fun _ _ ht1 =>
      ht1.answerCtx)).setPeerState.countReached.ok

theorem State.Canonical.formFail {f : Formation} (h : s.Canonical) : (s.formFail f).Canonical :=
  (h.passTo.update.setPeerState.ite h.passTo.update).nak_

/-! ### Keys, signing and the replay -/

theorem State.Canonical.dropAdmitted {k : Nat} (h : s.Canonical) : (s.dropAdmitted k).Canonical := h.update
theorem State.Canonical.disownKey {k : Nat} (h : s.Canonical) : (s.disownKey k).Canonical := h.foldl fun _ _ ht => ht.setCore
theorem State.Canonical.dropRx {k : Nat} (h : s.Canonical) : (s.dropRx k).Canonical := h.foldl fun _ _ ht => ht.setMacsec
theorem State.Canonical.placeKey {k : Nat} {v : KeySlot} (h : s.Canonical) : (s.placeKey k v).Canonical :=
  h.dropRx.dropAdmitted.disownKey.setKey.ite (h.dropRx.dropAdmitted.disownKey.setKey.foldl (fun _ _ ht => ht.newGen.ite ht))
theorem State.Canonical.clearKeyWords (h : s.Canonical) : s.clearKeyWords.Canonical := h.clearRegs

theorem State.Canonical.keyInstall {r : Req} {slot : Nat} {owner : Bool} {w : List Byte} (h : s.Canonical) :
    (s.keyInstall r slot owner w).Canonical :=
  h.nak_.ite (h.nak_.ite h.placeKey.clearKeyWords.ok)

theorem State.Canonical.keyErase {slot : Nat} (h : s.Canonical) : (s.keyErase slot).Canonical :=
  h.nak_.ite (h.nak_.ite h.placeKey.dropKeyQps.clearKeyWords.ok)

theorem State.Canonical.clearSlots {k : Nat} {l : List Nat} (h : s.Canonical) : (s.clearSlots k l).Canonical := by
  unfold State.clearSlots
  split
  · exact h.foldl fun _ _ ht1 => ht1.clearSeq
  · exact h

theorem State.Canonical.keyEraseAll (h : s.Canonical) : s.keyEraseAll.Canonical :=
  h.nak_.ite (((h.foldl (fun _ _ ht => ht.clearSlots)).foldl (fun _ _ ht1 => ht1.placeKey)).closePeers.foldl (fun _ _ ht2 =>
      ht2.closeSession)).killQps.countReached.pfcSync.clearKeyWords.ok

theorem State.Canonical.wKeyCmd {r : Req} {group : Bool} {v : W32} (h : s.Canonical) : (s.wKeyCmd r group v).Canonical :=
  h.ok.ite ((h.keyEraseAll.ite h.nak_).ite ((h.nak_.ite h.keyErase).ite (h.nak_.ite h.keyInstall)))

theorem State.Canonical.reserveIndex (h : s.Canonical) : SndCanonical s.reserveIndex := by
  unfold State.reserveIndex
  exact h.pair.ite (h.draw.snd.pair.ite h.draw.snd.update.pair)

theorem State.Canonical.takeIndex (h : s.Canonical) : SndCanonical s.takeIndex := by
  unfold State.takeIndex
  split
  · exact h.update.pair.ite h.reserveIndex
  · exact h.reserveIndex

theorem State.Canonical.attGo {c : Nat} (h : s.Canonical) : (s.attGo c).Canonical := by
  unfold State.attGo
  refine State.Canonical.ite h.setF ?_
  refine State.Canonical.ite h.setF ?_
  split
  · rename_i e
    exact (h.takeIndex.of_eq e).setF
  · rename_i e1
    exact (h.takeIndex.of_eq e1).update.setB

theorem execAttestationComplete_canonical (h : s.Canonical) : Out.Canonical (execAttestationComplete s) := by
  unfold execAttestationComplete
  split
  · exact h.next
  · exact h.update.writeTier.setReg.next

theorem State.Canonical.signGo {k c : Nat} (h : s.Canonical) : (s.signGo k c).Canonical := by
  unfold State.signGo
  refine State.Canonical.ite h.setF ?_
  refine State.Canonical.ite h.setF ?_
  refine State.Canonical.ite h.setF ?_
  split
  · rename_i e
    exact (h.takeIndex.of_eq e).setF
  · rename_i e1
    exact (h.takeIndex.of_eq e1).update.setB

theorem State.Canonical.readLeaves {k asn n : Nat} (h : s.Canonical) : SndCanonical (s.readLeaves k asn n) := by
  induction n with
  | zero => exact h.pair
  | succ n ih =>
    unfold State.readLeaves
    split
    rename_i e1
    split
    rename_i e2
    exact ((ih.of_eq e1).readTier.of_eq e2).pair

theorem execBatchRootSignComplete_canonical (h : s.Canonical) : Out.Canonical (execBatchRootSignComplete s) := by
  unfold execBatchRootSignComplete
  split
  · exact h.next
  · dsimp only
    split
    · exact h.update.setReg.next
    · exact h.update.setReg.next.ite h.update.readLeaves.snd.writeTier.setReg.next

theorem State.Canonical.record {kind key ctx ref : Nat} {data : Option (List Byte)} {body : List Byte} (h : s.Canonical) :
    (s.record kind key ctx ref data body).Canonical :=
  h.ite h.update.setPair.setPair

theorem State.Canonical.setRpl {v : Nat} (h : s.Canonical) : (s.setRpl v).Canonical := h.setReg
theorem State.Canonical.replayStart (h : s.Canonical) : s.replayStart.Canonical :=
  h.nak_.ite (h.setRpl.ok.ite h.update.setRpl.ok)
theorem State.Canonical.wRplCmd {v : W32} (h : s.Canonical) : (s.wRplCmd v).Canonical :=
  h.replayStart.ite (h.setRpl.ok.ite h.ok)
theorem State.Canonical.wDet {off : Nat} {v : W32} (h : s.Canonical) : (s.wDet off v).Canonical :=
  h.put.cntClr.ok.ite ((h.nak_.ite (h.nak_.ite h.put.ok)).ite (h.wRplCmd.ite ((h.setReg.signGo.ite h.setReg).ok.ite h.put.ok)))

theorem State.Canonical.wSec {r : Req} {group : Bool} {off : Nat} {v : W32} (h : s.Canonical) :
    (s.wSec r group off v).Canonical :=
  h.setReg.ok.ite (h.wKeyCmd.ite ((h.setReg.attGo.ite h.setReg).ok.ite h.put.ok))

/-! ### Resets and the boot -/

theorem State.Canonical.lifeFlush (h : s.Canonical) : s.lifeFlush.Canonical := h.update.lifeAdd
theorem State.Canonical.countColdBoot (h : s.Canonical) : s.countColdBoot.Canonical := h.update
theorem State.Canonical.reset : State.reset.Canonical := ⟨rfl, rfl⟩

theorem State.Canonical.powerDown (h : s.Canonical) : s.powerDown.Canonical := by
  unfold State.powerDown
  refine State.Canonical.foldl ((canonical_iff _).mpr ⟨Mem.wf_clearRange _ _ _ rfl, rfl, h.flash, rfl, rfl, rfl⟩) ?_
  exact fun _ _ ht => ht.setKey

theorem State.Canonical.coldReset {source : Nat} (h : s.Canonical) : (s.coldReset source).Canonical := h.powerDown.setF
theorem State.Canonical.enterRecovery {cause : Nat} (h : s.Canonical) : (s.enterRecovery cause).Canonical :=
  h.setDevState.setF.setReg.update
theorem State.Canonical.startBoot (h : s.Canonical) : s.startBoot.Canonical :=
  h.ite ((h.countColdBoot.ite h).update.setDevState.ite (h.countColdBoot.ite h).update.enterRecovery)
theorem State.Canonical.dropLink (h : s.Canonical) : s.dropLink.Canonical := h.setReg.update
theorem State.Canonical.clearUnits (h : s.Canonical) : s.clearUnits.Canonical := by
  refine State.Canonical.updateBp ((canonical_iff _).mpr ⟨Mem.wf_clearRange _ _ _ h.mem, rfl, h.flash, rfl, rfl, h.regs⟩)
theorem State.Canonical.closeAll (h : s.Canonical) : s.closeAll.Canonical :=
  (h.foldl (fun _ _ ht => ht.closeSession)).setPeerState.setF
theorem State.Canonical.dropJobs (h : s.Canonical) : s.dropJobs.Canonical :=
  (h.update.setB.setB.setRpl.ite h.update.setB.setB).setB

theorem State.Canonical.warmReset {source : Nat} (h : s.Canonical) : (s.warmReset source).Canonical :=
  h.coldReset.startBoot.ite (h.lifeAdd.lifeFlush.dropLink.setF.setDevState.foldl (fun _ _ ht =>
      ht.setB)).setB.closeAll.clearUnits.dropJobs.setReg.setReg.setB.update

theorem execVauxRise_canonical {straps : BitVec 2} (h : s.Canonical) : Out.Canonical (execVauxRise straps s) :=
  h.next.ite h.powerDown.update.lifeAdd.next
theorem execVauxLoss_canonical (h : s.Canonical) : Out.Canonical (execVauxLoss s) := h.next.ite h.powerDown.update.next
theorem execPwrGoodRise_canonical (h : s.Canonical) : Out.Canonical (execPwrGoodRise s) :=
  h.next.ite (h.coldReset.update.setDevState.ite h.coldReset.update.update).next
theorem execPwrGoodFall_canonical (h : s.Canonical) : Out.Canonical (execPwrGoodFall s) :=
  h.next.ite h.lifeFlush.powerDown.update.next
theorem execDevResetNFall_canonical {short : Bool} (h : s.Canonical) : Out.Canonical (execDevResetNFall short s) :=
  h.next.ite (h.update.next.ite h.update.warmReset.update.next)
theorem execDevResetNLongHold_canonical (h : s.Canonical) : Out.Canonical (execDevResetNLongHold s) :=
  h.coldReset.next.ite h.next
theorem execDevResetNRise_canonical {probe : FlashProbe} (h : s.Canonical) : Out.Canonical (execDevResetNRise probe s) :=
  h.next.ite (h.update.startBoot.next.ite h.update.next)
theorem execWarmEntryComplete_canonical (h : s.Canonical) : Out.Canonical (execWarmEntryComplete s) :=
  h.next.ite h.settleAll.evictAll.update.update.startBoot.next
theorem execRefclkLoss_canonical (h : s.Canonical) : Out.Canonical (execRefclkLoss s) := h.next.ite h.update.report.next
theorem execRefclkRestore_canonical (h : s.Canonical) : Out.Canonical (execRefclkRestore s) := h.update.next
theorem State.Canonical.throttleBit (h : s.Canonical) : s.throttleBit.Canonical := h.setB
theorem State.Canonical.floorBit (h : s.Canonical) : s.floorBit.Canonical := h.setB
theorem State.Canonical.quadStep {q : Nat} {tj : Int} {vmin : Nat} (h : s.Canonical) : (s.quadStep q tj vmin).Canonical :=
  h.update
theorem State.Canonical.quadLive {q : Nat} {tj : Int} (h : s.Canonical) : (s.quadLive q tj).Canonical := h.setReg
theorem State.Canonical.livePower {smp : PowerSample} (h : s.Canonical) : (s.livePower smp).Canonical :=
  h.quadLive.quadLive.quadLive.quadLive.setF
theorem execPowerManagerPass_canonical {smp : PowerSample} (h : s.Canonical) : Out.Canonical (execPowerManagerPass smp s) :=
  h.next.ite (h.livePower.next.ite h.update.quadStep.quadStep.quadStep.quadStep.livePower.floorBit.setB.throttleBit.next)

theorem execFastGuardTrip_canonical {q : Fin 4} {amps gap : Nat} (h : s.Canonical) :
    Out.Canonical (execFastGuardTrip q amps gap s) :=
  h.next.ite h.update.throttleBit.next

theorem execFastGuardRelease_canonical {q : Fin 4} {amps : Nat} (h : s.Canonical) :
    Out.Canonical (execFastGuardRelease q amps s) :=
  h.next.ite h.update.throttleBit.next

theorem execJunctionOverLimit_canonical {unit : Nat} {hot : Bool} (h : s.Canonical) :
    Out.Canonical (execJunctionOverLimit unit hot s) :=
  h.update.report.next.ite h.update.next

theorem execThermalTrip_canonical {unit : Nat} {vddqGood : Bool} (h : s.Canonical) :
    Out.Canonical (execThermalTrip unit vddqGood s) :=
  h.next.ite (h.lifeAdd.update.lifeFlush.next.ite h.lifeAdd.update.lifeFlush.dropLink.closeAll.dropJobs.setDevState.update.next)

theorem State.Canonical.firmwareStart {img : List Byte} (h : s.Canonical) : (s.firmwareStart img).Canonical :=
  h.setReg.setReg.setDevState.update
theorem execImageStagingComplete_canonical (h : s.Canonical) : Out.Canonical (execImageStagingComplete s) :=
  h.next.ite (h.update.firmwareStart.ite h.update.enterRecovery).next
theorem execTrainingTimeout_canonical (h : s.Canonical) : Out.Canonical (execTrainingTimeout s) :=
  h.enterRecovery.next.ite h.next
theorem execWatchdogExpiry_canonical (h : s.Canonical) : Out.Canonical (execWatchdogExpiry s) := h.warmReset.next.ite h.next

theorem State.Canonical.trainCold {tr : Training} (h : s.Canonical) : (s.trainCold tr).Canonical :=
  ((h.setReg.setReg.setReg.setReg.setReg.setReg.foldl (fun _ _ ht => ht.setB)).setF.setF.ite
      (h.setReg.setReg.setReg.setReg.setReg.setReg.foldl (fun _ _ ht1 => ht1.setB)).setF).update.foldl fun _ _ ht2 =>
      ht2.removeMem

theorem execMemoryTrainingComplete_canonical {tr : Training} (h : s.Canonical) :
    Out.Canonical (execMemoryTrainingComplete tr s) :=
  h.next.ite (h.trainCold.ite h).update.next

theorem execEnumerationComplete_canonical (h : s.Canonical) : Out.Canonical (execEnumerationComplete s) :=
  h.next.ite (((h.foldl (fun _ _ ht => ht.setF)).foldl (fun _ _ ht1 => ht1.setB)).foldl (fun _ _ ht2 => ht2.setB)).update.next
theorem State.Canonical.restoreCtx {c : Nat} (h : s.Canonical) : (s.restoreCtx c).Canonical := h.enableCtx.snd
theorem State.Canonical.warmRestore (h : s.Canonical) : s.warmRestore.Canonical :=
  ((h.answerRun.setB.setDevState.ite h.answerRun).ite h).update.foldl fun _ _ ht => ht.restoreCtx
theorem execBootReady_canonical (h : s.Canonical) : Out.Canonical (execBootReady s) :=
  h.next.ite (h.update.setB.setB.setDevState.ite h.update.setB.setB.setDevState.warmRestore).next
theorem execContextResetPerform_canonical {c : Fin 16} (h : s.Canonical) : Out.Canonical (execContextResetPerform c s) :=
  h.next.ite (h.next.ite h.clearCtxCtrs.resetRegs.update.next)

theorem State.Canonical.clearSpire {sp : Nat} (h : s.Canonical) : (s.clearSpire sp).Canonical :=
  (canonical_iff _).mpr ⟨Mem.wf_clearRange _ _ _ h.mem, Mem.wf_clearRange _ _ _ h.dmem, h.flash, Mem.wf_clearRange _ _ _
      h.scales, Mem.wf_clearRange _ _ _ h.gscales, h.regs⟩

theorem execSpireReset_canonical {sp : Fin 64} (h : s.Canonical) : Out.Canonical (execSpireReset sp s) :=
  (h.clearSpire.ite h).next
theorem State.Canonical.tapLoad {code : Nat} {park : TapState} (h : s.Canonical) : (s.tapLoad code park).Canonical := h.update
theorem State.Canonical.tapReset (h : s.Canonical) : s.tapReset.Canonical := h.tapLoad.update.startBoot.ite h.tapLoad
theorem State.Canonical.tapHoldReset {code : Nat} {park : TapState} (h : s.Canonical) : (s.tapHoldReset code park).Canonical :=
  h.ite (h.leavePark.tapLoad.ite (h.leavePark.tapLoad.update.coldReset.tapReset.ite h.leavePark.tapLoad.update.coldReset))

theorem State.Canonical.tapHoldScan {code : Nat} {x : BoundaryScan} {park : TapState} (h : s.Canonical) :
    (s.tapHoldScan code x park).Canonical :=
  h.tapHoldReset.scanDr.ite h.tapHoldReset

theorem execExtest_canonical {x : BoundaryScan} {park : TapState} (h : s.Canonical) : Out.Canonical (execExtest x park s) :=
  h.tapHoldScan.next
theorem execClamp_canonical {park : TapState} (h : s.Canonical) : Out.Canonical (execClamp park s) := h.tapHoldReset.next
theorem execHighz_canonical {park : TapState} (h : s.Canonical) : Out.Canonical (execHighz park s) := h.tapHoldReset.next

theorem execExtestPulse_canonical {x : BoundaryScan} {park : TapState} (h : s.Canonical) :
    Out.Canonical (execExtestPulse x park s) :=
  h.tapHoldScan.next

theorem execExtestTrain_canonical {x : BoundaryScan} {park : TapState} (h : s.Canonical) :
    Out.Canonical (execExtestTrain x park s) :=
  h.tapHoldScan.next

theorem State.Canonical.tapQuiet {code : Nat} {park : TapState} (h : s.Canonical) : (s.tapQuiet code park).Canonical :=
  h.ite (h.leavePark.tapReset.ite h.leavePark.tapLoad)
theorem execIdcode_canonical {park : TapState} (h : s.Canonical) : Out.Canonical (execIdcode park s) :=
  (h.tapQuiet.emit.ite h.tapQuiet).next

theorem execSamplePreload_canonical {x : BoundaryScan} {park : TapState} (h : s.Canonical) :
    Out.Canonical (execSamplePreload x park s) :=
  (h.tapQuiet.ite (h.tapQuiet.scanDr.ite h.tapQuiet.update)).next

theorem execBypass_canonical {park : TapState} (h : s.Canonical) : Out.Canonical (execBypass park s) := h.tapQuiet.next
theorem execTestLogicReset_canonical (h : s.Canonical) : Out.Canonical (execTestLogicReset s) :=
  (h.leavePark.tapReset.ite h).next

/-! ### Register writes -/

theorem State.Canonical.ctlReset {v : W32} (h : s.Canonical) : (s.ctlReset v).Canonical :=
  h.warmReset.ite (h.coldReset.startBoot.ite h)
theorem State.Canonical.runSet {key : Option Nat} (h : s.Canonical) : (s.runSet key).Canonical :=
  h.nak_.ite (h.answerRun.nak_.ite h.answerRun.setB.setDevState.ok)
theorem State.Canonical.runClear (h : s.Canonical) : s.runClear.Canonical := h.setB.setDevState.ite h.setB
theorem State.Canonical.maintSet (h : s.Canonical) : s.maintSet.Canonical := h.nak_.ite (h.nak_.ite h.setB.setDevState.ok)
theorem State.Canonical.maintClear (h : s.Canonical) : s.maintClear.Canonical := h.setB.setDevState.ite h.setB

theorem State.Canonical.wDevCtl {key : Option Nat} {v : W32} (h : s.Canonical) : (s.wDevCtl key v).Canonical := by
  unfold State.wDevCtl
  dsimp only
  split
  · rename_i e
    exact ((h.nak_.ite ((h.runSet.ite h.runClear.ok).ite ((h.maintSet.ite h.maintClear.ok).ite h.ok))).of_ok e).ctlReset.ok
  · exact h.nak_.ite ((h.runSet.ite h.runClear.ok).ite ((h.maintSet.ite h.maintClear.ok).ite h.ok))

theorem State.Canonical.wPwrCtl {v : W32} (h : s.Canonical) : (s.wPwrCtl v).Canonical := h.nak_.ite h.setReg.floorBit.ok
theorem State.Canonical.wDev {key : Option Nat} {a : Nat} {v : W32} (h : s.Canonical) : (s.wDev key a v).Canonical :=
  h.wDevCtl.ite (h.setReg.ok.ite (h.wPwrCtl.ite h.put.ok))
theorem State.Canonical.wCtxCtl {key : Option Nat} {c : Nat} {v : W32} (h : s.Canonical) : (s.wCtxCtl key c v).Canonical :=
  h.nak_.ite ((h.ok.ite (h.enableCtx.snd.nak_.ite h.enableCtx.snd.ok)).ite (h.setReg.setB.ite h.setReg).ok)
theorem State.Canonical.wCmap {c a : Nat} {v : W32} (h : s.Canonical) : (s.wCmap c a v).Canonical :=
  h.ok.ite (h.nak_.ite (h.put.ok.ite (h.nak_.ite (h.nak_.ite h.put.ok))))
theorem State.Canonical.wShape {c : Nat} {v : W32} (h : s.Canonical) : (s.wShape c v).Canonical := h.nak_.ite h.put.setF.ok

theorem State.Canonical.wLocked {c off : Nat} {v : W32} (h : s.Canonical) : (s.wLocked c off v).Canonical :=
  h.nak_.ite ((h.nak_.ite h.put.ok).ite ((h.nak_.ite h.put.ok).ite (h.wShape.ite ((h.nak_.ite h.setReg.setReg.ok).ite
      h.put.ok))))

theorem State.Canonical.wCtx {key : Option Nat} {c off : Nat} {v : W32} (h : s.Canonical) : (s.wCtx key c off v).Canonical :=
  h.wCtxCtl.ite (h.wLocked.ite (h.wTblCmd.ite (h.wCmap.ite h.put.ok)))
theorem State.Canonical.wPort {key : Option Nat} {a : Nat} {v : W32} (h : s.Canonical) : (s.wPort key a v).Canonical :=
  h.wPortCfg.ite (h.wKsess.ite (h.wPortCtl.ok.ite (h.nak_.ite h.put.ok)))
theorem State.Canonical.wDome {key : Option Nat} {off : Nat} {v : W32} (h : s.Canonical) : (s.wDome key off v).Canonical :=
  h.wDomeCtl.ite (h.wWaymask.ite (h.wMnt.ite (h.wSeed.ok.ite h.put.ok)))

theorem State.Canonical.wMem {r : Req} {wait : Bool} {a : Nat} {v : W32} (h : s.Canonical) : (s.wMem r wait a v).Canonical := by
  unfold State.wMem
  exact (h.wRgnA.ite h.wRgnBC).ite (h.wGrsv.ite (h.wWindow.ite h.put.ok))

theorem State.Canonical.wRe {o : Nat} {v : W32} (h : s.Canonical) : (s.wRe o v).Canonical := h.cntClr.ite (h.cntClr.ite h)
theorem State.Canonical.wSpire {sp off : Nat} {v : W32} (h : s.Canonical) : (s.wSpire sp off v).Canonical := h.cntClr.ite h
theorem State.Canonical.wSync {off : Nat} {v : W32} (h : s.Canonical) : (s.wSync off v).Canonical :=
  h.cntClr.ok.ite ((h.nak_.ite h.setReg.ok).ite h.put.ok)
theorem State.Canonical.drainStart {sp : Nat} (h : s.Canonical) : (s.drainStart sp).Canonical :=
  h.setSpireState.withdrawSpire.checkDrained
theorem State.Canonical.wDrain {v : W32} (h : s.Canonical) : (s.wDrain v).Canonical :=
  (h.nak_.ite h.drainStart.ok).ite ((h.nak_.ite h.setSpireState.ok).ite h.ok)
theorem State.Canonical.wCalve {off : Nat} {v : W32} (h : s.Canonical) : (s.wCalve off v).Canonical :=
  h.nak_.ite (h.nak_.ite h.put.ok)
theorem State.Canonical.wShare {a : Nat} {v : W32} (h : s.Canonical) : (s.wShare a v).Canonical := h.setReg
theorem State.Canonical.wDisp {off : Nat} {v : W32} (h : s.Canonical) : (s.wDisp off v).Canonical :=
  h.cntClr.ok.ite (h.wCalve.ite (h.wDrain.ite (h.wShare.ok.ite ((h.nak_.ite h.setReg.setReg.ok).ite h.put.ok))))
theorem State.Canonical.wStrm {off : Nat} {v : W32} (h : s.Canonical) : (s.wStrm off v).Canonical :=
  h.wShare.ite (h.cntClr.ite h.put)
theorem State.Canonical.wQnt {off : Nat} {v : W32} (h : s.Canonical) : (s.wQnt off v).Canonical :=
  (h.nak_.ite h.put.cntClr.ok).ite (h.cntClr.ok.ite h.put.ok)
theorem State.Canonical.testSpire {sp : Nat} {auto : Bool} (h : s.Canonical) : (s.testSpire sp auto).Canonical :=
  h.setF.update.setB
theorem State.Canonical.testFull (h : s.Canonical) : s.testFull.Canonical := h.settleAll.evictAll.update.setB
theorem State.Canonical.wTest {v : W32} (h : s.Canonical) : (s.wTest v).Canonical :=
  (h.nak_.ite h.testSpire.ok).ite ((h.nak_.ite h.testFull.ok).ite h.ok)
theorem State.Canonical.ack {v : W32} (h : s.Canonical) : (s.ack v).Canonical := h.setReg
theorem State.Canonical.wErr {off : Nat} {v : W32} (h : s.Canonical) : (s.wErr off v).Canonical :=
  h.cntClr.ok.ite (h.setReg.ok.ite (h.ack.ok.ite (h.wTest.ite h.put.ok)))

theorem State.Canonical.writeReg {r : Req} {msg group : Bool} {a : Nat} {v : W32} (h : s.Canonical) :
    (s.writeReg r msg group a v).Canonical :=
  h.wDev.ite (h.wPort.ite (h.wSess.ite (h.wPeer.ite (h.wCtx.ite (h.wDome.ite (h.wMem.ite (h.wRe.ok.ite (h.wSpire.ok.ite
      (h.wSync.ite (h.wDisp.ite (h.wStrm.ok.ite ((h.wDet.ite h.wQnt).ite (h.wErr.ite (h.wSec.ite h.put.ok))))))))))))))

theorem State.Canonical.ctlWrite {r : Req} {msg group : Bool} {a : Nat} {v : W32} (h : s.Canonical) :
    (s.ctlWrite r msg group a v).Canonical := by
  unfold State.ctlWrite
  refine WRes.Canonical.ite h.nak_ ?_
  refine WRes.Canonical.ite h.nak_ ?_
  refine WRes.Canonical.ite h.writeReg ?_
  split
  · rename_i e
    exact (h.writeReg.of_nak e).nak_
  · exact h.record.writeReg

theorem State.Canonical.ctlRun {r : Req} {group : Bool} {l : List (Nat × W32)} (h : s.Canonical) :
    (s.ctlRun r group l).Canonical := by
  induction l generalizing s with
  | nil => exact h.done
  | cons w l ih =>
    unfold State.ctlRun
    split
    · rename_i e
      exact (h.ctlWrite.of_nak e).stop
    · rename_i e
      exact (h.ctlWrite.of_pend e).update.wait
    · rename_i e
      exact (ih (h.ctlWrite.of_ok e)).ite (h.ctlWrite.of_ok e).done

theorem State.Canonical.ctlQp {r : Req} {b : List Byte} (h : s.Canonical) : (s.ctlQp r b).Canonical := by
  unfold State.ctlQp
  dsimp only
  split
  · rename_i e
    exact (h.qpCmd.of_nak e).stop
  · split
    · rename_i e1
      exact (h.record.qpCmd.of_nak e1).stop
    · rename_i e2
      exact (h.record.qpCmd.of_ok e2).done
    · rename_i e3
      exact (h.record.qpCmd.of_pend e3).done

theorem State.Canonical.nakReg {r : Req} {reason a : Nat} (h : s.Canonical) : (s.nakReg r reason a).Canonical := h.ite h.refuse

theorem State.Canonical.regRow {r : Req} {a : Nat} {v : W32} (h : s.Canonical) : (s.regRow r a v).Canonical := by
  unfold State.regRow
  split
  · exact h
  · refine State.Canonical.ite h.nakReg ?_
    split
    · rename_i e2
      exact h.ctlWrite.of_ok e2
    · rename_i e3
      exact h.ctlWrite.of_pend e3
    · rename_i e4
      exact (h.ctlWrite.of_nak e4).nakReg

theorem SeqRes.Canonical.seqAnswer {r : Req} {q : SeqRes} (h : q.Canonical) : (State.seqAnswer r q).Canonical := by
  cases h with
  | done ht => exact ht
  | stop ht => exact ht.nakReg
  | wait ht => exact ht

theorem State.Canonical.seqRow {r : Req} {a : Nat} {f : State → SeqRes} (h : s.Canonical)
    (hf : ∀ t, t.Canonical → (f t).Canonical) :
    (s.seqRow r a f).Canonical := by
  unfold State.seqRow
  split
  · exact h
  · exact h.nakReg.ite (hf s h).seqAnswer

/-! ### Rows of register commands -/

theorem execDevCtlResetWarm_canonical {r : Req} {v : W32} (h : s.Canonical) : Out.Canonical (execDevCtlResetWarm r v s) :=
  (h.regRow.ite h).next
theorem execDevCtlResetCold_canonical {r : Req} {v : W32} (h : s.Canonical) : Out.Canonical (execDevCtlResetCold r v s) :=
  (h.regRow.ite h).next
theorem execDevCtlRunSet_canonical {r : Req} {v : W32} (h : s.Canonical) : Out.Canonical (execDevCtlRunSet r v s) :=
  (h.regRow.ite h).next
theorem execDevCtlRunClear_canonical {r : Req} {v : W32} (h : s.Canonical) : Out.Canonical (execDevCtlRunClear r v s) :=
  (h.regRow.ite h).next
theorem execDevCtlMaintSet_canonical {r : Req} {v : W32} (h : s.Canonical) : Out.Canonical (execDevCtlMaintSet r v s) :=
  (h.regRow.ite h).next
theorem execDevCtlMaintClear_canonical {r : Req} {v : W32} (h : s.Canonical) : Out.Canonical (execDevCtlMaintClear r v s) :=
  (h.regRow.ite h).next

theorem execCtxCtlEnSet_canonical {r : Req} {c : Fin 16} {v : W32} (h : s.Canonical) :
    Out.Canonical (execCtxCtlEnSet r c v s) :=
  (h.regRow.ite h).next

theorem execCtxCtlEnClear_canonical {r : Req} {c : Fin 16} {v : W32} (h : s.Canonical) :
    Out.Canonical (execCtxCtlEnClear r c v s) :=
  (h.regRow.ite h).next

theorem execCtxCtlReset_canonical {r : Req} {c : Fin 16} {v : W32} (h : s.Canonical) :
    Out.Canonical (execCtxCtlReset r c v s) :=
  (h.regRow.ite h).next

theorem execCtxCtlModeWrite_canonical {r : Req} {c : Fin 16} {v : W32} (h : s.Canonical) :
    Out.Canonical (execCtxCtlModeWrite r c v s) :=
  (h.regRow.ite h).next

theorem execRegisterWrite_canonical {r : Req} {addr : Nat} {v : W32} (h : s.Canonical) :
    Out.Canonical (execRegisterWrite r addr v s) :=
  h.regRow.next

theorem execPortModeWrite_canonical {r : Req} {v : W32} (h : s.Canonical) : Out.Canonical (execPortModeWrite r v s) :=
  h.regRow.next

theorem execRegionValidate_canonical {r : Req} {n : Fin 16} {v : W32} (h : s.Canonical) :
    Out.Canonical (execRegionValidate r n v s) :=
  (h.regRow.ite h).next

theorem execRegionInvalidate_canonical {r : Req} {n : Fin 16} {v : W32} (h : s.Canonical) :
    Out.Canonical (execRegionInvalidate r n v s) :=
  (h.regRow.ite h).next

theorem execWindowWrite_canonical {r : Req} {c : Fin 16} {n : Fin 64} {w : Fin 4} {v : W32} (h : s.Canonical) :
    Out.Canonical (execWindowWrite r c n w v s) :=
  h.regRow.next

theorem execDomeSeedWrite_canonical {r : Req} {n : Fin 32} {v : W32} (h : s.Canonical) :
    Out.Canonical (execDomeSeedWrite r n v s) :=
  h.regRow.next

theorem execDomeWaymaskWrite_canonical {r : Req} {v : W32} (h : s.Canonical) : Out.Canonical (execDomeWaymaskWrite r v s) :=
  h.regRow.next
theorem execDomeDisable_canonical {r : Req} {v : W32} (h : s.Canonical) : Out.Canonical (execDomeDisable r v s) :=
  (h.regRow.ite h).next
theorem execDomeEnable_canonical {r : Req} {v : W32} (h : s.Canonical) : Out.Canonical (execDomeEnable r v s) :=
  (h.regRow.ite h).next
theorem execDomeCntClr_canonical {r : Req} {v : W32} (h : s.Canonical) : Out.Canonical (execDomeCntClr r v s) :=
  (h.regRow.ite h).next
theorem execClean_canonical {r : Req} {v : W32} (h : s.Canonical) : Out.Canonical (execClean r v s) := (h.regRow.ite h).next
theorem execInvalidate_canonical {r : Req} {v : W32} (h : s.Canonical) : Out.Canonical (execInvalidate r v s) :=
  (h.regRow.ite h).next
theorem execCleanInvalidate_canonical {r : Req} {v : W32} (h : s.Canonical) : Out.Canonical (execCleanInvalidate r v s) :=
  (h.regRow.ite h).next
theorem execInvalidateAll_canonical {r : Req} {v : W32} (h : s.Canonical) : Out.Canonical (execInvalidateAll r v s) :=
  (h.regRow.ite h).next
theorem execReCntClr_canonical {r : Req} {u : Fin 24} (h : s.Canonical) : Out.Canonical (execReCntClr r u s) := h.regRow.next
theorem execReGlbCntClr_canonical {r : Req} (h : s.Canonical) : Out.Canonical (execReGlbCntClr r s) := h.regRow.next
theorem execStrmCntClr_canonical {r : Req} (h : s.Canonical) : Out.Canonical (execStrmCntClr r s) := h.regRow.next
theorem execSyncCntClr_canonical {r : Req} (h : s.Canonical) : Out.Canonical (execSyncCntClr r s) := h.regRow.next
theorem execDispCntClr_canonical {r : Req} (h : s.Canonical) : Out.Canonical (execDispCntClr r s) := h.regRow.next
theorem execSpsCntClr_canonical {r : Req} (h : s.Canonical) : Out.Canonical (execSpsCntClr r s) := h.regRow.next
theorem execSpireEngCntClr_canonical {r : Req} {sp : Fin 64} (h : s.Canonical) : Out.Canonical (execSpireEngCntClr r sp s) :=
  h.regRow.next
theorem execErrCntClr_canonical {r : Req} (h : s.Canonical) : Out.Canonical (execErrCntClr r s) := h.regRow.next
theorem execPortCntClr_canonical {r : Req} (h : s.Canonical) : Out.Canonical (execPortCntClr r s) := h.regRow.next
theorem execQntCntClr_canonical {r : Req} {v : W32} (h : s.Canonical) : Out.Canonical (execQntCntClr r v s) :=
  (h.regRow.ite h).next
theorem execDetCntClr_canonical {r : Req} {v : W32} (h : s.Canonical) : Out.Canonical (execDetCntClr r v s) :=
  (h.regRow.ite h).next
theorem execDispDrain_canonical {r : Req} {v : W32} (h : s.Canonical) : Out.Canonical (execDispDrain r v s) :=
  (h.regRow.ite h).next
theorem execDispReturn_canonical {r : Req} {v : W32} (h : s.Canonical) : Out.Canonical (execDispReturn r v s) :=
  (h.regRow.ite h).next
theorem execDispTraceCfgWrite_canonical {r : Req} {v : W32} (h : s.Canonical) : Out.Canonical (execDispTraceCfgWrite r v s) :=
  h.regRow.next

theorem execCtxPtraceCfgWrite_canonical {r : Req} {c : Fin 16} {v : W32} (h : s.Canonical) :
    Out.Canonical (execCtxPtraceCfgWrite r c v s) :=
  h.regRow.next

theorem execSwitch_canonical {r : Req} {c : Fin 16} {t : Fin 4096} (h : s.Canonical) : Out.Canonical (execSwitch r c t s) :=
  h.regRow.next
theorem execRetire_canonical {r : Req} {c : Fin 16} {t : Fin 4096} (h : s.Canonical) : Out.Canonical (execRetire r c t s) :=
  h.regRow.next
theorem execQuery_canonical {r : Req} {c : Fin 16} {t : Fin 4096} (h : s.Canonical) : Out.Canonical (execQuery r c t s) :=
  h.regRow.next
theorem execReclaim_canonical {r : Req} {c : Fin 16} {t : Fin 4096} (h : s.Canonical) : Out.Canonical (execReclaim r c t s) :=
  h.regRow.next
theorem execForm_canonical {r : Req} (h : s.Canonical) : Out.Canonical (execForm r s) := h.regRow.next
theorem execDissolve_canonical {r : Req} (h : s.Canonical) : Out.Canonical (execDissolve r s) := h.regRow.next
theorem execReplayStart_canonical {r : Req} (h : s.Canonical) : Out.Canonical (execReplayStart r s) := h.regRow.next
theorem execReplayStop_canonical {r : Req} (h : s.Canonical) : Out.Canonical (execReplayStop r s) := h.regRow.next
theorem execDetSignGo_canonical {r : Req} {v : W32} (h : s.Canonical) : Out.Canonical (execDetSignGo r v s) :=
  (h.regRow.ite h).next
theorem execErrAck_canonical {r : Req} {v : W32} (h : s.Canonical) : Out.Canonical (execErrAck r v s) := h.regRow.next
theorem execSpireTest_canonical {r : Req} {v : W32} (h : s.Canonical) : Out.Canonical (execSpireTest r v s) :=
  (h.regRow.ite h).next
theorem execFullTest_canonical {r : Req} {v : W32} (h : s.Canonical) : Out.Canonical (execFullTest r v s) :=
  (h.regRow.ite h).next
theorem execErase_canonical {r : Req} {slot : Fin 16} (h : s.Canonical) : Out.Canonical (execErase r slot s) := h.regRow.next
theorem execEraseAll_canonical {r : Req} (h : s.Canonical) : Out.Canonical (execEraseAll r s) := h.regRow.next
theorem execAttestationGo_canonical {r : Req} {v : W32} (h : s.Canonical) : Out.Canonical (execAttestationGo r v s) :=
  (h.regRow.ite h).next

theorem execInstall_canonical {r : Req} {slot : Fin 16} {owner : Bool} {wrapped : List Byte} (h : s.Canonical) :
    Out.Canonical (execInstall r slot owner wrapped s) :=
  (h.seqRow (fun _ ht => ht.ctlRun)).next

theorem execCreate_canonical {r : Req} {idx : W32} {b : List Byte} (h : s.Canonical) : Out.Canonical (execCreate r idx b s) :=
  (h.seqRow (fun _ ht => ht.ctlQp)).next
theorem execDestroy_canonical {r : Req} {idx : W32} (h : s.Canonical) : Out.Canonical (execDestroy r idx s) :=
  (h.seqRow (fun _ ht => ht.ctlQp)).next
theorem execQpQuery_canonical {r : Req} {idx : W32} (h : s.Canonical) : Out.Canonical (execQpQuery r idx s) :=
  (h.seqRow (fun _ ht => ht.ctlQp)).next
theorem State.Canonical.i3cRead {addr : Nat} (h : s.Canonical) : (s.i3cRead addr).Canonical := h.readReg.snd.emit.ite h.emit

theorem execI3cRegisterRead_canonical {dest : I3cDest} {wr : List Byte} (h : s.Canonical) :
    Out.Canonical (execI3cRegisterRead dest wr s) :=
  (h.i3cRead.ite h).next

theorem execI3cRegisterWrite_canonical {dest : I3cDest} {wr : List Byte} (h : s.Canonical) :
    Out.Canonical (execI3cRegisterWrite dest wr s) :=
  (h.regRow.ite h).next

theorem execSampledPairRead_canonical {w : Who} {addr : Nat} (h : s.Canonical) :
    Out.Canonical (execSampledPairRead w addr s) := by
  unfold execSampledPairRead
  split
  · exact (h.i3cRead.ite h).next
  · exact (h.readReg.snd.ite h).next
  · exact h.next

/-! ### Faults and tests -/

theorem State.Canonical.faultStop {u : Nat} {x : Nat × Nat} (h : s.Canonical) : (s.faultStop u x).Canonical :=
  h.retryTask.noteFault.ite h

theorem State.Canonical.linkLost {link receiver : Nat} {owners : List (Nat × Nat)} {waiters : List Nat} (h : s.Canonical) :
    (s.linkLost link receiver owners waiters).Canonical :=
  ((h.bump.foldl (fun _ _ ht => ht.retryTask.ite ht)).update.foldl (fun _ _ ht1 => ht1.report)).removeMem.ite ((h.bump.foldl
      (fun _ _ ht2 => ht2.retryTask.ite ht2)).update.foldl (fun _ _ ht3 => ht3.report))

theorem execTransferParityError_canonical {link receiver : Nat} {n : Fin 9} {owners : List (Nat × Nat)} {waiters : List Nat}
    (h : s.Canonical) :
    Out.Canonical (execTransferParityError link receiver n owners waiters s) :=
  h.next.ite (h.bump.lifeAdd.report.next.ite h.linkLost.next)

theorem execStateParityError_canonical {u key asn : Nat} (h : s.Canonical) :
    Out.Canonical (execStateParityError u key asn s) := by
  unfold execStateParityError
  split
  · exact h.next
  · exact h.next.ite h.report.faultStop.next

theorem State.Canonical.corrected {u a : Nat} (h : s.Canonical) : (s.corrected u a).Canonical := h.draw.snd.bump.lifeAdd.report

theorem execCorrectedError_canonical {unit : Option Nat} {a : Nat} (h : s.Canonical) :
    Out.Canonical (execCorrectedError unit a s) := by
  unfold execCorrectedError
  split
  · exact (h.corrected.ite h).next
  · exact (h.corrected.ite h).next

theorem State.Canonical.spoil {a : Nat} (h : s.Canonical) : (s.spoil a).Canonical := h.setTierBad
theorem State.Canonical.ueFound {u a : Nat} (h : s.Canonical) : (s.ueFound u a).Canonical := h.draw.snd.bump.lifeAdd.report

theorem execUncorrectableError_canonical {e : UeSite} (h : s.Canonical) : Out.Canonical (execUncorrectableError e s) := by
  unfold execUncorrectableError
  split
  · exact (h.spoil.dataError.ite h).next
  · dsimp only
    split
    · exact h.next
    · split
      · exact h.next
      · exact (h.writeBack.spoil.putLine.noteFault.ueFound.ite h).next
  · refine State.Canonical.next ?_
    split
    · exact h
    · exact h.ite (h.ueFound.loseTask.noteFault.ite h.ueFound.loseTask)

theorem execPatrolScrub_canonical {a : Nat} {r : ScrubResult} (h : s.Canonical) : Out.Canonical (execPatrolScrub a r s) :=
  h.next.ite ((h.spoil.ite h).ueFound.noteFault.next.ite (h.corrected.next.ite h.next))

theorem execRecordClose_canonical {seq : Nat} (h : s.Canonical) : Out.Canonical (execRecordClose seq s) := by
  unfold execRecordClose
  split
  · exact h.next
  · exact h.next.ite h.passTo.update.next

theorem State.Canonical.testFailed {u n : Nat} (h : s.Canonical) : (s.testFailed u n).Canonical := h.lifeAdd.report

theorem State.Canonical.removeUnit {u : Nat} (h : s.Canonical) : (s.removeUnit u).Canonical := by
  unfold State.removeUnit
  split
  · exact h.removeSpire
  · exact h.removeMem.ite (h.loseLane.ite h)

theorem State.Canonical.testStatus {pass : Bool} (h : s.Canonical) : (s.testStatus pass).Canonical := h.update.setB.setB

theorem State.Canonical.spireTested {sp : Nat} {auto out : Bool} {fails : List Nat} {n : Nat} (h : s.Canonical) :
    (s.spireTested sp auto out fails n).Canonical :=
  h.loseSpireMem.testStatus.setF.setF.ite ((h.loseSpireMem.testStatus.setF.foldl (fun _ _ ht =>
      ht.testFailed)).setSpireState.ite (h.loseSpireMem.testStatus.setF.foldl (fun _ _ ht1 =>
      ht1.testFailed)).setSpireState.lifeAdd.report)

theorem execSelfTestComplete_canonical {fails : List Nat} {n : Nat} (h : s.Canonical) :
    Out.Canonical (execSelfTestComplete fails n s) := by
  unfold execSelfTestComplete
  refine Out.Canonical.ite h.next ?_
  split
  · exact h.next
  · exact h.lifeAdd.spireTested.next
  · exact (h.lifeAdd.testStatus.foldl (fun _ _ ht3 => ht3.testFailed.removeUnit)).next

theorem State.Canonical.autoTest {sp : Nat} (h : s.Canonical) : (s.autoTest sp).Canonical := h.testSpire.update.ite h

theorem execAutotestTimer_canonical (h : s.Canonical) : Out.Canonical (execAutotestTimer s) := by
  unfold execAutotestTimer
  refine Out.Canonical.ite h.next ?_
  split
  · exact h.next
  · exact h.autoTest.next.ite (h.update.next.ite h.update.drainStart.autoTest.next)

theorem State.Canonical.lifeQuad {q : Nat} (h : s.Canonical) : (s.lifeQuad q).Canonical := h.lifeAdd.lifeAdd.lifeAdd
theorem execLifetimeAccumulate_canonical (h : s.Canonical) : Out.Canonical (execLifetimeAccumulate s) :=
  h.next.ite ((h.foldl (fun _ _ ht => ht.lifeQuad)).ite h).lifeAdd.update.next
theorem execLifetimeMramWrite_canonical (h : s.Canonical) : Out.Canonical (execLifetimeMramWrite s) := (h.lifeFlush.ite h).next

/-! ### Messages -/

theorem State.Canonical.storeData {key c ref a : Nat} {d : List Byte} (h : s.Canonical) :
    (s.storeData key c ref a d).Canonical :=
  h.record.writeTier

theorem State.Canonical.writeMsg {r : Req} {p : List Byte} (h : s.Canonical) : (s.writeMsg r p).Canonical :=
  h.refuse.ite h.storeData
theorem State.Canonical.readMsg {r : Req} {p : List Byte} (h : s.Canonical) : (s.readMsg r p).Canonical :=
  h.refuse.ite (h.refuse.ite (h.refuse.ite (h.noteBad.refuse.ite (h.refuse.ite h.readTier.snd.sendReadData))))
theorem execRead_canonical {r : Req} {p : List Byte} (h : s.Canonical) : Out.Canonical (execRead r p s) :=
  (h.onMsg (fun _ ht => ht.readMsg)).next

theorem sendResults_canonical {n i : Nat} {b d : List Byte} (h : s.Canonical) : (sendResults n s i b d).Canonical := by
  induction n generalizing s d with
  | zero => exact h
  | succ n ih => exact h.answer.ite (ih h.answer)

theorem State.Canonical.getResult {r : Req} {p : List Byte} (h : s.Canonical) : (s.getResult r p).Canonical := by
  unfold State.getResult
  refine .ite h.refuse (.ite h.refuse (.ite h.refuse (.ite h.refuse ?_)))
  split
  rename_i e
  exact sendResults_canonical (h.readTier.of_eq e).readTier.snd

theorem execGetResult_canonical {r : Req} {p : List Byte} (h : s.Canonical) : Out.Canonical (execGetResult r p s) :=
  (h.onMsg (fun _ ht => ht.getResult)).next
theorem State.Canonical.freeResults {k asn count : Nat} (h : s.Canonical) : (s.freeResults k asn count).Canonical :=
  h.clearSlots.setKey
theorem State.Canonical.releaseOf {k ref asn count : Nat} (h : s.Canonical) : (s.releaseOf k ref asn count).Canonical :=
  h.record.freeResults

theorem State.Canonical.releaseMsg {r : Req} {p : List Byte} (h : s.Canonical) : (s.releaseMsg r p).Canonical := by
  unfold State.releaseMsg
  refine State.Canonical.ite h.refuse ?_
  refine State.Canonical.ite h.refuse ?_
  split
  · exact h.refuse
  · exact h.releaseOf

theorem execRelease_canonical {r : Req} {p : List Byte} (h : s.Canonical) : Out.Canonical (execRelease r p s) :=
  (h.onMsg (fun _ ht => ht.releaseMsg)).next
theorem State.Canonical.cancelTask {key asn : Nat} (h : s.Canonical) : (s.cancelTask key asn).Canonical :=
  h.modTask.stopTask.endTask
theorem State.Canonical.cancelMsg {r : Req} {p : List Byte} (h : s.Canonical) : (s.cancelMsg r p).Canonical :=
  h.refuse.ite (h.refuse.ite (h.record.cancelTask.ite (h.refuse.ite h.refuse)))
theorem execCancel_canonical {r : Req} {p : List Byte} (h : s.Canonical) : Out.Canonical (execCancel r p s) :=
  (h.onMsg (fun _ ht => ht.cancelMsg)).next
theorem State.Canonical.controlRd {r : Req} {p : List Byte} (h : s.Canonical) : (s.controlRd r p).Canonical :=
  h.refuse.ite (h.refuse.ite (h.refuse.ite h.readRegs.snd.sendReadData))
theorem execControlRd_canonical {r : Req} {p : List Byte} (h : s.Canonical) : Out.Canonical (execControlRd r p s) :=
  (h.onMsg (fun _ ht => ht.controlRd)).next
theorem State.Canonical.controlWr {r : Req} {p : List Byte} (h : s.Canonical) : (s.controlWr r p).Canonical :=
  h.refuse.ite (h.refuse.ite (h.refuse.ite (h.ctlQp.seqAnswer.ite h.ctlRun.seqAnswer)))
theorem execControlWr_canonical {r : Req} {p : List Byte} (h : s.Canonical) : Out.Canonical (execControlWr r p s) :=
  (h.ite (h.onMsg (fun _ ht => ht.controlWr))).next
theorem State.Canonical.finishForm {r : Req} (h : s.Canonical) : (s.finishForm r).Canonical := h.finish.ite h

theorem formEnd_canonical {f : Formation} {w : WRes} (h : w.Canonical) : (formEnd f w).Canonical := by
  unfold formEnd
  dsimp only
  split
  · exact ((h.of_nak rfl).nakReg.ite (h.of_nak rfl)).finishForm
  · split
    · rename_i e
      exact ((h.of_ok rfl).ctlRun.of_done e).finishForm
    · rename_i e1
      exact (h.of_ok rfl).ctlRun.of_wait e1
    · rename_i e2
      exact (((h.of_ok rfl).ctlRun.of_stop e2).nakReg.ite ((h.of_ok rfl).ctlRun.of_stop e2)).finishForm
  · split
    · rename_i e3
      exact ((h.of_pend rfl).ctlRun.of_done e3).finishForm
    · rename_i e4
      exact (h.of_pend rfl).ctlRun.of_wait e4
    · rename_i e5
      exact (((h.of_pend rfl).ctlRun.of_stop e5).nakReg.ite ((h.of_pend rfl).ctlRun.of_stop e5)).finishForm

theorem execPeerFormationComplete_canonical {mixed : Bool} (h : s.Canonical) :
    Out.Canonical (execPeerFormationComplete mixed s) := by
  unfold execPeerFormationComplete
  split
  · exact h.next
  · exact h.next.ite (formEnd_canonical h.formDone).next

theorem execPeerFormationTimeout_canonical (h : s.Canonical) : Out.Canonical (execPeerFormationTimeout s) := by
  unfold execPeerFormationTimeout
  split
  · exact h.next
  · exact h.next.ite (formEnd_canonical h.formFail).next

theorem State.Canonical.addFrom {c vc v : Nat} (h : s.Canonical) : (s.addFrom c vc v).Canonical := by
  unfold State.addFrom
  split
  · exact h.addCtr
  · exact h

theorem State.Canonical.signalMsg {r : Req} {p : List Byte} (h : s.Canonical) : (s.signalMsg r p).Canonical :=
  h.refuse.ite (h.refuse.ite (h.refuse.ite h.record.addFrom))
theorem execSignal_canonical {r : Req} {p : List Byte} (h : s.Canonical) : Out.Canonical (execSignal r p s) :=
  (h.onMsg (fun _ ht => ht.signalMsg)).next
theorem State.Canonical.fanOut {r : Req} {p : List Byte} (h : s.Canonical) : (s.fanOut r p).Canonical :=
  h.ite (h.update.foldl (fun _ _ ht => ht.sendSeq))

theorem State.Canonical.startAt {r : Req} {p : List Byte} (h : s.Canonical) : (s.startAt r p).Canonical :=
  h.refuse.ite (h.refuse.ite (h.refuse.ite (h.answerCtx.refuse.ite (h.answerCtx.refuse.ite (h.answerCtx.refuse.ite
      h.answerCtx.record.update.fanOut)))))

theorem execStartAt_canonical {r : Req} {p : List Byte} (h : s.Canonical) : Out.Canonical (execStartAt r p s) :=
  (h.onMsg (fun _ ht => ht.startAt)).next

theorem execTimedStartFire_canonical {n : Nat} (h : s.Canonical) : Out.Canonical (execTimedStartFire n s) := by
  unfold execTimedStartFire
  refine Out.Canonical.ite h.next ?_
  split
  · exact h.next
  · exact h.next.ite h.passTo.update.addFrom.next

theorem State.Canonical.telemetry {r : Req} {p : List Byte} (h : s.Canonical) : (s.telemetry r p).Canonical :=
  h.refuse.ite (h.refuse.ite h.setSes)
theorem execTelemetry_canonical {r : Req} {p : List Byte} (h : s.Canonical) : Out.Canonical (execTelemetry r p s) :=
  (h.onMsg (fun _ ht => ht.telemetry)).next

theorem State.Canonical.readList {w : Who} {l : List Nat} (h : s.Canonical) : SndCanonical (s.readList w l) := by
  induction l generalizing s with
  | nil => exact h.pair
  | cons a l ih => exact (ih h.readReg.snd).snd.pair

theorem execTelemetryReport_canonical {k : Fin 8} (h : s.Canonical) : Out.Canonical (execTelemetryReport k s) :=
  h.next.ite h.passTo.setSes.readList.snd.sendSeq.next

theorem State.Canonical.fwData {r : Req} {off : Nat} {d : List Byte} (h : s.Canonical) : (s.fwData r off d).Canonical := by
  unfold State.fwData
  extract_lets k old f0
  have hf : f0.wf = true := by
    unfold f0
    split
    · exact Mem.wf_writeN _ _ _ h.flash
    · exact h.flash
  exact (h.withFlash (Mem.wf_writeN _ _ _ hf)).update

theorem State.Canonical.firmware {r : Req} {p : List Byte} (h : s.Canonical) : (s.firmware r p).Canonical :=
  h.refuse.ite (((h.fwData.withFlash (Mem.wf_writeN _ _ _ h.fwData.flash)).coldReset.startBoot).ite h.fwData)
theorem execFirmware_canonical {r : Req} {p : List Byte} (h : s.Canonical) : Out.Canonical (execFirmware r p s) :=
  (h.onMsg (fun _ ht => ht.firmware)).next

/-! ### SUBMIT, admission and commit -/

theorem State.Canonical.putOwn {a : Nat} {b : List Byte} (h : s.Canonical) : (s.putOwn a b).Canonical :=
  h.foldl fun _ _ ht => ht.ite ht.writeTier
theorem State.Canonical.storeImage {c : Nat} {b : List Byte} (h : s.Canonical) : (s.storeImage c b).Canonical := h.putOwn

theorem State.Canonical.installProgram {c key ref : Nat} {b : List Byte} (h : s.Canonical) :
    (s.installProgram c key ref b).Canonical :=
  h.record.setB.storeImage.update.ctxSwitch

theorem State.Canonical.loadImage {r : Req} {c : Nat} {b : List Byte} (h : s.Canonical) : (s.loadImage r c b).Canonical :=
  h.refuse.ite (h.answerCtx.refuse.ite h.answerCtx.update.installProgram)

theorem State.Canonical.loadMsg {r : Req} {p : List Byte} (h : s.Canonical) : (s.loadMsg r p).Canonical := by
  unfold State.loadMsg
  refine State.Canonical.ite h.refuse ?_
  split
  · exact h.refuse
  · exact h.loadImage.ite h.update

theorem State.Canonical.readInputs {p : List Byte} (h : s.Canonical) : (s.readInputs p).Canonical :=
  h.foldl fun _ _ ht => ht.touchRange
theorem State.Canonical.enrol {key sess seq : Nat} {p : List Byte} (h : s.Canonical) : (s.enrol key sess seq p).Canonical :=
  h.readInputs.record.update.setKey
theorem State.Canonical.reAccept {r : Req} {t : Task} (h : s.Canonical) : (s.reAccept r t).Canonical := h.answer.ite h.modTask

theorem State.Canonical.submitNow {r : Req} {p : List Byte} (h : s.Canonical) : (s.submitNow r p).Canonical := by
  unfold State.submitNow
  refine State.Canonical.ite h.refuse ?_
  split
  · exact h.reAccept
  · refine State.Canonical.ite h.refuse ?_
    refine State.Canonical.ite h.refuse ?_
    refine State.Canonical.ite h.answerCtx.refuse ?_
    split
    · exact h.answerCtx.refuse
    · exact h.answerCtx.enrol

theorem State.Canonical.submitMsg {r : Req} {p : List Byte} (h : s.Canonical) : (s.submitMsg r p).Canonical :=
  h.refuse.ite (h.setSes.ite h.submitNow)
theorem execSubmit_canonical {r : Req} {p : List Byte} (h : s.Canonical) : Out.Canonical (execSubmit r p s) :=
  (h.onMsg (fun _ ht => ht.submitMsg)).next

theorem execHeldSubmitAdmit_canonical {k : Fin 8} (h : s.Canonical) : Out.Canonical (execHeldSubmitAdmit k s) := by
  unfold execHeldSubmitAdmit
  dsimp only
  split
  · exact h.next.ite (h.setSes.onMsg (fun _ ht1 => ht1.submitMsg)).next
  · exact h.next

theorem State.Canonical.acceptTask {key asn : Nat} (h : s.Canonical) : (s.acceptTask key asn).Canonical := by
  unfold State.acceptTask
  split
  · exact h
  · exact h.update

theorem execJournalWriteComplete_canonical {key : Fin 16} {asn : Nat} (h : s.Canonical) :
    Out.Canonical (execJournalWriteComplete key asn s) := by
  unfold execJournalWriteComplete
  split
  · exact h.next
  · exact h.next.ite (h.acceptTask.answer.finish.settleFanouts.ite h.acceptTask).next

theorem execJournalMirrorComplete_canonical (h : s.Canonical) : Out.Canonical (execJournalMirrorComplete s) :=
  h.next.ite h.update.setF.setF.next

theorem State.Canonical.newRow {c : Nat} {e : LogEntry} {l : List LogEntry} (h : s.Canonical) :
    Answers SndCanonical SndCanonical (s.newRow c e l) := by
  unfold State.newRow
  refine h.locate.bind fun p hp => ?_
  dsimp only
  split
  · exact .ok hp.snd.pair
  · split
    · exact (Answers.ok hp.snd.pair).bind fun _ hq => .ok hq.snd.reBump.pair
    · exact hp.snd.readRow.bind fun _ hq => .ok hq.snd.reBump.pair

theorem State.Canonical.noteRow {key asn : Nat} {h : LogEntry} {r : Nat × List Byte} (hs : s.Canonical) :
    (s.noteRow key asn h r).Canonical :=
  hs.modTask

theorem State.Canonical.applyFault {t : Task} {u : Nat} {e : RowErr} (h : s.Canonical) : SndCanonical (s.applyFault t u e) := by
  unfold State.applyFault
  split
  · exact h.bump.pair
  · exact h.pair
  · exact h.dataError.pair

theorem State.Canonical.recordRow {t : Task} {l : List LogEntry} (h : s.Canonical) :
    Answers State.Canonical State.Canonical (s.recordRow t l) := by
  unfold State.recordRow
  split
  · exact Answers.ok h
  · refine Answers.ite (Answers.ok h) ?_
    split
    · rename_i e
      exact Answers.ok (h.newRow.of_ok e).snd.noteRow
    · rename_i e1
      exact Answers.ite (Answers.ok (h.newRow.of_error e1).snd.applyFault.snd.noteRow) (Answers.error (h.newRow.of_error
          e1).snd.applyFault.snd)

theorem State.Canonical.rewriteRow {t : Task} {l : List LogEntry} (h : s.Canonical) :
    Answers State.Canonical State.Canonical (s.rewriteRow t l) := by
  unfold State.rewriteRow
  split
  · exact .ok h
  · refine (Answers.ok h).ite (h.foldlM fun u x hu => ?_)
    split
    · rename_i e
      exact .ok (hu.writeRowBytes.of_ok e)
    · rename_i e
      have hv := (hu.writeRowBytes.of_error e).snd
      exact (Answers.ok hv.applyFault.snd).ite (.error hv.applyFault.snd)

theorem State.Canonical.applyLog {t : Task} (h : s.Canonical) : Answers State.Canonical State.Canonical (s.applyLog t) :=
  (h.foldlM (fun _ _ ht => ht.recordRow)).bind fun _ ht1 => ht1.foldlM (fun _ _ ht2 => ht2.rewriteRow)
theorem State.Canonical.undoTask {t : Task} (h : s.Canonical) : (s.undoTask t).Canonical :=
  h.restoreShadows.foldl fun _ _ ht => ht.scramble

theorem State.Canonical.compareCommit {t : Task} {status : Nat} {resDig : List Byte} (h : s.Canonical) :
    (s.compareCommit t status resDig).Canonical := by
  unfold State.compareCommit
  refine State.Canonical.ite h ?_
  split
  · exact h
  · split
    · exact h
    · exact h.ite h.setRpl.setPair

theorem State.Canonical.runToReady (h : s.Canonical) : s.runToReady.Canonical := h.setDevState.ite h

theorem State.Canonical.sendResult {t : Task} {j len : Nat} {h : List Byte} (hs : s.Canonical) :
    (s.sendResult t j len h).Canonical :=
  hs.readTier.snd.sendSeq.ite hs

theorem State.Canonical.readResults {t : Task} {a len : Nat} (h : s.Canonical) : (s.readResults t a len).Canonical :=
  (h.foldl (fun _ _ ht => ht.touchRange)).touchRange

theorem State.Canonical.finishCommit {t : Task} {h : List Byte} (hs : s.Canonical) : (s.finishCommit t h).Canonical := by
  unfold State.finishCommit
  split
  · rename_i e
    exact (hs.applyLog.ite (Answers.ok hs)).of_error e
  · rename_i e1
    refine State.Canonical.runToReady ?_
    refine State.Canonical.update ?_
    split
    · exact ((hs.applyLog.ite (Answers.ok hs)).of_ok e1).putResult.sendResult
    · exact (hs.applyLog.ite (Answers.ok hs)).of_ok e1

theorem State.Canonical.commitTask {t : Task} {j : Nat} (h : s.Canonical) : (s.commitTask t j).Canonical :=
  (h.undoTask.ite h).readResults.putResult.setKey.record.compareCommit.modTask.finishCommit

theorem execTaskCommit_canonical {key : Fin 16} {asn : Nat} (h : s.Canonical) : Out.Canonical (execTaskCommit key asn s) := by
  unfold execTaskCommit
  split
  · exact h.next
  · refine Out.Canonical.ite h.next ?_
    split
    · exact h.finishCommit.next
    · exact h.next.ite h.commitTask.next
    · exact h.next

theorem State.Canonical.finishRecorded (h : s.Canonical) : s.finishRecorded.Canonical := h.foldl fun _ _ ht => ht.finishCommit
theorem execJournalScanComplete_canonical (h : s.Canonical) : Out.Canonical (execJournalScanComplete s) :=
  h.next.ite (h.finishRecorded.foldl (fun _ _ ht => ht.restoreShadows)).update.next

/-! ### The transport -/

theorem State.Canonical.onHeader {i ack credit : Nat} (h : s.Canonical) : (s.onHeader i ack credit).Canonical := h.setSes.pump
theorem State.Canonical.resend {i : Nat} {m : TxMsg} (h : s.Canonical) : (s.resend i m).Canonical :=
  (h.setSes.bump.ite h.setSes).emitDwp
theorem State.Canonical.onDone {q done : Nat} (h : s.Canonical) : (s.onDone q done).Canonical := h.update
theorem State.Canonical.onAck {i : Nat} {p : List Byte} (h : s.Canonical) : (s.onAck i p).Canonical :=
  (h.onHeader.foldl (fun _ _ ht => ht.resend)).ite (h.onHeader.foldl (fun _ _ ht1 => ht1.resend)).onDone.checkExch.settleFanouts
theorem execAck_canonical {w : Who} {p : List Byte} (h : s.Canonical) : Out.Canonical (execAck w p s) := (h.onAck.ite h).next

theorem execAckTimerExpiry_canonical {w : Who} (h : s.Canonical) : Out.Canonical (execAckTimerExpiry w s) := by
  unfold execAckTimerExpiry
  dsimp only
  split
  · exact (h.passTo.sendAck.ite h).next
  · exact h.next

theorem State.Canonical.loseSession {i : Nat} (h : s.Canonical) : (s.loseSession i).Canonical :=
  h.closeSession.pfcSync.ite h.closeSession.pfcSync.lostRank.countReached.settleFanouts

theorem execRetransmitTimeout_canonical {w : Who} {seq : Nat} (h : s.Canonical) :
    Out.Canonical (execRetransmitTimeout w seq s) := by
  unfold execRetransmitTimeout
  dsimp only
  split
  · exact h.next
  · split
    · exact h.next
    · exact h.passTo.loseSession.next.ite h.passTo.resend.next

theorem State.Canonical.authDrop {i : Nat} (h : s.Canonical) : (s.authDrop i).Canonical := h.bump.ite h

theorem State.Canonical.handshake {w : Who} {src : NetAddr} {b : List Byte} (h : s.Canonical) :
    (s.handshake w src b).Canonical :=
  h.ite (h.authDrop.ite (h.ite (h.nakPlain.ite (h.hello.ite h.onProve))))

theorem State.Canonical.keyconfirm {q : Nat} {b : List Byte} (h : s.Canonical) : (s.keyconfirm q b).Canonical := by
  unfold State.keyconfirm
  dsimp only
  split
  · exact h
  · exact h.onConfirm.ite h

theorem State.Canonical.ackSoon {i : Nat} (h : s.Canonical) : (s.ackSoon i).Canonical := h.setSes
theorem State.Canonical.queueMsg {i : Nat} {b : List Byte} (h : s.Canonical) : (s.queueMsg i b).Canonical :=
  h.ackSoon.ite (h.ite (h.setSes.update.ackSoon.pfcSync.ite h.setSes.update.ackSoon.pfcSync.skipBad).settleFanouts)
theorem State.Canonical.unsequenced {i : Nat} {b : List Byte} (h : s.Canonical) : (s.unsequenced i b).Canonical :=
  h.onAck.ite h.sendSeq

theorem State.Canonical.inSession {w : Who} {b : List Byte} (h : s.Canonical) : (s.inSession w b).Canonical :=
  h.authDrop.ite ((h.onHeader.ecnCut.ite h.onHeader).unsequenced.ite ((h.onHeader.ecnCut.ite h.onHeader).sendSeq.ite
      (h.onHeader.ecnCut.ite h.onHeader).queueMsg))

theorem State.Canonical.datagram {w : Who} {src : NetAddr} {b : List Byte} (h : s.Canonical) : (s.datagram w src b).Canonical :=
  h.authDrop.ite ((h.nakPlain.ite h).ite (h.handshake.ite (h.keyconfirm.ite h.inSession)))
theorem State.Canonical.takeUp {w : Who} {e : Nat × NetAddr × List Byte} (h : s.Canonical) : (s.takeUp w e).Canonical :=
  h.ite h.update.datagram.pfcSync

theorem execDwpDatagramReceive_canonical {w : Who} {dg : List Byte} (h : s.Canonical) :
    Out.Canonical (execDwpDatagramReceive w dg s) := by
  unfold execDwpDatagramReceive
  split
  · exact h.next
  · exact h.takeUp.next

theorem State.Canonical.stepQp {q n : Nat} (h : s.Canonical) : (s.stepQp q n).Canonical := by
  unfold State.stepQp
  split
  · exact h.update
  · exact h

theorem State.Canonical.byPsn {q : Nat} {x : Qp} {psn : BitVec 24} {again : Bool} {f : State} (h : s.Canonical)
    (hf : f.Canonical) :
    (s.byPsn q x psn again f).Canonical := by
  unfold State.byPsn
  split
  · exact hf
  · exact hf.ite h.send
  · exact h.send

theorem execRdmaWrite_canonical {q : Fin 4096} {psn : BitVec 24} {rkey : W32} {addr : Nat} {data : List Byte}
    (h : s.Canonical) :
    Out.Canonical (execRdmaWrite q psn rkey addr data s) := by
  unfold execRdmaWrite
  split
  · exact h.next
  · exact (h.byPsn (h.send.ite h.storeData.stepQp.send)).next

theorem execRdmaRead_canonical {q : Fin 4096} {psn : BitVec 24} {rkey : W32} {addr len : Nat} (h : s.Canonical) :
    Out.Canonical (execRdmaRead q psn rkey addr len s) := by
  unfold execRdmaRead
  split
  · exact h.next
  · exact (h.byPsn (h.send.ite (h.noteBad.send.ite (h.readTier.snd.stepQp.ite h.readTier.snd).send))).next

theorem execSend_canonical {q : Fin 4096} {psn : BitVec 24} {dg : List Byte} (h : s.Canonical) :
    Out.Canonical (execSend q psn dg s) := by
  unfold execSend
  split
  · exact h.next
  · exact (h.byPsn h.stepQp.send.update.pfcSync.takeUp).next

theorem execLocalAckTimeout_canonical {q : Fin 4096} (h : s.Canonical) : Out.Canonical (execLocalAckTimeout q s) := by
  unfold execLocalAckTimeout
  split
  · exact h.next
  · exact h.update.next

/-! ### Exchanges and update rounds -/

theorem sendGroups_canonical {last : Bool} {l : List (List (List Byte))} {q : Nat} {m : PartMsg} (h : s.Canonical) :
    (sendGroups last l s q m).Canonical := by
  induction l generalizing s m with
  | nil => exact h
  | cons g l ih => exact ih h.sendSeq

theorem State.Canonical.sendPart {q : Nat} {h : PartMsg} {last : Bool} {es : List (List Byte)} (hs : s.Canonical) :
    (s.sendPart q h last es).Canonical :=
  sendGroups_canonical hs

theorem UnitErr.Canonical.note {e : UnitErr} {c : Nat} (h : e.Canonical) : (e.note c).Canonical := by
  unfold UnitErr.note
  split
  · exact h.after.bump.report
  · exact h.after.noteBad

theorem State.Canonical.sketchServed {c : Nat} {t : List Byte} {l : List (Nat × Nat)} (h : s.Canonical) :
    (s.sketchServed c t l).Canonical :=
  h.ite (h.foldl (fun _ _ ht => ht.ite ((ht.foldl (fun _ _ ht1 => ht1.sketchAdd)).ite ht.bump)))

theorem State.Canonical.homeUnit {c : Nat} {t : List Byte} {j : Nat} (h : s.Canonical) :
    Answers UnitErr.Canonical (fun _ => True) (s.homeUnit c t j) := by
  unfold State.homeUnit
  split
  · exact Answers.ok trivial
  · exact Answers.error ⟨h⟩

theorem State.Canonical.ownerRow {c i : Nat} {t : List Byte} (h : s.Canonical) :
    Answers UnitErr.Canonical SndCanonical (s.ownerRow c t i) := by
  unfold State.ownerRow
  split
  · exact .ok h.bump.pair
  · refine h.homeUnit.bind fun u _ => Answers.mapError (E := SndCanonical) ?_ fun _ he => ⟨he.snd⟩
    refine h.rowLoc.bind fun p hp => ?_
    dsimp only
    split
    · exact .ok hp.snd.bump.pair
    · exact hp.snd.readRow.bind fun _ hq => .ok hq.snd.countIdx.pair

theorem State.Canonical.ownerRows {c : Nat} {t : List Byte} {l : List Nat} (h : s.Canonical) :
    Answers UnitErr.Canonical State.Canonical (State.ownerRows c t l s).2 := by
  induction l generalizing s with
  | nil => exact .ok h
  | cons i l ih =>
    unfold State.ownerRows
    split
    · rename_i e
      exact .error (h.ownerRow.of_error e)
    · rename_i e
      exact ih (h.ownerRow.of_ok e).snd

theorem sketched_canonical {c : Nat} {t : List Byte} {l : List (Nat × Nat)} {x : Except UnitErr State}
    (h : Answers UnitErr.Canonical State.Canonical x) :
    Answers UnitErr.Canonical State.Canonical (sketched c t l x) := by
  cases x with
  | error e => exact .error ⟨(h.of_error rfl).after.sketchServed⟩
  | ok u => exact .ok (h.of_ok rfl).sketchServed

theorem State.Canonical.serveOwn {c : Nat} {t : List Byte} {l : List Nat} (h : s.Canonical) :
    Answers UnitErr.Canonical SndCanonical (s.serveOwn c t l) :=
  (sketched_canonical h.ownerRows).bind fun _ ht => .ok ht.pair

theorem State.Canonical.hotRow {c st i : Nat} {t : List Byte} (h : s.Canonical) :
    Answers UnitErr.Canonical SndCanonical (s.hotRow c t st i) := by
  refine Answers.mapError (E := SndCanonical) (h.rowLoc.bind fun p hp => ?_) fun _ he => ⟨he.snd⟩
  dsimp only
  split
  · exact .ok hp.snd.bump.pair
  · exact hp.snd.readRow.bind fun _ hq => .ok hq.snd.countIdx.pair

theorem State.Canonical.failLost {o : Op} (h : s.Canonical) : (s.failLost o).Canonical := h.failTask

theorem State.Canonical.xIndices {e : Exch} {a : Nat} (h : s.Canonical) :
    Answers State.Canonical SndCanonical (s.xIndices e a) :=
  h.opRead.bind fun _ ht => Answers.ok ((ht.snd.ite ht.snd.bump).ite (ht.snd.ite ht.snd.bump).bump).pair

theorem State.Canonical.localRows {c fmt : Nat} {t : List Byte} {l : List (Nat × Option Nat)} {e : Exch} (h : s.Canonical) :
    Answers UnitErr.Canonical State.Canonical (State.localRows c t fmt l s e).2.2 := by
  induction l generalizing s e with
  | nil => exact .ok h
  | cons x l ih =>
    obtain ⟨p, i⟩ := x
    cases i with
    | none => exact ih h
    | some i =>
      unfold State.localRows
      split
      · exact ih h
      · split
        · rename_i e1
          exact .error (h.hotRow.of_error e1)
        · rename_i e1
          exact ih (h.hotRow.of_ok e1).snd.reBump

theorem State.Canonical.lookupSelf {e : Exch} {c fmt : Nat} (h : s.Canonical) :
    Answers UnitErr.Canonical SndCanonical (s.lookupSelf e c fmt) := by
  unfold State.lookupSelf
  refine Answers.bind h.serveOwn fun _ ht => ?_
  refine Answers.ok ?_
  refine State.Canonical.pair ?_
  refine State.Canonical.foldl ht.snd fun _ _ ht1 => ?_
  split
  · exact ht1.reBump
  · exact ht1

theorem State.Canonical.startLookup {e : Exch} (h : s.Canonical) : (s.startLookup e).Canonical := by
  unfold State.startLookup
  dsimp only
  split
  · rename_i e
    exact h.xIndices.of_error e
  · rename_i e1
    split
    · rename_i e2
      exact ((sketched_canonical (h.xIndices.of_ok e1).snd.localRows).of_error e2).after.bump.rowFault
    · rename_i e3
      exact ((sketched_canonical (h.xIndices.of_ok e1).snd.localRows).of_error e3).after.failAcc
    · rename_i e4
      refine State.Canonical.ite ((sketched_canonical (h.xIndices.of_ok e1).snd.localRows).of_ok e4).failLost ?_
      split
      · rename_i e5
        exact (((sketched_canonical (h.xIndices.of_ok e1).snd.localRows).of_ok e4).lookupSelf.of_error e5).note.failLost
      · rename_i e6
        exact (((sketched_canonical (h.xIndices.of_ok e1).snd.localRows).of_ok e4).lookupSelf.of_ok e6).snd.modExch.foldl
            fun _ _ ht7 => ht7.sendPart

theorem execExchangeLookup_canonical {n : Fin 16384} (h : s.Canonical) : Out.Canonical (execExchangeLookup n s) := by
  unfold execExchangeLookup
  refine Out.Canonical.ite h.next ?_
  split
  · exact h.startLookup.next
  · exact h.next

theorem State.Canonical.noteLookup {q : Nat} {h : PartMsg} (hs : s.Canonical) : (s.noteLookup q h).Canonical := hs.update

theorem State.Canonical.lookupPart {s0 : State} {q : Nat} {h : PartMsg} (hs : s0.Canonical) :
    (s0.lookupPart q h).Canonical := by
  unfold State.lookupPart
  dsimp only
  split
  · exact hs.noteLookup.sendPart
  · split
    · rename_i e2
      exact (hs.noteLookup.serveOwn.of_error e2).note.sendPart
    · rename_i e3
      refine State.Canonical.sendPart ?_
      refine State.Canonical.foldl (hs.noteLookup.serveOwn.of_ok e3).snd fun _ _ ht4 => ?_
      split
      · exact ht4.reBump
      · exact ht4

theorem State.Canonical.onPart {r : Req} {p : List Byte} {kinds : List Nat} {f : State → Nat → PartMsg → State}
    (h : s.Canonical) (hf : ∀ t q m, t.Canonical → (f t q m).Canonical) :
    (s.onPart r p kinds f).Canonical :=
  (h.onMsg fun _ ht => (ht.refuse.ite (hf _ _ _ ht)).checkExch).ite h

theorem execLookupPart_canonical {r : Req} {p : List Byte} (h : s.Canonical) : Out.Canonical (execLookupPart r p s) :=
  (h.onPart (fun _ _ _ ht => ht.lookupPart)).next
theorem State.Canonical.ownerFailed {o : Op} {flags : Nat} (h : s.Canonical) : OptCanonical (s.ownerFailed o flags) :=
  h.failTask.some.ite (h.failLost.some.ite (h.sparseFault.some.ite OptCanonical.none))

theorem State.Canonical.lookupReply {q : Nat} {h : PartMsg} (hs : s.Canonical) : (s.lookupReply q h).Canonical := by
  unfold State.lookupReply
  split
  · exact hs
  · refine State.Canonical.ite hs ?_
    split
    · rename_i e2
      exact hs.ownerFailed.of_eq e2
    · split
      · exact hs.sparseFault
      · exact hs.modExch

theorem execLookupReply_canonical {r : Req} {p : List Byte} (h : s.Canonical) : Out.Canonical (execLookupReply r p s) :=
  (h.onPart (fun _ _ _ ht => ht.lookupReply)).next

theorem State.Canonical.refreshRow {c i : Nat} {t : List Byte} {vals : List Nat} (h : s.Canonical) :
    (s.refreshRow c t i vals).Canonical := by
  refine h.foldl fun u st hu => ?_
  extract_lets go
  have hgo : Answers SndCanonical State.Canonical go := by
    refine hu.rowLoc.bind fun p hp => ?_
    dsimp only
    split
    · exact .ok hp.snd.bump
    · exact hp.snd.reBump.writeRowBytes
  clear_value go
  split
  · exact hgo.of_ok rfl
  · exact (UnitErr.Canonical.mk (hgo.of_error rfl).snd).note

theorem State.Canonical.copyOut {c : Nat} {l : List Copy} (h : s.Canonical) : (s.copyOut c l).Canonical := by
  unfold State.copyOut
  refine State.Canonical.foldl h fun _ _ ht => ?_
  split
  · rename_i e1
    exact ht.writeRowBytes.of_ok e1
  · rename_i e2
    exact (UnitErr.Canonical.mk ((ht.writeRowBytes.of_error e2).snd)).note

theorem State.Canonical.applyAt {c i : Nat} {t : List Byte} {set : Bool} {vals : List Nat} (h : s.Canonical) :
    Answers UnitErr.Canonical SndCanonical (s.applyAt c t set i vals) := by
  unfold State.applyAt
  extract_lets hot
  split
  · exact .ok h.bump.pair
  · refine h.homeUnit.bind fun u _ => Answers.mapError (E := SndCanonical) ?_ fun _ he => ⟨he.snd⟩
    refine h.rowLoc.bind fun p hp => ?_
    dsimp only
    split
    · exact .ok hp.snd.bump.pair
    · refine .ite ((Answers.ok hp.snd.pair).bind fun q hq => ?_) (hp.snd.readRow.bind fun q hq => ?_) <;>
        exact hq.snd.countIdx.reBump.sketchServed.writeRowBytes.bind fun _ ht => .ok (ht.copyOut.ite ht).pair

theorem State.Canonical.roundApply {c i : Nat} {t : List Byte} {ro : Round} {vals : List Nat} (h : s.Canonical) :
    SndCanonical (s.roundApply c t ro i vals) := by
  unfold State.roundApply
  split
  · rename_i e
    exact (h.applyAt.of_error e).note.pair
  · rename_i e
    exact (h.applyAt.of_ok e).snd.pair
  · rename_i e
    exact (h.applyAt.of_ok e).snd.pair

theorem State.Canonical.eagerApply {c : Nat} {t : List Byte} {ro : Round} {e : Nat × List Nat} (h : s.Canonical) :
    SndCanonical (s.eagerApply c t ro e) :=
  (h.bump.ite h).roundApply

theorem State.Canonical.applyRound {c : Nat} {t : List Byte} {ro : Round} (h : s.Canonical) :
    SndCanonical (s.applyRound c t ro) :=
  h.pair.foldl fun _ _ hq => (hq.snd.bump.ite hq.snd).roundApply

theorem State.Canonical.recordPart {c q seq : Nat} {h : PartMsg} {b : List Byte} (hs : s.Canonical) :
    (s.recordPart c q seq h b).Canonical :=
  hs.record

theorem State.Canonical.recordParts {c : Nat} {ro : Round} (h : s.Canonical) : (s.recordParts c ro).Canonical :=
  h.foldl fun _ _ ht => ht.ite ht.recordPart

theorem State.Canonical.updateDone {q : Nat} {h : PartMsg} (hs : s.Canonical) : (s.updateDone q h).Canonical := by
  unfold State.updateDone
  split
  · exact hs
  · refine State.Canonical.ite hs ?_
    split
    · rename_i e2
      exact hs.ownerFailed.of_eq e2
    · exact hs.modExch

theorem State.Canonical.sayDone {q : Nat} {h : PartMsg} {flags : Nat} (hs : s.Canonical) : (s.sayDone q h flags).Canonical :=
  hs.updateDone.ite hs.sendPart
theorem State.Canonical.answerRound {a : Applied} {q xid : Nat} (h : s.Canonical) : (s.answerRound a q xid).Canonical :=
  (h.ite h.sendPart).sayDone
theorem State.Canonical.keepApplied {a : Applied} (h : s.Canonical) : (s.keepApplied a).Canonical := h.update
theorem State.Canonical.putRound {h : PartMsg} {ro : Round} (hs : s.Canonical) : (s.putRound h ro).Canonical := hs.update

theorem State.Canonical.updatePart {q seq : Nat} {h : PartMsg} {es : Option (List (Nat × List Nat))} (hs : s.Canonical) :
    (s.updatePart q seq h es).Canonical := by
  unfold State.updatePart
  split
  · exact hs.answerRound.ite hs
  · split
    · exact hs.sayDone
    · split
      · exact hs.sayDone
      · split
        · exact hs.putRound
        · exact ((hs.ite hs.recordPart).pair.foldl (fun _ _ ht6 => ht6.snd.eagerApply)).snd.putRound.ite hs.putRound

theorem execUpdatePart_canonical {r : Req} {p : List Byte} (h : s.Canonical) : Out.Canonical (execUpdatePart r p s) :=
  (h.onPart (fun _ _ _ ht => ht.updatePart)).next

theorem State.Canonical.closeRound {ro : Round} (h : s.Canonical) : (s.closeRound ro).Canonical := by
  unfold State.closeRound
  extract_lets s0 m
  have h0 : s0.Canonical := h.update
  split
  · exact h0.foldl fun _ _ ht => ht.sayDone
  · split
    rename_i e
    have h1 := (h0.pair.ite h0.recordParts.applyRound).of_eq e
    exact h1.keepApplied.foldl fun _ _ ht => ht.answerRound

theorem execUpdateRoundApply_canonical {t : Fin 4096} {gen batch : Nat} (h : s.Canonical) :
    Out.Canonical (execUpdateRoundApply t gen batch s) := by
  unfold execUpdateRoundApply
  refine Out.Canonical.ite h.next ?_
  split
  · exact (h.closeRound.checkExch.ite h).next
  · exact h.next

theorem State.Canonical.startUpdate {x : Strm} {e : Exch} (h : s.Canonical) : (s.startUpdate x e).Canonical := by
  unfold State.startUpdate
  refine State.Canonical.ite h ?_
  split
  · rename_i e
    exact h.xIndices.of_error e
  · rename_i e1
    exact (h.xIndices.of_ok e1).snd.failLost.ite ((h.xIndices.of_ok e1).snd.modExch.foldl (fun _ _ ht2 => ht2.updatePart.ite
        ht2.sendPart)).checkExch

theorem execExchangeUpdateAdd_canonical {n : Fin 16384} (h : s.Canonical) : Out.Canonical (execExchangeUpdateAdd n s) := by
  unfold execExchangeUpdateAdd
  refine Out.Canonical.ite h.next ?_
  split
  · exact h.startUpdate.next
  · exact h.next

theorem execExchangeUpdateSet_canonical {n : Fin 16384} (h : s.Canonical) : Out.Canonical (execExchangeUpdateSet n s) := by
  unfold execExchangeUpdateSet
  refine Out.Canonical.ite h.next ?_
  split
  · exact h.startUpdate.next
  · exact h.next

theorem State.Canonical.refreshPart {h : PartMsg} (hs : s.Canonical) : (s.refreshPart h).Canonical := by
  unfold State.refreshPart
  split
  · exact hs
  · split
    · exact hs.foldl fun _ _ ht3 => ht3.refreshRow.ite ht3
    · split
      · exact hs.sparseFault
      · exact hs

theorem execRefresh_canonical {r : Req} {p : List Byte} (h : s.Canonical) : Out.Canonical (execRefresh r p s) :=
  (h.onPart (fun _ _ _ ht => ht.refreshPart)).next
theorem execUpdateDone_canonical {r : Req} {p : List Byte} (h : s.Canonical) : Out.Canonical (execUpdateDone r p s) :=
  (h.onPart (fun _ _ _ ht => ht.updateDone)).next
theorem State.Canonical.startSignal {e : Exch} (h : s.Canonical) : (s.startSignal e).Canonical :=
  h.failLost.ite ((h.modExch.addFrom.ite h.modExch).checkExch.ite h.modExch.sendSeq)

theorem execExchangeSignal_canonical {n : Fin 16384} (h : s.Canonical) : Out.Canonical (execExchangeSignal n s) := by
  unfold execExchangeSignal
  refine Out.Canonical.ite h.next ?_
  split
  · exact h.startSignal.next
  · exact h.next

/-! ### The replay's feed -/

theorem feedWrites_canonical {r : Req} {group : Bool} {l : List (Nat × W32)} (h : s.Canonical) :
    (feedWrites r group l s).Canonical := by
  induction l generalizing s with
  | nil => exact h
  | cons w l ih =>
    unfold feedWrites
    refine (ih h).ite ?_
    split
    · rename_i e
      exact ih (h.writeReg.of_ok e)
    · rename_i e
      exact ih (h.writeReg.of_pend e)
    · rename_i e
      exact ih (h.writeReg.of_nak e)

theorem State.Canonical.feedControl {x : RplRec} (h : s.Canonical) : (s.feedControl x).Canonical := by
  unfold State.feedControl
  refine State.Canonical.ite ?_ (feedWrites_canonical h.record)
  split
  · rename_i e
    exact h.record.qpCmd.of_ok e
  · rename_i e1
    exact h.record.qpCmd.of_pend e1
  · rename_i e2
    exact h.record.qpCmd.of_nak e2

theorem State.Canonical.feedPart {x : RplRec} {d : List Byte} (h : s.Canonical) : (s.feedPart x d).Canonical :=
  h.updatePart.checkExch

theorem State.Canonical.feedSubmit {x : RplRec} (h : s.Canonical) : (s.feedSubmit x).Canonical := by
  unfold State.feedSubmit
  dsimp only
  split
  · exact h
  · exact h.ite (h.answerCtx.ite h.answerCtx.enrol.update)

theorem State.Canonical.feedEvent {x : RplRec} {d : List Byte} (h : s.Canonical) : (s.feedEvent x d).Canonical :=
  h.feedSubmit.ite (h.storeData.ite (h.installProgram.ite (h.feedControl.ite (h.record.addFrom.ite (h.record.addFrom.ite
      ((h.record.cancelTask.ite h).ite (h.releaseOf.ite (h.feedPart.ite h))))))))

theorem State.Canonical.feedNext (h : s.Canonical) : s.feedNext.Canonical := h.update.ite (h.update.setRpl.ite h.update.setRpl)

theorem execReplayRecordFeed_canonical (h : s.Canonical) : Out.Canonical (execReplayRecordFeed s) := by
  unfold execReplayRecordFeed
  refine Out.Canonical.ite h.next ?_
  split
  · exact h.setRpl.next
  · exact h.setRpl.next.ite (h.next.ite h.feedEvent.feedNext.next)

theorem State.Canonical.supply {x : RplRec} {d : List Byte} (h : s.Canonical) : (s.supply x d).Canonical :=
  h.feedEvent.feedNext.ite h.setRpl.setPair

theorem State.Canonical.writeReplay {r : Req} {p : List Byte} (h : s.Canonical) : (s.writeReplay r p).Canonical := by
  unfold State.writeReplay
  split
  · exact h.refuse
  · exact h.refuse.ite (h.refuse.ite h.supply)

theorem execWrite_canonical {r : Req} {p : List Byte} (h : s.Canonical) : Out.Canonical (execWrite r p s) :=
  (h.onMsg (fun _ ht => ht.refuse.ite (ht.writeReplay.ite ht.writeMsg))).next

theorem State.Canonical.loadReplay {r : Req} {p : List Byte} (h : s.Canonical) : (s.loadReplay r p).Canonical := by
  unfold State.loadReplay
  split
  · exact h.refuse
  · refine State.Canonical.ite h.refuse ?_
    refine State.Canonical.ite h.refuse ?_
    split
    · exact h.refuse
    · exact h.update.supply.ite h.update

theorem execLoadProgram_canonical {r : Req} {p : List Byte} (h : s.Canonical) : Out.Canonical (execLoadProgram r p s) :=
  (h.onMsg (fun _ ht => ht.refuse.ite (ht.loadReplay.ite ht.loadMsg))).next

/-! ### Stalls -/

theorem State.Canonical.putSnap {t : Task} {hs : List SnapHold} (h : s.Canonical) : (s.putSnap t hs).Canonical :=
  h.setPair.setReg.foldl fun _ _ ht => ht.setReg

theorem execStallLimitExpiry_canonical {k : CoreRef} (h : s.Canonical) : Out.Canonical (execStallLimitExpiry k s) := by
  unfold execStallLimitExpiry
  refine Out.Canonical.ite h.next ?_
  dsimp only
  split
  · split
    · exact h.next
    · exact h.passTo.putSnap.bump.report.failTask.next
  · exact h.next

/-! ### Every command -/

theorem exec_canonical (i : Instr) (h : s.Canonical) : Out.Canonical (exec i s) := by
  cases i with
  | vauxRise => exact execVauxRise_canonical h
  | vauxLoss => exact execVauxLoss_canonical h
  | pwrGoodRise => exact execPwrGoodRise_canonical h
  | pwrGoodFall => exact execPwrGoodFall_canonical h
  | devResetNFall => exact execDevResetNFall_canonical h
  | devResetNLongHold => exact execDevResetNLongHold_canonical h
  | devResetNRise => exact execDevResetNRise_canonical h
  | refclkLoss => exact execRefclkLoss_canonical h
  | powerManagerPass => exact execPowerManagerPass_canonical h
  | fastGuardTrip => exact execFastGuardTrip_canonical h
  | fastGuardRelease => exact execFastGuardRelease_canonical h
  | junctionOverLimit => exact execJunctionOverLimit_canonical h
  | thermalTrip => exact execThermalTrip_canonical h
  | imageStagingComplete => exact execImageStagingComplete_canonical h
  | trainingTimeout => exact execTrainingTimeout_canonical h
  | watchdogExpiry => exact execWatchdogExpiry_canonical h
  | memoryTrainingComplete => exact execMemoryTrainingComplete_canonical h
  | enumerationComplete => exact execEnumerationComplete_canonical h
  | bootReady => exact execBootReady_canonical h
  | journalScanComplete => exact execJournalScanComplete_canonical h
  | devCtlResetWarm => exact execDevCtlResetWarm_canonical h
  | devCtlResetCold => exact execDevCtlResetCold_canonical h
  | devCtlRunSet => exact execDevCtlRunSet_canonical h
  | devCtlRunClear => exact execDevCtlRunClear_canonical h
  | devCtlMaintSet => exact execDevCtlMaintSet_canonical h
  | devCtlMaintClear => exact execDevCtlMaintClear_canonical h
  | ctxCtlEnSet => exact execCtxCtlEnSet_canonical h
  | ctxCtlEnClear => exact execCtxCtlEnClear_canonical h
  | ctxCtlReset => exact execCtxCtlReset_canonical h
  | ctxCtlModeWrite => exact execCtxCtlModeWrite_canonical h
  | contextResetPerform => exact execContextResetPerform_canonical h
  | spireReset => exact execSpireReset_canonical h
  | registerWrite => exact execRegisterWrite_canonical h
  | portModeWrite => exact execPortModeWrite_canonical h
  | subportLinkUp => exact execSubportLinkUp_canonical h
  | laneFailure => exact execLaneFailure_canonical h
  | frameReceive => exact execFrameReceive_canonical h
  | pfcPauseReceive => exact execPfcPauseReceive_canonical h
  | ecnRateCut => exact execEcnRateCut_canonical h
  | ecnRateRecovery => exact execEcnRateRecovery_canonical h
  | macsecRekey => exact execMacsecRekey_canonical h
  | ptpSyncReceive => exact execPtpSyncReceive_canonical h
  | ptpLockAcquire => exact execPtpLockAcquire_canonical h
  | ptpLockLoss => exact execPtpLockLoss_canonical h
  | synceLockChange => exact execSynceLockChange_canonical h
  | dwpDatagramReceive => exact execDwpDatagramReceive_canonical h
  | hello => exact execHello_canonical h
  | prove => exact execProve_canonical h
  | write => exact execWrite_canonical h
  | read => exact execRead_canonical h
  | loadProgram => exact execLoadProgram_canonical h
  | submit => exact execSubmit_canonical h
  | journalWriteComplete => exact execJournalWriteComplete_canonical h
  | heldSubmitAdmit => exact execHeldSubmitAdmit_canonical h
  | getResult => exact execGetResult_canonical h
  | release => exact execRelease_canonical h
  | cancel => exact execCancel_canonical h
  | signal => exact execSignal_canonical h
  | startAt => exact execStartAt_canonical h
  | timedStartFire => exact execTimedStartFire_canonical h
  | controlRd => exact execControlRd_canonical h
  | controlWr => exact execControlWr_canonical h
  | telemetry => exact execTelemetry_canonical h
  | telemetryReport => exact execTelemetryReport_canonical h
  | firmware => exact execFirmware_canonical h
  | ack => exact execAck_canonical h
  | ackTimerExpiry => exact execAckTimerExpiry_canonical h
  | retransmitTimeout => exact execRetransmitTimeout_canonical h
  | taskCommit => exact execTaskCommit_canonical h
  | journalMirrorComplete => exact execJournalMirrorComplete_canonical h
  | rdmaWrite => exact execRdmaWrite_canonical h
  | rdmaRead => exact execRdmaRead_canonical h
  | send => exact execSend_canonical h
  | regionValidate => exact execRegionValidate_canonical h
  | regionInvalidate => exact execRegionInvalidate_canonical h
  | windowWrite => exact execWindowWrite_canonical h
  | hbmRefresh stack bank => exact execHbmRefresh_canonical stack bank h
  | hbmPhyRetrain stack => exact execHbmPhyRetrain_canonical stack h
  | patrolScrub => exact execPatrolScrub_canonical h
  | glacierRefresh chan bank => exact execGlacierRefresh_canonical chan bank h
  | dqsOscillatorTracking chan => exact execDqsOscillatorTracking_canonical chan h
  | glacierRetrain chan => exact execGlacierRetrain_canonical chan h
  | domeAccess => exact execDomeAccess_canonical h
  | domeFillComplete => exact execDomeFillComplete_canonical h
  | domeSeedWrite => exact execDomeSeedWrite_canonical h
  | domeWaymaskWrite => exact execDomeWaymaskWrite_canonical h
  | wayPowerDownComplete => exact execWayPowerDownComplete_canonical h
  | domeDisable => exact execDomeDisable_canonical h
  | domeBypassEnter => exact execDomeBypassEnter_canonical h
  | domeEnable => exact execDomeEnable_canonical h
  | clean => exact execClean_canonical h
  | invalidate => exact execInvalidate_canonical h
  | cleanInvalidate => exact execCleanInvalidate_canonical h
  | invalidateAll => exact execInvalidateAll_canonical h
  | maintenanceComplete => exact execMaintenanceComplete_canonical h
  | domeCntClr => exact execDomeCntClr_canonical h
  | gather => exact execGather_canonical h
  | gatherReduce => exact execGatherReduce_canonical h
  | gatherAmax => exact execGatherAmax_canonical h
  | scatter => exact execScatter_canonical h
  | scatterAdd => exact execScatterAdd_canonical h
  | prefetchBatch => exact execPrefetchBatch_canonical h
  | splitterAccept => exact execSplitterAccept_canonical h
  | unitRequestStart => exact execUnitRequestStart_canonical h
  | unitPartialCombine => exact execUnitPartialCombine_canonical h
  | replicaWrite => exact execReplicaWrite_canonical h
  | sketchFlush => exact execSketchFlush_canonical h
  | reCntClr => exact execReCntClr_canonical h
  | reGlbCntClr => exact execReGlbCntClr_canonical h
  | issueAccept => exact execIssueAccept_canonical h
  | operationStart => exact execOperationStart_canonical h
  | operationComplete => exact execOperationComplete_canonical h
  | tileLoadComplete => exact execTileLoadComplete_canonical h
  | tileApply => exact execTileApply_canonical h
  | nextSlotFill => exact execNextSlotFill_canonical h
  | itemStart => exact execItemStart_canonical h
  | endI => exact execEndI_canonical h
  | itemEnd => exact execItemEnd_canonical h
  | loadComplete => exact execLoadComplete_canonical h
  | taskRetry => exact execTaskRetry_canonical h
  | add => exact execAdd_canonical h
  | sub => exact execSub_canonical h
  | and => exact execAnd_canonical h
  | or => exact execOr_canonical h
  | xor => exact execXor_canonical h
  | shl => exact execShl_canonical h
  | shr => exact execShr_canonical h
  | sra => exact execSra_canonical h
  | mul => exact execMul_canonical h
  | mulhu => exact execMulhu_canonical h
  | mulh => exact execMulh_canonical h
  | divu => exact execDivu_canonical h
  | remu => exact execRemu_canonical h
  | div => exact execDiv_canonical h
  | rem => exact execRem_canonical h
  | minu => exact execMinu_canonical h
  | maxu => exact execMaxu_canonical h
  | min => exact execMin_canonical h
  | max => exact execMax_canonical h
  | popc => exact execPopc_canonical h
  | clz => exact execClz_canonical h
  | addi => exact execAddi_canonical h
  | andi => exact execAndi_canonical h
  | ori => exact execOri_canonical h
  | xori => exact execXori_canonical h
  | shli => exact execShli_canonical h
  | shri => exact execShri_canonical h
  | srai => exact execSrai_canonical h
  | muli => exact execMuli_canonical h
  | li => exact execLi_canonical h
  | lih => exact execLih_canonical h
  | cmp => exact execCmp_canonical h
  | cmpi => exact execCmpi_canonical h
  | pand => exact execPand_canonical h
  | por => exact execPor_canonical h
  | pxor => exact execPxor_canonical h
  | pandn => exact execPandn_canonical h
  | fadd => exact execFadd_canonical h
  | fsub => exact execFsub_canonical h
  | fmul => exact execFmul_canonical h
  | fdiv => exact execFdiv_canonical h
  | fsqrt => exact execFsqrt_canonical h
  | fmin => exact execFmin_canonical h
  | fmax => exact execFmax_canonical h
  | ffma => exact execFfma_canonical h
  | fabs => exact execFabs_canonical h
  | fneg => exact execFneg_canonical h
  | fcvtSL => exact execFcvtSL_canonical h
  | fcvtLS => exact execFcvtLS_canonical h
  | fcvtBfS => exact execFcvtBfS_canonical h
  | fcvtSBf => exact execFcvtSBf_canonical h
  | fcmp => exact execFcmp_canonical h
  | ld => exact execLd_canonical h
  | st => exact execSt_canonical h
  | b => exact execB_canonical h
  | bcc => exact execBcc_canonical h
  | jal => exact execJal_canonical h
  | jr => exact execJr_canonical h
  | dset => exact execDset_canonical h
  | dget => exact execDget_canonical h
  | dclr => exact execDclr_canonical h
  | dmov => exact execDmov_canonical h
  | dld => exact execDld_canonical h
  | dst => exact execDst_canonical h
  | mmaD => exact execMmaD_canonical h
  | mmaS => exact execMmaS_canonical h
  | spcmp => exact execSpcmp_canonical h
  | segred => exact execSegred_canonical h
  | combine => exact execCombine_canonical h
  | ewiseCopy => exact execEwiseCopy_canonical h
  | ewiseAdd => exact execEwiseAdd_canonical h
  | ewiseSub => exact execEwiseSub_canonical h
  | ewiseMul => exact execEwiseMul_canonical h
  | ewiseDiv => exact execEwiseDiv_canonical h
  | ewiseMin => exact execEwiseMin_canonical h
  | ewiseMax => exact execEwiseMax_canonical h
  | ewiseFma => exact execEwiseFma_canonical h
  | ewiseScale => exact execEwiseScale_canonical h
  | ewiseRelu => exact execEwiseRelu_canonical h
  | ewiseGelu => exact execEwiseGelu_canonical h
  | ewiseSilu => exact execEwiseSilu_canonical h
  | ewiseSigmoid => exact execEwiseSigmoid_canonical h
  | ewiseTanh => exact execEwiseTanh_canonical h
  | ewiseExp => exact execEwiseExp_canonical h
  | ewiseLog => exact execEwiseLog_canonical h
  | ewiseRsqrt => exact execEwiseRsqrt_canonical h
  | ewiseAbs => exact execEwiseAbs_canonical h
  | ewiseOr => exact execEwiseOr_canonical h
  | ewiseAnd => exact execEwiseAnd_canonical h
  | smBlock => exact execSmBlock_canonical h
  | smRescale => exact execSmRescale_canonical h
  | smFinal => exact execSmFinal_canonical h
  | smMerge => exact execSmMerge_canonical h
  | segSoftmax => exact execSegSoftmax_canonical h
  | optstep => exact execOptstep_canonical h
  | scan => exact execScan_canonical h
  | derive => exact execDerive_canonical h
  | qscanLoad => exact execQscanLoad_canonical h
  | qscanStore => exact execQscanStore_canonical h
  | qconv => exact execQconv_canonical h
  | strmArm => exact execStrmArm_canonical h
  | strmRearm => exact execStrmRearm_canonical h
  | strmAdv => exact execStrmAdv_canonical h
  | strmClose => exact execStrmClose_canonical h
  | bufferGrant => exact execBufferGrant_canonical h
  | slotFillComplete => exact execSlotFillComplete_canonical h
  | slotDrainComplete => exact execSlotDrainComplete_canonical h
  | granuleComplete => exact execGranuleComplete_canonical h
  | requestPassStart => exact execRequestPassStart_canonical h
  | strmCntClr => exact execStrmCntClr_canonical h
  | sig => exact execSig_canonical h
  | waitGe => exact execWaitGe_canonical h
  | waitC => exact execWaitC_canonical h
  | arrive => exact execArrive_canonical h
  | waitB => exact execWaitB_canonical h
  | cread => exact execCread_canonical h
  | waitRetire => exact execWaitRetire_canonical h
  | fenceSpire => exact execFenceSpire_canonical h
  | fenceDev => exact execFenceDev_canonical h
  | fenceSys => exact execFenceSys_canonical h
  | spawn => exact execSpawn_canonical h
  | spawnAccept => exact execSpawnAccept_canonical h
  | csrr => exact execCsrr_canonical h
  | csrw => exact execCsrw_canonical h
  | trace => exact execTrace_canonical h
  | stallLimitExpiry => exact execStallLimitExpiry_canonical h
  | syncCntClr => exact execSyncCntClr_canonical h
  | taskExpand => exact execTaskExpand_canonical h
  | dispDrain => exact execDispDrain_canonical h
  | dispReturn => exact execDispReturn_canonical h
  | dispCntClr => exact execDispCntClr_canonical h
  | dispTraceCfgWrite => exact execDispTraceCfgWrite_canonical h
  | ctxPtraceCfgWrite => exact execCtxPtraceCfgWrite_canonical h
  | switch => exact execSwitch_canonical h
  | retire => exact execRetire_canonical h
  | query => exact execQuery_canonical h
  | reclaim => exact execReclaim_canonical h
  | versionReclaim => exact execVersionReclaim_canonical h
  | form => exact execForm_canonical h
  | peerFormationComplete => exact execPeerFormationComplete_canonical h
  | peerFormationTimeout => exact execPeerFormationTimeout_canonical h
  | dissolve => exact execDissolve_canonical h
  | exchangeLookup => exact execExchangeLookup_canonical h
  | exchangeUpdateAdd => exact execExchangeUpdateAdd_canonical h
  | exchangeUpdateSet => exact execExchangeUpdateSet_canonical h
  | exchangeSignal => exact execExchangeSignal_canonical h
  | lookupPart => exact execLookupPart_canonical h
  | lookupReply => exact execLookupReply_canonical h
  | updatePart => exact execUpdatePart_canonical h
  | updateRoundApply => exact execUpdateRoundApply_canonical h
  | refresh => exact execRefresh_canonical h
  | updateDone => exact execUpdateDone_canonical h
  | replayStart => exact execReplayStart_canonical h
  | replayStop => exact execReplayStop_canonical h
  | replayRecordFeed => exact execReplayRecordFeed_canonical h
  | detSignGo => exact execDetSignGo_canonical h
  | batchRootSignComplete => exact execBatchRootSignComplete_canonical h
  | detCntClr => exact execDetCntClr_canonical h
  | qntCntClr => exact execQntCntClr_canonical h
  | spsCntClr => exact execSpsCntClr_canonical h
  | spireEngCntClr => exact execSpireEngCntClr_canonical h
  | transferParityError => exact execTransferParityError_canonical h
  | stateParityError => exact execStateParityError_canonical h
  | correctedError => exact execCorrectedError_canonical h
  | uncorrectableError => exact execUncorrectableError_canonical h
  | recordClose => exact execRecordClose_canonical h
  | errAck => exact execErrAck_canonical h
  | spireTest => exact execSpireTest_canonical h
  | fullTest => exact execFullTest_canonical h
  | selfTestComplete => exact execSelfTestComplete_canonical h
  | autotestTimer => exact execAutotestTimer_canonical h
  | errCntClr => exact execErrCntClr_canonical h
  | lifetimeAccumulate => exact execLifetimeAccumulate_canonical h
  | lifetimeMramWrite => exact execLifetimeMramWrite_canonical h
  | install => exact execInstall_canonical h
  | erase => exact execErase_canonical h
  | eraseAll => exact execEraseAll_canonical h
  | attestationGo => exact execAttestationGo_canonical h
  | attestationComplete => exact execAttestationComplete_canonical h
  | extest => exact execExtest_canonical h
  | idcode => exact execIdcode_canonical h
  | samplePreload => exact execSamplePreload_canonical h
  | clamp => exact execClamp_canonical h
  | highz => exact execHighz_canonical h
  | extestPulse => exact execExtestPulse_canonical h
  | extestTrain => exact execExtestTrain_canonical h
  | bypass => exact execBypass_canonical h
  | testLogicReset => exact execTestLogicReset_canonical h
  | i3cRegisterRead => exact execI3cRegisterRead_canonical h
  | i3cRegisterWrite => exact execI3cRegisterWrite_canonical h
  | sampledPairRead => exact execSampledPairRead_canonical h
  | create => exact execCreate_canonical h
  | destroy => exact execDestroy_canonical h
  | qpQuery => exact execQpQuery_canonical h
  | portCntClr => exact execPortCntClr_canonical h
  | refclkRestore => exact execRefclkRestore_canonical h
  | pfcPauseExpiry => exact execPfcPauseExpiry_canonical h
  | localAckTimeout => exact execLocalAckTimeout_canonical h
  | illegalInstruction => exact execIllegalInstruction_canonical h
  | regionChangeComplete => exact execRegionChangeComplete_canonical h
  | warmEntryComplete => exact execWarmEntryComplete_canonical h

/-! ### The step -/

theorem State.Canonical.idle (h : s.Canonical) : s.idle.Canonical := h.passTo.ite h

/-- Whatever command stands in front, a step answers in canonical form only. -/
theorem step_canonical (h : s.Canonical) : Out.Canonical (step s) := by
  unfold step
  split
  · exact h.idle.next
  · exact exec_canonical _ h.update

/-- Settles O59: each function of the model keeps the canonical form, by its own lemma; a command's meaning is made of those
functions, and a step is a command's meaning or an idle tick. -/
theorem canonicalFormIsKept : Obligations.CanonicalFormIsKept := by
  unfold Obligations.CanonicalFormIsKept
  intro s t h e
  exact (e ▸ step_canonical h : Out.Canonical (.next t)).of_next

end Sys2Proof.Machine
end

section
namespace Sys2Proof.Machine

/-! ## The state after reset -/

/-- After reset every register holds its Reset value. -/
theorem reg_reset (a : Nat) : State.reset.reg a = regReset a := rfl

/-- A memory with nothing listed reads 0. -/
theorem Mem.read_empty (a : Nat) : Mem.read {} a = 0 := by simp [Mem.read, SMap.get, maskOf]

/-- After reset no context is enabled: EN is 0 in each CTX_CTL's Reset value. -/
theorem ctxEn_reset : ∀ c, c < 16 → State.reset.ctxEn c = false := by decide +kernel

/-- The Reset values of registers 0x04, 0x08 and 0x18 of each session's block. -/
theorem sess_reset : ∀ k, k < 8 → State.reset.reg (0x20004 + 0x1000 * k) = 0xFFFF
    ∧ State.reset.reg (0x20008 + 0x1000 * k) = 0x20400032 ∧ State.reset.reg (0x20018 + 0x1000 * k) = 0x1000040 := by
  decide +kernel

/-- The Reset value of register 0x18 of each context's block. -/
theorem ctx_reset : ∀ c, c < 16 → State.reset.reg (0x30018 + 0x1000 * c) = 0xFFFFFFFF := by decide +kernel

/-- Settles O60: what is empty is so by definition, and each register named reads its Reset value. -/
theorem resetState : Obligations.ResetState := by
  refine ⟨State.Canonical.reset, rfl, rfl, rfl, rfl, rfl, rfl, rfl, rfl, rfl, rfl, rfl, rfl, rfl, rfl, ?devState,
    fun a => ⟨Mem.read_empty a, Mem.read_empty a⟩, reg_reset, ?devCtl, ctxEn_reset, ?id, ?limit, ?ctl, sess_reset, ?peer, ?window,
    ctx_reset, ?blocks⟩
  all_goals decide +kernel

end Sys2Proof.Machine
end

section
namespace Sys2Proof.Machine

/-! ## Register writes -/

variable {s t : State} {r : Req} {a : Nat} {v : W32}

/-! ### The row of a register write, case by case -/

theorem regRow_unanswered (h : s.regGate r a = none) : s.regRow r a v = s := by simp only [State.regRow, h]

theorem regRow_refused {n : Nat} (h : s.regGate r a = some n) (hn : n ≠ 0) : s.regRow r a v = s.nakReg r n a := by
  simp only [State.regRow, h, if_pos hn]

theorem regRow_nak {n : Nat} (h : s.regGate r a = some 0) (hw : s.ctlWrite r false false a v = .nak t n) :
    s.regRow r a v = t.nakReg r n a := by
  simp only [State.regRow, h, hw, ne_eq, not_true_eq_false, if_false]

theorem regRow_ok (h : s.regGate r a = some 0) (hw : s.ctlWrite r false false a v = .ok t) : s.regRow r a v = t := by
  simp only [State.regRow, h, hw, ne_eq, not_true_eq_false, if_false]

theorem ctlWrite_malformed (h : regInfo a = none) : s.ctlWrite r false false a v = .nak s nkMalformed := by
  simp [State.ctlWrite, h]

theorem ctlWrite_permission (h : regInfo a ≠ none) (hm : ¬ s.mayWrite r.who a v = true) :
    s.ctlWrite r false false a v = .nak s nkPermission := by
  simp [State.ctlWrite, h, hm]

/-- Without a replay record due, a write that may be made is the register's own. -/
theorem ctlWrite_quiet (h : regInfo a ≠ none) (hm : s.mayWrite r.who a v = true) (hq : s.rb (aDet 0x100) 1 = false) :
    s.ctlWrite r false false a v = s.writeReg r false false a v := by
  simp [State.ctlWrite, h, hm, hq]

/-- With RPL_EN, a session's write follows its record (R844). -/
theorem ctlWrite_recorded (h : regInfo a ≠ none) (hm : s.mayWrite r.who a v = true) (hq : s.rb (aDet 0x100) 1 = true)
    (hw : r.who ≠ .i3c) (hok : s.writeReg r false false a v = .ok t) : s.ctlWrite r false false a v
      = (s.record 0x05 (s.recKey r.who) 0 r.seq none (natLe 4 a ++ natLe 4 1 ++ natLe 4 v.toNat)).writeReg r false false a v := by
  simp [State.ctlWrite, h, hm, hq, hw, hok]

/-- A write that takes effect is the register's own. -/
theorem TakesWrite.regRow (h : TakesWrite s r a v) (hi : regInfo a ≠ none) (hw : s.writeReg r false false a v = .ok t) :
    s.regRow r a v = t :=
  regRow_ok h.gate ((ctlWrite_quiet hi h.right h.quiet).trans hw)

/-! ### Gate and rights -/

theorem nakReg_sess {k : Fin 8} {n : Nat} (hk : r.who = .sess k) : s.nakReg r n a = s.refuse r tyControlWr n a := by
  simp [State.nakReg, hk]

theorem regGate_sess_none {k : Fin 8} (hk : r.who = .sess k) (h : (s.ses k.val).isOpen = false ∨ s.waitsBehind k.val = true) :
    s.regGate r a = none := by
  rcases h with h | h <;> simp [State.regGate, hk, h]

theorem regGate_sess {k : Fin 8} (hk : r.who = .sess k) (ho : (s.ses k.val).isOpen = true) (hc : s.ctlHeld = false)
    (hb : s.waitsBehind k.val = false) : s.regGate r a
      = if s.devState = stRecovery ∨ (s.replaying = true ∧ ¬ (0xF0100 ≤ a ∧ a < 0xF0200)) then some nkState else some 0 := by
  by_cases hr : s.devState = stRecovery <;> simp [State.regGate, hk, ho, hc, hb, hr, imp_iff_not_or]

theorem regGate_i3c (hw : r.who = .i3c) : s.regGate r a = if s.pins.vaux = true ∧ i3cWrites a = true then some 0 else none := by
  simp [State.regGate, hw]

/-- The rights of R946 of a session without an owner key are those of the manual's table. -/
theorem sessRight_iff {k : Fin 8} (ho : s.isOwner k.val = false) : s.sessRight k a v = true ↔ s.partnerMay k a v := by
  have hw : ∀ c, s.mayCtx (.sess k) c = s.rb (aSessMask k.val) c := fun c => by simp [State.mayCtx, ho]
  simp only [State.sessRight, State.partnerMay, hw, State.slotKey, aCtx, aWin, aDet, aSec, aLife, aSync]
  split
  case isTrue h =>
    constructor
    · exact fun hb => .inl ⟨(a - 0x30000) / 0x1000, by omega, hb, by omega⟩
    · rintro (⟨c, hc, hb, ha⟩ | h)
      · rwa [show (a - 0x30000) / 0x1000 = c by omega]
      · omega
  case isFalse h1 =>
  split
  case isTrue h =>
    constructor
    · exact fun hb => .inl ⟨(a - 0x58000) / 0x400, by omega, hb, by omega⟩
    · rintro (⟨c, hc, hb, ha⟩ | h)
      · rwa [show (a - 0x58000) / 0x400 = c by omega]
      · omega
  case isFalse h2 =>
  have hc : ¬ ∃ c, c < 16 ∧ s.rb (aSessMask k.val) c = true ∧ (0x30000 + 0x1000 * c + 0 ≤ a ∧ a < 0x30000 + 0x1000 * c + 0x1000
      ∨ 0x58000 + 0x400 * c + 0x10 * 0 ≤ a ∧ a < 0x58000 + 0x400 * c + 0x10 * 64) := by
    rintro ⟨c, hc, -, ha⟩
    omega
  simp only [hc, false_or]
  split
  case isTrue h => simp [h]
  case isFalse h3 =>
  simp only [h3, false_or]
  split
  case isTrue h => subst h; simp
  case isFalse h4 =>
  simp only [h4, false_and, false_or]
  split
  case isTrue h =>
    rw [Bool.and_eq_true, beq_iff_eq]
    constructor
    · exact fun hb => .inl ⟨h.1, h.2, h4, hb⟩
    · rintro (⟨-, -, -, hb⟩ | h')
      · exact hb
      · omega
  case isFalse h5 =>
  split
  case isTrue h => subst h; simp
  case isFalse h6 =>
  split
  case isTrue h =>
    constructor
    · exact fun hb => .inr (.inr (.inl ⟨h.1, h.2, hb⟩))
    · rintro (h' | h' | ⟨-, -, hb⟩ | h')
      · omega
      · omega
      · exact hb
      · omega
  case isFalse h7 =>
    rw [Bool.or_eq_true, beq_iff_eq, beq_iff_eq]
    constructor
    · exact fun h => .inr (.inr (.inr h))
    · rintro (h' | h' | h' | h)
      · omega
      · omega
      · omega
      · exact h

/-- R946 for a session: an owner key's, or the table's for a partner. -/
theorem mayWrite_sess_iff {k : Fin 8} : s.mayWrite (.sess k) a v = true ↔ s.isOwner k.val = true ∨ s.partnerMay k a v := by
  cases ho : s.isOwner k.val <;> simp [State.mayWrite, ho, sessRight_iff]

/-! ### Plain writes (R15) -/

theorem getLsbD_mixReg (i : RegInfo) (old : W32) {n : Nat} (hn : n < 32) : (mixReg i old v).getLsbD n
    = if i.rw.testBit n then v.getLsbD n else old.getLsbD n && !(i.w1c.testBit n && v.getLsbD n) := by
  simp only [mixReg, BitVec.getLsbD_or, BitVec.getLsbD_and, BitVec.getLsbD_not, BitVec.getLsbD_ofNat, hn, decide_true, Bool.true_and]
  cases i.rw.testBit n <;> simp

theorem plain_put {i : RegInfo} (hi : regInfo a = some i) : Plain s (s.put a v) a i.rw i.w1c v := by
  intro n hn
  simp only [State.put, State.mixed, hi, reg_setReg_self]
  exact getLsbD_mixReg i _ hn

theorem regsOnly_setReg : RegsOnly s (s.setReg a v) [a] :=
  ⟨rfl, fun b hb => by rw [reg_setReg, if_neg (by simpa using hb)]⟩

theorem regsOnly_put : RegsOnly s (s.put a v) [a] := regsOnly_setReg

/-- The address, the RW bits and the W1C bits of each plain register are those of the register map. -/
theorem regInfo_plainRegs : ∀ x ∈ plainRegs, (regInfo x.1).map (fun i => (i.rw, i.w1c)) = some x.2 := by decide +kernel

/-- No plain register's write does anything else. -/
theorem writeReg_plainRegs (s : State) (r : Req) (v : W32) :
    ∀ x ∈ plainRegs, s.writeReg r false false x.1 v = .ok (s.put x.1 v) := by
  simp only [plainRegs, List.forall_mem_append, List.forall_mem_map, List.mem_range]
  refine ⟨⟨⟨⟨?_, fun i hi => ?_⟩, fun c hc => ?_⟩, fun c hc => ?_⟩, fun c hc => ?_⟩
  · simp only [List.forall_mem_cons, List.not_mem_nil, false_imp_iff, implies_true, and_true]
    and_intros
    all_goals rfl
  · interval_cases i <;> rfl
  all_goals interval_cases c <;> rfl

/-- A write of a plain register. -/
theorem TakesWrite.plain {rw wc : Nat} (h : TakesWrite s r a v) (hx : (a, rw, wc) ∈ plainRegs) :
    s.regRow r a v = s.put a v ∧ Plain s (s.put a v) a rw wc v := by
  have hi := regInfo_plainRegs _ hx
  simp only [Option.map_eq_some_iff, Prod.mk.injEq] at hi
  obtain ⟨i, hi, rfl, rfl⟩ := hi
  exact ⟨h.regRow (by simp [hi]) (writeReg_plainRegs s r v _ hx), plain_put hi⟩

/-! ### The pauses that the port asks for (R147) -/

/-- Nothing changed but the pauses that the port asks of its partner, and the PFC frames that ask for them. -/
def PfcOnly (s t : State) : Prop :=
  ∃ w x, t = { s with port := { s.port with wire := s.port.wire ++ w, xoff := x } } ∧ ∀ f ∈ w, f.isPfc = true

theorem PfcOnly.refl (s : State) : PfcOnly s s := ⟨[], s.port.xoff, by simp, by simp⟩

theorem PfcOnly.trans {u : State} (h : PfcOnly s t) (k : PfcOnly t u) : PfcOnly s u := by
  obtain ⟨w, x, rfl, hw⟩ := h
  obtain ⟨w', x', rfl, hw'⟩ := k
  refine ⟨w ++ w', x', by simp, fun f hf => ?_⟩
  exact (List.mem_append.mp hf).elim (hw f) (hw' f)

theorem PfcOnly.reg (h : PfcOnly s t) : t.reg a = s.reg a := by
  obtain ⟨w, x, rfl, -⟩ := h
  rfl

/-- What is due does not follow from what was asked. -/
theorem PfcOnly.xoffDue (h : PfcOnly s t) (key : Nat) : t.xoffDue key = s.xoffDue key := by
  obtain ⟨w, x, rfl, -⟩ := h
  rfl

theorem PfcOnly.regsPfc {u : State} {l : List Nat} (h : RegsOnly s t l) (k : PfcOnly t u) : RegsPfc s u l := by
  obtain ⟨ht, hl⟩ := h
  refine ⟨?_, fun b hb => k.reg.trans (hl b hb)⟩
  obtain ⟨w, x, rfl, hw⟩ := k
  refine ⟨w, x, ?_, hw⟩
  rw [ht]

/-- A PFC frame leaves untagged, or not at all. -/
theorem leave_pfc {f : OutFrame} (hf : f.isPfc = true) :
    ∃ w, s.leave f = { s with port := { s.port with wire := s.port.wire ++ w } } ∧ ∀ f ∈ w, f.isPfc = true := by
  unfold State.leave
  split
  · exact ⟨[], by simp⟩
  · split
    · exact ⟨[f], by simp [hf]⟩
    · split
      · exact ⟨[], by simp⟩
      · exact ⟨[f], by simp [hf]⟩

/-- What a PFC frame's leaving changes. -/
theorem sendPfc_eq (s : State) (sub prio : Nat) (off : Bool) :
    ∃ w, s.sendPfc sub prio off = { s with port := { s.port with
      wire := s.port.wire ++ w, xoff := SMap.set s.port.xoff false (pauseKey sub prio) off } } ∧ ∀ f ∈ w, f.isPfc = true :=
  leave_pfc (s := { s with port := { s.port with xoff := SMap.set s.port.xoff false (pauseKey sub prio) off } }) rfl

theorem sendPfc_only (s : State) (sub prio : Nat) (off : Bool) : PfcOnly s (s.sendPfc sub prio off) := by
  obtain ⟨w, h, hw⟩ := sendPfc_eq s sub prio off
  exact ⟨w, _, h, hw⟩

theorem xoff_sendPfc (s : State) (sub prio : Nat) (off : Bool) (key : Nat) :
    SMap.get (s.sendPfc sub prio off).port.xoff false key = if key = pauseKey sub prio then off else SMap.get s.port.xoff false key := by
  obtain ⟨w, h, -⟩ := sendPfc_eq s sub prio off
  rw [h, SMap.get_set]

/-- One priority is put where it is to stand. -/
def State.pfcStep (s : State) (key : Nat) : State :=
  if s.xoffDue key == SMap.get s.port.xoff false key then s else s.sendPfc (key / 8) (key % 8) (s.xoffDue key)

theorem pfcSync_eq (s : State) :
    s.pfcSync = ((List.range 8).map s.lportKey ++ s.port.xoff.map (·.1)).eraseDups.foldl State.pfcStep s := rfl

theorem pfcStep_only (key : Nat) : PfcOnly s (s.pfcStep key) := by
  unfold State.pfcStep
  split
  · exact .refl s
  · exact sendPfc_only ..

theorem xoff_pfcStep (key j : Nat) : SMap.get (s.pfcStep key).port.xoff false j
    = if j = key then s.xoffDue key else SMap.get s.port.xoff false j := by
  have hk : pauseKey (key / 8) (key % 8) = key := by unfold pauseKey; omega
  unfold State.pfcStep
  split
  case isTrue h => split <;> simp_all
  case isFalse h => rw [xoff_sendPfc, hk]

theorem foldl_pfcStep (l : List Nat) : PfcOnly s (l.foldl State.pfcStep s)
    ∧ ∀ key, SMap.get (l.foldl State.pfcStep s).port.xoff false key
      = if key ∈ l then s.xoffDue key else SMap.get s.port.xoff false key := by
  induction l generalizing s with
  | nil => exact ⟨.refl s, fun key => by simp⟩
  | cons k l ih =>
    obtain ⟨ho, hx⟩ := ih (s := s.pfcStep k)
    refine ⟨(pfcStep_only k).trans ho, fun key => ?_⟩
    rw [List.foldl_cons, hx, (pfcStep_only k).xoffDue, xoff_pfcStep]
    by_cases hk : key = k <;> simp [hk]

theorem pfcSync_only (s : State) : PfcOnly s s.pfcSync := (foldl_pfcStep _).1

/-- Afterwards every logical port's priority stands as it is to. -/
theorem xoffAsDue_pfcSync (s : State) : XoffAsDue s.pfcSync := by
  intro k hk
  have hr : ∀ a, s.pfcSync.reg a = s.reg a := fun a => (pfcSync_only s).reg
  have hkey : s.pfcSync.lportKey k = s.lportKey k := by simp only [State.lportKey, State.rf, hr]
  have hx : SMap.get s.pfcSync.port.xoff false (s.lportKey k) = s.pfcSync.xoffDue (s.lportKey k) := by
    rw [pfcSync_eq, (foldl_pfcStep _).2, (foldl_pfcStep _).1.xoffDue, if_pos]
    simp only [List.mem_eraseDups, List.mem_append, List.mem_map, List.mem_range]
    exact .inl ⟨k, hk, rfl⟩
  dsimp only
  rw [hkey, hx]
  simp [State.xoffDue, and_assoc, imp_iff_not_or]

/-- SESS_CTXMASK and SESS_QOS in the register map, and what their writes do. -/
theorem writeReg_sess {k rw : Nat} (hk : k < 8) (ha : (a, rw) = (aSessMask k, 0xFFFF) ∨ (a, rw) = (aSessQos k, 0xFF07)) :
    (∃ i, regInfo a = some i ∧ i.rw = rw ∧ i.w1c = 0) ∧ s.writeReg r false false a v = .ok (s.put a v).pfcSync := by
  rcases ha with ha | ha <;> obtain ⟨rfl, rfl⟩ := Prod.mk.inj ha
  all_goals interval_cases k <;> exact ⟨⟨_, rfl, rfl, rfl⟩, rfl⟩

/-- A write of SESS_CTXMASK or SESS_QOS. -/
theorem TakesWrite.sess {k rw : Nat} (h : TakesWrite s r a v) (hk : k < 8)
    (ha : (a, rw) = (aSessMask k, 0xFFFF) ∨ (a, rw) = (aSessQos k, 0xFF07)) :
    s.regRow r a v = (s.put a v).pfcSync ∧ Plain s (s.put a v) a rw 0 v := by
  obtain ⟨⟨i, hi, rfl, hc⟩, hw⟩ := writeReg_sess (s := s) (r := r) (v := v) hk ha
  exact ⟨h.regRow (by simp [hi]) hw, hc ▸ plain_put hi⟩

/-- A write of one of SEC_KEY_W0 to SEC_KEY_W7 stores the value whole. -/
theorem TakesWrite.key {i : Nat} (hi : i < 8) (h : TakesWrite s r (aSec (0x010 + 4 * i)) v) :
    s.regRow r (aSec (0x010 + 4 * i)) v = s.setReg (aSec (0x010 + 4 * i)) v := by
  have hw : regInfo (aSec (0x010 + 4 * i)) ≠ none
      ∧ s.writeReg r false false (aSec (0x010 + 4 * i)) v = .ok (s.setReg (aSec (0x010 + 4 * i)) v) := by
    interval_cases i <;> exact ⟨Option.some_ne_none _, rfl⟩
  exact h.regRow hw.1 hw.2

/-! ### Over I3C (R44, R949) -/

/-- A little-endian number written in n bytes reads as it was, where n bytes hold it. -/
theorem leNat_natLe {n x : Nat} (h : x < 256 ^ n) : leNat (natLe n x) = x := by
  induction n generalizing x with
  | zero => simp at h; simp [natLe, leNat, h]
  | succ n ih =>
    have hx : x / 256 < 256 ^ n := by rw [Nat.pow_succ] at h; omega
    simp only [natLe, leNat, ih hx, BitVec.toNat_ofNat]
    omega

/-- The device answers its dynamic address, and its static one, while VAUX is up. -/
theorem i3cAnswers_iff (d : I3cDest) :
    s.i3cAnswers d = true ↔ s.pins.vaux = true ∧ ∀ n, d = .static n → n = 0x58 + s.pins.straps.toNat := by
  cases d <;> simp [State.i3cAnswers, Pins.i3cStatic]

theorem exec_i3cRegisterWrite_eq (d : I3cDest) (wr : List Byte) : exec (.i3cRegisterWrite d wr) s = execI3cRegisterWrite d wr s := rfl

/-- An I3C write of 3 bytes of address and 4 of value is the row of that register's write. -/
theorem exec_i3cRegisterWrite {d : I3cDest} (hd : s.i3cAnswers d = true) (ha : a < 256 ^ 3) :
    exec (.i3cRegisterWrite d (natLe 3 a ++ natLe 4 v.toNat)) s = .next (s.regRow { who := .i3c, seq := 0 } a v) := by
  have h3 := length_natLe 3 a
  have h4 := length_natLe 4 v.toNat
  have hv : BitVec.ofNat 32 (leNat (natLe 4 v.toNat)) = v := by
    rw [leNat_natLe (by have := v.isLt; omega), BitVec.ofNat_toNat, BitVec.setWidth_eq]
  rw [exec_i3cRegisterWrite_eq, execI3cRegisterWrite, if_pos (by simp [hd, h3, h4])]
  simp only [getLe, slice, List.drop_zero, List.take_left' h3, List.drop_left' h3, List.take_of_length_le h4.le, leNat_natLe ha, hv]

/-- What the device does not answer, or does not let I3C write, changes nothing. -/
theorem exec_i3cRegisterWrite_idle {d : I3cDest} {wr : List Byte}
    (h : s.i3cAnswers d = false ∨ wr.length ≠ 7 ∨ i3cWrites (leNat (wr.take 3)) = false) :
    exec (.i3cRegisterWrite d wr) s = .next s := by
  rw [exec_i3cRegisterWrite_eq, execI3cRegisterWrite]
  split
  case isFalse => rfl
  case isTrue hd =>
    rw [Bool.and_eq_true, beq_iff_eq] at hd
    have hw : i3cWrites (getLe wr 0 3) = false := by simpa [hd, getLe, slice] using h
    rw [regRow_unanswered]
    simp [regGate_i3c, hw]

/-- Outside LIFE_SEL and the SEC key registers I3C writes nothing. -/
theorem i3cWrites_eq_false (h : a ≠ aLife 0 ∧ (a < aSec 0x010 ∨ aSec 0x030 < a)) : i3cWrites a = false := by
  simpa [i3cWrites, h.1, imp_iff_not_or] using h.2

/-- A write over I3C takes effect while VAUX is up only. -/
theorem TakesWrite.vaux (h : TakesWrite s r a v) (hw : r.who = .i3c) : s.pins.vaux = true := by
  have hg := (regGate_i3c hw).symm.trans h.gate
  simp only [ite_eq_left_iff, reduceCtorEq, imp_false, not_not] at hg
  exact hg.1

/-! ### The statement's clauses -/

theorem exec_registerWrite : exec (.registerWrite r a v) s = .next (s.regRow r a v) := rfl

/-- A session's write: unanswered, refused, or carried out (R196, R109, R850, R940, R946). -/
theorem exec_registerWrite_sess {k : Fin 8} (hk : r.who = .sess k) (ho : (s.ses k.val).isOpen = true) (hc : s.ctlHeld = false)
    (hb : s.waitsBehind k.val = false) :
    let no := fun (n : Nat) => exec (.registerWrite r a v) s = .next (s.refuse r tyControlWr n a)
    let may : Prop := s.isOwner k.val = true ∨ s.partnerMay k a v
    let det : Prop := 0xF0100 ≤ a ∧ a < 0xF0200
    (s.devState = stRecovery → no nkState)
    ∧ (s.devState ≠ stRecovery → s.replaying = true → ¬ det → no nkState)
    ∧ (s.devState ≠ stRecovery → (s.replaying = false ∨ det) →
        (regInfo a = none → no nkMalformed) ∧ (regInfo a ≠ none → ¬ may → no nkPermission)
        ∧ (may → s.rb (aDet 0x100) 1 = false → TakesWrite s r a v)) := by
  have hg := regGate_sess (a := a) hk ho hc hb
  have hm := mayWrite_sess_iff (s := s) (k := k) (a := a) (v := v)
  rw [← hk] at hm
  have no : ∀ n, s.regRow r a v = s.nakReg r n a → exec (.registerWrite r a v) s = .next (s.refuse r tyControlWr n a) :=
    fun n h => by rw [exec_registerWrite, h, nakReg_sess hk]
  refine ⟨fun hr => no _ ?_, fun hr hp hd => no _ ?_, fun hr hp => ?_⟩
  · exact regRow_refused (hg.trans (if_pos (.inl hr))) (by decide)
  · exact regRow_refused (hg.trans (if_pos (.inr ⟨hp, hd⟩))) (by decide)
  · have h0 : s.regGate r a = some 0 := hg.trans (if_neg (by rcases hp with hp | hp <;> simp [hr, hp]))
    refine ⟨fun hi => no _ ?_, fun hi hn => no _ ?_, fun hy hq => ⟨h0, hm.mpr hy, hq⟩⟩
    · exact regRow_nak h0 (ctlWrite_malformed hi)
    · exact regRow_nak h0 (ctlWrite_permission hi (mt hm.mp hn))

/-- Settles O37: a write's row is taken apart into its gate, its rights and the register's own write. -/
theorem registerWrites : Obligations.RegisterWrites := by
  unfold Obligations.RegisterWrites
  intro s r a v
  refine ⟨fun n hp => ?_, fun d wr h => ?_, fun k hk => ⟨fun h => ?_, fun h => ?_, fun ho hc hb => ?_⟩,
    fun hg hm hi hq hw t u ht hu => ?_, fun rw wc hx h => ?_, fun k hk rw ha h => ?_, fun d hd => ⟨fun h => ?_, fun i hi h => ?_⟩⟩
  · rw [exec_registerWrite, regRow_unanswered (by simp [State.regGate, hp])]
  · refine exec_i3cRegisterWrite_idle ?_
    rcases h with h | ⟨n, rfl, hn⟩ | h | h
    · exact .inl (by simp [State.i3cAnswers, h])
    · exact .inl (by simp [State.i3cAnswers, Pins.i3cStatic, hn])
    · exact .inr (.inl h)
    · exact .inr (.inr (i3cWrites_eq_false h))
  · rw [exec_registerWrite, regRow_unanswered (regGate_sess_none hk (.inl h))]
  · rw [exec_registerWrite, regRow_unanswered (regGate_sess_none hk (.inr h))]
  · exact exec_registerWrite_sess hk ho hc hb
  · rw [exec_registerWrite, regRow_ok hg ((ctlWrite_recorded hi hm hq hw ht).trans hu)]
  · obtain ⟨e, hp⟩ := h.plain hx
    exact ⟨_, by rw [exec_registerWrite, e], regsOnly_put, hp⟩
  · obtain ⟨e, hp⟩ := h.sess hk ha
    exact ⟨_, by rw [exec_registerWrite, e], (pfcSync_only _).regsPfc regsOnly_put, xoffAsDue_pfcSync _, fun n hn => by
      rw [(pfcSync_only _).reg]; exact hp n hn⟩
  · have e := exec_i3cRegisterWrite (a := aLife 0) (v := v) (i3cAnswers_iff d |>.mpr ⟨h.vaux rfl, hd⟩) (by decide)
    have hp := h.plain (rw := 0xF000FFFF) (wc := 0) (by decide)
    exact ⟨_, hp.1 ▸ e, regsOnly_put, hp.2⟩
  · have e := exec_i3cRegisterWrite (a := aSec (0x010 + 4 * i)) (v := v) (i3cAnswers_iff d |>.mpr ⟨h.vaux rfl, hd⟩)
      (by simp only [aSec]; omega)
    exact ⟨_, h.key hi ▸ e, regsOnly_setReg, reg_setReg_self ..⟩

end Sys2Proof.Machine
end

section
namespace Sys2Proof.Machine

/-! ## The boot sequence -/

/-- A program image of a header and one descriptor, at bytes 64 to 127. -/
def descImage : List Byte := zeros 0x10 ++ natLe 4 64 ++ natLe 4 64 ++ zeros 104

/-- A device at the end of a warm boot: context 0 has a program with a descriptor section, and its EN is to be restored (R107). -/
def warmBoot : State :=
  let s : State :=
    { progs := [(0, { image := descImage })], pins := { vaux := true, pwrGood := true, resetN := true },
      boot := { cold := false, flashFound := true, trained := true, enumerated := true, scanned := true, savedEn := 1 } }
  (s.setDevState stTraining).setB (aCtxStatus 0) 1 true

/-- The state in which the last step of the boot leaves the device. -/
def State.readied (s : State) : State := match exec .bootReady s with | .next t => t | _ => s

theorem readied_of_next {s t : State} (h : exec .bootReady s = .next t) : s.readied = t := by rw [State.readied, h]

theorem warmBoot_due : warmBoot.devState = stTraining ∧ warmBoot.boot.enumerated = true ∧ warmBoot.boot.scanned = true := by decide +kernel

/-- The enable check of context 0 has read its descriptor section through the Dome cache, which is on by then: the cache holds its line. -/
theorem length_lines_warmBoot_readied : warmBoot.readied.ctxEn 0 = true ∧ warmBoot.readied.dome.lines.length = 1 := by decide +kernel

/-- Refutes O49: the cache is not empty once a warm boot is READY. Caching begins before EN is restored (R104, R107), and the enable check
that restores EN of a context with a program reads its descriptors through the cache (R33, R412). -/
theorem not_bootSequence : ¬ Obligations.BootSequence := by
  unfold Obligations.BootSequence
  intro h
  obtain ⟨-, -, -, -, -, -, -, -, hready⟩ := h warmBoot
  obtain ⟨hdev, henum, hscan⟩ := warmBoot_due
  obtain ⟨t, ht, hlines, -⟩ := hready ⟨hdev, henum, .inr hscan⟩
  have hlen := length_lines_warmBoot_readied.2
  rw [readied_of_next ht, hlines] at hlen
  exact absurd hlen (by decide)

end Sys2Proof.Machine
end

section
namespace Sys2Proof.Machine

/-! ## Fields of a register -/

theorem two_pow_mul_add_lt {lo n x r : Nat} (hx : x < 2 ^ n) (hr : r < 2 ^ lo) : 2 ^ lo * x + r < 2 ^ (lo + n) := by
  have h := Nat.mul_le_mul_left (2 ^ lo) hx
  rw [Nat.mul_succ, ← pow_add] at h
  omega

/-- A register with a field replaced: what stood above the field, the field, and what stood below it. -/
theorem toNat_rput (w : W32) {lo n : Nat} (v : Nat) (h : lo + n ≤ 32) : (rput w lo n v).toNat
    = 2 ^ (lo + n) * (w.toNat / 2 ^ (lo + n)) + (2 ^ lo * (v % 2 ^ n) + w.toNat % 2 ^ lo) := by
  have hsplit := Nat.div_add_mod w.toNat (2 ^ (lo + n))
  rw [pow_add, Nat.mod_mul, ← pow_add] at hsplit
  have hfield := two_pow_mul_add_lt (Nat.mod_lt v (Nat.two_pow_pos n)) (Nat.mod_lt w.toNat (Nat.two_pow_pos lo))
  have htop : w.toNat / 2 ^ (lo + n) < 2 ^ (32 - (lo + n)) := by
    rw [Nat.div_lt_iff_lt_mul (Nat.two_pow_pos _), ← pow_add, Nat.sub_add_cancel h]
    exact w.isLt
  have hall := two_pow_mul_add_lt htop hfield
  rw [Nat.add_sub_cancel' h] at hall
  rw [rput, BitVec.toNat_ofNat, nbits, Nat.mul_comm (v % 2 ^ n), Nat.mul_comm (w.toNat / 2 ^ lo % 2 ^ n),
    Nat.mod_eq_of_lt (by omega)]
  omega

/-- A bit of a register after one of its fields is replaced. -/
theorem rbit_rput (w : W32) {lo n i : Nat} (v : Nat) (h : lo + n ≤ 32) :
    rbit (rput w lo n v) i = if lo ≤ i ∧ i < lo + n then v.testBit (i - lo) else rbit w i := by
  have hlow := Nat.mod_lt w.toNat (Nat.two_pow_pos lo)
  have hfield := two_pow_mul_add_lt (Nat.mod_lt v (Nat.two_pow_pos n)) hlow
  rw [rbit, rbit, BitVec.getLsbD, BitVec.getLsbD, toNat_rput w v h, Nat.testBit_two_pow_mul_add _ hfield,
    Nat.testBit_two_pow_mul_add _ hlow]
  by_cases h1 : i < lo
  · rw [if_pos (by omega), if_pos h1, if_neg (by omega), Nat.testBit_mod_two_pow, decide_eq_true h1, Bool.true_and]
  · by_cases h2 : i < lo + n
    · rw [if_pos h2, if_neg h1, if_pos ⟨by omega, h2⟩, Nat.testBit_mod_two_pow, decide_eq_true (by omega), Bool.true_and]
    · rw [if_neg h2, if_neg (by omega), Nat.testBit_div_two_pow, Nat.sub_add_cancel (by omega)]

theorem testBit_rfld (w : W32) (lo n i : Nat) : (rfld w lo n).testBit i = (decide (i < n) && rbit w (lo + i)) := by
  rw [rfld, nbits, Nat.testBit_mod_two_pow, Nat.testBit_div_two_pow, rbit, BitVec.getLsbD, Nat.add_comm]

/-- The field that was replaced. -/
theorem rfld_rput_same (w : W32) {lo n : Nat} (v : Nat) (h : lo + n ≤ 32) : rfld (rput w lo n v) lo n = v % 2 ^ n := by
  refine Nat.eq_of_testBit_eq fun i => ?_
  rw [testBit_rfld, rbit_rput w v h, Nat.testBit_mod_two_pow, Nat.add_sub_cancel_left]
  by_cases hi : i < n <;> simp [hi]

/-- A field beside the one that was replaced. -/
theorem rfld_rput_other (w : W32) {lo n lo' n' : Nat} (v : Nat) (h : lo + n ≤ 32) (hd : lo' + n' ≤ lo ∨ lo + n ≤ lo') :
    rfld (rput w lo n v) lo' n' = rfld w lo' n' := by
  refine Nat.eq_of_testBit_eq fun i => ?_
  rw [testBit_rfld, testBit_rfld, rbit_rput w v h]
  by_cases hi : i < n'
  · rw [if_neg (by omega)]
  · simp [hi]

theorem rbit_rputBit (w : W32) {i j : Nat} (b : Bool) (h : i < 32) : rbit (rputBit w i b) j = if j = i then b else rbit w j := by
  rw [rputBit, rbit_rput w _ h]
  by_cases hj : j = i
  · subst hj; cases b <;> simp
  · rw [if_neg (by omega), if_neg hj]

/-- A field beside the bit that was replaced. -/
theorem rfld_rputBit_other (w : W32) {i lo n : Nat} (b : Bool) (h : i < 32) (hd : lo + n ≤ i ∨ i < lo) :
    rfld (rputBit w i b) lo n = rfld w lo n := rfld_rput_other w _ h hd

/-! ### Registers of a state -/

variable {s t u : State} {a b : Nat}

theorem reg_setF (lo n v : Nat) : (s.setF a lo n v).reg b = if b = a then rput (s.reg a) lo n v else s.reg b := reg_setReg ..

theorem reg_setB (i : Nat) (v : Bool) : (s.setB a i v).reg b = if b = a then rputBit (s.reg a) i v else s.reg b := reg_setReg ..

theorem RegsOnly.refl (s : State) (l : List Nat) : RegsOnly s s l := ⟨rfl, fun _ _ => rfl⟩

theorem RegsOnly.trans {l : List Nat} (h : RegsOnly s t l) (k : RegsOnly t u l) : RegsOnly s u l :=
  ⟨k.1.trans (by rw [h.1]), fun a ha => (k.2 a ha).trans (h.2 a ha)⟩

theorem RegsOnly.mono {l m : List Nat} (h : RegsOnly s t l) (hl : l ⊆ m) : RegsOnly s t m := ⟨h.1, fun a ha => h.2 a fun hm => ha (hl hm)⟩

/-- A register of the list is replaced. -/
theorem RegsOnly.setReg {l : List Nat} (h : RegsOnly s t l) (ha : a ∈ l) (v : W32) : RegsOnly s (t.setReg a v) l :=
  h.trans (regsOnly_setReg.mono (by simpa using ha))

theorem RegsOnly.power {l : List Nat} (h : RegsOnly s t l) : t.power = s.power := (congrArg State.power h.1 :)

theorem fwRuns_iff : s.fwRuns = true ↔ stTraining ≤ s.devState ∧ s.devState ≤ stMaint := by
  rw [State.fwRuns, Bool.and_eq_true, decide_eq_true_iff, decide_eq_true_iff]

end Sys2Proof.Machine
end

section
namespace Sys2Proof.Machine

/-! ## The power manager (R57–R68) -/

variable {s t : State}

/-! ### Pace -/

/-- Between two neighbouring rows of a rising table the pace is linear. -/
theorem paceAlong_between {v a pa b pb : Nat} : ∀ {l : List (Nat × Nat)} {v0 p0 : Nat}, ((v0, p0) :: l).Pairwise (fun x y => x.1 < y.1) →
    ((a, pa), (b, pb)) ∈ ((v0, p0) :: l).zip l → a ≤ v → v ≤ b →
    paceAlong v v0 p0 l = (pa : Rat) + (pb - pa : Rat) * (v - a) / (b - a)
  | [], v0, p0, _, h, _, _ => by simp at h
  | (v1, p1) :: l, v0, p0, hs, h, ha, hb => by
    have hrise : v0 < v1 := List.rel_of_pairwise_cons hs (List.mem_cons_self (a := (v1, p1)))
    have htail := hs.of_cons
    rw [List.zip_cons_cons, List.mem_cons] at h
    rcases h with h | h
    · simp only [Prod.mk.injEq] at h
      obtain ⟨⟨rfl, rfl⟩, rfl, rfl⟩ := h
      rw [paceAlong, if_pos hb]
    · by_cases hv : v ≤ v1
      · have hrow : (a, pa) = (v1, p1) := by
          rcases List.mem_cons.mp (List.of_mem_zip h).1 with e | e
          · exact e
          · exact absurd (List.rel_of_pairwise_cons htail e) (by simp; omega)
        obtain ⟨rfl, rfl⟩ := Prod.mk.inj hrow
        obtain rfl : v = a := by omega
        have hne : (v - v0 : Rat) ≠ 0 := sub_ne_zero.mpr (by exact_mod_cast hrise.ne')
        rw [paceAlong, if_pos hv, mul_div_assoc, div_self hne]
        ring
      · rw [paceAlong, if_neg hv]
        exact paceAlong_between htail h ha hb

theorem paceAt_paceOf (mv : Nat) (tj : Int) : PaceAt mv tj (paceOf mv tj % 2 ^ 16) := by
  intro v0 p0 v1 p1 h h0 h1
  have hrise : paceRows.Pairwise fun x y => x.1 < y.1 := by simp [paceRows]
  rw [paceOf, paceAlong_between (v0 := 550) (p0 := 950) (l := paceRows.tail) hrise h h0 h1]

/-! ### One pass -/

theorem commonPass_spec (p limit vmin vmax common gap : Nat) : CommonPass p limit vmin vmax common gap
    (commonPass p limit vmin vmax common gap).1 (commonPass p limit vmin vmax common gap).2 := by
  unfold CommonPass commonPass
  by_cases h1 : limit < p
  · by_cases h2 : vmin < min (max common vmin) vmax <;> simp [h1, h2] <;> omega
  · by_cases h2 : p + 30 < limit
    · by_cases h3 : 0 < gap
      · simp [h1, h2, h3]; omega
      · by_cases h4 : min (max common vmin) vmax < vmax <;> simp [h1, h2, h3, h4] <;> omega
    · simp [h1, h2]

theorem quadPass_spec (tj : Int) (vmin common sp gap : Nat) : QuadPass tj vmin common sp gap
    (quadPass tj vmin common sp gap).1 (quadPass tj vmin common sp gap).2 := by
  unfold QuadPass quadPass
  by_cases h1 : 90 < tj
  · by_cases h2 : vmin < sp <;> simp [h1, h2]
  · by_cases h2 : 0 < gap
    · simp [h1, h2]; omega
    · by_cases h3 : sp < common
      · simp [h1, h2, h3]
      · simp [h1, h2, h3]; omega


/-! ### The live fields -/

/-- PACE_Qq of a quadrant at mv millivolts and a junction of tj degrees (R68). -/
def paceWord (mv : Nat) (tj : Int) : W32 :=
  BitVec.ofNat 32 (wrapInt 8 tj * 2 ^ 24 + mv / 5 % 256 * 2 ^ 16 + paceOf mv tj % 2 ^ 16)

theorem rfld_paceWord (mv : Nat) (tj : Int) : rfld (paceWord mv tj) 24 8 = wrapInt 8 tj ∧ rfld (paceWord mv tj) 16 8 = mv / 5 % 256
    ∧ rfld (paceWord mv tj) 0 16 = paceOf mv tj % 2 ^ 16 := by
  have htj : wrapInt 8 tj < 2 ^ 8 := by unfold wrapInt; omega
  have hpace : paceOf mv tj % 2 ^ 16 < 2 ^ 16 := Nat.mod_lt _ (by decide)
  simp only [rfld, nbits, paceWord, BitVec.toNat_ofNat]
  omega

/-- The junction temperatures of a sample, by quadrant. -/
def junctions (m : PowerSample) : List Int := [m.tj0, m.tj1, m.tj2, m.tj3]

/-- The registers that hold live fields (R67, R68). -/
def liveRegs : List Nat := aPwrStatus :: (List.range 4).map aPace

theorem quadLive_eq (s : State) (q : Nat) (tj : Int) : s.quadLive q tj = s.setReg (aPace q) (paceWord (s.setpoint q) tj) := by
  unfold State.quadLive paceWord
  rfl

theorem aPace_mem_liveRegs {q : Nat} (h : q < 4) : aPace q ∈ liveRegs := List.mem_cons_of_mem _ (List.mem_map_of_mem (List.mem_range.mpr h))

theorem setpoint_setReg (s : State) (a : Nat) (v : W32) (q : Nat) : (s.setReg a v).setpoint q = s.setpoint q := by
  unfold State.setpoint
  rfl

theorem livePower_eq (s : State) (m : PowerSample) : s.livePower m
    = ((((s.setReg (aPace 0) (paceWord (s.setpoint 0) m.tj0)).setReg (aPace 1) (paceWord (s.setpoint 1) m.tj1)).setReg
      (aPace 2) (paceWord (s.setpoint 2) m.tj2)).setReg (aPace 3) (paceWord (s.setpoint 3) m.tj3)).setF aPwrStatus 0 16 m.pkgW := by
  simp only [State.livePower, quadLive_eq, setpoint_setReg]

theorem livePower_regsOnly (s : State) (m : PowerSample) : RegsOnly s (s.livePower m) liveRegs := by
  rw [livePower_eq]
  exact (((((RegsOnly.refl s _).setReg (aPace_mem_liveRegs (by decide)) _).setReg (aPace_mem_liveRegs (by decide)) _).setReg
    (aPace_mem_liveRegs (by decide)) _).setReg (aPace_mem_liveRegs (by decide)) _).setReg List.mem_cons_self _

theorem reg_livePower_status (s : State) (m : PowerSample) : (s.livePower m).reg aPwrStatus = rput (s.reg aPwrStatus) 0 16 m.pkgW := by
  simp [livePower_eq, reg_setF, reg_setReg, aPwrStatus, aPace]

theorem reg_livePower_pace (s : State) (m : PowerSample) {q : Nat} (hq : q < 4) :
    (s.livePower m).reg (aPace q) = paceWord (s.setpoint q) ((junctions m).getD q 0) := by
  interval_cases q <;> simp [livePower_eq, reg_setF, reg_setReg, aPwrStatus, aPace, junctions]

/-- The live fields of t are those of sample m (R67, R68). -/
def ShowsPower (t : State) (m : PowerSample) : Prop :=
  t.rf aPwrStatus 0 16 = m.pkgW % 2 ^ 16 ∧ ∀ q, q < 4 →
    t.rf (aPace q) 24 8 = wrapInt 8 ((junctions m).getD q 0) ∧ t.rf (aPace q) 16 8 = t.setpoint q / 5 % 256
      ∧ PaceAt (t.setpoint q) ((junctions m).getD q 0) (t.rf (aPace q) 0 16)

/-- Live fields are shown where the pace registers and the low half of PWR_STATUS stand as livePower leaves them. -/
theorem showsPower_of_livePower {m : PowerSample} (hp : t.power = s.power) (hs : t.rf aPwrStatus 0 16 = (s.livePower m).rf aPwrStatus 0 16)
    (hq : ∀ q, q < 4 → t.reg (aPace q) = (s.livePower m).reg (aPace q)) : ShowsPower t m := by
  have hset : ∀ q, t.setpoint q = s.setpoint q := fun q => by rw [State.setpoint, hp, State.setpoint]
  refine ⟨?_, fun q h => ?_⟩
  · rw [hs, State.rf, reg_livePower_status, rfld_rput_same _ _ (by decide)]
  · obtain ⟨htj, hv, hpace⟩ := rfld_paceWord (s.setpoint q) ((junctions m).getD q 0)
    simp only [State.rf, hq q h, reg_livePower_pace s m h, hset]
    exact ⟨htj, hv, by rw [hpace]; exact paceAt_paceOf _ _⟩

/-! ### What a pass sets -/

theorem power_quadStep (s : State) (q : Nat) (tj : Int) (vmin : Nat) :
    let r := quadPass tj vmin s.power.common (s.setpoint q) (SMap.get s.power.hotGap 0 q)
    s.quadStep q tj vmin = { s with power := { s.power with
      setpoint := SMap.set s.power.setpoint 720 q r.1, hotGap := SMap.set s.power.hotGap 0 q r.2, avs := s.power.avs ++ [(q, r.1)] } } := rfl

/-- The state in which a pass has set the common setpoint and gap, and each quadrant's (R62). -/
def State.passed (s : State) (m : PowerSample) : State :=
  let vmin := 5 * s.rf aPwrCtl 0 8
  let c := commonPass m.pkgW (s.rf aPwrLimit 0 16) vmin (5 * s.rf aPwrCtl 8 8) s.power.common s.power.commonGap
  ((({ s with power := { s.power with common := c.1, commonGap := c.2 } } : State).quadStep 0 m.tj0 vmin).quadStep 1 m.tj1 vmin).quadStep 2
    m.tj2 vmin |>.quadStep 3 m.tj3 vmin

theorem passed_frame (s : State) (m : PowerSample) : s.passed m = { s with power := (s.passed m).power }
    ∧ (s.passed m).power.guardGap = s.power.guardGap := ⟨rfl, rfl⟩

theorem passed_common (s : State) (m : PowerSample) : CommonPass m.pkgW (s.rf aPwrLimit 0 16) (5 * s.rf aPwrCtl 0 8) (5 * s.rf aPwrCtl 8 8)
    s.power.common s.power.commonGap (s.passed m).power.common (s.passed m).power.commonGap := commonPass_spec ..

theorem passed_quad (s : State) (m : PowerSample) {q : Nat} (hq : q < 4) :
    QuadPass ((junctions m).getD q 0) (5 * s.rf aPwrCtl 0 8) (s.passed m).power.common (s.setpoint q) (SMap.get s.power.hotGap 0 q)
      ((s.passed m).setpoint q) (SMap.get (s.passed m).power.hotGap 0 q) := by
  have hsp : (s.passed m).setpoint q = (quadPass ((junctions m).getD q 0) (5 * s.rf aPwrCtl 0 8) (s.passed m).power.common (s.setpoint q)
      (SMap.get s.power.hotGap 0 q)).1 := by
    interval_cases q <;> simp [State.passed, power_quadStep, State.setpoint, SMap.get_set, junctions]
  have hgap : SMap.get (s.passed m).power.hotGap 0 q = (quadPass ((junctions m).getD q 0) (5 * s.rf aPwrCtl 0 8) (s.passed m).power.common
      (s.setpoint q) (SMap.get s.power.hotGap 0 q)).2 := by
    interval_cases q <;> simp [State.passed, power_quadStep, State.setpoint, SMap.get_set, junctions]
  rw [hsp, hgap]
  exact quadPass_spec ..

theorem passed_avs (s : State) (m : PowerSample) :
    (s.passed m).power.avs = s.power.avs ++ (List.range 4).map fun q => (q, (s.passed m).setpoint q) := by
  simp [State.passed, power_quadStep, State.setpoint, SMap.get_set, List.range_succ]

/-! ### The flags of PWR_STATUS -/

theorem throttled_iff (s : State) : ((List.range 4).any fun q => decide (0 < s.gap q)) = true ↔ s.throttled := by
  simp [State.throttled, State.gap]

/-- THROTTLE follows the gaps, and nothing else changes (R67). -/
theorem throttleBit_spec (s : State) : RegsOnly s s.throttleBit [aPwrStatus] ∧ (s.throttleBit.rb aPwrStatus 31 = true ↔ s.throttled)
    ∧ ∀ i, i ≠ 31 → s.throttleBit.rb aPwrStatus i = s.rb aPwrStatus i := by
  simp only [State.rb, State.throttleBit, reg_setB, if_true]
  refine ⟨regsOnly_setReg, ?_, fun i hi => ?_⟩
  · rw [rbit_rputBit _ _ (by decide), if_pos rfl, throttled_iff]
  · rw [rbit_rputBit _ _ (by decide), if_neg hi]

end Sys2Proof.Machine
end

section
namespace Sys2Proof.Machine

variable {s t : State}

/-- A junction of the sample is above 90 °C (R67). -/
def anyAbove90 (m : PowerSample) : Bool := decide (90 < m.tj0) || decide (90 < m.tj1) || decide (90 < m.tj2) || decide (90 < m.tj3)

/-- The state with AT_FLOOR, bit 29 and THROTTLE of PWR_STATUS as they are to be (R67). -/
def State.flagged (s : State) (warm : Bool) : State := (s.floorBit.setB aPwrStatus 29 warm).throttleBit

theorem flagged_regsOnly (s : State) (warm : Bool) : RegsOnly s (s.flagged warm) [aPwrStatus] :=
  ((((RegsOnly.refl s _).setReg List.mem_cons_self _).setReg List.mem_cons_self _).setReg List.mem_cons_self _)

@[simp] theorem gap_setReg (s : State) (a : Nat) (v : W32) (q : Nat) : (s.setReg a v).gap q = s.gap q := by
  simp only [State.gap, setReg_power]

theorem atFloor_iff (s : State) : ((List.range 4).all fun q => s.setpoint q == 5 * s.rf aPwrCtl 0 8) = true
    ↔ ∀ q, q < 4 → s.setpoint q = 5 * s.rf aPwrCtl 0 8 := by
  simp only [List.all_eq_true, List.mem_range, beq_iff_eq]

theorem rb_flagged (s : State) (warm : Bool) : ((s.flagged warm).rb aPwrStatus 31 = true ↔ s.throttled)
    ∧ ((s.flagged warm).rb aPwrStatus 30 = true ↔ ∀ q, q < 4 → s.setpoint q = 5 * s.rf aPwrCtl 0 8)
    ∧ ((s.flagged warm).rb aPwrStatus 29 = warm) ∧ (s.flagged warm).rf aPwrStatus 0 16 = s.rf aPwrStatus 0 16 := by
  have hgap : ∀ q, (s.floorBit.setB aPwrStatus 29 warm).gap q = s.gap q := fun q => by
    simp only [State.floorBit, setB_eq, gap_setReg]
  have hreg : (s.flagged warm).reg aPwrStatus = rputBit (rputBit (rputBit (s.reg aPwrStatus) 30
      ((List.range 4).all fun q => s.setpoint q == 5 * s.rf aPwrCtl 0 8)) 29 warm) 31
      ((List.range 4).any fun q => decide (0 < s.gap q)) := by
    simp only [State.flagged, State.throttleBit, hgap]
    simp only [State.floorBit, reg_setB, if_true]
  refine ⟨?_, ?_, ?_, ?_⟩
  · rw [State.rb, hreg, rbit_rputBit _ _ (by decide), if_pos rfl, throttled_iff]
  · rw [State.rb, hreg, rbit_rputBit _ _ (by decide), if_neg (by decide), rbit_rputBit _ _ (by decide), if_neg (by decide),
      rbit_rputBit _ _ (by decide), if_pos rfl, atFloor_iff]
  · rw [State.rb, hreg, rbit_rputBit _ _ (by decide), if_neg (by decide), rbit_rputBit _ _ (by decide), if_pos rfl]
  · rw [State.rf, hreg, rfld_rputBit_other _ _ (by decide) (by decide), rfld_rputBit_other _ _ (by decide) (by decide),
      rfld_rputBit_other _ _ (by decide) (by decide), State.rf]

theorem exec_powerManagerPass (m : PowerSample) : exec (.powerManagerPass m) s = execPowerManagerPass m s := rfl

/-- In BOOT and RECOVERY a pass only measures (R68). -/
theorem exec_powerManagerPass_measures {m : PowerSample} (h : s.devState = stBoot ∨ s.devState = stRecovery) :
    exec (.powerManagerPass m) s = .next (s.livePower m) := by
  have hfw : s.fwRuns = false := by rcases h with h | h <;> simp [State.fwRuns, h, stBoot, stRecovery, stTraining, stMaint]
  have hst : ¬ (s.devState = stReset ∨ s.devState = stHalted) := by
    rcases h with h | h <;> simp [h, stBoot, stRecovery, stReset, stHalted]
  rw [exec_powerManagerPass, execPowerManagerPass, if_neg (by simpa using hst), if_pos (by simp [hfw])]

theorem exec_powerManagerPass_fwRuns {m : PowerSample} (h : s.fwRuns = true) :
    exec (.powerManagerPass m) s = .next (((s.passed m).livePower m).flagged (anyAbove90 m)) := by
  have hst : ¬ (s.devState = stReset ∨ s.devState = stHalted) := by
    have hrange := fwRuns_iff.mp h
    simp only [stTraining, stMaint] at hrange
    simp only [stReset, stHalted]
    omega
  rw [exec_powerManagerPass, execPowerManagerPass, if_neg (by simpa using hst), if_neg (by simp [h])]
  rfl

theorem anyAbove90_iff (m : PowerSample) : (anyAbove90 m) = true ↔ ∃ j ∈ junctions m, 90 < j := by
  simp [anyAbove90, junctions, or_assoc]

/-- What the live fields and the flags leave of state u, whose pass is over (R67, R68). -/
theorem shows_flagged {u t : State} {m : PowerSample} (ht : (u.livePower m).flagged (anyAbove90 m) = t) :
    t = { u with regs := t.regs } ∧ ShowsPower t m ∧ (t.rb aPwrStatus 31 = true ↔ t.throttled)
      ∧ (t.rb aPwrStatus 30 = true ↔ ∀ q, q < 4 → t.setpoint q = 5 * u.rf aPwrCtl 0 8)
      ∧ (t.rb aPwrStatus 29 = true ↔ ∃ j ∈ junctions m, 90 < j) ∧ ∀ a, a ∉ liveRegs → t.reg a = u.reg a := by
  have hlive := livePower_regsOnly u m
  have hflag := flagged_regsOnly (u.livePower m) (anyAbove90 m)
  obtain ⟨hthrottle, hfloor, hwarm, hlow⟩ := rb_flagged (u.livePower m) (anyAbove90 m)
  rw [ht] at hflag hthrottle hfloor hwarm hlow
  have hpower := hflag.power
  have hpower' := hlive.power
  have hctl : (u.livePower m).reg aPwrCtl = u.reg aPwrCtl := hlive.2 _ (by decide)
  have hsub : [aPwrStatus] ⊆ liveRegs := by simp [liveRegs]
  obtain ⟨hframe, hreg⟩ := hlive.trans (hflag.mono hsub)
  refine ⟨hframe, ?_, ?_, ?_, ?_, hreg⟩
  · refine showsPower_of_livePower (s := u) (hpower.trans hpower') hlow fun q hq => hflag.2 _ ?_
    simp only [List.mem_singleton, aPace, aPwrStatus]
    omega
  · simp only [hthrottle, State.throttled, hpower]
  · simp only [hfloor, State.setpoint, State.rf, hctl, hpower]
  · rw [hwarm, anyAbove90_iff]

/-- A pass with the firmware running (R60–R68). -/
theorem runs_powerManagerPass {m : PowerSample} (h : s.fwRuns = true) : Runs (.powerManagerPass m) s fun t =>
    t = { s with regs := t.regs, power := (s.passed m).power } ∧ ShowsPower t m ∧ (t.rb aPwrStatus 31 = true ↔ t.throttled)
      ∧ (t.rb aPwrStatus 30 = true ↔ ∀ q, q < 4 → t.setpoint q = 5 * s.rf aPwrCtl 0 8)
      ∧ (t.rb aPwrStatus 29 = true ↔ ∃ j ∈ junctions m, 90 < j) ∧ ∀ a, a ∉ liveRegs → t.reg a = s.reg a := by
  obtain ⟨t, ht⟩ : ∃ t, ((s.passed m).livePower m).flagged (anyAbove90 m) = t := ⟨_, rfl⟩
  refine ⟨t, by rw [exec_powerManagerPass_fwRuns h, ht], ?_⟩
  have hp := (passed_frame s m).1
  generalize s.passed m = u at ht hp
  obtain ⟨w, rfl⟩ : ∃ w, u = { s with power := w } := ⟨_, hp⟩
  exact shows_flagged ht

theorem exec_fastGuardTrip (q : Fin 4) (amps gap : Nat) : exec (.fastGuardTrip q amps gap) s = execFastGuardTrip q amps gap s := rfl

theorem exec_fastGuardRelease (q : Fin 4) (amps : Nat) : exec (.fastGuardRelease q amps) s = execFastGuardRelease q amps s := rfl

/-- THROTTLE follows the gaps of a new setting of the power manager or a guard (R67). -/
theorem throttleBit_of_power (s : State) (p : Power) : ∃ t, ({ s with power := p } : State).throttleBit = t
    ∧ t = { s with regs := t.regs, power := p } ∧ (t.rb aPwrStatus 31 = true ↔ t.throttled) ∧ ∀ a, a ≠ aPwrStatus → t.reg a = s.reg a := by
  obtain ⟨hr, hbit, -⟩ := throttleBit_spec { s with power := p }
  refine ⟨_, rfl, hr.1, ?_, fun a ha => hr.2 a (by simpa using ha)⟩
  rw [hbit, State.throttled, State.throttled, hr.power]

/-- A fast guard's trip gaps its quadrant and shows THROTTLE (R63, R67). -/
theorem runs_fastGuardTrip {amps gap : Nat} (q : Fin 4) (h : 400 < amps) : Runs (.fastGuardTrip q amps gap) s fun t => t = { s with
      regs := t.regs, power := { s.power with guardGap := SMap.set s.power.guardGap 0 q.val (min (max gap 1) 63) } }
    ∧ t.rb aPwrStatus 31 = true ∧ ∀ a, a ≠ aPwrStatus → t.reg a = s.reg a := by
  obtain ⟨t, ht, hframe, hbit, hreg⟩ := throttleBit_of_power s
    { s.power with guardGap := SMap.set s.power.guardGap 0 q.val (min (max gap 1) 63) }
  refine ⟨t, ?_, hframe, hbit.mpr ⟨q.val, q.isLt, .inr (.inr ?_)⟩, hreg⟩
  · rw [exec_fastGuardTrip, execFastGuardTrip, if_neg (by omega), ht]
  · rw [hframe]
    simp only [SMap.get_set, if_true]
    omega

/-- A fast guard releases its gap (R63, R67). -/
theorem runs_fastGuardRelease {amps : Nat} (q : Fin 4) (h : amps < 380) : Runs (.fastGuardRelease q amps) s fun t =>
    t = { s with regs := t.regs, power := t.power }
    ∧ (∀ p, SMap.get t.power.guardGap 0 p = if p = q.val then 0 else SMap.get s.power.guardGap 0 p)
    ∧ (t.rb aPwrStatus 31 = true ↔ t.throttled) ∧ ∀ a, a ≠ aPwrStatus → t.reg a = s.reg a := by
  obtain ⟨t, ht, hframe, hbit, hreg⟩ := throttleBit_of_power s { s.power with guardGap := SMap.erase s.power.guardGap q.val }
  have hpower := congrArg State.power hframe
  refine ⟨t, ?_, ?_, fun p => ?_, hbit, hreg⟩
  · rw [exec_fastGuardRelease, execFastGuardRelease, if_neg (by omega), ht]
  · rw [hpower]; exact hframe
  · rw [hpower]; exact SMap.get_erase ..

end Sys2Proof.Machine
end

section
namespace Sys2Proof.Machine

/-! ## Reports, the TAP, I3C reads and the lifetime store -/

variable {s t : State}

/-! ### Reports (R888) -/

/-- A record with the same class, origin and OPEN. -/
def ErrRec.Like (e f : ErrRec) : Prop := f.cls = e.cls ∧ f.origin = e.origin ∧ f.isOpen = e.isOpen

theorem followRoot_keeps {rs : List ErrRec} {e : ErrRec} (cl : Nat) (h : e ∈ rs) : ∃ f ∈ followRoot rs cl, e.Like f := by
  unfold followRoot
  split
  · exact ⟨e, h, rfl, rfl, rfl⟩
  · refine ⟨_, List.mem_map_of_mem h, ?_⟩
    split <;> exact ⟨rfl, rfl, rfl⟩

theorem ite_bump_frame (b : Bool) (x : State) (a c : Nat) (v : W32) :
    (if b then (x.setReg a v).bump c else x) = { x with regs := (if b then (x.setReg a v).bump c else x).regs } := by
  cases b <;> rfl

/-- A report stands in the log as a record that is OPEN, and changes nothing but the log, its registers and the count of draws. -/
theorem report_spec (s : State) (r : ErrReport) : Reported (s.report r) r.cls r.origin
    ∧ s.report r = { s with draws := s.draws + 1, regs := (s.report r).regs, errs := (s.report r).errs } := by
  unfold State.report
  dsimp only [State.draw]
  split
  case h_1 e he =>
    have hmem := List.mem_of_find?_eq_some he
    have hkey := List.find?_some he
    simp only [Bool.and_eq_true, beq_iff_eq] at hkey
    obtain ⟨⟨hopen, horigin⟩, hcls⟩ := hkey
    refine ⟨?_, rfl⟩
    obtain ⟨f, hf, hfcls, hforigin, hfopen⟩ := followRoot_keeps e.cluster (List.mem_map_of_mem hmem)
    refine ⟨f, hf, ?_, ?_, ?_⟩
    all_goals simp [*]
  case h_2 =>
    refine ⟨?_, ?_⟩
    · obtain ⟨f, hf, hfcls, hforigin, hfopen⟩ := followRoot_keeps _ (List.mem_append_right _ (List.mem_singleton_self _))
      exact ⟨f, hf, hfcls, hforigin, hfopen⟩
    · rw [ite_bump_frame]
      rfl

theorem exec_junctionOverLimit (u : Nat) (hot : Bool) : exec (.junctionOverLimit u hot) s = execJunctionOverLimit u hot s := rfl

theorem exec_refclkLoss : exec .refclkLoss s = execRefclkLoss s := rfl

/-- A junction above 95 °C is among the causes of ALERT_N, and reported (R70). -/
theorem runs_junctionOverLimit (u : Nat) : Runs (.junctionOverLimit u true) s fun t => u ∈ t.pins.overLimit ∧ Reported t clsThermal u
    ∧ t.mem = s.mem ∧ t.tasks = s.tasks ∧ t.cores = s.cores := by
  obtain ⟨hrep, hframe⟩ := report_spec { s with pins := { s.pins with overLimit := u :: s.pins.overLimit.filter (· != u) } }
    { cls := clsThermal, origin := u, reporter := u }
  refine ⟨_, exec_junctionOverLimit .., ?_, hrep, ?_⟩
  · rw [hframe]; exact List.mem_cons_self
  · rw [hframe]; exact ⟨rfl, rfl, rfl⟩

/-- The loss of REFCLK is noted, and reported (R47). -/
theorem runs_refclkLoss (h : s.port.refclkLost = false) : Runs .refclkLoss s fun t => t.port.refclkLost = true ∧ Reported t clsTimebase 0x0595
    ∧ t.mem = s.mem ∧ t.tasks = s.tasks ∧ t.tick = s.tick := by
  obtain ⟨hrep, hframe⟩ := report_spec { s with port := { s.port with refclkLost := true } }
    { cls := clsTimebase, origin := 0x0595, reporter := 0x0595 }
  refine ⟨_, by rw [exec_refclkLoss, execRefclkLoss, if_neg (by simp [h])], ?_, hrep, ?_⟩
  · rw [hframe]
  · rw [hframe]; exact ⟨rfl, rfl, rfl⟩

/-! ### The TAP (R45, R932) -/

/-- The state with an instruction in the TAP, its controller parked, and the boundary cells updated on the way (R45). -/
def State.parked (s : State) (ir : Nat) (park : TapState) : State :=
  { s with pins := { s.pins with tapIr := ir, tap := park, boundary := s.cells } }

theorem leavePark_eq (s : State) : s.leavePark = { s with pins := { s.pins with boundary := s.cells } } := by
  unfold State.leavePark State.cells scansBoundary
  by_cases h : (s.pins.tap = .shiftDr ∨ s.pins.tap = .pauseDr) ∧ s.pins.tapIr ∈ [0x00, 0x02, 0x06, 0x07]
  · rw [if_pos h, if_pos (by simpa using h)]
  · rw [if_neg h, if_neg (by simpa using h)]

theorem tapLoad_leavePark (s : State) {code : Nat} {park : TapState} (h : park ≠ .testLogicReset) :
    s.leavePark.tapLoad code park = s.parked code park := by
  rw [leavePark_eq, State.tapLoad, if_neg h]
  rfl

theorem tapQuiet_unpowered (h : s.tapPowered = false) (code : Nat) (park : TapState) : s.tapQuiet code park = s := by
  simp [State.tapQuiet, h]

theorem tapQuiet_powered (h : s.tapPowered = true) {code : Nat} {park : TapState} (hp : park ≠ .testLogicReset) :
    s.tapQuiet code park = s.parked code park := by
  simp [State.tapQuiet, h, hp, tapLoad_leavePark]

theorem tapQuiet_reset (h : s.tapPowered = true) (code : Nat) : s.tapQuiet code .testLogicReset = s.leavePark.tapReset := by
  simp [State.tapQuiet, h]

theorem tapPowered_iff : s.tapPowered = true ↔ s.pins.vaux = true ∧ s.pins.pwrGood = true := Bool.and_eq_true_iff

/-- Under SAMPLE/PRELOAD the lands do as without boundary scan. -/
theorem drive_sample (park : TapState) (g : LandGroup) : (s.parked 0x02 park).drive g = (s.parked 0x02 park).landUse g := by
  have h : (s.parked 0x02 park).tapDrives = false := by simp [State.tapDrives, State.parked]
  simp [State.drive, h]

/-- Of the lands, TDO alone follows the controller's state. -/
theorem landUse_parked (ir : Nat) (p q : TapState) {g : LandGroup} (h : g ≠ .tdo) :
    (s.parked ir p).landUse g = (s.parked ir q).landUse g := by
  cases g
  case tdo => exact absurd rfl h
  all_goals rfl

theorem signalGroup_ne_tdo (g : Signal) : signalGroup g ≠ some .tdo := by
  unfold signalGroup
  split <;> simp

theorem heldLevel_sample (p q : TapState) (g : Signal) : (s.parked 0x02 p).heldLevel g = (s.parked 0x02 q).heldLevel g := by
  have h : (signalGroup g).map (s.parked 0x02 p).drive = (signalGroup g).map (s.parked 0x02 q).drive := by
    have hg := signalGroup_ne_tdo g
    cases e : signalGroup g with
    | none => rfl
    | some x => simp only [Option.map_some, drive_sample, landUse_parked 0x02 p q (fun hx => hg (e.trans (congrArg some hx)))]
  unfold State.heldLevel
  split
  case h_4 => rw [h]; rfl
  all_goals rfl

theorem capture_sample (p q : TapState) (l : List (Signal × Bool)) : (s.parked 0x02 p).capture l = (s.parked 0x02 q).capture l := by
  simp only [State.capture, heldLevel_sample p q]
  rfl

theorem captures_capture (v : State) (l : BoundaryScan) : Captures v l (v.capture l.levels) := by
  refine ⟨by simp [State.capture, Function.comp_def], fun e he => ?_⟩
  simp only [State.capture, List.mem_map] at he
  obtain ⟨g, -, rfl⟩ := he
  exact ⟨fun b hb => by simp [hb], fun hn b hb => by simp [hn, hb]⟩

/-- The shift stage holds a level of every signal land: from TDI where the command gives it. -/
theorem shiftedIn_spec (v : State) (tdi : List (Signal × Bool)) : (v.shiftedIn tdi).map (·.1) = signalLands
    ∧ ∀ g b, levelIn tdi g = some b → g ∈ signalLands → (g, b) ∈ v.shiftedIn tdi := by
  refine ⟨by simp [State.shiftedIn, Function.comp_def], fun g b hb hg => ?_⟩
  exact List.mem_map.mpr ⟨g, hg, by simp [hb]⟩

end Sys2Proof.Machine
end

section
namespace Sys2Proof.Machine

variable {s t : State}

theorem exec_idcode (park : TapState) : exec (.idcode park) s = execIdcode park s := rfl

theorem exec_samplePreload (l : BoundaryScan) (park : TapState) : exec (.samplePreload l park) s = execSamplePreload l park s := rfl

theorem exec_bypass (park : TapState) : exec (.bypass park) s = execBypass park s := rfl

theorem exec_testLogicReset : exec .testLogicReset s = execTestLogicReset s := rfl

theorem exec_tap_unpowered (h : s.tapPowered = false) (l : BoundaryScan) (park : TapState) :
    exec (.idcode park) s = .next s ∧ exec (.samplePreload l park) s = .next s ∧ exec (.bypass park) s = .next s := by
  refine ⟨?_, ?_, ?_⟩
  · simp [exec_idcode, execIdcode, h, tapQuiet_unpowered]
  · simp [exec_samplePreload, execSamplePreload, h, tapQuiet_unpowered]
  · simp [exec_bypass, execBypass, h, tapQuiet_unpowered]

/-- Parked in Test-Logic-Reset, IDCODE and BYPASS are a reset of the TAP. -/
theorem exec_tap_reset (h : s.tapPowered = true) : exec (.idcode .testLogicReset) s = exec .testLogicReset s
    ∧ exec (.bypass .testLogicReset) s = exec .testLogicReset s := by
  refine ⟨?_, ?_⟩
  · simp [exec_idcode, execIdcode, exec_testLogicReset, execTestLogicReset, h, tapQuiet_reset]
  · simp [exec_bypass, execBypass, exec_testLogicReset, execTestLogicReset, h, tapQuiet_reset]

theorem exec_idcode_powered (h : s.tapPowered = true) {park : TapState} (hp : park ≠ .testLogicReset) : exec (.idcode park) s
    = .next { s.parked 0x01 park with tx := if park = .shiftDr then s.tx ++ [.tdo 0x19009A6B] else s.tx } := by
  rw [exec_idcode, execIdcode, tapQuiet_powered h hp]
  by_cases hs : park = .shiftDr
  · subst hs; simp [h, State.emit, State.parked]
  · simp [hs, State.parked]

theorem exec_bypass_powered (h : s.tapPowered = true) {park : TapState} (hp : park ≠ .testLogicReset) :
    exec (.bypass park) s = .next (s.parked 0xFF park) := by
  rw [exec_bypass, execBypass, tapQuiet_powered h hp]

/-- SAMPLE/PRELOAD captures every signal land; where the capture stands depends on where the controller is parked (R45). -/
theorem exec_samplePreload_powered (h : s.tapPowered = true) (l : BoundaryScan) {park : TapState} (hp : park ≠ .testLogicReset) :
    let v := s.parked 0x02 park
    let c := v.capture l.levels
    exec (.samplePreload l park) s = .next (
      if park = .shiftDr then
        { v with pins := { v.pins with shift := v.shiftedIn l.tdi }, draws := s.draws + 2, tx := s.tx ++ [.scan c] }
      else if park = .pauseDr then { v with pins := { v.pins with shift := c }, draws := s.draws + 1 }
      else { v with pins := { v.pins with boundary := c }, draws := s.draws + 1 }) := by
  intro v c
  rw [exec_samplePreload, execSamplePreload, tapQuiet_powered h hp]
  by_cases h1 : park = .shiftDr
  · subst h1; simp [h, State.scanDr, State.emit, v, c, State.parked]
  · by_cases h2 : park = .pauseDr
    · subst h2; simp [h, State.scanDr, v, c, State.parked]
    · rw [tapLoad_leavePark s (by decide : TapState.runTestIdle ≠ .testLogicReset), capture_sample .runTestIdle park]
      simp [h, h1, h2, v, c, State.parked]

/-! ### Reads over I3C and sampled pairs (R943, R948, R949) -/

/-- Registers that are read as they are held. -/
theorem readReg_held : ∀ a ∈ [aDevId, aDevCtl, aDevStatus, aPwrStatus], s.readReg .i3c a = (s.reg a, s) := by
  simp only [List.forall_mem_cons, List.not_mem_nil, false_imp_iff, implies_true, and_true]
  refine ⟨?_, ?_, ?_, ?_⟩
  all_goals rfl

theorem exec_i3cRegisterRead (d : I3cDest) (wr : List Byte) : exec (.i3cRegisterRead d wr) s = execI3cRegisterRead d wr s := rfl

/-- A read that the device answers. -/
theorem exec_i3cRegisterRead_hears {d : I3cDest} {wr : List Byte} (h : s.pins.vaux = true ∧ (∀ n, d = .static n → n = 0x58 + s.pins.straps.toNat)
    ∧ wr.length = 3) : exec (.i3cRegisterRead d wr) s = .next (s.i3cRead (leNat wr)) := by
  obtain ⟨hv, hd, hl⟩ := h
  rw [exec_i3cRegisterRead, execI3cRegisterRead, if_pos (by simp [(i3cAnswers_iff d).mpr ⟨hv, hd⟩, hl])]

theorem exec_i3cRegisterRead_deaf {d : I3cDest} {wr : List Byte} (h : ¬ (s.pins.vaux = true
    ∧ (∀ n, d = .static n → n = 0x58 + s.pins.straps.toNat) ∧ wr.length = 3)) : exec (.i3cRegisterRead d wr) s = .next s := by
  rw [exec_i3cRegisterRead, execI3cRegisterRead, if_neg]
  rw [Bool.and_eq_true, beq_iff_eq, i3cAnswers_iff]
  exact fun ⟨⟨hv, hd⟩, hl⟩ => h ⟨hv, hd, hl⟩

theorem mainRail_iff (a : Nat) : mainRail a = true ↔ a = aErr 0x008 ∨ a = aPwrStatus ∨ (aPace 0 ≤ a ∧ a ≤ aPace 3) := by
  simp [mainRail, or_assoc]

/-- Outside its registers, and of a unit without supply, a read gives 0. -/
theorem i3cRead_zero {a : Nat} (h : i3cReads a = false ∨ (mainRail a = true ∧ s.pins.pwrGood = false)) :
    s.i3cRead a = { s with tx := s.tx ++ [.i3c [0, 0, 0, 0]] } := by
  rw [State.i3cRead, if_neg]
  · rfl
  · rcases h with h | ⟨hm, hp⟩ <;> simp [*]

theorem i3cRead_held {a : Nat} (h : a = aDevId ∨ a = aDevCtl ∨ a = aDevStatus ∨ (a = aPwrStatus ∧ s.pins.pwrGood = true)) :
    s.i3cRead a = { s with tx := s.tx ++ [.i3c (natLe 4 (s.reg a).toNat)] } := by
  have hread : s.readReg .i3c a = (s.reg a, s) := readReg_held a (by simp only [List.mem_cons]; tauto)
  have hpass : (i3cReads a && (s.pins.pwrGood || !mainRail a)) = true := by
    rcases h with rfl | rfl | rfl | ⟨rfl, hp⟩
    · rw [show mainRail aDevId = false by decide, show i3cReads aDevId = true by decide]; simp
    · rw [show mainRail aDevCtl = false by decide, show i3cReads aDevCtl = true by decide]; simp
    · rw [show mainRail aDevStatus = false by decide, show i3cReads aDevStatus = true by decide]; simp
    · rw [hp, show i3cReads aPwrStatus = true by decide]; simp
  rw [State.i3cRead, if_pos hpass, hread]
  rfl

theorem exec_sampledPairRead (w : Who) (a : Nat) : exec (.sampledPairRead w a) s = execSampledPairRead w a s := rfl

theorem exec_sampledPairRead_sess {k : Fin 8} {a v : Nat} (h : s.sampledValue a = some v) : exec (.sampledPairRead (.sess k) a) s
    = .next (if (s.ses k.val).isOpen then s.setSes k.val { s.ses k.val with samples := SMap.put (s.ses k.val).samples a v } else s) := by
  have hread : (s.readReg (.sess k) a).2 = s.setSample (.sess k) a v := by simp only [State.readReg, h]
  simp only [exec_sampledPairRead, execSampledPairRead, h, hread]
  rfl

theorem runs_sampledPairRead {k : Fin 8} {a v : Nat} (h : s.sampledValue a = some v) (ho : (s.ses k.val).isOpen = true) :
    Runs (.sampledPairRead (.sess k) a) s fun t => t = { s with sess := t.sess }
      ∧ t.ses k.val = { s.ses k.val with samples := (t.ses k.val).samples } ∧ SMap.get (t.ses k.val).samples 0 a = v
      ∧ ∀ i, i ≠ k.val → t.ses i = s.ses i := by
  refine ⟨_, by rw [exec_sampledPairRead_sess h, if_pos ho], rfl, ?_, ?_, fun i hi => ?_⟩
  · simp only [ses_setSes_self]
  · simp only [ses_setSes_self, SMap.get_put, if_true]
  · rw [ses_setSes, if_neg hi]

/-! ### The lifetime store (R898, R899) -/

/-- n added to the count of key k. -/
def addCount (m : SMap Nat) (k n : Nat) : SMap Nat := SMap.set m 0 k (SMap.get m 0 k + n)

theorem get_addCount (m : SMap Nat) (k n j : Nat) : SMap.get (addCount m k n) 0 j = SMap.get m 0 j + if j = k then n else 0 := by
  rw [addCount, SMap.get_set]
  split
  case isTrue h => rw [h]
  case isFalse => rfl

/-- Counts of 1 for each key of a list. -/
theorem get_foldl_addCount (l : List Nat) (m : SMap Nat) (j : Nat) :
    SMap.get (l.foldl (fun m k => addCount m k 1) m) 0 j = SMap.get m 0 j + l.count j := by
  induction l generalizing m with
  | nil => rfl
  | cons k l ih =>
    rw [List.foldl_cons, ih, get_addCount, List.count_cons]
    by_cases h : j = k
    · simp [h]; omega
    · simp [h, Ne.symm h]

theorem wf_foldl_addCount (l : List Nat) (m : SMap Nat) (h : SMap.wf (fun _ => 0) m = true) :
    SMap.wf (fun _ => 0) (l.foldl (fun m k => addCount m k 1) m) = true := by
  induction l generalizing m with
  | nil => exact h
  | cons k l ih => exact ih _ (SMap.wf_set (fun _ => 0) m k _ h)

theorem get_cons (e : Nat × Nat) (l : SMap Nat) (j : Nat) : SMap.get (e :: l) 0 j = if e.1 = j then e.2 else SMap.get l 0 j := by
  simp only [SMap.get, List.find?_cons]
  by_cases h : e.1 = j
  · simp [h]
  · rw [if_neg h, (beq_eq_false_iff_ne).mpr h]

theorem get_eq_zero {l : SMap Nat} {j : Nat} (h : ∀ e ∈ l, j < e.1) : SMap.get l 0 j = 0 := by
  have hn : l.find? (fun e => e.1 == j) = none := List.find?_eq_none.mpr fun e he => by
    have := h e he
    simp only [beq_iff_eq]
    omega
  simp [SMap.get, hn]

/-- The counts of a canonical map added to another, entry by entry. -/
theorem get_foldl_entries {l : SMap Nat} (hl : l.Pairwise fun a b => a.1 < b.1) (m : SMap Nat) (j : Nat) :
    SMap.get (l.foldl (fun m e => addCount m e.1 e.2) m) 0 j = SMap.get m 0 j + SMap.get l 0 j := by
  induction l generalizing m with
  | nil => rfl
  | cons e l ih =>
    obtain ⟨hlt, hl⟩ := List.pairwise_cons.mp hl
    rw [List.foldl_cons, ih hl, get_addCount, get_cons]
    by_cases h : e.1 = j
    · subst h; simp [get_eq_zero hlt]
    · simp [h, Ne.symm h]

/-- The counts that a second adds for quadrant q (R898): its junction temperature, its supply voltage and its pace. -/
def State.quadKeys (s : State) (q : Nat) : List Nat :=
  let tj := max 0 (min 165 (sext 8 (s.rf (aPace q) 24 8) + 40))
  [256 * q + tj.toNat, 65536 + 64 * q + min 60 (s.rf (aPace q) 16 8 - 110), 131072 + 128 * q + min (s.rf (aPace q) 0 16 / 20) 127]

/-- The state with other counts since the last second's pass. -/
def State.withSec (s : State) (m : SMap Nat) : State := { s with smd := { s.smd with lifeSec := m } }

theorem lifeAdd_eq (s : State) (set i n : Nat) : s.lifeAdd set i n = s.withSec (addCount s.smd.lifeSec (65536 * set + i) n) := rfl

theorem lifeQuad_eq (s : State) (q : Nat) :
    s.lifeQuad q = s.withSec ((s.quadKeys q).foldl (fun m k => addCount m k 1) s.smd.lifeSec) := by
  simp only [State.lifeQuad, lifeAdd_eq, State.quadKeys, List.foldl_cons, List.foldl_nil, Nat.mul_zero, Nat.zero_add, Nat.mul_one,
    State.rf, Nat.add_assoc, show 65536 * 2 = 131072 from rfl]
  rfl

theorem foldl_lifeQuad (l : List Nat) (s : State) :
    l.foldl State.lifeQuad s = s.withSec ((l.flatMap s.quadKeys).foldl (fun m k => addCount m k 1) s.smd.lifeSec) := by
  induction l generalizing s with
  | nil => rfl
  | cons q l ih =>
    rw [List.foldl_cons, ih, lifeQuad_eq, List.flatMap_cons, List.foldl_append]
    rfl

theorem exec_lifetimeAccumulate : exec .lifetimeAccumulate s = execLifetimeAccumulate s := rfl

theorem exec_lifetimeMramWrite : exec .lifetimeMramWrite s = execLifetimeMramWrite s := rfl

/-- The keys that a second counts: the quadrants' while the main rails are up, and power-on seconds (R899). -/
def State.secondKeys (s : State) : List Nat := (if s.pins.pwrGood then (List.range 4).flatMap s.quadKeys else []) ++ [65536 * 7]

theorem lifeAdd_withSec (s : State) (m : SMap Nat) (set i n : Nat) :
    (s.withSec m).lifeAdd set i n = s.withSec (addCount m (65536 * set + i) n) := rfl

theorem second_eq (s : State) : (if s.pins.pwrGood then (List.range 4).foldl State.lifeQuad s else s).lifeAdd 0x7 0 1
    = s.withSec (s.secondKeys.foldl (fun m k => addCount m k 1) s.smd.lifeSec) := by
  simp only [State.secondKeys, foldl_lifeQuad, List.foldl_append, List.foldl_cons, List.foldl_nil]
  cases s.pins.pwrGood with
  | false => exact lifeAdd_eq s 0x7 0 1
  | true => exact lifeAdd_withSec s _ 0x7 0 1

/-- The counts of the last second's pass added to those since the last write of MRAM. -/
def State.endSecond (s : State) : State := { s with smd := { s.smd with
  lifeNew := s.smd.lifeSec.foldl (fun m e => addCount m e.1 e.2) s.smd.lifeNew, lifeSec := [] } }

theorem exec_lifetimeAccumulate_vaux (h : s.pins.vaux = true) : exec .lifetimeAccumulate s
    = .next (s.withSec (s.secondKeys.foldl (fun m k => addCount m k 1) s.smd.lifeSec)).endSecond := by
  rw [exec_lifetimeAccumulate, execLifetimeAccumulate, if_neg (by simp [h]), ← second_eq]
  rfl

/-- A second's counts (R898, R899). -/
theorem runs_lifetimeAccumulate (h : s.pins.vaux = true) : Runs .lifetimeAccumulate s fun t => t = { s with smd := t.smd } ∧ t.smd.lifeSec = []
    ∧ (s.smd.lifeSec = [] → ∀ k, SMap.get t.smd.lifeNew 0 k = SMap.get s.smd.lifeNew 0 k
        + (if s.pins.pwrGood then ((List.range 4).flatMap s.quadKeys).count k else 0) + if k = 65536 * 7 then 1 else 0) := by
  refine ⟨_, exec_lifetimeAccumulate_vaux h, rfl, rfl, fun he k => ?_⟩
  have hwf : SMap.wf (fun _ => 0) (s.secondKeys.foldl (fun m k => addCount m k 1) []) = true := wf_foldl_addCount _ _ rfl
  simp only [SMap.wf, Bool.and_eq_true, decide_eq_true_eq] at hwf
  have hcount : s.secondKeys.count k = (if s.pins.pwrGood then ((List.range 4).flatMap s.quadKeys).count k else 0)
      + if k = 65536 * 7 then 1 else 0 := by
    rw [State.secondKeys, List.count_append, List.count_singleton, apply_ite (List.count k), List.count_nil]
    simp only [beq_iff_eq, eq_comm (a := 65536 * 7)]
  simp only [State.endSecond, State.withSec, he]
  rw [get_foldl_entries hwf.1, get_foldl_addCount, hcount, show SMap.get ([] : SMap Nat) 0 k = 0 from rfl, Nat.zero_add, Nat.add_assoc]

/-- The counts so far are written to MRAM (R899). -/
theorem runs_lifetimeMramWrite (h : s.pins.vaux = true) : Runs .lifetimeMramWrite s fun t => t = { s with smd := t.smd } ∧ t.smd.lifeNew = []
    ∧ ∀ k n, s.smd.lifeNew = [(k, n)] → SMap.get t.smd.life 0 k = min (SMap.get s.smd.life 0 k + n) (2 ^ 64 - 1) := by
  refine ⟨s.lifeFlush, by rw [exec_lifetimeMramWrite, execLifetimeMramWrite, if_pos h], rfl, rfl, fun k n he => ?_⟩
  have hlife : s.lifeFlush.smd.life = SMap.set s.smd.life 0 k (min (SMap.get s.smd.life 0 k + n) (2 ^ 64 - 1)) := by
    rw [State.lifeFlush, he]
    rfl
  rw [hlife, SMap.get_set, if_pos rfl]

end Sys2Proof.Machine
end

section
namespace Sys2Proof.Machine

variable {s : State}

theorem exec_powerManagerPass_off {m : PowerSample} (h : s.devState = stReset ∨ s.devState = stHalted) :
    exec (.powerManagerPass m) s = .next s := by
  rw [exec_powerManagerPass, execPowerManagerPass, if_pos (by simpa using h)]

/-- A pass before the firmware runs (R68). -/
theorem runs_powerManagerPass_measures {m : PowerSample} (h : s.devState = stBoot ∨ s.devState = stRecovery) :
    Runs (.powerManagerPass m) s fun t => ShowsPower t m ∧ RegsOnly s t liveRegs ∧ t.rf aPwrStatus 16 16 = s.rf aPwrStatus 16 16 := by
  refine ⟨_, exec_powerManagerPass_measures h, ?_, livePower_regsOnly s m, ?_⟩
  · exact showsPower_of_livePower (livePower_regsOnly s m).power rfl fun _ _ => rfl
  · rw [State.rf, reg_livePower_status, rfld_rput_other _ _ (by decide) (by decide), State.rf]

theorem exec_fastGuardTrip_below {amps : Nat} (q : Fin 4) (gap : Nat) (h : amps ≤ 400) : exec (.fastGuardTrip q amps gap) s = .next s := by
  rw [exec_fastGuardTrip, execFastGuardTrip, if_pos h]

theorem exec_fastGuardRelease_above {amps : Nat} (q : Fin 4) (h : 380 ≤ amps) : exec (.fastGuardRelease q amps) s = .next s := by
  rw [exec_fastGuardRelease, execFastGuardRelease, if_pos h]

/-- Refreshes and retrainings change no state (R271–R276). -/
theorem exec_upkeep (st : Fin 8) (ch : Fin 16) (b : Nat) : exec (.hbmRefresh st b) s = .next s ∧ exec (.hbmPhyRetrain st) s = .next s
    ∧ exec (.glacierRefresh ch b) s = .next s ∧ exec (.dqsOscillatorTracking ch) s = .next s ∧ exec (.glacierRetrain ch) s = .next s :=
  ⟨rfl, rfl, rfl, rfl, rfl⟩

/-- SAMPLE/PRELOAD, where its capture and its shift stage stand (R45). -/
theorem samplePreload_captures (h : s.tapPowered = true) (l : BoundaryScan) {park : TapState} (hp : park ≠ .testLogicReset) :
    ∃ c, Captures (s.parked 0x02 park) l c ∧
      (park = .shiftDr → ∃ d, d.map (·.1) = signalLands ∧ (∀ g v, levelIn l.tdi g = some v → g ∈ signalLands → (g, v) ∈ d)
        ∧ exec (.samplePreload l park) s = .next { s.parked 0x02 park with
            pins := { (s.parked 0x02 park).pins with shift := d }, draws := s.draws + 2, tx := s.tx ++ [.scan c] })
      ∧ (park = .pauseDr → exec (.samplePreload l park) s
          = .next { s.parked 0x02 park with pins := { (s.parked 0x02 park).pins with shift := c }, draws := s.draws + 1 })
      ∧ (park ≠ .shiftDr → park ≠ .pauseDr → exec (.samplePreload l park) s
          = .next { s.parked 0x02 park with pins := { (s.parked 0x02 park).pins with boundary := c }, draws := s.draws + 1 }) := by
  have hexec := exec_samplePreload_powered h l hp
  obtain ⟨hlands, hlevels⟩ := shiftedIn_spec (s.parked 0x02 park) l.tdi
  refine ⟨_, captures_capture _ l, fun hs => ⟨_, hlands, hlevels, ?_⟩, fun hs => ?_, fun hs hs' => ?_⟩
  · rw [hexec, if_pos hs]
  · rw [hexec, if_neg (by simp [hs]), if_pos hs]
  · rw [hexec, if_neg hs, if_neg hs']

/-- Settles O50: the pass, the guards, the pins, the reads and the lifetime store each by the lemma that says what its command leaves. -/
theorem powerPinsAndUpkeep : Obligations.PowerPinsAndUpkeep := by
  unfold Obligations.PowerPinsAndUpkeep
  intro s
  refine ⟨?pass, ?guard, ?junction, ?lost, runs_refclkLoss, rfl, ?tap, ?i3c, ?sampled, fun st ch b => exec_upkeep st ch b, ?down, ?life⟩
  case pass =>
    intro m tj live
    refine ⟨exec_powerManagerPass_off, runs_powerManagerPass_measures, fun hfw => ?_⟩
    obtain ⟨t, hexec, hframe, hlive, hthrottle, hfloor, hwarm, hreg⟩ := runs_powerManagerPass (m := m) hfw
    have hpower : t.power = (s.passed m).power := (congrArg State.power hframe :)
    have hset : ∀ q, t.setpoint q = (s.passed m).setpoint q := fun q => by rw [State.setpoint, hpower, State.setpoint]
    refine ⟨t, hexec, ?_, ?_, ?_, ?_, hlive, ?_, hthrottle, hfloor, hwarm, hreg⟩
    · rw [hpower]; exact hframe
    · rw [hpower]; exact (passed_frame s m).2
    · rw [hpower]; exact passed_common s m
    · intro q hq
      rw [hset, hpower]
      exact passed_quad s m hq
    · simp only [hset, hpower]
      exact passed_avs s m
  case guard =>
    intro q amps gap
    exact ⟨exec_fastGuardTrip_below q gap, runs_fastGuardTrip q, exec_fastGuardRelease_above q, runs_fastGuardRelease q⟩
  case junction => exact fun u => ⟨runs_junctionOverLimit u, rfl⟩
  case lost =>
    intro h
    rw [exec_refclkLoss, execRefclkLoss, if_pos h]
  case tap =>
    intro park l pads held
    refine ⟨fun h => ?_, fun h hp => ?_, ?_⟩
    · exact exec_tap_unpowered (Bool.eq_false_iff.mpr fun ht => h (tapPowered_iff.mp ht)) l park
    · have ht := tapPowered_iff.mpr h
      exact ⟨exec_idcode_powered ht hp, samplePreload_captures ht l hp, exec_bypass_powered ht hp⟩
    · rintro h rfl
      exact exec_tap_reset (tapPowered_iff.mpr h)
  case i3c =>
    intro d wr hears a rails
    refine ⟨exec_i3cRegisterRead_deaf, fun h hz => ?_, fun h ha => ?_⟩
    · rw [exec_i3cRegisterRead_hears h, i3cRead_zero (hz.imp_right (And.imp_left (mainRail_iff _).mpr))]
    · rw [exec_i3cRegisterRead_hears h, i3cRead_held ha]
  case sampled =>
    intro k a v h
    refine ⟨fun ho => ?_, runs_sampledPairRead h⟩
    rw [exec_sampledPairRead_sess h, if_neg (by simp [ho])]
  case down =>
    intro h
    refine ⟨?_, ?_⟩
    · rw [exec_lifetimeAccumulate, execLifetimeAccumulate, if_pos (by simp [h])]
    · rw [exec_lifetimeMramWrite, execLifetimeMramWrite, if_neg (by simp [h])]
  case life => exact fun h => ⟨runs_lifetimeAccumulate h, runs_lifetimeMramWrite h⟩

end Sys2Proof.Machine
end

section
namespace Sys2Proof.Machine

/-! ## Register writes with limits of their own -/

variable {s t u : State} {r : Req} {a : Nat} {v : W32}

/-! ### A row by what the register's write answers -/

/-- The state after a register write that answers x: a refusal is answered by a NAK. -/
def WRes.row (r : Req) (a : Nat) : WRes → State
  | .ok t => t
  | .pend t => t
  | .nak t n => t.nakReg r n a

@[simp] theorem WRes.row_ok : (WRes.ok t).row r a = t := rfl

@[simp] theorem WRes.row_pend : (WRes.pend t).row r a = t := rfl

@[simp] theorem WRes.row_nak {n : Nat} : (WRes.nak t n).row r a = t.nakReg r n a := rfl

theorem TakesWrite.regRow_eq (h : TakesWrite s r a v) (hi : regInfo a ≠ none) :
    s.regRow r a v = (s.writeReg r false false a v).row r a := by
  simp only [State.regRow, h.gate, ne_eq, not_true_eq_false, if_false, ctlWrite_quiet hi h.right h.quiet]
  cases s.writeReg r false false a v <;> rfl

/-- A session's gate is closed in RECOVERY, and over I3C few registers are written. -/
theorem TakesWrite.not_recovery (h : TakesWrite s r a v) (hi : i3cWrites a = false) : s.devState ≠ stRecovery := by
  intro hr
  have hg := h.gate
  cases hw : r.who with
  | i3c => simp [State.regGate, hw, hi] at hg
  | peer q => simp [State.regGate, hw] at hg
  | sess k =>
    simp only [State.regGate, hw, hr, if_true] at hg
    split at hg
    · cases hg
    · cases hg

/-- A bit of a register as a plain write would leave it. -/
theorem rbit_mixed {i : RegInfo} (hi : regInfo a = some i) (hc : i.w1c = 0) {n : Nat} (hn : n < 32) :
    rbit (s.mixed a v) n = if i.rw.testBit n then rbit v n else rbit (s.reg a) n := by
  simp only [State.mixed, hi, rbit, getLsbD_mixReg i _ hn, hc, Nat.zero_testBit, Bool.false_and, Bool.not_false, Bool.and_true]

/-! ### Seeds, shares and limits (R65, R290, R684, R729) -/

theorem writeReg_seed {n : Nat} (hn : n < 32) : regInfo (aDomeSeed n) ≠ none
    ∧ s.writeReg r false false (aDomeSeed n) v = .ok (s.wSeed n v) := by
  interval_cases n <;> exact ⟨Option.some_ne_none _, rfl⟩

theorem exec_domeSeedWrite (n : Fin 32) : exec (.domeSeedWrite r n v) s = .next (s.regRow r (aDomeSeed n.val) v) := rfl

theorem runs_domeSeedWrite (n : Fin 32) (h : TakesWrite s r (aDomeSeed n.val) v) : Runs (.domeSeedWrite r n v) s fun t =>
    RegsOnly s t [aDomeSeed n.val] ∧ t.reg (aDomeSeed n.val) = if v = 0 then 1 else v :=
  have hw := writeReg_seed (s := s) (r := r) (v := v) n.isLt
  ⟨s.wSeed n.val v, by rw [exec_domeSeedWrite, h.regRow hw.1 hw.2], regsOnly_setReg, reg_setReg_self ..⟩

theorem runs_pwrLimit (h : TakesWrite s r aPwrLimit v) : Runs (.registerWrite r aPwrLimit v) s fun t =>
    RegsOnly s t [aPwrLimit] ∧ (t.reg aPwrLimit).toNat = max 600 (min 1500 (rfld v 0 16)) := by
  refine ⟨_, by rw [exec_registerWrite, h.regRow (t := s.setReg aPwrLimit _) (Option.some_ne_none _) rfl], regsOnly_setReg, ?_⟩
  rw [reg_setReg_self, BitVec.toNat_ofNat]
  exact Nat.mod_eq_of_lt (by omega)

/-- The registers of shares, by class and by stream. -/
theorem writeReg_share {i : Nat} (hi : i < 8) (ha : a = aDisp (0x020 + 4 * i) ∨ a = aStrm (4 * i)) :
    regInfo a ≠ none ∧ s.writeReg r false false a v = .ok (s.wShare a v) := by
  rcases ha with rfl | rfl
  all_goals interval_cases i <;> exact ⟨Option.some_ne_none _, rfl⟩

theorem runs_share {i : Nat} (hi : i < 8) (ha : a = aDisp (0x020 + 4 * i) ∨ a = aStrm (4 * i)) (h : TakesWrite s r a v) :
    Runs (.registerWrite r a v) s fun t => RegsOnly s t [a] ∧ (t.reg a).toNat = max 1 (rfld v 0 8) := by
  obtain ⟨hinfo, hw⟩ := writeReg_share (s := s) (r := r) (v := v) hi ha
  refine ⟨s.wShare a v, by rw [exec_registerWrite, h.regRow hinfo hw], regsOnly_setReg, ?_⟩
  have hv : rfld v 0 8 < 2 ^ 8 := Nat.mod_lt _ (by decide)
  rw [State.wShare, reg_setReg_self, BitVec.toNat_ofNat]
  exact Nat.mod_eq_of_lt (by omega)

theorem writeReg_syncLimit : s.writeReg r false false (aSync 0x004) v
    = if s.anyLocked then .nak s nkBusy else .ok (s.setReg (aSync 0x004) (if v = 0 then 1 else v)) := rfl

theorem syncLimit_write (h : TakesWrite s r (aSync 0x004) v) :
    (s.anyLocked = true → exec (.registerWrite r (aSync 0x004) v) s = .next (s.nakReg r nkBusy (aSync 0x004)))
    ∧ (s.anyLocked = false → Runs (.registerWrite r (aSync 0x004) v) s fun t =>
        RegsOnly s t [aSync 0x004] ∧ t.reg (aSync 0x004) = if v = 0 then 1 else v) := by
  have hrow := h.regRow_eq (Option.some_ne_none _)
  rw [writeReg_syncLimit] at hrow
  refine ⟨fun hl => ?_, fun hl => ⟨_, ?_, regsOnly_setReg, reg_setReg_self ..⟩⟩
  · rw [exec_registerWrite, hrow, if_pos hl, WRes.row_nak]
  · rw [exec_registerWrite, hrow, if_neg (by simp [hl]), WRes.row_ok]

/-! ### Trace rings (R493, R730) -/

theorem ringOk_iff (n : Nat) : ringOk n = true ↔ n = 0 ∨ (7 ≤ n ∧ n ≤ 24) := by simp [ringOk]

theorem writeReg_dispTrace : s.writeReg r false false (aDisp 0x058) v = if !ringOk (rfld v 0 5) then .nak s nkMalformed
    else .ok ((s.setReg (aDisp 0x058) (v &&& 0xF01F)).setReg (aDisp 0x05C) 0) := rfl

theorem exec_dispTraceCfgWrite : exec (.dispTraceCfgWrite r v) s = .next (s.regRow r (aDisp 0x058) v) := rfl

/-- Two registers written one after the other. -/
theorem regsOnly_setReg_two {b : Nat} {w x : W32} (hab : a ≠ b) :
    RegsOnly s ((s.setReg a w).setReg b x) [a, b] ∧ ((s.setReg a w).setReg b x).reg a = w ∧ ((s.setReg a w).setReg b x).reg b = x := by
  refine ⟨((RegsOnly.refl s _).setReg (by simp) _).setReg (by simp) _, ?_, reg_setReg_self ..⟩
  rw [reg_setReg, if_neg hab, reg_setReg_self]

theorem dispTrace_write (h : TakesWrite s r (aDisp 0x058) v) :
    let ok : Prop := rfld v 0 5 = 0 ∨ (7 ≤ rfld v 0 5 ∧ rfld v 0 5 ≤ 24)
    (¬ ok → exec (.dispTraceCfgWrite r v) s = .next (s.nakReg r nkMalformed (aDisp 0x058)))
    ∧ (ok → Runs (.dispTraceCfgWrite r v) s fun t => RegsOnly s t [aDisp 0x058, aDisp 0x05C]
        ∧ t.reg (aDisp 0x058) = v &&& 0xF01F ∧ t.reg (aDisp 0x05C) = 0) := by
  have hrow := h.regRow_eq (Option.some_ne_none _)
  rw [writeReg_dispTrace] at hrow
  refine ⟨fun hok => ?_, fun hok => ⟨_, ?_, regsOnly_setReg_two (by decide)⟩⟩
  · rw [exec_dispTraceCfgWrite, hrow, if_pos (by simpa using mt (ringOk_iff _).mp hok), WRes.row_nak]
  · rw [exec_dispTraceCfgWrite, hrow, if_neg (by simpa using (ringOk_iff _).mpr hok), WRes.row_ok]

theorem writeReg_ctxTrace {c : Nat} (hc : c < 16) : regInfo (aCtx c 0x038) ≠ none ∧ s.writeReg r false false (aCtx c 0x038) v
    = if s.ctxLocked c then .nak s nkBusy else if !ringOk (rfld v 0 5) then .nak s nkMalformed
      else .ok ((s.setReg (aCtx c 0x038) (v &&& 0x1F)).setReg (aCtx c 0x03C) 0) := by
  interval_cases c <;> exact ⟨Option.some_ne_none _, rfl⟩

theorem exec_ctxPtraceCfgWrite (c : Fin 16) : exec (.ctxPtraceCfgWrite r c v) s = .next (s.regRow r (aCtx c.val 0x038) v) := rfl

theorem ctxTrace_write (c : Fin 16) (h : TakesWrite s r (aCtx c.val 0x038) v) :
    let ok : Prop := rfld v 0 5 = 0 ∨ (7 ≤ rfld v 0 5 ∧ rfld v 0 5 ≤ 24)
    (s.ctxLocked c.val = true → exec (.ctxPtraceCfgWrite r c v) s = .next (s.nakReg r nkBusy (aCtx c.val 0x038)))
    ∧ (s.ctxLocked c.val = false → ¬ ok → exec (.ctxPtraceCfgWrite r c v) s = .next (s.nakReg r nkMalformed (aCtx c.val 0x038)))
    ∧ (s.ctxLocked c.val = false → ok → Runs (.ctxPtraceCfgWrite r c v) s fun t => RegsOnly s t [aCtx c.val 0x038, aCtx c.val 0x03C]
        ∧ t.reg (aCtx c.val 0x038) = v &&& 0x1F ∧ t.reg (aCtx c.val 0x03C) = 0) := by
  obtain ⟨hinfo, hw⟩ := writeReg_ctxTrace (s := s) (r := r) (v := v) c.isLt
  have hrow := h.regRow_eq hinfo
  rw [hw] at hrow
  refine ⟨fun hl => ?_, fun hl hok => ?_, fun hl hok => ⟨_, ?_, regsOnly_setReg_two (by simp [aCtx])⟩⟩
  · rw [exec_ctxPtraceCfgWrite, hrow, if_pos hl, WRes.row_nak]
  · rw [exec_ctxPtraceCfgWrite, hrow, if_neg (by simp [hl]), if_pos (by simpa using mt (ringOk_iff _).mp hok), WRes.row_nak]
  · rw [exec_ctxPtraceCfgWrite, hrow, if_neg (by simp [hl]), if_neg (by simpa using (ringOk_iff _).mpr hok), WRes.row_ok]

/-! ### PORT_CFG (R131) -/

theorem writeReg_portCfg : s.writeReg r false false aPortCfg v = s.wPortCfg (s.keyOf r.who) v := rfl

theorem exec_portModeWrite : exec (.portModeWrite r v) s = .next (s.regRow r aPortCfg v) := rfl

/-- Every lane belongs to a sub-port of each split. -/
theorem lane_of_split : ∀ split < 4, ∀ l < 8, ∃ p ∈ subports split, (subLanes split p).testBit l = true := by decide

/-- A split fails exactly where some lane has failed (R128, R131). -/
theorem splitFails_iff {split : Nat} (h : split < 4) : s.splitFails split = true ↔ s.rf aPortStatus 8 8 ≠ 0 := by
  rw [State.splitFails, List.any_eq_true]
  constructor
  · rintro ⟨p, -, hp⟩ h0
    simp [h0] at hp
  · intro h0
    obtain ⟨l, hl⟩ := Nat.exists_testBit_of_ne_zero h0
    have hl8 : l < 8 := by
      rw [State.rf, testBit_rfld, Bool.and_eq_true, decide_eq_true_eq] at hl
      exact hl.1
    obtain ⟨p, hp, hb⟩ := lane_of_split split h l hl8
    refine ⟨p, hp, ?_⟩
    rw [bne_iff_ne]
    intro hz
    have := congrArg (Nat.testBit · l) hz
    simp [hl, hb] at this

/-- A refusal of a device-level check is shown and recorded (R952). -/
theorem answerDev_spec {code : Nat} (y : Cause) (hc : code < 256) :
    RegsOnly s (s.answerDev code y) [aDevStatus, aDevRefuseLast, aDevRefuseCount] ∧ (s.answerDev code y).rf aDevStatus 24 8 = code := by
  have hput : rfld (rput (s.reg aDevStatus) 24 8 code) 24 8 = code := by
    rw [rfld_rput_same _ _ (by decide)]
    exact Nat.mod_eq_of_lt hc
  unfold State.answerDev State.noteRefusal
  split
  · refine ⟨(RegsOnly.refl s _).setReg (by simp) _, ?_⟩
    rw [State.rf, reg_setF, if_pos rfl, hput]
  · refine ⟨?_, ?_⟩
    · exact (((RegsOnly.refl s _).setReg (by simp) _).setReg (by simp) _).setReg (by simp) _
    · rw [State.rf, bump_eq, reg_setReg, if_neg (by decide), reg_setReg, if_neg (by decide), reg_setF, if_pos rfl, hput]

theorem answerDev_zero (y : Cause) : s.answerDev 0 y = s.setF aDevStatus 24 8 0 := rfl

end Sys2Proof.Machine
end

section
namespace Sys2Proof.Machine

variable {s t u : State} {r : Req} {a : Nat} {v : W32}

/-! ### Sub-ports that go down (R131, R136, R163) -/

/-- The sub-ports of list l have gone down. -/
structure SubsDown (l : List Nat) (s t : State) : Prop where
  frame : t = { s with regs := t.regs, port := { s.port with pauses := t.port.pauses, xoff := t.port.xoff, held := t.port.held } }
  regs : ∀ a, a ≠ aPortStatus → t.reg a = s.reg a
  status : (∀ i, 24 ≤ i → rbit (s.reg aPortStatus) i = false) → t.reg aPortStatus = s.reg aPortStatus
  pauses : ∀ e ∈ t.port.pauses, e ∈ s.port.pauses ∧ e.1 / 8 ∉ l
  xoff : ∀ e ∈ t.port.xoff, e ∈ s.port.xoff ∧ e.1 / 8 ∉ l
  held : ∀ f ∈ t.port.held, f ∈ s.port.held ∧ f.sub ∉ l

theorem SubsDown.nil (s : State) : SubsDown [] s s := ⟨rfl, fun _ _ => rfl, fun _ => rfl, by simp, by simp, by simp⟩

/-- A register with a bit cleared that is 0. -/
theorem rputBit_false_of_rbit {w : W32} {i : Nat} (hi : i < 32) (h : rbit w i = false) : rputBit w i false = w := by
  refine BitVec.eq_of_getLsbD_eq fun j _ => ?_
  have hb := rbit_rputBit w (j := j) false hi
  rw [rbit, rbit] at hb
  rw [hb]
  split
  case isTrue hj => rw [hj]; exact h.symm
  case isFalse => rfl

theorem reg_subDown (p : Nat) : (s.subDown p).reg a = if a = aPortStatus then rputBit (s.reg aPortStatus) (24 + p) false else s.reg a := by
  rw [← reg_setB]
  rfl

theorem subsDown_subDown {p : Nat} (hp : p < 8) : SubsDown [p] s (s.subDown p) where
  frame := rfl
  regs a ha := by rw [reg_subDown, if_neg ha]
  status h := by
    rw [reg_subDown, if_pos rfl, rputBit_false_of_rbit (by omega) (h _ (by omega))]
  pauses e he := by simpa [State.subDown] using he
  xoff e he := by simpa [State.subDown] using he
  held f hf := by simpa [State.subDown] using hf

theorem SubsDown.trans {l m : List Nat} (h : SubsDown l s t) (k : SubsDown m t u) : SubsDown (l ++ m) s u where
  frame := k.frame.trans (by rw [h.frame])
  regs a ha := (k.regs a ha).trans (h.regs a ha)
  status hb := by
    have hs := h.status hb
    exact (k.status (by rwa [hs])).trans hs
  pauses e he := ⟨(h.pauses e (k.pauses e he).1).1, fun hm => (List.mem_append.mp hm).elim (h.pauses e (k.pauses e he).1).2 (k.pauses e he).2⟩
  xoff e he := ⟨(h.xoff e (k.xoff e he).1).1, fun hm => (List.mem_append.mp hm).elim (h.xoff e (k.xoff e he).1).2 (k.xoff e he).2⟩
  held f hf := ⟨(h.held f (k.held f hf).1).1, fun hm => (List.mem_append.mp hm).elim (h.held f (k.held f hf).1).2 (k.held f hf).2⟩

theorem subsDown_foldl {l : List Nat} (hl : ∀ p ∈ l, p < 8) : SubsDown l s (l.foldl State.subDown s) := by
  induction l generalizing s with
  | nil => exact .nil s
  | cons p l ih =>
    obtain ⟨hp, hl⟩ := List.forall_mem_cons.mp hl
    exact (subsDown_subDown hp).trans (ih hl)

/-! ### A port mode that is taken (R131) -/

/-- The sub-ports of a split train, and no others (R127). -/
theorem training_split : ∀ split < 4, ∀ p < 8,
    SMap.get ((subports split).map fun q => (q, true)) false p = decide (p % (8 / 2 ^ split) = 0) := by decide

/-- A plain write, by the register that it leaves. -/
theorem plain_mixed {i : RegInfo} (hi : regInfo a = some i) (ht : t.reg a = s.mixed a v) : Plain s t a i.rw i.w1c v := by
  intro n hn
  rw [ht, State.mixed, hi]
  exact getLsbD_mixReg i _ hn

theorem rfld_mixed_portCfg : rfld (s.mixed aPortCfg v) 0 2 = rfld v 0 2 := by
  refine Nat.eq_of_testBit_eq fun i => ?_
  rw [testBit_rfld, testBit_rfld]
  by_cases hi : i < 2
  · have hrw : Nat.testBit 0xFFFFFF7B (0 + i) = true := by interval_cases i <;> rfl
    rw [rbit_mixed (a := aPortCfg) (i := { rw := 0xFFFFFF7B }) rfl rfl (by omega), if_pos hrw]
  · simp [hi]

/-- Retraining: every sub-port goes down, and those of the split train. -/
theorem retrain_spec (s : State) : ∃ u, SubsDown (List.range 8) (s.setReg aPortStatus (s.reg aPortStatus &&& 0x0000FFFF)) u
    ∧ s.retrain = { u with port := s.retrain.port } ∧ (∀ a, s.retrain.reg a = u.reg a)
    ∧ s.retrain.port = { u.port with lanes := [], training := (subports s.split).map fun p => (p, true) } := by
  have h : ∃ u, SubsDown (List.range 8) (s.setReg aPortStatus (s.reg aPortStatus &&& 0x0000FFFF)) u
      ∧ s.retrain = { u with port := { u.port with lanes := [], training := (subports s.split).map fun p => (p, true) } } :=
    ⟨_, subsDown_foldl (by simp), rfl⟩
  obtain ⟨u, hu, ht⟩ := h
  exact ⟨u, hu, by rw [ht], fun a => by rw [ht]; rfl, by rw [ht]⟩

theorem rbit_and_low {w : W32} {i : Nat} (hi : 16 ≤ i) : rbit (w &&& 0xFFFF) i = false := by
  rw [rbit, BitVec.getLsbD_and, show (0xFFFF : W32) = BitVec.ofNat 32 (2 ^ 16 - 1) from rfl, BitVec.getLsbD_ofNat, Nat.testBit_two_pow_sub_one,
    decide_eq_false (by omega : ¬ i < 16), Bool.and_false, Bool.and_false]

theorem wPortCfg_ok (key : Option Nat) (h : s.splitFails (rfld (s.mixed aPortCfg v) 0 2) = false) :
    s.wPortCfg key v = .ok ((s.setF aDevStatus 24 8 0).setReg aPortCfg (s.mixed aPortCfg v)).retrain := by
  simp only [State.wPortCfg, h, Bool.false_eq_true, if_false, answerDev_zero, ne_eq, not_true_eq_false]

theorem exec_portModeWrite_ok (h : TakesWrite s r aPortCfg v) (h0 : s.rf aPortStatus 8 8 = 0) :
    exec (.portModeWrite r v) s = .next ((s.setF aDevStatus 24 8 0).setReg aPortCfg (s.mixed aPortCfg v)).retrain := by
  have hbits : rfld (s.mixed aPortCfg v) 0 2 < 4 := Nat.mod_lt _ (by decide)
  have hcode : s.splitFails (rfld (s.mixed aPortCfg v) 0 2) = false := by simpa using mt (splitFails_iff hbits).mp (not_not.mpr h0)
  rw [exec_portModeWrite, h.regRow_eq (Option.some_ne_none _), writeReg_portCfg, wPortCfg_ok _ hcode, WRes.row_ok]

/-- The split that the write leaves. -/
theorem split_portCfg (h : TakesWrite s r aPortCfg v) :
    ((s.setF aDevStatus 24 8 0).setReg aPortCfg (s.mixed aPortCfg v)).split = rfld v 0 2 := by
  have hdev : ((s.setF aDevStatus 24 8 0).setReg aPortCfg (s.mixed aPortCfg v)).devState = s.devState := by
    rw [State.devState, State.rf, reg_setReg, if_neg (by decide), reg_setF, if_pos rfl, rfld_rput_other _ _ (by decide) (by decide)]
    rfl
  rw [State.split, hdev, if_neg (h.not_recovery (by decide)), State.rf, reg_setReg_self, rfld_mixed_portCfg]

theorem runs_portModeWrite (h : TakesWrite s r aPortCfg v) (h0 : s.rf aPortStatus 8 8 = 0) : Runs (.portModeWrite r v) s fun t =>
    t = { s with regs := t.regs, port := t.port }
    ∧ (∀ a, a ≠ aPortCfg → a ≠ aPortStatus → a ≠ aDevStatus → t.reg a = s.reg a) ∧ Plain s t aPortCfg 0xFFFFFF7B 0 v
    ∧ t.rf aDevStatus 24 8 = 0 ∧ t.reg aPortStatus = s.reg aPortStatus &&& 0xFFFF
    ∧ t.port = { s.port with lanes := [], training := t.port.training, pauses := t.port.pauses, xoff := t.port.xoff,
                             held := t.port.held }
    ∧ (∀ e ∈ t.port.pauses, 64 ≤ e.1) ∧ (∀ e ∈ t.port.xoff, 64 ≤ e.1) ∧ (∀ f ∈ t.port.held, 8 ≤ f.sub)
    ∧ ∀ p, p < 8 → SMap.get t.port.training false p = decide (p % (8 / 2 ^ rfld v 0 2) = 0) := by
  have hexec := exec_portModeWrite_ok h h0
  have hsplit := split_portCfg h
  have hframe : (s.setF aDevStatus 24 8 0).setReg aPortCfg (s.mixed aPortCfg v)
      = { s with regs := ((s.setF aDevStatus 24 8 0).setReg aPortCfg (s.mixed aPortCfg v)).regs } :=
    (((RegsOnly.refl s [aDevStatus, aPortCfg]).setReg (by simp) _).setReg (by simp) _).1
  have hreg : ∀ a, ((s.setF aDevStatus 24 8 0).setReg aPortCfg (s.mixed aPortCfg v)).reg a = if a = aPortCfg then s.mixed aPortCfg v else
      if a = aDevStatus then rput (s.reg aDevStatus) 24 8 0 else s.reg a := fun a => by rw [reg_setReg, reg_setF]
  generalize (s.setF aDevStatus 24 8 0).setReg aPortCfg (s.mixed aPortCfg v) = w at hexec hsplit hframe hreg
  obtain ⟨u, hu, ht, htreg, htport⟩ := retrain_spec w
  generalize w.retrain = t at hexec ht htreg htport
  have hu' : u = { s with regs := u.regs, port := { s.port with pauses := u.port.pauses, xoff := u.port.xoff, held := u.port.held } } := by
    rw [hu.frame, hframe]
    rfl
  have hother : ∀ a, a ≠ aPortStatus → t.reg a = w.reg a := fun a ha => by rw [htreg, hu.regs a ha, reg_setReg, if_neg ha]
  refine ⟨t, hexec, ?frame, ?others, ?plain, ?refuse, ?status, ?port, ?pauses, ?xoff, ?held, ?training⟩
  case frame => rw [ht, hu']
  case others => exact fun a h1 h2 h3 => by rw [hother a h2, hreg, if_neg h1, if_neg h3]
  case plain =>
    exact plain_mixed (i := { rw := 0xFFFFFF7B }) rfl (by rw [hother aPortCfg (by decide), hreg, if_pos rfl])
  case refuse => rw [State.rf, hother aDevStatus (by decide), hreg, if_neg (by decide), if_pos rfl, rfld_rput_same _ _ (by decide), Nat.zero_mod]
  case status =>
    rw [htreg, hu.status fun i hi => by rw [reg_setReg_self]; exact rbit_and_low (by omega), reg_setReg_self, hreg, if_neg (by decide),
      if_neg (by decide)]
  case port => rw [htport, hu']
  case pauses => exact fun e he => by have := (hu.pauses e (by rwa [htport] at he)).2; rw [List.mem_range] at this; omega
  case xoff => exact fun e he => by have := (hu.xoff e (by rwa [htport] at he)).2; rw [List.mem_range] at this; omega
  case held => exact fun f hf => by have := (hu.held f (by rwa [htport] at hf)).2; rw [List.mem_range] at this; omega
  case training =>
    rw [htport, hsplit]
    exact training_split _ (Nat.mod_lt _ (by decide))

/-- A failed lane refuses every mode (R131). -/
theorem exec_portModeWrite_failed (h : TakesWrite s r aPortCfg v) (h0 : s.rf aPortStatus 8 8 ≠ 0) :
    ∃ u, RegsOnly s u [aDevStatus, aDevRefuseLast, aDevRefuseCount] ∧ u.rf aDevStatus 24 8 = 0x0D
      ∧ exec (.portModeWrite r v) s = .next (u.nakReg r 0x0D aPortCfg) := by
  have hrow := h.regRow_eq (Option.some_ne_none _)
  have hbits : rfld (s.mixed aPortCfg v) 0 2 < 4 := Nat.mod_lt _ (by decide)
  obtain ⟨honly, hcode⟩ := answerDev_spec (s := s) (code := rcPort) { source := 0x08, key := s.keyOf r.who } (by decide)
  refine ⟨_, honly, hcode, ?_⟩
  rw [exec_portModeWrite, hrow, writeReg_portCfg, State.wPortCfg]
  simp only [(splitFails_iff hbits).mpr h0, if_true, rcPort, ne_eq, OfNat.ofNat_ne_zero, not_false_eq_true, WRes.row_nak]

/-! ### Windows (R264–R266) -/

theorem regInfo_win {c n w : Nat} (hc : c < 16) (hn : n < 64) (hw : w < 4) :
    regInfo (aWin c n + 4 * w) = rwReg ([0xFFFFF000, 0xFFFF, 0xFFFFFFFF, 0x1F].getD w 0) := by
  have hlo : 0x58000 ≤ aWin c n + 4 * w := by unfold aWin; omega
  have hhi : aWin c n + 4 * w < 0x5C000 := by unfold aWin; omega
  have h16 : (aWin c n + 4 * w - 0x50000) % 16 = 4 * w := by unfold aWin; omega
  rw [regInfo, if_neg (by unfold aWin; omega), if_neg (by omega), if_neg (by omega), if_neg (by omega), if_neg (by omega),
    if_neg (by omega), if_neg (by omega), if_pos (by omega), memInfo, if_neg (by omega), if_neg (by omega), if_neg (by omega),
    if_neg (by omega), if_neg (by omega), if_pos (by omega), h16]
  interval_cases w <;> rfl

theorem writeReg_win {c n w : Nat} (hc : c < 16) (hn : n < 64) (hw : w < 4) :
    s.writeReg r false false (aWin c n + 4 * w) v = s.wWindow c n (aWin c n + 4 * w) v := by
  have hlo : 0x58000 ≤ aWin c n + 4 * w := by unfold aWin; omega
  have hhi : aWin c n + 4 * w < 0x5C000 := by unfold aWin; omega
  have hctx : (aWin c n + 4 * w - 0x50000 - 0x8000) / 0x400 = c := by unfold aWin; omega
  have hwin : (aWin c n + 4 * w - 0x50000 - 0x8000) % 0x400 / 16 = n := by unfold aWin; omega
  simp only [State.writeReg]
  rw [if_neg (by omega), if_neg (by omega), if_neg (by omega), if_neg (by omega), if_neg (by omega), if_neg (by omega), if_pos (by omega)]
  simp only [State.wMem]
  rw [if_neg (by omega), if_neg (by unfold aMemGrsv; omega), if_pos (by omega), hctx, hwin]

/-- Where a window may lie (R234, R258, R266). -/
theorem windowFits_iff (u : State) (b len : Nat) : (decide (0 < len) && u.windowFits b len u.grsvBase) = true ↔
    0 < len ∧ (b + len ≤ 2 ^ 39 ∨ (glacierBase ≤ b ∧ b + len ≤ storeBase))
      ∧ ¬ (b < glacierBase + u.glacierSize ∧ u.grsvBase < glacierBase + u.glacierSize ∧ u.grsvBase < b + len) := by
  simp only [State.windowFits, inside, overlaps, Bool.and_eq_true, Bool.or_eq_true, Bool.not_eq_true', decide_eq_true_eq, Bool.and_eq_false_iff,
    decide_eq_false_iff_not]
  simp only [glacierBase, storeBase]
  omega

theorem windowOk_iff (u : State) (c n : Nat) : u.windowOk c n = true ↔ (u.winValid c n = true →
    0 < u.winLen c n ∧ (u.winBase c n + u.winLen c n ≤ 2 ^ 39 ∨ (glacierBase ≤ u.winBase c n ∧ u.winBase c n + u.winLen c n ≤ storeBase))
      ∧ ¬ (u.winBase c n < glacierBase + u.glacierSize ∧ u.grsvBase < glacierBase + u.glacierSize
        ∧ u.grsvBase < u.winBase c n + u.winLen c n)) := by
  rw [State.windowOk, Bool.or_eq_true, windowFits_iff]
  cases u.winValid c n <;> simp

theorem exec_windowWrite (c : Fin 16) (n : Fin 64) (w : Fin 4) :
    exec (.windowWrite r c n w v) s = .next (s.regRow r (aWin c.val n.val + 4 * w.val) v) := rfl

/-- A register field one higher, and the rest of that register. -/
theorem setF_key (u : State) (a : Nat) : RegsOnly u (u.setF a 12 20 (u.rf a 12 20 + 1)) [a]
    ∧ (u.setF a 12 20 (u.rf a 12 20 + 1)).rf a 0 12 = u.rf a 0 12
    ∧ (u.setF a 12 20 (u.rf a 12 20 + 1)).rf a 12 20 = (u.rf a 12 20 + 1) % 2 ^ 20 := by
  refine ⟨regsOnly_setReg, ?_, ?_⟩
  · rw [State.rf, reg_setF, if_pos rfl, rfld_rput_other _ _ (by decide) (by decide), State.rf]
  · rw [State.rf, reg_setF, if_pos rfl, rfld_rput_same _ _ (by decide)]

/-! ### Regions (R240–R243) -/

theorem regInfo_rgn {n : Nat} (hn : n < 16) : regInfo (aRgn n) = rwReg 0xF8FF0000 := by
  interval_cases n <;> rfl

theorem writeReg_rgn {n : Nat} (hn : n < 16) : s.writeReg r false false (aRgn n) v = s.wRgnA r n v true := by
  interval_cases n <;> rfl

theorem exec_regionValidate (n : Fin 16) : exec (.regionValidate r n v) s
    = .next (if rbit v 31 && !s.rb (aRgn n.val) 31 then s.regRow r (aRgn n.val) v else s) := rfl

theorem exec_regionInvalidate (n : Fin 16) : exec (.regionInvalidate r n v) s
    = .next (if !rbit v 31 && s.rb (aRgn n.val) 31 then s.regRow r (aRgn n.val) v else s) := rfl

theorem tableOpen_iff : s.tableOpen = true ↔ s.devState = stReady ∧ s.anyLocked = false := by
  simp [State.tableOpen]

/-- VALID of a region as a write of its register would leave it. -/
theorem rbit_mixed_rgn {n : Nat} (hn : n < 16) : rbit (s.mixed (aRgn n) v) 31 = rbit v 31 := by
  rw [rbit_mixed (regInfo_rgn hn) rfl (by decide), if_pos (by decide)]

theorem rgnMalformed_iff (x : RgnVal) : s.rgnMalformed x = true ↔
    x.size = 0 ∨ 512 < x.size ∨ 512 < x.base + x.size ∨ (s.fuses.stackGib = 48 ∧ 384 < x.base + x.size) := by
  simp [State.rgnMalformed, or_assoc]

/-- The state that waits for a region's clean (R243). -/
def State.rgnWaits (s : State) (n : Nat) (value : W32) (r : Req) : State := { s with rgnChange := some { n := n, value := value, req := r } }

theorem regRow_validate {n : Nat} (hn : n < 16) (h : TakesWrite s r (aRgn n) v) (hv : rbit v 31 = true) (h0 : s.rb (aRgn n) 31 = false) :
    s.regRow r (aRgn n) v = if !s.tableOpen then s.nakReg r nkBusy (aRgn n)
      else if s.rgnMalformed { s.rgnVal n with a := s.mixed (aRgn n) v } then s.nakReg r nkMalformed (aRgn n)
      else if s.rgnConflict n { s.rgnVal n with a := s.mixed (aRgn n) v } then s.nakReg r nkConflict (aRgn n)
      else s.rgnWaits n (s.mixed (aRgn n) v) r := by
  have hold : rbit (s.reg (aRgn n)) 31 = false := h0
  have hnew := (rbit_mixed_rgn (s := s) (v := v) hn).trans hv
  rw [h.regRow_eq (by rw [regInfo_rgn hn]; exact Option.some_ne_none _), writeReg_rgn hn]
  simp only [State.wRgnA, hold, hnew, Bool.false_eq_true, if_false, if_true, State.rgnCheck]
  by_cases ho : s.tableOpen = true
  · by_cases hm : s.rgnMalformed { s.rgnVal n with a := s.mixed (aRgn n) v } = true
    · simp only [ho, hm, Bool.not_true, Bool.false_eq_true, if_false, if_true, WRes.row_nak]
    · by_cases hc : s.rgnConflict n { s.rgnVal n with a := s.mixed (aRgn n) v } = true
      · simp only [ho, hm, hc, Bool.not_true, Bool.false_eq_true, if_false, if_true, WRes.row_nak]
      · simp only [ho, hm, hc, Bool.not_true, Bool.false_eq_true, if_false, WRes.row_pend, State.rgnWaits]
  · simp only [ho, Bool.not_false, if_true, WRes.row_nak]

theorem regRow_invalidate {n : Nat} (hn : n < 16) (h : TakesWrite s r (aRgn n) v) (hv : rbit v 31 = false) (h1 : s.rb (aRgn n) 31 = true) :
    s.regRow r (aRgn n) v = if s.tableOpen = true ∧ rputBit (s.mixed (aRgn n) v) 31 false = rputBit (s.reg (aRgn n)) 31 false
      then s.rgnWaits n (s.mixed (aRgn n) v) r else s.nakReg r nkBusy (aRgn n) := by
  have hold : rbit (s.reg (aRgn n)) 31 = true := h1
  have hnew := (rbit_mixed_rgn (s := s) (v := v) hn).trans hv
  rw [h.regRow_eq (by rw [regInfo_rgn hn]; exact Option.some_ne_none _), writeReg_rgn hn]
  simp only [State.wRgnA, hold, hnew, Bool.false_eq_true, if_false, if_true]
  by_cases ho : s.tableOpen = true
  · by_cases hs : rputBit (s.mixed (aRgn n) v) 31 false = rputBit (s.reg (aRgn n)) 31 false
    · simp only [ho, hs, Bool.not_true, Bool.false_eq_true, if_false, ne_eq, not_true_eq_false, and_self, if_true, WRes.row_pend, State.rgnWaits]
    · simp only [ho, hs, Bool.not_true, Bool.false_eq_true, if_false, ne_eq, not_false_eq_true, and_false, if_true, WRes.row_nak]
  · simp only [ho, Bool.not_false, if_true, Bool.false_eq_true, false_and, if_false, WRes.row_nak]

end Sys2Proof.Machine
end

section
namespace Sys2Proof.Machine

variable {s t u : State} {a : Nat}

/-! ### Finding an entry -/

theorem find_put {α : Type} (m : SMap α) (k : Nat) (v : α) (j : Nat) :
    SMap.find (SMap.put m k v) j = if j = k then some v else SMap.find m j := by
  by_cases h : j = k
  · subst h; simp [SMap.find, SMap.put, insertAt_find_self _ _ _ (erase_ne m j)]
  · simp [SMap.find, SMap.put, insertAt_find_ne _ _ _ _ h, erase_find_ne _ _ _ h, h]

theorem find_erase {α : Type} (m : SMap α) (k j : Nat) : SMap.find (SMap.erase m k) j = if j = k then none else SMap.find m j := by
  by_cases h : j = k
  · subst h; simp [SMap.find, erase_find_self]
  · simp [SMap.find, erase_find_ne _ _ _ h, h]

theorem mem_of_find {α : Type} {m : SMap α} {k : Nat} {v : α} (h : SMap.find m k = some v) : (k, v) ∈ m := by
  rw [SMap.find, Option.map_eq_some_iff] at h
  obtain ⟨e, he, rfl⟩ := h
  have hk := List.find?_some he
  rw [beq_iff_eq] at hk
  exact hk ▸ List.mem_of_find?_eq_some he

/-- A map cut down to some of its keys. -/
theorem get_filter_key {α : Type} (m : SMap α) (p : Nat → Bool) (d : α) (k : Nat) :
    SMap.get (m.filter fun e => p e.1) d k = if p k then SMap.get m d k else d := by
  have hfind : (m.filter fun e => p e.1).find? (fun e => e.1 == k) = if p k then m.find? (fun e => e.1 == k) else none := by
    rw [List.find?_filter]
    split
    case isTrue hp =>
      congr 1
      funext e
      by_cases he : e.1 = k <;> simp [he, hp]
    case isFalse hp =>
      rw [List.find?_eq_none]
      rintro e - he
      simp only [decide_eq_true_eq, beq_iff_eq] at he
      exact hp (he.2 ▸ he.1)
  simp only [SMap.get, hfind]
  by_cases hp : p k = true <;> simp [hp]

/-! ### Ranges of bytes -/

/-- A byte outside a range that loses its contents. -/
theorem read_scramble_out {m : Mem} {lo hi d y : Nat} (h : y < lo ∨ hi ≤ y) : Mem.read (m.scramble lo hi d) y = Mem.read m y := by
  have hcell := get_filter_key m.cells (fun k => !(decide (lo ≤ k) && decide (k < hi))) (0 : Byte) y
  rw [if_pos (by simp; omega)] at hcell
  simp only [Mem.read, Mem.scramble, hcell, maskOf]
  rw [if_neg (by omega)]

/-! ### Ways that become invalid (R243, R303) -/

/-- The ways ks have been written back and made invalid: apart from the count of write-backs no register changed, and the bytes only where
a line was older than its tier. -/
structure Evicted (ks : List Nat) (s t : State) : Prop where
  dome : DomeOnly s t
  regs : ∀ a, a ≠ aDomeCnt 2 → t.reg a = s.reg a
  mem : s.dome.fresh = [] → t.mem = s.mem ∧ t.dome.fresh = []
  lines : ∀ j, SMap.find t.dome.lines j = if j ∈ ks then none else SMap.find s.dome.lines j

theorem Evicted.trans {ks ls : List Nat} (h : Evicted ks s t) (k : Evicted ls t u) : Evicted (ks ++ ls) s u where
  dome := h.dome.trans k.dome
  regs a ha := (k.regs a ha).trans (h.regs a ha)
  mem hf := by
    obtain ⟨hm, hf⟩ := h.mem hf
    obtain ⟨km, kf⟩ := k.mem hf
    exact ⟨km.trans hm, kf⟩
  lines j := by
    rw [k.lines, h.lines]
    by_cases h1 : j ∈ ls <;> by_cases h2 : j ∈ ks <;> simp [h1, h2]

/-- A write-back. -/
theorem writeBack_spec (s : State) (k : Nat) : (∀ a, a ≠ aDomeCnt 2 → (s.writeBack k).reg a = s.reg a) ∧ (s.writeBack k).mem = s.mem
    ∧ (s.writeBack k).dome.fresh = s.dome.fresh
    ∧ ∀ j, j ≠ k → SMap.find (s.writeBack k).dome.lines j = SMap.find s.dome.lines j := by
  unfold State.writeBack
  split
  · exact ⟨fun _ _ => rfl, rfl, rfl, fun _ _ => rfl⟩
  · split
    · refine ⟨fun a ha => ?_, rfl, rfl, fun j hj => ?_⟩
      · rw [bump_eq, reg_setReg, if_neg ha]; rfl
      · exact (find_put ..).trans (if_neg hj)
    · exact ⟨fun _ _ => rfl, rfl, rfl, fun _ _ => rfl⟩

/-- A refresh where no line is older than its tier. -/
theorem refresh_fresh {l : Nat} (h : s.dome.fresh = []) : s.refresh l = s := by
  rw [State.refresh, h]
  rfl

theorem refresh_spec (s : State) (l : Nat) : (s.refresh l).regs = s.regs ∧ (s.refresh l).dome.lines = s.dome.lines := by
  unfold State.refresh
  split <;> exact ⟨rfl, rfl⟩

/-- A clean line that leaves its way. -/
theorem dropLine_spec (s : State) (k : Nat) : (s.dropLine k).regs = s.regs
    ∧ (s.dome.fresh = [] → (s.dropLine k).mem = s.mem ∧ (s.dropLine k).dome.fresh = [])
    ∧ ∀ j, SMap.find (s.dropLine k).dome.lines j = if j = k then none else SMap.find s.dome.lines j := by
  unfold State.dropLine
  split
  case h_1 hn =>
    refine ⟨rfl, fun hf => ⟨rfl, hf⟩, fun j => ?_⟩
    split
    case isTrue hj => rw [hj, hn]
    case isFalse => rfl
  case h_2 e he =>
    refine ⟨(refresh_spec _ _).1, fun hf => ?_, fun j => ?_⟩
    · rw [refresh_fresh (by exact hf)]
      exact ⟨rfl, hf⟩
    · rw [(refresh_spec _ _).2, find_erase]

theorem evicted_evict (s : State) (k : Nat) : Evicted [k] s (s.evict k) where
  dome := evict_dome s k
  regs a ha := by
    have hregs := (dropLine_spec (s.writeBack k) k).1
    rw [State.evict, State.reg, hregs]
    exact (writeBack_spec s k).1 a ha
  mem hf := by
    obtain ⟨-, hm, hfresh, -⟩ := writeBack_spec s k
    obtain ⟨hm', hf'⟩ := (dropLine_spec (s.writeBack k) k).2.1 (hfresh.trans hf)
    exact ⟨hm'.trans hm, hf'⟩
  lines j := by
    rw [State.evict, (dropLine_spec _ _).2.2]
    by_cases hj : j = k
    · rw [if_pos hj, if_pos (by simp [hj])]
    · rw [if_neg hj, if_neg (by simp [hj]), (writeBack_spec s k).2.2.2 j hj]

theorem evicted_evictAll (ks : List Nat) (s : State) : Evicted ks s (s.evictAll ks) := by
  unfold State.evictAll
  induction ks generalizing s with
  | nil => exact ⟨.refl s, fun _ _ => rfl, fun hf => ⟨rfl, hf⟩, fun j => by simp⟩
  | cons k ks ih => exact (evicted_evict s k).trans (ih (s.evict k))

/-- No line of the range is left. -/
theorem Evicted.keysIn {lo hi : Nat} (h : Evicted (s.keysIn lo hi) s t) {k : Nat} {e : Line} (he : t.holdsAt k e) : ¬ lineIn lo hi k e := by
  intro hl
  rw [State.holdsAt, h.lines] at he
  split at he
  case isTrue => cases he
  case isFalse hk =>
    refine hk (List.mem_map.mpr ⟨(k, e), List.mem_filter.mpr ⟨mem_of_find he, ?_⟩, rfl⟩)
    simpa [lineIn] using hl

/-- Without fills in flight nothing is to be settled. -/
theorem settleAll_calm (p : Fill → Bool) (h : s.dome.fills = []) : s.settleAll p = s := by
  rw [State.settleAll, h]
  rfl

/-! ### A region's mapping takes effect (R243, R244) -/

theorem scramble_spec (s : State) (lo hi : Nat) : (s.scramble lo hi).regs = s.regs ∧ (s.scramble lo hi).dome = s.dome
    ∧ (s.scramble lo hi).rgnChange = s.rgnChange
    ∧ ∀ y, y < lo ∨ hi ≤ y → Mem.read (s.scramble lo hi).mem y = Mem.read s.mem y :=
  ⟨rfl, rfl, rfl, fun _ hy => read_scramble_out hy⟩

/-- The near tier's lines written back and made invalid, with nothing in flight. -/
theorem evicted_flushNear (h : s.calm) : Evicted (s.keysIn 0 (2 ^ 39)) s s.flushNear := by
  rw [State.flushNear, settleAll_calm _ h.1]
  exact evicted_evictAll _ s

theorem applyRegion_spec (n : Nat) (v : W32) (hc : s.calm) (hn : n < 16) :
    (s.applyRegion n v).rgnChange = s.rgnChange ∧ (s.applyRegion n v).reg (aRgn n) = v
      ∧ (∀ a, a ≠ aRgn n → a ≠ aDomeCnt 2 → (s.applyRegion n v).reg a = s.reg a)
      ∧ (∀ k e, (s.applyRegion n v).holdsAt k e → ¬ lineIn 0 (2 ^ 39) k e)
      ∧ ∀ y, (rbit v 31 = true → y < s.rf (aRgn n + 4) 16 9 * gib ∨ (s.rf (aRgn n + 4) 16 9 + s.rf (aRgn n + 4) 0 10) * gib ≤ y) →
          Mem.read (s.applyRegion n v).mem y = Mem.read s.mem y := by
  have hev := evicted_flushNear hc
  obtain ⟨w, hw⟩ : ∃ w, s.flushNear = w := ⟨_, rfl⟩
  rw [hw] at hev
  obtain ⟨hmem, -⟩ := hev.mem hc.2
  have hchange : w.rgnChange = s.rgnChange := by
    obtain ⟨rg, dm, bad, m, rfl⟩ := hev.dome
    rfl
  have hreg : ∀ a, a ≠ aRgn n → a ≠ aDomeCnt 2 → (w.setReg (aRgn n) v).reg a = s.reg a := fun a h1 h2 => by
    rw [reg_setReg, if_neg h1, hev.regs a h2]
  have hb : (w.setReg (aRgn n) v).reg (aRgn n + 4) = s.reg (aRgn n + 4) := hreg _ (by omega) (by simp only [aRgn, aDomeCnt]; omega)
  rw [State.applyRegion, hw]
  split
  case isTrue hv =>
    obtain ⟨hregs, hdome, hrgn, hread⟩ := scramble_spec (w.setReg (aRgn n) v)
      (((w.setReg (aRgn n) v).rgnVal n).base * gib) ((((w.setReg (aRgn n) v).rgnVal n).base + ((w.setReg (aRgn n) v).rgnVal n).size) * gib)
    refine ⟨hrgn.trans hchange, ?_, fun a h1 h2 => ?_, fun k e he => ?_, fun y hy => ?_⟩
    · rw [State.reg, hregs]; exact reg_setReg_self ..
    · rw [State.reg, hregs]; exact hreg a h1 h2
    · rw [State.holdsAt, hdome] at he
      exact hev.keysIn he
    · rw [hread y]
      · exact congrArg (Mem.read · y) hmem
      · simpa only [RgnVal.base, RgnVal.size, State.rgnVal, hb, State.rf] using hy hv
  case isFalse =>
    exact ⟨hchange, reg_setReg_self .., hreg, fun k e he => hev.keysIn he, fun y _ => congrArg (Mem.read · y) hmem⟩

theorem exec_regionChangeComplete (n : Fin 16) : exec (.regionChangeComplete n) s = execRegionChangeComplete n s := rfl

theorem runs_regionChangeComplete (n : Fin 16) {x : RgnChange} (hw : s.works = true) (hx : s.rgnChange = some x) (hn : x.n = n.val)
    (hc : s.calm) : Runs (.regionChangeComplete n) s fun t => t.rgnChange = none ∧ t.reg (aRgn n.val) = x.value
      ∧ (∀ a, a ≠ aRgn n.val → a ≠ aDomeCnt 2 → t.reg a = s.reg a)
      ∧ (∀ k e, t.holdsAt k e → ¬ lineIn 0 (2 ^ 39) k e)
      ∧ ∀ y, (rbit x.value 31 = true → y < s.rf (aRgn n.val + 4) 16 9 * gib
          ∨ (s.rf (aRgn n.val + 4) 16 9 + s.rf (aRgn n.val + 4) 0 10) * gib ≤ y) → Mem.read t.mem y = Mem.read s.mem y := by
  refine ⟨_, ?_, applyRegion_spec (s := { s with rgnChange := none }) n.val x.value hc n.isLt⟩
  simp only [exec_regionChangeComplete, execRegionChangeComplete, hw, hx, hn, Bool.not_true, Bool.false_eq_true, if_false, if_true]

/-! ### The statement -/

theorem window_write {r : Req} {v : W32} (c : Fin 16) (n : Fin 64) (w : Fin 4) (h : TakesWrite s r (aWin c.val n.val + 4 * w.val) v) :
    s.regRow r (aWin c.val n.val + 4 * w.val) v = (s.wWindow c.val n.val (aWin c.val n.val + 4 * w.val) v).row r (aWin c.val n.val + 4 * w.val)
      ∧ Plain s (s.put (aWin c.val n.val + 4 * w.val) v) (aWin c.val n.val + 4 * w.val)
          ([0xFFFFF000, 0xFFFF, 0xFFFFFFFF, 0x1F].getD w.val 0) 0 v := by
  have hi := regInfo_win c.isLt n.isLt w.isLt
  refine ⟨?_, plain_mixed (i := { rw := [0xFFFFF000, 0xFFFF, 0xFFFFFFFF, 0x1F].getD w.val 0 }) hi (reg_setReg_self ..)⟩
  rw [h.regRow_eq (by rw [hi]; exact Option.some_ne_none _), writeReg_win c.isLt n.isLt w.isLt]

/-- Settles O39: each register's write by the lemma that says what its own checks refuse and what it leaves. -/
theorem limitedRegisterWrites : Obligations.LimitedRegisterWrites := by
  unfold Obligations.LimitedRegisterWrites
  intro s r v
  refine ⟨fun h => ⟨exec_portModeWrite_failed h, runs_portModeWrite h⟩, runs_domeSeedWrite, ?window,
    ⟨dispTrace_write, ctxTrace_write⟩, runs_pwrLimit, fun i hi a ha h => runs_share hi ha h, syncLimit_write, ?region,
    fun n x hw hx hn hc => runs_regionChangeComplete n hw hx hn hc⟩
  case window =>
    intro c n w h a ctl
    obtain ⟨hrow, hplain⟩ := window_write c n w h
    refine ⟨fun hl => ?_, fun hl => ⟨s.put a v, regsOnly_put, hplain, fun hg => ?_, fun hg => ⟨_, ?_, setF_key _ ctl⟩⟩⟩
    · rw [exec_windowWrite, hrow, State.wWindow, if_pos hl, WRes.row_nak]
    · rw [exec_windowWrite, hrow, State.wWindow, if_neg (by simp [hl]), if_pos (by simpa using mt (windowOk_iff _ _ _).mp hg), WRes.row_nak]
    · rw [exec_windowWrite, hrow, State.wWindow, if_neg (by simp [hl]), if_neg (by simpa using (windowOk_iff _ _ _).mpr hg), WRes.row_ok]
  case region =>
    intro n h new waits size base large clash isOpen
    refine ⟨fun hv h0 => ?_, fun hv h1 => ?_⟩
    · have hexec : exec (.regionValidate r n v) s = .next (s.regRow r (aRgn n.val) v) := by
        rw [exec_regionValidate, if_pos (by simp [hv, h0])]
      have hm := rgnMalformed_iff (s := s) { s.rgnVal n.val with a := new }
      rw [hexec, regRow_validate n.isLt h hv h0]
      refine ⟨fun ho => ?_, fun ho hl => ?_, fun ho hl hc => ?_, fun ho hl hc => ?_⟩
      · rw [if_pos (by simpa using mt tableOpen_iff.mp ho)]
      · rw [if_neg (by simpa using tableOpen_iff.mpr ho), if_pos (hm.mpr hl)]
      · rw [if_neg (by simpa using tableOpen_iff.mpr ho), if_neg (mt hm.mp hl), if_pos hc]
      · rw [if_neg (by simpa using tableOpen_iff.mpr ho), if_neg (mt hm.mp hl), if_neg hc, State.rgnWaits]
    · have hexec : exec (.regionInvalidate r n v) s = .next (s.regRow r (aRgn n.val) v) := by
        rw [exec_regionInvalidate, if_pos (by simp [hv, h1])]
      rw [hexec, regRow_invalidate n.isLt h hv h1]
      refine ⟨fun ho => ?_, fun ho => ?_⟩
      · rw [if_pos ⟨tableOpen_iff.mpr ho.1, ho.2⟩, State.rgnWaits]
      · rw [if_neg fun hx => ho ⟨tableOpen_iff.mp hx.1, hx.2⟩]

end Sys2Proof.Machine
end

section
namespace Sys2Proof.Machine

/-! ## Resets (R81–R89, R107, R114) -/

variable {s d t u : State}

/-! ### Cleared ranges of a memory -/

/-- The parts of a range of free bytes outside a cleared one. -/
theorem maskOf_cleared (scr : List Scramble) (lo hi y : Nat) :
    maskOf (scr.flatMap fun r => (if r.lo < min r.hi lo then [{ r with hi := min r.hi lo }] else [])
      ++ (if max r.lo hi < r.hi then [{ r with lo := max r.lo hi }] else [])) y = if lo ≤ y ∧ y < hi then 0 else maskOf scr y := by
  induction scr with
  | nil => simp [maskOf]
  | cons r scr ih =>
    rw [List.flatMap_cons]
    by_cases hin : r.lo ≤ y ∧ y < r.hi
    · by_cases hy : lo ≤ y ∧ y < hi
      · rw [if_pos hy] at ih ⊢
        have h1 : ¬ (r.lo ≤ y ∧ y < min r.hi lo) := by omega
        have h2 : ¬ (max r.lo hi ≤ y ∧ y < r.hi) := by omega
        split <;> split <;> simp only [List.cons_append, List.nil_append, maskOf, ih, if_neg h1, if_neg h2]
      · rw [if_neg hy] at ih ⊢
        by_cases h1 : y < lo
        · rw [if_pos (by omega : r.lo < min r.hi lo), List.singleton_append, List.cons_append, maskOf, maskOf, if_pos hin,
            if_pos ⟨hin.1, lt_min hin.2 h1⟩]
        · rw [if_pos (by omega : max r.lo hi < r.hi)]
          by_cases h2 : r.lo < min r.hi lo
          · rw [if_pos h2]
            simp only [List.cons_append, List.nil_append, maskOf]
            rw [if_neg (by omega), if_pos (by omega), if_pos hin]
          · rw [if_neg h2]
            simp only [List.cons_append, List.nil_append, maskOf]
            rw [if_pos (by omega), if_pos hin]
    · have hmask : maskOf (r :: scr) y = maskOf scr y := by rw [maskOf, if_neg hin]
      rw [hmask, ← ih]
      have h1 : ¬ (r.lo ≤ y ∧ y < min r.hi lo) := by omega
      have h2 : ¬ (max r.lo hi ≤ y ∧ y < r.hi) := by omega
      split <;> split <;> simp only [List.cons_append, List.nil_append, maskOf, if_neg h1, if_neg h2]

/-- A byte after a range has been cleared. -/
theorem read_clearRange (m : Mem) (lo hi y : Nat) :
    Mem.read (m.clearRange lo hi) y = if lo ≤ y ∧ y < hi then 0 else Mem.read m y := by
  have hcell := get_filter_key m.cells (fun k => !(decide (lo ≤ k) && decide (k < hi))) (0 : Byte) y
  simp only [Mem.read, Mem.clearRange, hcell, maskOf_cleared]
  by_cases h : lo ≤ y ∧ y < hi <;> simp [h]

/-! ### What a loss of power leaves -/

theorem KeySlot.cold_cold (v : KeySlot) : v.cold.cold = v.cold := rfl

/-- Key slots put as a cold reset leaves them, one after the other. -/
theorem foldl_cold (l : List Nat) (d : State) : l.foldl (fun t k => t.setKey k (t.key k).cold) d
      = { d with keys := (l.foldl (fun t k => t.setKey k (t.key k).cold) d).keys }
    ∧ ∀ k, (l.foldl (fun t k => t.setKey k (t.key k).cold) d).key k = if k ∈ l then (d.key k).cold else d.key k := by
  induction l generalizing d with
  | nil => exact ⟨rfl, fun k => by simp⟩
  | cons j l ih =>
    obtain ⟨hframe, hkey⟩ := ih (d.setKey j (d.key j).cold)
    refine ⟨hframe, fun k => ?_⟩
    rw [List.foldl_cons, hkey, key_setKey]
    by_cases hkj : k = j
    · subst hkj; simp [KeySlot.cold_cold]
    · simp [hkj]

/-- What stands without the main rails, before the key slots are put as a cold reset leaves them. -/
def State.bare (s : State) : State := { State.reset with
  pending := s.pending, tick := s.tick, fuses := s.fuses, flash := s.flash, tx := s.tx,
  draws := (s.scramble 0 storeBase).draws,
  mem := ({ cells := [], scr := (s.scramble 0 storeBase).mem.scr } : Mem).clearRange storeBase (storeBase + 2 ^ 29),
  pins := { s.pins with ethTx := false, ddrResetN := false, nearSelfRefresh := false, glacierSelfRefresh := false },
  keys := s.keys, smd := { s.smd with block := none, sign := none, att := none }, i3cSamples := s.i3cSamples,
  port := { ({} : Port) with refclkLost := s.port.refclkLost },
  boot := { ({} : Boot) with flashFound := s.boot.flashFound, flashQuad := s.boot.flashQuad, tripped := s.boot.tripped } }

theorem powerDown_eq (s : State) : s.powerDown = (List.range 16).foldl (fun t k => t.setKey k (t.key k).cold) s.bare := rfl

theorem powerDown_frame (s : State) : s.powerDown = { s.bare with keys := s.powerDown.keys } := (foldl_cold _ s.bare).1

theorem read_bare_store {x : Nat} (h : storeBase ≤ x ∧ x < storeBase + 2 ^ 29) : Mem.read s.bare.mem x = 0 :=
  (read_clearRange _ _ _ x).trans (if_pos h)

theorem powerDown_mem (s : State) : s.powerDown.mem = s.bare.mem := by rw [powerDown_frame]

/-- The registers, keys, memory and units after a loss of the main rails. -/
theorem coldLeft_powerDown (s : State) : ColdLeft s s.powerDown where
  regs a _ := by rw [powerDown_frame]; rfl
  idle := by rw [powerDown_frame]; exact ⟨rfl, rfl, rfl, rfl, rfl, rfl, rfl, rfl, rfl, rfl, rfl, rfl⟩
  held := by rw [powerDown_frame]; exact ⟨rfl, rfl, rfl, rfl, rfl⟩
  flash := by rw [powerDown_frame]; rfl
  keys k hk := by rw [powerDown_eq, (foldl_cold _ _).2, if_pos (List.mem_range.mpr hk)]; rfl
  reserve := by rw [powerDown_frame]; rfl
  stores x h1 h2 := by rw [powerDown_mem, read_bare_store ⟨h1, h2⟩]

/-- What a loss of the main rails keeps: the SMD's time, fuses, pins and what it knows of the flash and of a trip. -/
theorem powerDown_keeps (s : State) : s.powerDown.tick = s.tick ∧ s.powerDown.fuses = s.fuses ∧ s.powerDown.regs = []
    ∧ s.powerDown.pins = { s.pins with ethTx := false, ddrResetN := false, nearSelfRefresh := false, glacierSelfRefresh := false }
    ∧ s.powerDown.boot = { ({} : Boot) with
        flashFound := s.boot.flashFound, flashQuad := s.boot.flashQuad, tripped := s.boot.tripped } := by
  rw [powerDown_frame]
  exact ⟨rfl, rfl, rfl, rfl, rfl⟩

/-! ### What may follow a cold reset -/

/-- After d nothing changed of what a cold reset settles: other parts, and DEV_STATUS. -/
structure Cold.Still (d t : State) : Prop where
  frame : t = { d with tick := t.tick, regs := t.regs, pins := t.pins, boot := t.boot, smd := t.smd, dome := t.dome, port := t.port,
                       draws := t.draws, tx := t.tx }
  regs : ∀ a, a ≠ aDevStatus → t.reg a = d.reg a
  reserve : t.smd.nextResv = d.smd.nextResv
  lines : t.dome.lines = d.dome.lines

theorem Cold.Still.refl (d : State) : Still d d := ⟨rfl, fun _ _ => rfl, rfl, rfl⟩

theorem Cold.Still.trans (h : Still d t) (k : Still t u) : Still d u where
  frame := by rw [k.frame, h.frame]
  regs a ha := (k.regs a ha).trans (h.regs a ha)
  reserve := k.reserve.trans h.reserve
  lines := k.lines.trans h.lines

theorem ColdLeft.still (h : ColdLeft s d) (k : Cold.Still d t) : ColdLeft s t := by
  obtain ⟨hframe, hregs, hreserve, hlines⟩ := k
  obtain ⟨regs, idle, ⟨hprogs, htables, hbatches, hqps, hdome⟩, flash, keys, reserve, stores⟩ := h
  refine ⟨fun a ha => (hregs a ha).trans (regs a ha), ?_, ?_, ?_, ?_, hreserve.trans reserve, ?_⟩
  · rw [hframe]; exact idle
  · refine ⟨?_, ?_, ?_, ?_, hlines.trans hdome⟩
    all_goals rw [hframe]; assumption
  · rw [hframe]; exact flash
  · rw [hframe]; exact keys
  · rw [hframe]; exact stores

/-- A field of DEV_STATUS. -/
theorem Cold.still_status (d : State) (lo n v : Nat) : Still d (d.setF aDevStatus lo n v) where
  frame := by rw [setF_eq]; rfl
  regs a ha := by rw [reg_setF, if_neg ha]
  reserve := by rw [setF_eq]; rfl
  lines := by rw [setF_eq]; rfl

/-- Pins, the boot's record and the time. -/
theorem Cold.still_pins (d : State) (n : Nat) (p : Pins) (b : Boot) : Still d { d with tick := n, pins := p, boot := b } :=
  ⟨rfl, fun _ _ => rfl, rfl, rfl⟩

end Sys2Proof.Machine
end

section
namespace Sys2Proof.Machine

variable {s d t u : State}

/-! ### The ROM starts (R104) -/

/-- Nothing holds the device in reset, and no trip has halted it. -/
def State.unheld (s : State) : Prop :=
  s.devState = stReset ∧ s.pins.pwrGood = true ∧ s.pins.resetN = true ∧ s.pins.tapHold = false ∧ s.boot.warmEntry = false

theorem startBoot_held (h : ¬ s.unheld) : s.startBoot = s := by
  rw [State.startBoot, if_pos]
  by_contra hn
  refine h ?_
  simp only [Bool.or_eq_true, not_or, bne_iff_ne, ne_eq, not_not, Bool.not_eq_true, Bool.not_eq_false'] at hn
  obtain ⟨⟨⟨⟨hdev, hgood⟩, hreset⟩, hhold⟩, hwarm⟩ := hn
  exact ⟨hdev, hgood, hreset, hhold, hwarm⟩

/-- The state in which the ROM has counted a cold boot and runs the Dome cache as plain SRAM. -/
def State.romStarts (s : State) : State :=
  let s0 := if s.boot.cold then s.countColdBoot else s
  { s0 with dome := { s0.dome with stage := some [] } }

theorem startBoot_unheld (h : s.unheld) :
    s.startBoot = if s.boot.flashFound then s.romStarts.setDevState stBoot else s.romStarts.enterRecovery 0x1 := by
  obtain ⟨hdev, hgood, hreset, hhold, hwarm⟩ := h
  rw [State.startBoot, if_neg (by simp [hdev, hgood, hreset, hhold, hwarm]), State.romStarts]

theorem romStarts_eq (s : State) : s.romStarts
    = { s with dome := { s.dome with stage := some [] }, smd := { s.smd with lifeNew := s.romStarts.smd.lifeNew } } := by
  unfold State.romStarts
  cases s.boot.cold <;> rfl

/-- What the start of the ROM changes. -/
structure RomStart (s t : State) : Prop where
  frame : t = { s with
    regs := t.regs, port := t.port, pins := { s.pins with ethTx := t.pins.ethTx },
    dome := { s.dome with stage := t.dome.stage }, smd := { s.smd with lifeNew := t.smd.lifeNew } }
  regs : ∀ a, a ≠ aDevStatus → a ≠ aPortStatus → t.reg a = s.reg a
  port : t.reg aPortStatus = s.reg aPortStatus ∨ t.reg aPortStatus = s.reg aPortStatus &&& 0xFFFF
  last : t.lastReset = s.lastReset

theorem RomStart.refl (s : State) : RomStart s s := ⟨rfl, fun _ _ _ => rfl, .inl rfl, rfl⟩

theorem devState_setDevState (s : State) {v : Nat} (h : v < 16) : (s.setDevState v).devState = v := by
  rw [State.devState, setDevState_eq, State.rf, reg_setF, if_pos rfl, rfld_rput_same _ _ (by decide)]
  exact Nat.mod_eq_of_lt h

theorem lastReset_setDevState (s : State) (v : Nat) : (s.setDevState v).lastReset = s.lastReset := by
  rw [State.lastReset, setDevState_eq, State.rf, reg_setF, if_pos rfl, rfld_rput_other _ _ (by decide) (by decide)]
  rfl

/-- A new STATE, and nothing else. -/
theorem romStart_setDevState (s : State) (v : Nat) : RomStart s (s.setDevState v) where
  frame := by rw [setDevState_eq, setF_eq]; rfl
  regs a h _ := by rw [setDevState_eq, reg_setF, if_neg h]
  port := .inl (by rw [setDevState_eq, reg_setF, if_neg (by decide)])
  last := lastReset_setDevState s v

theorem reg_setPort (s : State) (p : Pins) (q : Port) (a : Nat) : ({ s with pins := p, port := q } : State).reg a = s.reg a := rfl

/-- The registers of RECOVERY (R108, R109). -/
theorem reg_enterRecovery (s : State) (cause a : Nat) : (s.enterRecovery cause).reg a = if a = aPortStatus then s.reg aPortStatus &&& 0xFFFF
    else if a = aDevStatus then rput (rput (s.reg aDevStatus) 0 4 stRecovery) 8 4 cause else s.reg a := by
  rw [State.enterRecovery, reg_setPort, reg_setReg, setDevState_eq, reg_setF, reg_setF, if_pos rfl, reg_setF]
  split
  · rfl
  · split <;> rfl

/-- The transmitters on and the port retrained, after registers changed. -/
theorem recovery_frame {w : State} (h : w = { s with regs := w.regs }) (q : Port) :
    ({ w with pins := { w.pins with ethTx := true }, port := q } : State) = { s with
      regs := w.regs, pins := { s.pins with ethTx := true }, port := q } := by
  rw [h]

theorem enterRecovery_frame (s : State) (cause : Nat) : s.enterRecovery cause = { s with
    regs := (s.enterRecovery cause).regs, pins := { s.pins with ethTx := true }, port := (s.enterRecovery cause).port } := by
  have h : RegsOnly s (((s.setDevState stRecovery).setF aDevStatus 8 4 cause).setReg aPortStatus (s.reg aPortStatus &&& 0x0000FFFF))
      [aDevStatus, aPortStatus] := by
    rw [setDevState_eq, setF_eq, setF_eq]
    exact (((RegsOnly.refl s _).setReg (by decide) _).setReg (by decide) _).setReg (by decide) _
  rw [State.enterRecovery, recovery_frame h.1]

theorem romStart_enterRecovery (s : State) (cause : Nat) : RomStart s (s.enterRecovery cause) ∧ (s.enterRecovery cause).devState = stRecovery := by
  have hreg := reg_enterRecovery s cause
  have hstatus : (s.enterRecovery cause).reg aDevStatus = rput (rput (s.reg aDevStatus) 0 4 stRecovery) 8 4 cause := by
    rw [hreg, if_neg (by decide), if_pos rfl]
  have hframe := enterRecovery_frame s cause
  generalize s.enterRecovery cause = t at *
  refine ⟨⟨by rw [hframe], fun a h1 h2 => by rw [hreg, if_neg h2, if_neg h1], .inr (by rw [hreg, if_pos rfl]), ?_⟩, ?_⟩
  · rw [State.lastReset, State.rf, hstatus, rfld_rput_other _ _ (by decide) (by decide), rfld_rput_other _ _ (by decide) (by decide)]
    rfl
  · rw [State.devState, State.rf, hstatus, rfld_rput_other _ _ (by decide) (by decide), rfld_rput_same _ _ (by decide)]
    rfl

/-- The state from which the ROM starts may be taken for the one before it counted the boot. -/
theorem RomStart.of_romStarts (h : RomStart s.romStarts t) : RomStart s t := by
  obtain ⟨hframe, hregs, hport, hlast⟩ := h
  have hrom := romStarts_eq s
  generalize s.romStarts = r at *
  have hreg : ∀ a, r.reg a = s.reg a := fun a => by rw [hrom]; rfl
  have hr : r.lastReset = s.lastReset := by rw [hrom]; rfl
  refine ⟨?_, fun a h1 h2 => (hregs a h1 h2).trans (hreg a), ?_, hlast.trans hr⟩
  · rw [hframe, hrom]
  · rwa [hreg] at hport

theorem romStart_startBoot (s : State) : RomStart s s.startBoot
    ∧ (s.unheld → s.startBoot.devState = if s.boot.flashFound then stBoot else stRecovery)
    ∧ (¬ s.unheld → s.startBoot = s) := by
  refine ⟨?_, fun h => ?_, startBoot_held⟩
  · by_cases h : s.unheld
    · rw [startBoot_unheld h]
      split
      · exact (romStart_setDevState ..).of_romStarts
      · exact (romStart_enterRecovery ..).1.of_romStarts
    · rw [startBoot_held h]
      exact .refl s
  · rw [startBoot_unheld h]
    split
    · exact devState_setDevState _ (by decide)
    · exact (romStart_enterRecovery ..).2

/-- The start of the ROM after a cold reset leaves what that settles: PORT_STATUS is at its Reset value, 0. -/
theorem RomStart.still (h : RomStart d t) (hport : d.reg aPortStatus = regReset aPortStatus) : Cold.Still d t where
  frame := by rw [h.frame]
  regs a ha := by
    by_cases hp : a = aPortStatus
    · subst hp
      rcases h.port with e | e
      · exact e
      · rw [e, hport]; rfl
    · exact h.regs a ha hp
  reserve := by rw [h.frame]
  lines := by rw [h.frame]

/-! ### Cold resets (R81–R83, R89, R114) -/

/-- A cold reset: the device in RESET with its source (R114). -/
theorem coldReset_spec (s : State) {source : Nat} (h : source < 16) : ColdLeft s (s.coldReset source)
    ∧ (s.coldReset source).lastReset = source ∧ (s.coldReset source).devState = stReset := by
  have hreg : s.powerDown.reg aDevStatus = 0 := by rw [State.reg, (powerDown_keeps s).2.2.1]; rfl
  refine ⟨(coldLeft_powerDown s).still (Cold.still_status ..), ?_, ?_⟩
  · rw [State.coldReset, State.lastReset, State.rf, reg_setF, if_pos rfl, rfld_rput_same _ _ (by decide)]
    exact Nat.mod_eq_of_lt h
  · rw [State.coldReset, State.devState, State.rf, reg_setF, if_pos rfl, rfld_rput_other _ _ (by decide) (by decide), hreg]
    rfl

theorem coldReset_keeps (s : State) (source : Nat) : (s.coldReset source).tick = s.tick ∧ (s.coldReset source).fuses = s.fuses
    ∧ (s.coldReset source).pins
      = { s.pins with ethTx := false, ddrResetN := false, nearSelfRefresh := false, glacierSelfRefresh := false }
    ∧ (s.coldReset source).boot = { ({} : Boot) with
        flashFound := s.boot.flashFound, flashQuad := s.boot.flashQuad, tripped := s.boot.tripped } := by
  obtain ⟨htick, hfuses, -, hpins, hboot⟩ := powerDown_keeps s
  rw [State.coldReset]
  generalize s.powerDown = d at *
  exact ⟨htick, hfuses, hpins, hboot⟩

/-- A cold reset whose boot starts at once, where nothing holds the device (R104). -/
theorem coldReset_startBoot (s : State) {source : Nat} (h : source < 16) :
    let boots : Prop := s.pins.pwrGood = true ∧ s.pins.resetN = true ∧ s.pins.tapHold = false
    ∃ t, (s.coldReset source).startBoot = t ∧ ColdLeft s t ∧ t.lastReset = source ∧ t.tick = s.tick ∧ t.fuses = s.fuses
      ∧ (¬ boots → t.devState = stReset) ∧ (boots → t.devState = if s.boot.flashFound then stBoot else stRecovery) := by
  intro boots
  obtain ⟨hleft, hlast, hdev⟩ := coldReset_spec s h
  obtain ⟨htick, hfuses, hpins, hboot⟩ := coldReset_keeps s source
  generalize s.coldReset source = d at *
  obtain ⟨hrom, hstart, hheld⟩ := romStart_startBoot d
  have hstarts : d.unheld ↔ boots := by
    simp only [State.unheld, hdev, hpins, hboot, true_and, and_true, boots]
  have hflash : d.boot.flashFound = s.boot.flashFound := by rw [hboot]
  rw [hstarts, hflash] at hstart
  rw [hstarts] at hheld
  refine ⟨_, rfl, hleft.still (hrom.still (hleft.regs _ (by decide))), hrom.last.trans hlast, ?_, ?_, fun hn => ?_, hstart⟩
  · rw [hrom.frame]; exact htick
  · rw [hrom.frame]; exact hfuses
  · rw [hheld hn]; exact hdev

theorem writeReg_devCtl {r : Req} {v : W32} : s.writeReg r false false aDevCtl v = s.wDevCtl (s.keyOf r.who) v := rfl

/-- A write of DEV_CTL that keeps RUN and MAINT may request a reset (R113). -/
theorem regRow_devCtl {r : Req} {v : W32} (h : TakesWrite s r aDevCtl v) (h0 : rbit v 0 = s.rb aDevCtl 0) (h1 : rbit v 1 = s.rb aDevCtl 1) :
    s.regRow r aDevCtl v = s.ctlReset v := by
  rw [h.regRow_eq (Option.some_ne_none _), writeReg_devCtl, State.wDevCtl]
  simp only [h0, h1, bne_self_eq_false, Bool.and_self, Bool.false_eq_true, if_false, WRes.row_ok]

theorem exec_devCtlResetCold {r : Req} {v : W32} :
    exec (.devCtlResetCold r v) s = .next (if rfld v 8 4 = 0xA then s.regRow r aDevCtl v else s) := rfl

theorem exec_devCtlResetWarm {r : Req} {v : W32} :
    exec (.devCtlResetWarm r v) s = .next (if rfld v 8 4 = 0x5 then s.regRow r aDevCtl v else s) := rfl

theorem exec_devCtlReset_cold {r : Req} {v : W32} (h : TakesWrite s r aDevCtl v) (h0 : rbit v 0 = s.rb aDevCtl 0)
    (h1 : rbit v 1 = s.rb aDevCtl 1) (hv : rfld v 8 4 = 0xA) : exec (.devCtlResetCold r v) s = .next (s.coldReset 0x2).startBoot := by
  rw [exec_devCtlResetCold, if_pos hv, regRow_devCtl h h0 h1, State.ctlReset, if_neg (by rw [hv]; decide), if_pos hv]

theorem exec_devCtlReset_warm {r : Req} {v : W32} (h : TakesWrite s r aDevCtl v) (h0 : rbit v 0 = s.rb aDevCtl 0)
    (h1 : rbit v 1 = s.rb aDevCtl 1) (hv : rfld v 8 4 = 0x5) : exec (.devCtlResetWarm r v) s = .next (s.warmReset 0x4) := by
  rw [exec_devCtlResetWarm, if_pos hv, regRow_devCtl h h0 h1, State.ctlReset, if_pos hv]

theorem exec_devResetNLongHold : exec .devResetNLongHold s = execDevResetNLongHold s := rfl

theorem runs_devResetNLongHold (hg : s.pins.pwrGood = true) (hr : s.pins.resetN = false) (hw : s.boot.warmByPin = true)
    (hd : s.devState ≠ stHalted) : Runs .devResetNLongHold s fun t => ColdLeft s t ∧ t.lastReset = 1 ∧ t.devState = stReset ∧ t.tick = s.tick := by
  obtain ⟨hleft, hlast, hdev⟩ := coldReset_spec s (source := 1) (by decide)
  refine ⟨_, ?_, hleft, hlast, hdev, (coldReset_keeps s 1).1⟩
  rw [exec_devResetNLongHold, execDevResetNLongHold, if_pos (by simp [hg, hr, hw, hd])]

/-! ### Supplies (R54, R55, R73, R81, R89) -/

theorem exec_pwrGoodRise : exec .pwrGoodRise s = execPwrGoodRise s := rfl

theorem exec_pwrGoodFall : exec .pwrGoodFall s = execPwrGoodFall s := rfl

theorem exec_vauxRise (p : BitVec 2) : exec (.vauxRise p) s = execVauxRise p s := rfl

theorem exec_vauxLoss : exec .vauxLoss s = execVauxLoss s := rfl

/-- PWR_GOOD rises after a cold reset d: a trip's latch that stands halts the device, or is released (R73, R76). -/
def State.railsUp (d : State) (stands : Bool) : State :=
  let u := { d with pins := { d.pins with pwrGood := true, resetN := false } }
  if stands then u.setDevState stHalted
  else { u with pins := { u.pins with thermTrip := false, tripFell := false }, boot := { u.boot with tripped := false } }

theorem exec_pwrGoodRise_vaux (hv : s.pins.vaux = true) (hg : s.pins.pwrGood = false) : exec .pwrGoodRise s
    = .next ((s.coldReset (if s.boot.tripped then 0x8 else 0x0)).railsUp (s.pins.thermTrip && !s.pins.tripFell)) := by
  rw [exec_pwrGoodRise, execPwrGoodRise, if_neg (by simp [hv, hg])]
  rfl

theorem railsUp_spec (d : State) (b : Bool) : Cold.Still d (d.railsUp b) ∧ (d.railsUp b).lastReset = d.lastReset
    ∧ (d.railsUp b).pins.pwrGood = true ∧ (d.railsUp b).tick = d.tick
    ∧ (d.railsUp b).devState = (if b then stHalted else d.devState)
    ∧ (d.railsUp b).pins.thermTrip = (b && d.pins.thermTrip) := by
  unfold State.railsUp
  cases b with
  | false => exact ⟨Cold.still_pins d d.tick _ _, rfl, rfl, rfl, rfl, rfl⟩
  | true =>
    have hstill := Cold.still_pins d d.tick { d.pins with pwrGood := true, resetN := false } d.boot
    simp only [if_true, Bool.true_and]
    refine ⟨hstill.trans (Cold.still_status ..), lastReset_setDevState .., ?_, ?_, devState_setDevState _ (by decide), ?_⟩
    all_goals rw [setDevState_eq, setF_eq]; rfl

theorem runs_pwrGoodRise (hv : s.pins.vaux = true) (hg : s.pins.pwrGood = false) : Runs .pwrGoodRise s fun t => ColdLeft s t
    ∧ t.lastReset = (if s.boot.tripped then 8 else 0) ∧ t.pins.pwrGood = true ∧ t.tick = s.tick
    ∧ let stands : Prop := s.pins.thermTrip = true ∧ s.pins.tripFell = false
      (stands → t.devState = stHalted ∧ t.pins.thermTrip = true)
      ∧ (¬ stands → t.devState = stReset ∧ t.pins.thermTrip = false) := by
  obtain ⟨hleft, hlast, hdev⟩ := coldReset_spec s (source := if s.boot.tripped then 0x8 else 0x0) (by split <;> decide)
  obtain ⟨htick, -, hpins, -⟩ := coldReset_keeps s (if s.boot.tripped then 0x8 else 0x0)
  refine ⟨_, exec_pwrGoodRise_vaux hv hg, ?_⟩
  generalize s.coldReset (if s.boot.tripped then 0x8 else 0x0) = d at *
  have htrip : d.pins.thermTrip = s.pins.thermTrip := by rw [hpins]
  obtain ⟨hstill, hlast', hgood, htick', hdev', htrip'⟩ := railsUp_spec d (s.pins.thermTrip && !s.pins.tripFell)
  rw [htrip] at htrip'
  refine ⟨hleft.still hstill, hlast'.trans hlast, hgood, htick'.trans htick, fun ⟨h1, h2⟩ => ?_, fun hn => ?_⟩
  · rw [hdev', htrip', h1, h2]; exact ⟨rfl, rfl⟩
  · have hb : (s.pins.thermTrip && !s.pins.tripFell) = false := by simpa using hn
    rw [hdev', htrip', hb, hdev]; exact ⟨rfl, rfl⟩

/-- A loss of power after the counts were written. -/
theorem ColdLeft.of_lifeFlush (h : ColdLeft s.lifeFlush t) : ColdLeft s t := by
  obtain ⟨regs, idle, held, flash, keys, reserve, stores⟩ := h
  exact ⟨regs, idle, held, flash, keys, reserve, stores⟩

theorem runs_pwrGoodFall (hg : s.pins.pwrGood = true) : Runs .pwrGoodFall s fun t => ColdLeft s t ∧ t.devState = stReset
    ∧ t.pins.pwrGood = false ∧ t.pins.thermTrip = s.pins.thermTrip ∧ t.pins.tripFell = s.pins.thermTrip ∧ t.tick = s.tick := by
  have hleft := (coldLeft_powerDown s.lifeFlush).of_lifeFlush
  obtain ⟨htick, -, hregs, hpins, -⟩ := powerDown_keeps s.lifeFlush
  have hexec : exec .pwrGoodFall s = .next { s.lifeFlush.powerDown with pins := { s.lifeFlush.powerDown.pins with
      pwrGood := false, resetN := false, tripFell := s.pins.thermTrip, tapHold := false, tap := .testLogicReset } } := by
    rw [exec_pwrGoodFall, execPwrGoodFall, if_neg (by simp [hg])]
  generalize s.lifeFlush.powerDown = d at *
  have hreg : d.reg aDevStatus = 0 := by rw [State.reg, hregs]; rfl
  refine ⟨_, hexec, hleft.still (Cold.still_pins d d.tick _ d.boot), ?_, rfl, ?_, rfl, htick⟩
  · exact (congrArg (rfld · 0 4) hreg).trans rfl
  · exact (congrArg Pins.thermTrip hpins :)

theorem runs_vauxRise (p : BitVec 2) (hv : s.pins.vaux = false) : Runs (.vauxRise p) s fun t => ColdLeft s t ∧ t.tick = 0
    ∧ t.fuses = s.fuses ∧ t.pins.straps = p ∧ t.pins.vaux = true := by
  have hleft := coldLeft_powerDown s
  have hfuses := (powerDown_keeps s).2.1
  have hexec : exec (.vauxRise p) s = .next (({ s.powerDown with
      tick := 0, pins := { ({} : Pins) with vaux := true, pwrGood := false, straps := p } } : State).lifeAdd 0x7 1 1) := by
    rw [exec_vauxRise, execVauxRise, if_neg (by simp [hv])]
  generalize s.powerDown = d at *
  refine ⟨_, hexec, hleft.still ⟨rfl, fun _ _ => rfl, rfl, rfl⟩, rfl, hfuses, rfl, rfl⟩

theorem runs_vauxLoss (hv : s.pins.vaux = true) : Runs .vauxLoss s fun t => ColdLeft s t ∧ t.tick = 0 ∧ t.pins.vaux = false
    ∧ t.pins.thermTrip = false := by
  have hleft := coldLeft_powerDown s
  have hexec : exec .vauxLoss s = .next { s.powerDown with
      tick := 0, pins := { ({} : Pins) with vaux := false, pwrGood := false },
      boot := { s.powerDown.boot with tripped := false }, smd := { s.powerDown.smd with lifeNew := [], lifeSec := [] } } := by
    rw [exec_vauxLoss, execVauxLoss, if_neg (by simp [hv])]
  generalize s.powerDown = d at *
  exact ⟨_, hexec, hleft.still ⟨rfl, fun _ _ => rfl, rfl, rfl⟩, rfl, rfl, rfl⟩

/-! ### Instructions of the TAP that hold the device in reset (R933) -/

theorem scanDr_still (d : State) (x : BoundaryScan) : Cold.Still d (d.scanDr x) ∧ (d.scanDr x).regs = d.regs
    ∧ (d.scanDr x).pins.tapIr = d.pins.tapIr ∧ (d.scanDr x).pins.tapHold = d.pins.tapHold := by
  unfold State.scanDr State.emit
  dsimp only
  split <;> exact ⟨⟨rfl, fun _ _ => rfl, rfl, rfl⟩, rfl, rfl, rfl⟩

/-- The device as the TAP takes it into RESET. -/
theorem tapHoldReset_spec {code : Nat} {park : TapState} (hp : park ≠ .testLogicReset) (ht : s.tapPowered = true)
    (hd : s.devState ≠ stHalted) : ColdLeft s (s.tapHoldReset code park) ∧ (s.tapHoldReset code park).lastReset = 7
      ∧ (s.tapHoldReset code park).devState = stReset ∧ (s.tapHoldReset code park).pins.tapIr = code
      ∧ (s.tapHoldReset code park).pins.tapHold = true := by
  have h : s.tapHoldReset code park
      = ({ s.parked code park with pins := { (s.parked code park).pins with tapHold := true } } : State).coldReset 0x7 := by
    simp only [State.tapHoldReset, ht, Bool.not_true, Bool.false_eq_true, if_false, if_neg hd, if_neg hp, tapLoad_leavePark s hp]
  obtain ⟨hleft, hlast, hdev⟩ :=
    coldReset_spec ({ s.parked code park with pins := { (s.parked code park).pins with tapHold := true } } : State) (source := 7) (by decide)
  obtain ⟨-, -, hpins, -⟩ :=
    coldReset_keeps ({ s.parked code park with pins := { (s.parked code park).pins with tapHold := true } } : State) 7
  rw [← h] at hleft hlast hdev hpins
  generalize s.tapHoldReset code park = d at *
  refine ⟨?_, hlast, hdev, by rw [hpins]; rfl, by rw [hpins]⟩
  obtain ⟨regs, idle, held, flash, keys, reserve, stores⟩ := hleft
  exact ⟨regs, idle, held, flash, keys, reserve, stores⟩

/-- What the TAP's cold-reset instructions do: the three that select the boundary register scan it as well. -/
theorem exec_tapHolds (b : BoundaryScan) (park : TapState) :
    exec (.extest b park) s = .next (s.tapHoldScan 0x00 b park) ∧ exec (.clamp park) s = .next (s.tapHoldReset 0x04 park)
    ∧ exec (.highz park) s = .next (s.tapHoldReset 0x05 park) ∧ exec (.extestPulse b park) s = .next (s.tapHoldScan 0x06 b park)
    ∧ exec (.extestTrain b park) s = .next (s.tapHoldScan 0x07 b park) := ⟨rfl, rfl, rfl, rfl, rfl⟩

/-- The device that the TAP holds in RESET under instruction ir. -/
def TapHeld (s t : State) (ir : Nat) : Prop :=
  ColdLeft s t ∧ t.lastReset = 7 ∧ t.devState = stReset ∧ t.pins.tapIr = ir ∧ t.pins.tapHold = true

theorem tapHeld_scan {code : Nat} {park : TapState} (b : BoundaryScan) (hp : park ≠ .testLogicReset) (ht : s.tapPowered = true)
    (hd : s.devState ≠ stHalted) : TapHeld s (s.tapHoldScan code b park) code := by
  obtain ⟨hleft, hlast, hdev, hir, hhold⟩ := tapHoldReset_spec (code := code) hp ht hd
  rw [State.tapHoldScan]
  simp only [ht, if_true]
  generalize s.tapHoldReset code park = d at *
  obtain ⟨hstill, hregs, hir', hhold'⟩ := scanDr_still d b
  have hreg : (d.scanDr b).reg aDevStatus = d.reg aDevStatus := by rw [State.reg, hregs, State.reg]
  refine ⟨hleft.still hstill, ?_, ?_, hir'.trans hir, hhold'.trans hhold⟩
  · rw [State.lastReset, State.rf, hreg]; exact hlast
  · rw [State.devState, State.rf, hreg]; exact hdev

theorem runs_tapHolds {b : BoundaryScan} {i : TapState → Instr} {ir : Nat} {park : TapState}
    (h : (i, ir) ∈ [(Instr.extest b, 0x00), (Instr.clamp, 0x04), (Instr.highz, 0x05), (Instr.extestPulse b, 0x06), (Instr.extestTrain b, 0x07)])
    (hp : park ≠ .testLogicReset) (ht : s.tapPowered = true) (hd : s.devState ≠ stHalted) : Runs (i park) s fun t => TapHeld s t ir := by
  obtain ⟨hextest, hclamp, hhighz, hpulse, htrain⟩ := exec_tapHolds (s := s) b park
  simp only [List.mem_cons, Prod.mk.injEq, List.not_mem_nil, or_false] at h
  rcases h with ⟨rfl, rfl⟩ | ⟨rfl, rfl⟩ | ⟨rfl, rfl⟩ | ⟨rfl, rfl⟩ | ⟨rfl, rfl⟩
  · exact ⟨_, hextest, tapHeld_scan b hp ht hd⟩
  · exact ⟨_, hclamp, tapHoldReset_spec hp ht hd⟩
  · exact ⟨_, hhighz, tapHoldReset_spec hp ht hd⟩
  · exact ⟨_, hpulse, tapHeld_scan b hp ht hd⟩
  · exact ⟨_, htrain, tapHeld_scan b hp ht hd⟩

/-! ### The warm-entry steps end (R87, R105) -/

theorem exec_warmEntryComplete : exec .warmEntryComplete s = execWarmEntryComplete s := rfl

/-- A clean cache, both tiers in self-refresh, and the warm-entry steps over. -/
def State.warmEntered (s : State) : State :=
  { s with dome := { ({} : Dome) with served := s.dome.served }, boot := { s.boot with warmEntry := false },
           pins := { s.pins with nearSelfRefresh := true, glacierSelfRefresh := true } }

theorem exec_warmEntryComplete_calm (hw : s.boot.warmEntry = true) (hc : s.calm) :
    exec .warmEntryComplete s = .next (s.evictAll (s.dome.lines.map (·.1))).warmEntered.startBoot := by
  rw [exec_warmEntryComplete, execWarmEntryComplete, if_neg (by simp [hw])]
  simp only [settleAll_calm _ hc.1]
  rfl

theorem runs_warmEntryComplete (hw : s.boot.warmEntry = true) (hc : s.calm) :
    let boots : Prop := s.pins.pwrGood = true ∧ s.pins.resetN = true ∧ s.pins.tapHold = false
    Runs .warmEntryComplete s fun t => t.mem = s.mem ∧ t.dome.lines = []
      ∧ t.tasks = s.tasks ∧ t.keys = s.keys ∧ t.pins.nearSelfRefresh = true ∧ t.pins.glacierSelfRefresh = true
      ∧ t.boot.warmEntry = false
      ∧ (boots → s.devState = stReset → t.devState = if s.boot.flashFound then stBoot else stRecovery)
      ∧ (¬ boots ∨ s.devState ≠ stReset → t.devState = s.devState) := by
  intro boots
  have hev := evicted_evictAll (s.dome.lines.map (·.1)) s
  refine ⟨_, exec_warmEntryComplete_calm hw hc, ?_⟩
  generalize s.evictAll (s.dome.lines.map (·.1)) = c at *
  obtain ⟨hmem, -⟩ := hev.mem hc.2
  obtain ⟨hrom, hstart, hheld⟩ := romStart_startBoot c.warmEntered
  have hdev : c.warmEntered.devState = s.devState := (congrArg (rfld · 0 4) (hev.regs aDevStatus (by decide)) :)
  have hframe : c.tasks = s.tasks ∧ c.keys = s.keys ∧ c.pins = s.pins ∧ c.boot = s.boot := by
    obtain ⟨rg, dm, bad, m, rfl⟩ := hev.dome
    exact ⟨rfl, rfl, rfl, rfl⟩
  obtain ⟨htasks, hkeys, hpins, hboot⟩ := hframe
  have hstarts : c.warmEntered.unheld ↔ s.devState = stReset ∧ boots := by
    rw [State.unheld, hdev]
    simp only [State.warmEntered, hpins, and_true, boots]
  have hflash : c.warmEntered.boot.flashFound = s.boot.flashFound := (congrArg Boot.flashFound hboot :)
  refine ⟨?_, ?_, ?_, ?_, ?_, ?_, ?_, fun hb hd => ?_, fun hn => ?_⟩
  · rw [hrom.frame]; exact hmem
  · rw [hrom.frame]; rfl
  · rw [hrom.frame]; exact htasks
  · rw [hrom.frame]; exact hkeys
  · rw [hrom.frame]; rfl
  · rw [hrom.frame]; rfl
  · rw [hrom.frame]; rfl
  · rw [hstart (hstarts.mpr ⟨hd, hb⟩), hflash]
  · rw [hheld (by rw [hstarts]; tauto), hdev]

end Sys2Proof.Machine
end

section
namespace Sys2Proof.Machine

/-! ## Registers below the Dome cache's counters -/

variable {s t u : State} {a : Nat}

/-- Of the registers, only those of the Dome cache's bookkeeping and above changed. -/
structure LowRegs (s t : State) : Prop where
  reg : ∀ a, a < 0x40100 → t.reg a = s.reg a

theorem LowRegs.refl (s : State) : LowRegs s s := ⟨fun _ _ => rfl⟩

theorem LowRegs.trans (h : LowRegs s t) (k : LowRegs t u) : LowRegs s u := ⟨fun a ha => (k.reg a ha).trans (h.reg a ha)⟩

theorem LowRegs.of_regs (h : t.regs = s.regs) : LowRegs s t := ⟨fun a _ => by rw [State.reg, h, State.reg]⟩

theorem lowRegs_dome (s : State) (d : Dome) : LowRegs s { s with dome := d } := .of_regs rfl

theorem lowRegs_mem (s : State) (m : Mem) : LowRegs s { s with mem := m } := .of_regs rfl

theorem LowRegs.setReg (h : LowRegs s t) (ha : 0x40100 ≤ a) (v : W32) : LowRegs s (t.setReg a v) :=
  h.trans ⟨fun b hb => by rw [reg_setReg, if_neg (by omega)]⟩

theorem lowRegs_bump (s : State) (ha : 0x40100 ≤ a) (n : Nat) : LowRegs s (s.bump a n) := (LowRegs.refl s).setReg ha _

theorem lowRegs_foldl {α : Type} {f : State → α → State} (h : ∀ s x, LowRegs s (f s x)) (l : List α) (s : State) : LowRegs s (l.foldl f s) := by
  induction l generalizing s with
  | nil => exact .refl s
  | cons x l ih => exact (h s x).trans (ih _)

theorem lowRegs_writeBack (s : State) (k : Nat) : LowRegs s (s.writeBack k) :=
  ⟨fun a ha => (writeBack_spec s k).1 a (by simp only [aDomeCnt]; omega)⟩

theorem lowRegs_evict (s : State) (k : Nat) : LowRegs s (s.evict k) :=
  ⟨fun a ha => (evicted_evict s k).regs a (by simp only [aDomeCnt]; omega)⟩

theorem lowRegs_chooseVictim (s : State) (l : Nat) : LowRegs s (s.chooseVictim l).2 :=
  ((LowRegs.refl s).setReg (by simp only [aDomeSeed]; omega) _).trans (lowRegs_bump _ (by decide) _)

theorem lowRegs_install (s : State) (l w : Nat) : LowRegs s (s.install l w) := .of_regs rfl

theorem lowRegs_dirtyLine (s : State) (l w : Nat) : LowRegs s (s.dirtyLine l w) := by
  unfold State.dirtyLine
  dsimp only
  split
  · exact .refl s
  · split
    · exact .refl s
    · split
      · split
        · exact (lowRegs_writeBack s _).trans (.of_regs rfl)
        · exact .of_regs rfl
      · exact .of_regs rfl

theorem lowRegs_wroteLine (s : State) (a n l : Nat) : LowRegs s (s.wroteLine a n l) := by
  unfold State.wroteLine
  split
  · exact .of_regs rfl
  · dsimp only
    split
    · exact .of_regs rfl
    · exact .refl s

theorem lowRegs_storeBytes (s : State) (a : Nat) (b : List Byte) : LowRegs s (s.storeBytes a b) :=
  (lowRegs_mem s _).trans (lowRegs_foldl (fun u l => lowRegs_wroteLine u a b.length l) _ _)

theorem lowRegs_victimHit (s : State) (l : Nat) : LowRegs s (s.victimHit l) := by
  unfold State.victimHit
  split
  · exact lowRegs_bump s (by decide) _
  · exact .refl s

/-- A fill's line taken into its way. -/
theorem lowRegs_fill (s : State) (f : Fill) (l : Nat) :
    LowRegs s (if f.raced then s.bump (aDomeCnt 4) else (s.evict (wayKey l f.way)).install l f.way) := by
  split
  · exact lowRegs_bump s (by decide) _
  · exact (lowRegs_evict s _).trans (lowRegs_install ..)

theorem lowRegs_settleFill (s : State) (l : Nat) : LowRegs s (s.settleFill l) := by
  unfold State.settleFill
  split
  · exact .refl s
  case h_2 f _ =>
    dsimp only
    have hdirty : ∀ u : State, LowRegs u (if (f.writes.isEmpty || f.raced) = true then u else u.dirtyLine l f.way) := by
      intro u
      split
      · exact .refl u
      · exact lowRegs_dirtyLine ..
    have hwrites : ∀ u : State, LowRegs u (f.writes.foldl (fun (t : State) (w : Nat × List Byte) => t.storeBytes w.1 w.2) u) :=
      fun u => lowRegs_foldl (fun u (w : Nat × List Byte) => lowRegs_storeBytes u w.1 w.2) _ u
    refine LowRegs.trans ?_ (lowRegs_dome _ _)
    refine LowRegs.trans ?_ (hwrites _)
    refine LowRegs.trans ?_ (hdirty _)
    exact (lowRegs_dome s _).trans (lowRegs_fill _ f l)

theorem lowRegs_touch (s : State) (w : Bool) (l : Nat) : LowRegs s (s.touch w l) := by
  unfold State.touch
  split
  · exact .refl s
  · dsimp only
    have hdirty : ∀ (u : State) (v : Nat), LowRegs u (if w = true then u.dirtyLine l v else u) := by
      intro u v
      split
      · exact lowRegs_dirtyLine ..
      · exact .refl u
    refine (lowRegs_settleFill s l).trans ((LowRegs.trans ?_ (hdirty _ _)))
    split
    · exact lowRegs_bump _ (by decide) _
    · exact (lowRegs_victimHit ..).trans ((lowRegs_chooseVictim ..).trans ((lowRegs_evict ..).trans (lowRegs_install ..)))

theorem lowRegs_writeTier (s : State) (a : Nat) (b : List Byte) : LowRegs s (s.writeTier a b) := by
  have hlines : LowRegs s (if b.isEmpty then s else (linesOf a b.length).foldl (fun u l => u.touch true l) s) := by
    split
    · exact .refl s
    · exact lowRegs_foldl (fun u l => lowRegs_touch u true l) _ s
  exact hlines.trans (lowRegs_storeBytes ..)

theorem writeTier_dome (s : State) (a : Nat) (b : List Byte) : DomeOnly s (s.writeTier a b) := by
  have hlines : DomeOnly s (if b.isEmpty then s else (linesOf a b.length).foldl (fun u l => u.touch true l) s) := by
    split
    · exact .refl s
    · exact foldl_dome _ (fun u l => touch_dome u true l) _ s
  exact hlines.trans (storeBytes_dome ..)

/-! ### Traces of the dispatcher and its status (R699, R723) -/

theorem setReg_domeOnly (s : State) (a : Nat) (v : W32) : DomeOnly s (s.setReg a v) := ⟨_, _, _, _, rfl⟩

/-- A trace entry goes through the Dome cache, and is counted. -/
theorem ringPut_spec (s : State) {c lo cfg cnt : Nat} (e : List Byte) (hcfg : 0x40100 ≤ cfg) (hcnt : 0x40100 ≤ cnt) :
    DomeOnly s (s.ringPut c lo cfg cnt false e) ∧ LowRegs s (s.ringPut c lo cfg cnt false e) := by
  unfold State.ringPut
  dsimp only
  split
  · exact ⟨.refl s, .refl s⟩
  · split
    · exact ⟨(setReg_domeOnly ..).trans (writeTier_dome ..), ((LowRegs.refl s).setReg hcnt _).trans (lowRegs_writeTier ..)⟩
    · simp only [Bool.false_eq_true, if_false]
      exact ⟨setReg_domeOnly .., (LowRegs.refl s).setReg hcfg _⟩

theorem dtrace_spec (s : State) (reason asn item frag sp core ctx key prio : Nat) :
    DomeOnly s (s.dtrace reason asn item frag sp core ctx key prio) ∧ LowRegs s (s.dtrace reason asn item frag sp core ctx key prio)
      ∧ (s.traceOff → s.dtrace reason asn item frag sp core ctx key prio = s) := by
  unfold State.dtrace
  split
  · exact ⟨.refl s, .refl s, fun _ => rfl⟩
  case isFalse hn =>
    obtain ⟨hdome, hlow⟩ := ringPut_spec s (c := s.rf (aDisp 0x058) 12 4) (lo := aDisp 0x050) (cfg := aDisp 0x058) (cnt := aDisp 0x05C)
      (traceEntry s.tick asn item frag sp core ctx key reason prio) (by decide) (by decide)
    refine ⟨hdome, hlow, fun h => absurd ?_ hn⟩
    rw [State.traceOff] at h
    simp [h]

/-- Quiet bookkeeping: of the registers only high ones, and memory through trace entries only. -/
structure Quiet (s t : State) : Prop where
  frame : ∃ rg dm bad m po, t = { s with regs := rg, dome := dm, badBytes := bad, mem := m, port := po }
  regs : LowRegs s t
  mem : s.traceOff → t.mem = s.mem

theorem Quiet.of_dtrace {reason : Nat} (hframe : ∃ rg, t = { s with regs := rg }) (hlow : LowRegs s t)
    (hoff : s.traceOff → t.traceOff) : Quiet s (t.dtrace reason 0 0 0 0xFF 0xFF 0 0 0).pfcSync := by
  obtain ⟨hdome, hlow', hmem⟩ := dtrace_spec t reason 0 0 0 0xFF 0xFF 0 0 0
  generalize t.dtrace reason 0 0 0 0xFF 0xFF 0 0 0 = u at *
  obtain ⟨w, x, hp, -⟩ := pfcSync_only u
  obtain ⟨rg', rfl⟩ := hframe
  refine ⟨?_, (hlow.trans hlow').trans ?_, fun h => ?_⟩
  · obtain ⟨rg, dm, bad, m, rfl⟩ := hdome
    exact ⟨_, _, _, _, _, hp⟩
  · exact ⟨fun a _ => (pfcSync_only u).reg⟩
  · rw [hp, hmem (hoff h)]

/-- DISP_STATUS as it follows the free entries. -/
def State.dispStatus (s : State) : State :=
  let a := if s.rb (aDisp 0x004) 30 then decide (s.freeEntries < 24576) else decide (s.freeEntries < 16384)
  let b := if s.rb (aDisp 0x004) 31 then decide (s.freeEntries < 8192) else decide (s.freeEntries < 4096)
  ((s.setF (aDisp 0x004) 0 19 s.freeEntries).setB (aDisp 0x004) 30 a).setB (aDisp 0x004) 31 b

theorem countSpawns_idle (h : s.cores = []) : s.countSpawns = s := by
  rw [State.countSpawns, h]
  split <;> rfl

theorem ite_ite_cases {α : Type} (b c : Bool) (x y z : α) : (if b then x else if c then y else z) = z
    ∨ (if b then x else if c then y else z) = x ∨ (if b then x else if c then y else z) = y := by
  cases b with
  | true => exact .inr (.inl rfl)
  | false => cases c with
    | true => exact .inr (.inr rfl)
    | false => exact .inl rfl

theorem updateBp_cases (h : s.cores = []) : s.updateBp = s.dispStatus
    ∨ s.updateBp = ((s.dispStatus.bump (aDisp 0x114)).dtrace 0x09 0 0 0 0xFF 0xFF 0 0 0).pfcSync
    ∨ s.updateBp = (s.dispStatus.dtrace 0x0A 0 0 0 0xFF 0xFF 0 0 0).pfcSync := by
  rw [State.updateBp, countSpawns_idle h]
  exact ite_ite_cases _ _ _ _ _

theorem regsOnly_dispStatus (s : State) : RegsOnly s s.dispStatus [aDisp 0x004] :=
  (((RegsOnly.refl s _).setReg List.mem_cons_self _).setReg List.mem_cons_self _).setReg List.mem_cons_self _

/-- With the cores idle, the dispatcher's status is bookkeeping. -/
theorem quiet_updateBp (h : s.cores = []) : Quiet s s.updateBp := by
  obtain ⟨hframe, hreg⟩ := regsOnly_dispStatus s
  have hcases := updateBp_cases h
  generalize s.dispStatus = t at *
  have hlow : LowRegs s t := ⟨fun a ha => hreg a (by simp only [aDisp, List.mem_singleton]; omega)⟩
  have hoff : s.traceOff → t.traceOff := fun ho => by rwa [State.traceOff, State.rf, hreg _ (by decide)]
  rcases hcases with e | e | e
  · rw [e]
    refine ⟨⟨t.regs, s.dome, s.badBytes, s.mem, s.port, hframe⟩, hlow, fun _ => ?_⟩
    rw [hframe]
  · rw [e]
    refine .of_dtrace ⟨_, by rw [bump_eq, hframe]; rfl⟩ (hlow.trans (lowRegs_bump t (by decide) _)) fun ho => ?_
    rw [State.traceOff, State.rf, bump_eq, reg_setReg, if_neg (by decide)]
    exact hoff ho
  · rw [e]
    exact .of_dtrace ⟨_, hframe⟩ hlow hoff

end Sys2Proof.Machine
end

section
namespace Sys2Proof.Machine

/-! ## Warm resets and the thermal trip -/

variable {s t u : State} {a : Nat}

theorem RegsOnly.setF {l : List Nat} (h : RegsOnly s t l) (ha : a ∈ l) (lo n v : Nat) : RegsOnly s (t.setF a lo n v) l := by
  rw [setF_eq]
  exact h.setReg ha _

theorem RegsOnly.setB {l : List Nat} (h : RegsOnly s t l) (ha : a ∈ l) (i : Nat) (b : Bool) : RegsOnly s (t.setB a i b) l := by
  rw [setB_eq]
  exact h.setReg ha _

/-! ### Sessions close (R88) -/

/-- The tasks by what names and what asks for them, whoever they answer to. -/
def named (l : List Task) : List (Nat × Nat × List Byte) := l.map fun x => (x.key, x.asn, x.payload)

/-- Sessions have closed: of the tasks only the session that each answers to changed. -/
structure Closed (s t : State) : Prop where
  frame : t = { s with regs := t.regs, sess := t.sess, tasks := t.tasks, fanouts := t.fanouts, form := t.form }
  tasks : named t.tasks = named s.tasks
  regs : ∀ a, a ≠ aPeer 0x14 → t.reg a = s.reg a

theorem Closed.trans (h : Closed s t) (k : Closed t u) : Closed s u where
  frame := by rw [k.frame, h.frame]
  tasks := k.tasks.trans h.tasks
  regs a ha := (k.regs a ha).trans (h.regs a ha)

theorem closed_closeSession (s : State) (i : Nat) : Closed s (s.closeSession i) where
  frame := rfl
  tasks := by
    simp only [named, State.closeSession, List.map_map]
    refine List.map_congr_left fun x _ => ?_
    simp only [Function.comp_apply]
    split <;> rfl
  regs _ _ := rfl

theorem isOpen_closeSession (s : State) (i j : Nat) : ((s.closeSession i).ses j).isOpen = if j = i then false else (s.ses j).isOpen := by
  have h : (s.closeSession i).ses j
      = (s.setSes i { ({} : Session) with epoch := (s.ses i).epoch, samples := (s.ses i).samples, ceEcho := (s.ses i).ceEcho }).ses j := rfl
  rw [h, ses_setSes]
  split <;> rfl

theorem foldl_closeSession (l : List Nat) (s : State) : Closed s (l.foldl State.closeSession s)
    ∧ ∀ j, ((l.foldl State.closeSession s).ses j).isOpen = if j ∈ l then false else (s.ses j).isOpen := by
  induction l generalizing s with
  | nil => exact ⟨⟨rfl, rfl, fun _ _ => rfl⟩, fun j => by simp⟩
  | cons i l ih =>
    obtain ⟨hclosed, hopen⟩ := ih (s.closeSession i)
    refine ⟨(closed_closeSession s i).trans hclosed, fun j => ?_⟩
    rw [List.foldl_cons, hopen, isOpen_closeSession]
    by_cases h1 : j ∈ l <;> by_cases h2 : j = i <;> simp [h1, h2]

/-- A session that is not listed is closed. -/
theorem isOpen_unlisted {j : Nat} (h : j ∉ s.sess.map (·.1)) : (s.ses j).isOpen = false := by
  have hnone : s.sess.find? (fun e => e.1 == j) = none := List.find?_eq_none.mpr fun e he hj =>
    h (List.mem_map.mpr ⟨e, he, beq_iff_eq.mp hj⟩)
  simp [State.ses, SMap.get, hnone]

/-- The state without a peer group. -/
def State.peerless (s : State) : State := (s.setPeerState 0 false).setF (aPeer 0x14) 0 9 0

theorem regsOnly_peerless (s : State) : RegsOnly s s.peerless [aPeer 0x14] := by
  rw [State.peerless, State.setPeerState]
  exact (((RegsOnly.refl s _).setF List.mem_cons_self ..).setB List.mem_cons_self ..).setF List.mem_cons_self ..

theorem closeAll_eq (s : State) : s.closeAll = ((s.sess.map (·.1)).foldl State.closeSession s).peerless := rfl

theorem closed_of_regsOnly (h : RegsOnly s t [aPeer 0x14]) : Closed s t ∧ ∀ j, t.ses j = s.ses j := by
  obtain ⟨hframe, hreg⟩ := h
  refine ⟨⟨?_, ?_, fun a ha => hreg a (by simpa using ha)⟩, fun j => ?_⟩
  · rw [hframe]
  · rw [hframe]
  · rw [hframe]; rfl

theorem closeAll_spec (s : State) : Closed s s.closeAll ∧ ∀ j, (s.closeAll.ses j).isOpen = false := by
  obtain ⟨hclosed, hopen⟩ := foldl_closeSession (s.sess.map (·.1)) s
  obtain ⟨hpeer, hses⟩ := closed_of_regsOnly (regsOnly_peerless ((s.sess.map (·.1)).foldl State.closeSession s))
  rw [closeAll_eq]
  refine ⟨hclosed.trans hpeer, fun j => ?_⟩
  rw [hses, hopen]
  split
  case isTrue => rfl
  case isFalse h => exact isOpen_unlisted h

/-! ### What else a reset stops -/

/-- The link goes down (R163). -/
theorem dropLink_spec (s : State) : s.dropLink = { s with
      regs := s.dropLink.regs, pins := { s.pins with ethTx := false }, ptp := s.dropLink.ptp, port := s.dropLink.port }
    ∧ ∀ a, a ≠ aPortStatus → s.dropLink.reg a = s.reg a :=
  ⟨rfl, fun a ha => (reg_setReg s aPortStatus a (s.reg aPortStatus &&& 0x0000FF00)).trans (if_neg ha)⟩

/-- The registers of the jobs that do not outlast a reset. -/
def jobRegs : List Nat := [aDet 0x158, aSec 0x06C, aDet 0x12C, aErr 0x01C]

theorem regsOnly_setRpl (s : State) : RegsOnly s (if s.replaying then s.setRpl 0 else s) jobRegs := by
  split
  · rw [State.setRpl]
    exact (RegsOnly.refl s _).setReg (by decide) _
  · exact .refl s _

/-- Signing, attestation and replay end. -/
theorem dropJobs_spec (s : State) : s.dropJobs = { s with regs := s.dropJobs.regs, smd := s.dropJobs.smd }
    ∧ ∀ a, a ∉ jobRegs → s.dropJobs.reg a = s.reg a := by
  obtain ⟨w, hw⟩ : ∃ w, w = ({ s with smd := { s.smd with sign := none, att := none } } : State) := ⟨_, rfl⟩
  have hreg : ∀ a, w.reg a = s.reg a := fun a => by rw [hw]; rfl
  have hjobs : s.dropJobs = (if ((w.setB (aDet 0x158) 31 false).setB (aSec 0x06C) 31 false).replaying
      then ((w.setB (aDet 0x158) 31 false).setB (aSec 0x06C) 31 false).setRpl 0
      else (w.setB (aDet 0x158) 31 false).setB (aSec 0x06C) 31 false).setB (aErr 0x01C) 31 false := by rw [hw]; rfl
  have honly : RegsOnly w s.dropJobs jobRegs := by
    rw [hjobs]
    refine RegsOnly.setB ?_ (by decide) ..
    exact (((RegsOnly.refl w _).setB (by decide) ..).setB (by decide) ..).trans (regsOnly_setRpl _)
  generalize s.dropJobs = v at *
  exact ⟨by rw [honly.1, hw], fun a ha => (honly.2 a ha).trans (hreg a)⟩

/-! ### RUN and every EN (R107) -/

/-- The contexts that are enabled, a bit each. -/
def State.enMask (s : State) : Nat := (List.range 16).foldl (fun n c => if s.ctxEn c then n ||| 2 ^ c else n) 0

theorem testBit_foldl_mask (p : Nat → Bool) (l : List Nat) (n c : Nat) :
    (l.foldl (fun n c => if p c then n ||| 2 ^ c else n) n).testBit c = (n.testBit c || (decide (c ∈ l) && p c)) := by
  induction l generalizing n with
  | nil => simp
  | cons k l ih =>
    rw [List.foldl_cons, ih]
    by_cases hk : c = k
    · subst hk
      cases p c <;> simp
    · have hb : Nat.testBit (2 ^ k) c = false := by simp [Ne.symm hk]
      cases hp : p k <;> simp [hk, hb]

theorem testBit_enMask (s : State) {c : Nat} (hc : c < 16) : s.enMask.testBit c = s.ctxEn c := by
  rw [State.enMask, testBit_foldl_mask, Nat.zero_testBit, Bool.false_or, decide_eq_true (List.mem_range.mpr hc), Bool.true_and]

/-- EN cleared in one context after the other. -/
theorem foldl_clearEn (l : List Nat) (s : State) :
    RegsOnly s (l.foldl (fun t c => t.setB (aCtxCtl c) 0 false) s) (l.map aCtxCtl)
    ∧ ∀ c ∈ l, (l.foldl (fun t c => t.setB (aCtxCtl c) 0 false) s).ctxEn c = false := by
  have hkeep : ∀ (l : List Nat) (s : State) (a : Nat), s.rb a 0 = false →
      (l.foldl (fun t c => t.setB (aCtxCtl c) 0 false) s).rb a 0 = false := by
    intro l
    induction l with
    | nil => exact fun s a h => h
    | cons k l ih =>
      intro s a h
      refine ih _ a ?_
      rw [State.rb, reg_setB]
      split
      · rw [rbit_rputBit _ _ (by decide), if_pos rfl]
      · exact h
  induction l generalizing s with
  | nil => exact ⟨.refl s _, by simp⟩
  | cons k l ih =>
    obtain ⟨honly, hen⟩ := ih (s.setB (aCtxCtl k) 0 false)
    refine ⟨?_, fun c hc => ?_⟩
    · exact ((RegsOnly.refl s _).setB List.mem_cons_self ..).trans (honly.mono (List.subset_cons_self ..))
    · rcases List.mem_cons.mp hc with rfl | hc
      · refine hkeep l _ _ ?_
        rw [State.rb, reg_setB, if_pos rfl, rbit_rputBit _ _ (by decide), if_pos rfl]
      · exact hen c hc

/-! ### Entry to a warm reset (R85, R87) -/

/-- Messages have stopped, the device is in RESET with its source, and RUN and every EN are 0. -/
def State.quieted (s : State) (source : Nat) : State :=
  ((List.range 16).foldl (fun t c => t.setB (aCtxCtl c) 0 false)
    ((((s.lifeAdd 0x7 3 1).lifeFlush.dropLink).setF aDevStatus 12 4 source).setDevState stReset)).setB aDevCtl 0 false

structure Quieted (s q : State) (source : Nat) : Prop where
  frame : q = { s with regs := q.regs, smd := q.smd, pins := { s.pins with ethTx := false }, ptp := q.ptp, port := q.port }
  status : q.reg aDevStatus = rput (rput (s.reg aDevStatus) 12 4 source) 0 4 stReset
  run : q.reg aDevCtl = rputBit (s.reg aDevCtl) 0 false
  en : ∀ c, c < 16 → q.ctxEn c = false
  trace : s.traceOff → q.traceOff

/-- Nothing of these registers is a context's control register. -/
theorem not_mem_ctxCtl (h : a < 0x30000 ∨ 0x40000 ≤ a) : a ∉ (List.range 16).map aCtxCtl := by
  simp only [List.mem_map, List.mem_range, aCtxCtl, aCtx, not_exists, not_and]
  omega

theorem quieted_quieted (s : State) (source : Nat) : Quieted s (s.quieted source) source := by
  obtain ⟨hlink, hlinkreg⟩ := dropLink_spec (s.lifeAdd 0x7 3 1).lifeFlush
  rw [State.quieted]
  generalize hv : (s.lifeAdd 0x7 3 1).lifeFlush.dropLink = v at *
  have hvframe : v = { s with regs := v.regs, smd := v.smd, pins := { s.pins with ethTx := false }, ptp := v.ptp, port := v.port } := by
    rw [hlink]; rfl
  have hvreg : ∀ a, a ≠ aPortStatus → v.reg a = s.reg a := fun a ha => (hlinkreg a ha).trans rfl
  obtain ⟨hclear, hen⟩ := foldl_clearEn (List.range 16) ((v.setF aDevStatus 12 4 source).setDevState stReset)
  have hstatus : RegsOnly v ((v.setF aDevStatus 12 4 source).setDevState stReset) [aDevStatus] := by
    rw [setDevState_eq]
    exact ((RegsOnly.refl v _).setF List.mem_cons_self ..).setF List.mem_cons_self ..
  have hdev : ((v.setF aDevStatus 12 4 source).setDevState stReset).reg aDevStatus
      = rput (rput (v.reg aDevStatus) 12 4 source) 0 4 stReset := by
    rw [setDevState_eq, reg_setF, if_pos rfl, reg_setF, if_pos rfl]
  generalize (v.setF aDevStatus 12 4 source).setDevState stReset = w at *
  generalize (List.range 16).foldl (fun t c => t.setB (aCtxCtl c) 0 false) w = x at *
  have hrun : RegsOnly x (x.setB aDevCtl 0 false) [aDevCtl] := (RegsOnly.refl x _).setB List.mem_cons_self ..
  have hctl : (x.setB aDevCtl 0 false).reg aDevCtl = rputBit (x.reg aDevCtl) 0 false := by rw [reg_setB, if_pos rfl]
  generalize x.setB aDevCtl 0 false = q at *
  have hxreg : ∀ a, a < 0x30000 ∨ 0x40000 ≤ a → a ≠ aDevStatus → a ≠ aPortStatus → x.reg a = s.reg a := fun a h1 h2 h3 => by
    rw [hclear.2 a (not_mem_ctxCtl h1), hstatus.2 a (by simpa using h2), hvreg a h3]
  refine ⟨?_, ?_, ?_, fun c hc => ?_, fun ho => ?_⟩
  · rw [hrun.1, hclear.1, hstatus.1, hvframe]
  · rw [hrun.2 _ (by decide), hclear.2 _ (not_mem_ctxCtl (by decide)), hdev, hvreg _ (by decide)]
  · rw [hctl, hxreg _ (by decide) (by decide) (by decide)]
  · rw [State.ctxEn, State.rb, hrun.2 _ (by simp only [aCtxCtl, aCtx, aDevCtl, List.mem_singleton]; omega)]
    exact hen c (List.mem_range.mpr hc)
  · rwa [State.traceOff, State.rf, hrun.2 _ (by decide), hxreg _ (by decide) (by decide) (by decide)]

/-- The units and their memories empty (R88), before the dispatcher's status follows. -/
def State.emptied (s : State) : State :=
  { s with
    cores := [], icache := [], dmem := {}, mem := s.mem.clearRange storeBase (storeBase + 2 ^ 29), ctrs := [], clrDue := 0, waiters := [],
    poolHeld := [], ready := [], qos := {}, ops := [], served := [], streams := [], reqs := [], arr := [], scales := {},
    gscales := {}, batches := [], exch := [], rounds := [], lookups := [], form := none, starts := [], fanouts := [], tests := [] }

theorem clearUnits_eq (s : State) : s.clearUnits = s.emptied.updateBp := rfl

theorem quiet_clearUnits (s : State) : Quiet s.emptied s.clearUnits := clearUnits_eq s ▸ quiet_updateBp rfl

/-- From the quieted state q to the warm-entry steps of a reset: sessions closed, units empty, jobs ended. -/
def State.entered (q : State) : State :=
  ((q.closeAll.clearUnits.dropJobs.setReg aDevFwLo 0).setReg aDevFwHi 0).setB aDomeStatus 2 false

structure Entered (q t : State) : Prop where
  regs : ∀ a, a < 0x30000 ∨ (0x30000 ≤ a ∧ a < 0x40000) → a ∉ [aPeer 0x14, aDevFwLo, aDevFwHi] → t.reg a = q.reg a
  maint : t.rb aDomeStatus 2 = false
  pins : t.pins = q.pins
  closed : ∀ i, (t.ses i).isOpen = false
  units : t.cores = [] ∧ t.ctrs = [] ∧ t.streams = [] ∧ t.ready = [] ∧ t.waiters = [] ∧ t.ops = [] ∧ t.reqs = [] ∧ t.arr = []
    ∧ t.scales = {} ∧ t.gscales = {} ∧ t.dmem = {}
  tasks : named t.tasks = named q.tasks
  kept : t.keys = q.keys ∧ t.progs = q.progs ∧ t.tables = q.tables ∧ t.qps = q.qps
  mem : q.traceOff → t.mem = q.mem.clearRange storeBase (storeBase + 2 ^ 29)

/-- The last registers of the entry. -/
theorem entry_regs (j : State) : RegsOnly j (((j.setReg aDevFwLo 0).setReg aDevFwHi 0).setB aDomeStatus 2 false)
      [aDevFwLo, aDevFwHi, aDomeStatus]
    ∧ (((j.setReg aDevFwLo 0).setReg aDevFwHi 0).setB aDomeStatus 2 false).rb aDomeStatus 2 = false := by
  refine ⟨(((RegsOnly.refl j _).setReg (by decide) _).setReg (by decide) _).setB (by decide) .., ?_⟩
  rw [State.rb, reg_setB, if_pos rfl, rbit_rputBit _ _ (by decide), if_pos rfl]

/-- The stages of the entry, one after the other. -/
theorem Entered.of_stages {q c u j t : State} (hclosed : Closed q c) (hopen : ∀ i, (c.ses i).isOpen = false) (hquiet : Quiet c.emptied u)
    (hjobs : j = { u with regs := j.regs, smd := j.smd } ∧ ∀ a, a ∉ jobRegs → j.reg a = u.reg a)
    (hfw : RegsOnly j t [aDevFwLo, aDevFwHi, aDomeStatus]) (hmaint : t.rb aDomeStatus 2 = false) : Entered q t := by
  obtain ⟨⟨rg, dm, bad, m, po, hu⟩, hlow, hmem⟩ := hquiet
  have ht : t = { c.emptied with regs := t.regs, smd := t.smd, dome := dm, badBytes := bad, mem := m, port := po } := by
    rw [hfw.1, hjobs.1, hu]
  have humem : u.mem = m := by rw [hu]
  refine ⟨fun a ha hn => ?_, hmaint, ?_, fun i => ?_, ?_, ?_, ?_, fun ho => ?_⟩
  · simp only [List.mem_cons, List.not_mem_nil, or_false, not_or] at hn
    obtain ⟨hpeer, hlo, hhi⟩ := hn
    have h1 := hfw.2 a (by simp only [List.mem_cons, List.not_mem_nil, or_false, not_or, aDomeStatus]; omega)
    have h2 := hjobs.2 a (by simp only [jobRegs, List.mem_cons, List.not_mem_nil, or_false, not_or, aDet, aSec, aErr]; omega)
    have h3 : u.reg a = c.reg a := hlow.reg a (by omega)
    rw [h1, h2, h3, hclosed.regs a hpeer]
  · rw [ht, hclosed.frame]; rfl
  · rw [ht]; exact hopen i
  · rw [ht]; exact ⟨rfl, rfl, rfl, rfl, rfl, rfl, rfl, rfl, rfl, rfl, rfl⟩
  · rw [ht]; exact hclosed.tasks
  · rw [ht, hclosed.frame]; exact ⟨rfl, rfl, rfl, rfl⟩
  · have hreg : c.emptied.reg (aDisp 0x058) = q.reg (aDisp 0x058) := hclosed.regs _ (by decide)
    have hc : c.emptied.traceOff := by rwa [State.traceOff, State.rf, hreg]
    have hcm : c.mem = q.mem := by rw [hclosed.frame]
    rw [ht]
    exact humem.symm.trans ((hmem hc).trans (congrArg (Mem.clearRange · storeBase (storeBase + 2 ^ 29)) hcm))

theorem entered_entered (q : State) : Entered q q.entered :=
  .of_stages (closeAll_spec q).1 (closeAll_spec q).2 (quiet_clearUnits _) (dropJobs_spec _) (entry_regs _).1 (entry_regs _).2

/-- What a warm reset remembers for the boot that follows (R107). -/
def State.warmBoots (s : State) : Boot := { ({} : Boot) with
  cold := false, warmEntry := true, trained := false, flashFound := s.boot.flashFound, flashQuad := s.boot.flashQuad,
  savedRun := s.rb aDevCtl 0 || s.boot.savedRun, savedEn := s.enMask ||| s.boot.savedEn, popOk := s.boot.popOk, dimms := s.boot.dimms }

theorem warmReset_eq (source : Nat) (h : ¬ (s.boot.cold = true ∧ s.boot.trained = false)) :
    s.warmReset source = { (s.quieted source).entered with loads := [], rgnChange := none, boot := s.warmBoots } := by
  rw [State.warmReset, if_neg (by simpa using h)]
  rfl

/-- The quieted state q, and the state e in which its units are empty, with what the boot is to restore. -/
theorem WarmLeft.of_stages {q e : State} {source : Nat} (hs : source < 16) (hq : Quieted s q source) (he : Entered q e) :
    WarmLeft s { e with loads := [], rgnChange := none, boot := s.warmBoots } source := by
  have hstatus : e.reg aDevStatus = rput (rput (s.reg aDevStatus) 12 4 source) 0 4 stReset := by
    rw [he.regs _ (by decide) (by decide), hq.status]
  have hqs : q.mem = s.mem ∧ q.tasks = s.tasks ∧ q.keys = s.keys ∧ q.progs = s.progs ∧ q.tables = s.tables ∧ q.qps = s.qps := by
    rw [hq.frame]
    exact ⟨rfl, rfl, rfl, rfl, rfl, rfl⟩
  obtain ⟨hmem, htasks, hkeys, hprogs, htables, hqps⟩ := hqs
  obtain ⟨ekeys, eprogs, etables, eqps⟩ := he.kept
  refine ⟨⟨?_, ?_⟩, ⟨?_, he.maint, fun c hc => ?_⟩, ⟨rfl, rfl, rfl, fun c hc => ?_⟩, he.closed, he.units, ?_,
    ⟨ekeys.trans hkeys, eprogs.trans hprogs, etables.trans htables, eqps.trans hqps⟩, fun ho x => ?_⟩
  · refine (congrArg (rfld · 0 4) hstatus).trans ?_
    exact rfld_rput_same _ _ (by decide)
  · refine (congrArg (rfld · 12 4) hstatus).trans ?_
    exact (rfld_rput_other _ _ (by decide) (by decide)).trans ((rfld_rput_same _ _ (by decide)).trans (Nat.mod_eq_of_lt hs))
  · exact (he.regs _ (by decide) (by decide)).trans hq.run
  · have hctx := he.regs (aCtxCtl c) (by simp only [aCtxCtl, aCtx]; omega)
      (by simp only [aCtxCtl, aCtx, aPeer, aDevFwLo, aDevFwHi, List.mem_cons, List.not_mem_nil, or_false, not_or]; omega)
    exact (congrArg (rbit · 0) hctx).trans (hq.en c hc)
  · exact (Nat.testBit_or ..).trans (by rw [testBit_enMask s hc])
  · exact he.tasks.trans (congrArg named htasks)
  · have hread := read_clearRange q.mem storeBase (storeBase + 2 ^ 29) x
    rw [← he.mem (hq.trace ho), hmem] at hread
    exact hread

theorem resetN_of_stages {q e : State} {source : Nat} (hq : Quieted s q source) (he : Entered q e) :
    ({ e with loads := [], rgnChange := none, boot := s.warmBoots } : State).pins.resetN = s.pins.resetN := by
  have hpins : q.pins = { s.pins with ethTx := false } := by rw [hq.frame]
  rw [he.pins, hpins]

/-- A warm reset of a device past the training of its boot (R85–R88, R107). -/
theorem warmReset_spec {source : Nat} (hs : source < 16) (h : ¬ (s.boot.cold = true ∧ s.boot.trained = false)) :
    WarmLeft s (s.warmReset source) source ∧ (s.warmReset source).pins.resetN = s.pins.resetN := by
  rw [warmReset_eq source h]
  exact ⟨.of_stages hs (quieted_quieted s source) (entered_entered _), resetN_of_stages (quieted_quieted s source) (entered_entered _)⟩

end Sys2Proof.Machine
end

section
namespace Sys2Proof.Machine

variable {s t u : State}

/-! ### Warm resets by the watchdog and the pin (R82, R84) -/

theorem exec_watchdogExpiry : exec .watchdogExpiry s = execWatchdogExpiry s := rfl

theorem runs_watchdogExpiry (h1 : stTraining ≤ s.devState) (h2 : s.devState ≤ stMaint) (h : ¬ (s.boot.cold = true ∧ s.boot.trained = false)) :
    Runs .watchdogExpiry s fun t => WarmLeft s t 5 :=
  ⟨_, by rw [exec_watchdogExpiry, execWatchdogExpiry, if_pos (fwRuns_iff.mpr ⟨h1, h2⟩)], (warmReset_spec (by decide) h).1⟩

theorem exec_devResetNFall (short : Bool) : exec (.devResetNFall short) s = execDevResetNFall short s := rfl

/-- The state with DEV_RESET_N low. -/
def State.resetLow (s : State) : State := { s with pins := { s.pins with resetN := false } }

/-- The warm reset of the pin is one of the device with the pin low. -/
theorem WarmLeft.of_resetLow {source : Nat} (h : WarmLeft s.resetLow t source) :
    WarmLeft s { t with boot := { t.boot with warmByPin := true } } source := by
  obtain ⟨status, run, saved, closed, units, tasks, kept, mem⟩ := h
  exact ⟨status, run, saved, closed, units, tasks, kept, mem⟩

theorem runs_devResetNFall (hg : s.pins.pwrGood = true) (hr : s.pins.resetN = true) (hd : s.devState ≠ stHalted)
    (h : ¬ (s.boot.cold = true ∧ s.boot.trained = false)) :
    Runs (.devResetNFall false) s fun t => WarmLeft s t 3 ∧ t.pins.resetN = false ∧ t.boot.warmByPin = true := by
  obtain ⟨hwarm, hpin⟩ := warmReset_spec (s := s.resetLow) (source := 3) (by decide) h
  have hexec : exec (.devResetNFall false) s
      = .next { s.resetLow.warmReset 0x3 with boot := { (s.resetLow.warmReset 0x3).boot with warmByPin := true } } := by
    have hlow : s.resetLow.devState ≠ stHalted := hd
    rw [exec_devResetNFall, execDevResetNFall, if_neg (by simp [hg, hr])]
    exact if_neg hlow
  generalize s.resetLow.warmReset 0x3 = w at *
  exact ⟨_, hexec, hwarm.of_resetLow, hpin, rfl⟩

theorem exec_devResetNFall_short : exec (.devResetNFall true) s = .next s := by
  rw [exec_devResetNFall, execDevResetNFall, if_pos (by simp)]

/-! ### The thermal trip (R71–R77) -/

theorem exec_thermalTrip (unit : Nat) (good : Bool) : exec (.thermalTrip unit good) s = execThermalTrip unit good s := rfl

/-- A trip is latched and counted, and its unit joins the causes of ALERT_N. -/
def State.tripNoted (s : State) (unit : Nat) : State :=
  ({ s.lifeAdd 0x7 4 1 with
    pins := { s.pins with thermTrip := true, tripFell := false, overLimit := unit :: s.pins.overLimit },
    boot := { s.boot with tripped := true } } : State).lifeFlush

theorem tripNoted_eq (s : State) (unit : Nat) : s.tripNoted unit = { s with
    smd := (s.tripNoted unit).smd, pins := { s.pins with thermTrip := true, tripFell := false, overLimit := unit :: s.pins.overLimit },
    boot := { s.boot with tripped := true } } := rfl

/-- What is left to do once STATE is HALTED: the glacier tier into self-refresh, where its supply is good. -/
def State.tripEnds (s : State) (good : Bool) : State :=
  { s with pins := { s.pins with glacierSelfRefresh := good || s.pins.glacierSelfRefresh },
           boot := { s.boot with warmEntry := false, updOwner := none } }

/-- The device that a trip has halted. -/
def State.halted (s : State) (good : Bool) : State := (s.dropLink.closeAll.dropJobs.setDevState stHalted).tripEnds good

theorem exec_thermalTrip_vaux (unit : Nat) (good : Bool) (hv : s.pins.vaux = true) (ht : s.pins.thermTrip = false) :
    exec (.thermalTrip unit good) s = .next (if s.pins.pwrGood then (s.tripNoted unit).halted good else s.tripNoted unit) := by
  rw [exec_thermalTrip, execThermalTrip, if_neg (by simp [hv, ht])]
  cases s.pins.pwrGood <;> rfl

/-- A new STATE changes registers only. -/
theorem setDevState_frame (s : State) (v : Nat) : s.setDevState v = { s with regs := (s.setDevState v).regs } := by
  have h : RegsOnly s (s.setDevState v) [aDevStatus] := by
    rw [setDevState_eq]
    exact (RegsOnly.refl s _).setF List.mem_cons_self ..
  exact h.1

/-- What a halted device keeps, with the main rails up. -/
structure Halted (s t : State) (good : Bool) : Prop where
  frame : t = { s with
    regs := t.regs, ptp := t.ptp, port := t.port, sess := t.sess, tasks := t.tasks, fanouts := t.fanouts, form := t.form, smd := t.smd,
    pins := { s.pins with ethTx := false, glacierSelfRefresh := good || s.pins.glacierSelfRefresh },
    boot := { s.boot with warmEntry := false, updOwner := none } }
  state : t.devState = stHalted
  closed : ∀ i, (t.ses i).isOpen = false

/-- Link, sessions, jobs and STATE, one after the other: the units and memories stand. -/
theorem Halted.of_stages {l c j h : State} (good : Bool)
    (hl : l = { s with regs := l.regs, pins := { s.pins with ethTx := false }, ptp := l.ptp, port := l.port }) (hc : Closed l c)
    (hopen : ∀ i, (c.ses i).isOpen = false) (hj : j = { c with regs := j.regs, smd := j.smd }) (hh : h = { j with regs := h.regs })
    (hstate : h.devState = stHalted) : Halted s (h.tripEnds good) good := by
  have hframe : h = { s with
      regs := h.regs, pins := { s.pins with ethTx := false }, ptp := l.ptp, port := l.port, sess := c.sess, tasks := c.tasks,
      fanouts := c.fanouts, form := c.form, smd := j.smd } := by rw [hh, hj, hc.frame, hl]
  have hses : ∀ i, (h.ses i).isOpen = false := fun i => by rw [hframe]; exact hopen i
  refine ⟨?_, hstate, hses⟩
  rw [hframe, State.tripEnds]

theorem halted_halted (s : State) (good : Bool) : Halted s (s.halted good) good :=
  .of_stages good (dropLink_spec s).1 (closeAll_spec _).1 (closeAll_spec _).2 (dropJobs_spec _).1 (setDevState_frame _ stHalted)
    (devState_setDevState _ (by decide))

theorem runs_thermalTrip (unit : Nat) (good : Bool) (hv : s.pins.vaux = true) (ht : s.pins.thermTrip = false) :
    Runs (.thermalTrip unit good) s fun t =>
      t.pins.thermTrip = true ∧ t.pins.overLimit = unit :: s.pins.overLimit ∧ t.boot.tripped = true ∧ t.keys = s.keys
      ∧ t.cores = s.cores ∧ t.ops = s.ops ∧ t.streams = s.streams ∧ t.ready = s.ready ∧ t.mem = s.mem ∧ t.dmem = s.dmem
      ∧ (s.pins.pwrGood = false → t.devState = s.devState ∧ t.regs = s.regs ∧ t.sess = s.sess)
      ∧ (s.pins.pwrGood = true → t.devState = stHalted ∧ t.works = false ∧ t.pins.ethTx = false ∧ (∀ i, (t.ses i).isOpen = false)
          ∧ t.pins.glacierSelfRefresh = (good || s.pins.glacierSelfRefresh)) := by
  have hexec := exec_thermalTrip_vaux unit good hv ht
  have hnoted := tripNoted_eq s unit
  generalize s.tripNoted unit = n at *
  cases hg : s.pins.pwrGood with
  | false =>
    rw [hg, if_neg Bool.false_ne_true] at hexec
    refine ⟨n, hexec, ?_⟩
    rw [hnoted]
    exact ⟨rfl, rfl, rfl, rfl, rfl, rfl, rfl, rfl, rfl, rfl, fun _ => ⟨rfl, rfl, rfl⟩, fun h => absurd h Bool.false_ne_true⟩
  | true =>
    rw [hg, if_pos rfl] at hexec
    obtain ⟨hframe, hstate, hclosed⟩ := halted_halted n good
    refine ⟨_, hexec, ?_⟩
    generalize n.halted good = t at *
    have hworks : t.works = false := by rw [State.works, hstate]; rfl
    have hrefresh : n.pins.glacierSelfRefresh = s.pins.glacierSelfRefresh := by rw [hnoted]
    refine ⟨?_, ?_, ?_, ?_, ?_, ?_, ?_, ?_, ?_, ?_, fun h => absurd h.symm Bool.false_ne_true, fun _ => ⟨hstate, hworks, ?_, hclosed, ?_⟩⟩
    case refine_12 => rw [hframe, hrefresh]
    all_goals rw [hframe, hnoted]

/-! ### The statement -/

/-- Settles O41: a cold reset leaves what a loss of the main rails does, a warm reset goes through its stages, and the boot starts from
what they left. -/
theorem resetsKeepAndClear : Obligations.ResetsKeepAndClear := by
  unfold Obligations.ResetsKeepAndClear
  intro s boots
  refine ⟨fun r v h h0 h1 => ⟨fun hv => ?_, fun hv hw => ?_⟩, runs_devResetNLongHold, runs_pwrGoodRise, runs_pwrGoodFall, runs_vauxRise,
    runs_vauxLoss, fun b i ir park hi hp hv hg hd => runs_tapHolds hi hp (tapPowered_iff.mpr ⟨hv, hg⟩) hd, runs_watchdogExpiry,
    runs_devResetNFall, exec_devResetNFall_short, runs_thermalTrip, runs_warmEntryComplete⟩
  · obtain ⟨t, ht, hspec⟩ := coldReset_startBoot s (source := 2) (by decide)
    exact ⟨t, by rw [exec_devCtlReset_cold h h0 h1 hv, ht], hspec⟩
  · exact ⟨_, exec_devCtlReset_warm h h0 h1 hv, (warmReset_spec (by decide) hw).1⟩

end Sys2Proof.Machine
end

section
namespace Sys2Proof.Machine

/-! ## Steps -/

variable {s : State}

theorem step_pending (c : Instr) (q : List Instr) (s : State) : step { s with pending := c :: q } = exec c { s with pending := q } := rfl

theorem step_idle (h : s.pending = []) : step s = .next s.idle := by rw [step, h]

/-- An idle step is one tick, while VAUX is up (R18, R89). -/
theorem idle_eq (s : State) : s.idle = if s.pins.vaux then { s with tick := min (s.tick + 1) (2 ^ 64 - 1) } else s := by
  rw [State.idle, State.passTo, Nat.max_eq_right (Nat.le_succ _), lastTick]

/-- Settles O1: a command in front is carried out, and an empty queue lets a tick pass. -/
theorem stepRunsFront : Obligations.StepRunsFront := by
  unfold Obligations.StepRunsFront
  exact ⟨step_pending, fun s h => by rw [step_idle h, idle_eq]⟩

end Sys2Proof.Machine
end

section
namespace Sys2Proof.Machine

/-! ## The enable check's answers (R118–R122, R952) -/

variable {s t u : State} {a : Nat}

theorem lowestCode_nil : lowestCode [] = 0 := rfl

/-- The lowest code of reasons in rising order. -/
theorem lowestCode_cons (n : Nat) (b : Bool) (l : List (Nat × Bool)) : lowestCode ((n, b) :: l) = if b then n else lowestCode l := by
  cases b <;> rfl

/-- A code is one of the list's, or 0. -/
theorem lowestCode_lt {l : List (Nat × Bool)} {n : Nat} (hn : 0 < n) (h : ∀ e ∈ l, e.1 < n) : lowestCode l < n := by
  induction l with
  | nil => exact hn
  | cons e l ih =>
    obtain ⟨hcode, hrest⟩ := List.forall_mem_cons.mp h
    rw [lowestCode_cons]
    split
    · exact hcode
    · exact ih hrest

theorem RegsOnly.bump {l : List Nat} (h : RegsOnly s t l) (ha : a ∈ l) (n : Nat) : RegsOnly s (t.bump a n) l := h.setReg ha _

/-- A register outside those that changed. -/
theorem RegsOnly.reg {l : List Nat} (h : RegsOnly s t l) (ha : a ∉ l) : t.reg a = s.reg a := h.2 a ha

theorem RegsOnly.rf {l : List Nat} (h : RegsOnly s t l) (ha : a ∉ l) (lo n : Nat) : t.rf a lo n = s.rf a lo n := congrArg (rfld · lo n) (h.reg ha)

theorem RegsOnly.rb {l : List Nat} (h : RegsOnly s t l) (ha : a ∉ l) (i : Nat) : t.rb a i = s.rb a i := congrArg (rbit · i) (h.reg ha)

theorem regsOnly_noteRefusal (s : State) (code : Nat) (c : Option Nat) (y : Cause) :
    RegsOnly s (s.noteRefusal code c y) [aDevRefuseLast, aDevRefuseCount] := by
  unfold State.noteRefusal
  split
  · exact .refl s _
  · exact ((RegsOnly.refl s _).setReg (by simp) _).bump (by simp) _

theorem counted_bump (s : State) (a n : Nat) : Counted s (s.bump a n) a n := by
  have hlt : min ((s.reg a).toNat + n) (2 ^ 32 - 1) < 2 ^ 32 := by omega
  rw [Counted, bump_eq, reg_setReg_self, BitVec.toNat_ofNat, satAdd, Nat.mod_eq_of_lt hlt]

/-- A refusal is counted (R952). -/
theorem counted_noteRefusal {code : Nat} (h : code ≠ 0) (c : Option Nat) (y : Cause) : Counted s (s.noteRefusal code c y) aDevRefuseCount := by
  rw [State.noteRefusal, if_neg h]
  generalize hw : BitVec.ofNat 32 _ = w
  have hcount := counted_bump (s.setReg aDevRefuseLast w) aDevRefuseCount 1
  rwa [Counted, reg_setReg, if_neg (by decide)] at hcount

/-- A check's answer on a context: CTX_STATUS, and the record of a refusal (R122). -/
theorem regsOnly_answerCtx (s : State) (c code : Nat) (y : Cause) :
    RegsOnly s (s.answerCtx c code y) [aCtxStatus c, aDevRefuseLast, aDevRefuseCount] :=
  (((RegsOnly.refl s _).setReg (by simp) _).trans ((regsOnly_noteRefusal _ code (some c) y).mono (by simp)))

theorem aCtxStatus_not_dev (c : Nat) : aCtxStatus c ∉ [aDevRefuseLast, aDevRefuseCount] := by
  simp [aCtxStatus, aCtx, aDevRefuseLast, aDevRefuseCount]
  omega

theorem reg_answerCtx_status (s : State) (c code : Nat) (y : Cause) :
    (s.answerCtx c code y).reg (aCtxStatus c) = rput (s.reg (aCtxStatus c)) 24 8 code := by
  rw [State.answerCtx, (regsOnly_noteRefusal ..).reg (aCtxStatus_not_dev c), reg_setF, if_pos rfl]

/-- REFUSE shows the code. -/
theorem refuse_answerCtx {code : Nat} (h : code < 256) (c : Nat) (y : Cause) : (s.answerCtx c code y).rf (aCtxStatus c) 24 8 = code := by
  rw [State.rf, reg_answerCtx_status, rfld_rput_same _ _ (by decide)]
  exact Nat.mod_eq_of_lt h

theorem answerCtx_zero (c : Nat) (y : Cause) : s.answerCtx c 0 y = s.setF (aCtxStatus c) 24 8 0 := rfl

theorem counted_answerCtx {code : Nat} (h : code ≠ 0) (c : Nat) (y : Cause) : Counted s (s.answerCtx c code y) aDevRefuseCount := by
  have hcount := counted_noteRefusal (s := s.setF (aCtxStatus c) 24 8 code) h (some c) y
  rwa [Counted, reg_setF, if_neg (by simp only [aCtxStatus, aCtx, aDevRefuseCount]; omega)] at hcount

end Sys2Proof.Machine
end

section
namespace Sys2Proof.Machine

/-! ## DEV_CTL (R97, R98, R113) -/

variable {s t u : State} {r : Req} {v : W32}

theorem exec_devCtlRunSet : exec (.devCtlRunSet r v) s = .next (if rbit v 0 && !s.rb aDevCtl 0 then s.regRow r aDevCtl v else s) := rfl

theorem exec_devCtlRunClear : exec (.devCtlRunClear r v) s = .next (if !rbit v 0 && s.rb aDevCtl 0 then s.regRow r aDevCtl v else s) := rfl

theorem exec_devCtlMaintSet : exec (.devCtlMaintSet r v) s = .next (if rbit v 1 && !s.rb aDevCtl 1 then s.regRow r aDevCtl v else s) := rfl

theorem exec_devCtlMaintClear : exec (.devCtlMaintClear r v) s = .next (if !rbit v 1 && s.rb aDevCtl 1 then s.regRow r aDevCtl v else s) := rfl

/-- The part of a write of DEV_CTL that comes before a reset it requests. -/
def State.modeWrite (s : State) (key : Option Nat) (v : W32) : WRes :=
  if (rbit v 0 != s.rb aDevCtl 0) && (rbit v 1 != s.rb aDevCtl 1) then .nak s nkMalformed
  else if rbit v 0 != s.rb aDevCtl 0 then (if rbit v 0 then s.runSet key else .ok s.runClear)
  else if rbit v 1 != s.rb aDevCtl 1 then (if rbit v 1 then s.maintSet else .ok s.maintClear)
  else .ok s

/-- A write that requests no reset is that part alone. -/
theorem wDevCtl_plain (h : rfld v 8 4 ≠ 0x5 ∧ rfld v 8 4 ≠ 0xA) (key : Option Nat) : s.wDevCtl key v = s.modeWrite key v := by
  have hreset : ∀ t : State, t.ctlReset v = t := fun t => by rw [State.ctlReset, if_neg h.1, if_neg h.2]
  have heq : s.wDevCtl key v = match s.modeWrite key v with | .ok t => .ok (t.ctlReset v) | x => x := rfl
  rw [heq]
  cases s.modeWrite key v with
  | ok t => exact congrArg WRes.ok (hreset t)
  | nak t n => rfl
  | pend t => rfl

theorem TakesWrite.devCtl (h : TakesWrite s r aDevCtl v) (hp : rfld v 8 4 ≠ 0x5 ∧ rfld v 8 4 ≠ 0xA) :
    s.regRow r aDevCtl v = (s.modeWrite (s.keyOf r.who) v).row r aDevCtl := by
  rw [h.regRow_eq (Option.some_ne_none _), writeReg_devCtl, wDevCtl_plain hp]

theorem TakesWrite.devCtl_both (h : TakesWrite s r aDevCtl v) (h0 : rbit v 0 ≠ s.rb aDevCtl 0) (h1 : rbit v 1 ≠ s.rb aDevCtl 1) :
    s.regRow r aDevCtl v = s.nakReg r nkMalformed aDevCtl := by
  rw [h.regRow_eq (Option.some_ne_none _), writeReg_devCtl, State.wDevCtl]
  simp only [bne_iff_ne.mpr h0, bne_iff_ne.mpr h1, Bool.and_self, if_true, WRes.row_nak]

/-! ### The check of RUN (R118, R120) -/

theorem isEmpty_filter {α : Type} (p : α → Bool) (l : List α) : (!(l.filter p).isEmpty) = l.any p := by
  induction l with
  | nil => rfl
  | cons x l ih => cases h : p x <;> simp [h, ih]

/-- The check of DEV_CTL.RUN: the first of its four reasons that applies. -/
theorem checkRun_eq (s : State) : s.checkRun =
    if (List.range 16).any (fun c => s.ctxEn c && s.rb (aCtx c 0x020) 15 && decide (s.activeSpires < s.rf (aCtx c 0x020) 0 7)) then 0x07
    else if !s.boot.popOk then 0x0C
    else if s.rf aPortStatus 8 8 ≠ 0 then 0x0D
    else if (List.range 8).any (fun k => s.rb (aSessCfg k) 0 && !(s.key (s.rf (aSessCfg k) 4 4)).present) then 0x13
    else 0 := by
  have hsplit : s.splitFails (s.rf aPortCfg 0 2) = true ↔ s.rf aPortStatus 8 8 ≠ 0 := splitFails_iff (Nat.mod_lt _ (by decide))
  simp only [State.checkRun, lowestCode_cons, lowestCode_nil, hsplit, State.pinFailures, isEmpty_filter, State.pinFails, State.keyFails,
    Bool.and_assoc]
  rfl

theorem checkRun_lt (s : State) : s.checkRun < 256 := by
  refine lowestCode_lt (by decide) ?_
  simp [rcPin, rcTier, rcPort, rcKey]

theorem foldl_refuse (l : List Nat) (s : State) {m : List Nat} (hl : l.map aCtxStatus ⊆ m) :
    RegsOnly s (l.foldl (fun t c => t.setF (aCtxStatus c) 24 8 rcPin) s) m := by
  induction l generalizing s with
  | nil => exact .refl s m
  | cons c l ih =>
    rw [List.map_cons, List.cons_subset] at hl
    have hc : RegsOnly s (s.setF (aCtxStatus c) 24 8 rcPin) m := (RegsOnly.refl s m).setF hl.1 24 8 rcPin
    rw [List.foldl_cons]
    exact hc.trans (ih _ hl.2)

/-- The registers that the answer of the check of RUN may change. -/
def runRegs : List Nat := [aDevStatus, aDevRefuseLast, aDevRefuseCount] ++ (List.range 16).map aCtxStatus

/-- The answer of a device-level check keeps DEV_STATUS below REFUSE. -/
theorem reg_answerDev_status (s : State) (code : Nat) (y : Cause) :
    (s.answerDev code y).reg aDevStatus = rput (s.reg aDevStatus) 24 8 code := by
  rw [State.answerDev, (regsOnly_noteRefusal ..).reg (by decide), reg_setF, if_pos rfl]

theorem aDevStatus_not_ctx : aDevStatus ∉ (List.range 16).map aCtxStatus := by decide

/-- The refusal of RUN is shown and recorded, SHAPE_PIN also in every failing context (R122, R835, R952). -/
theorem answerRun_spec (s : State) (y : Cause) : RegsOnly s (s.answerRun y) runRegs
    ∧ (s.answerRun y).rf aDevStatus 24 8 = s.checkRun ∧ (s.answerRun y).devState = s.devState := by
  let p := if s.checkRun = rcPin then s.pinFailures.foldl (fun t c => t.setF (aCtxStatus c) 24 8 rcPin) s else s
  have hp : RegsOnly s p ((List.range 16).map aCtxStatus) := by
    simp only [p]
    split
    · exact foldl_refuse _ s (List.map_subset _ (List.filter_subset_self _))
    · exact .refl s _
  have heq : s.answerRun y = p.answerDev s.checkRun y := rfl
  obtain ⟨honly, hcode⟩ := answerDev_spec (s := p) y (checkRun_lt s)
  refine ⟨?_, heq ▸ hcode, ?_⟩
  · exact heq ▸ (hp.mono (List.subset_append_right _ _)).trans (honly.mono (List.subset_append_left _ _))
  · rw [heq, State.devState, State.rf, reg_answerDev_status, rfld_rput_other _ _ (by decide) (by decide), hp.reg aDevStatus_not_ctx]
    rfl

theorem answerRun_zero (h : s.checkRun = 0) (y : Cause) : s.answerRun y = s.setF aDevStatus 24 8 0 := by
  rw [State.answerRun, h]
  rfl

/-! ### The four writes -/

/-- Registers and STATE after DEV_CTL took w and then STATE took n. -/
theorem devCtl_state (s : State) (w : W32) {n : Nat} (h : n < 16) :
    let t := (s.setReg aDevCtl w).setDevState n
    RegsOnly s t [aDevCtl, aDevStatus] ∧ t.reg aDevCtl = w ∧ t.reg aDevStatus = rput (s.reg aDevStatus) 0 4 n ∧ t.devState = n := by
  refine ⟨((RegsOnly.refl s _).setReg (by simp) w).setReg (by simp) _, ?_, ?_, devState_setDevState _ h⟩
  · rw [setDevState_eq, reg_setF, if_neg (by decide), reg_setReg_self]
  · rw [setDevState_eq, reg_setF, if_pos rfl, reg_setReg, if_neg (by decide)]

theorem regRow_runSet (h : TakesWrite s r aDevCtl v) (hp : rfld v 8 4 ≠ 0x5 ∧ rfld v 8 4 ≠ 0xA) (hv : rbit v 0 = true)
    (h0 : s.rb aDevCtl 0 = false) (h1 : rbit v 1 = s.rb aDevCtl 1) :
    exec (.devCtlRunSet r v) s = .next ((s.runSet (s.keyOf r.who)).row r aDevCtl) := by
  rw [exec_devCtlRunSet, hv, h0, h.devCtl hp, State.modeWrite, hv, h0, h1]
  simp

theorem runSet_state (h3 : s.devState ≠ stReady) (h4 : s.devState ≠ stRun) (key : Option Nat) : s.runSet key = .nak s nkState := by
  rw [State.runSet, if_pos ⟨h3, h4⟩]

theorem runSet_refused (h : s.devState = stReady ∨ s.devState = stRun) (hc : s.checkRun ≠ 0) (key : Option Nat) :
    s.runSet key = .nak (s.answerRun { source := 0x01, key := key }) s.checkRun := by
  rw [State.runSet, if_neg (by tauto), if_pos hc]

theorem runSet_taken (h : s.devState = stReady ∨ s.devState = stRun) (hc : s.checkRun = 0) (key : Option Nat) :
    s.runSet key = .ok (((s.setF aDevStatus 24 8 0).setB aDevCtl 0 true).setDevState stRun) := by
  rw [State.runSet, if_neg (by tauto), if_neg (by simp [hc]), answerRun_zero hc]

theorem runs_runSet (h : TakesWrite s r aDevCtl v) (hp : rfld v 8 4 ≠ 0x5 ∧ rfld v 8 4 ≠ 0xA) (hv : rbit v 0 = true)
    (h0 : s.rb aDevCtl 0 = false) (h1 : rbit v 1 = s.rb aDevCtl 1) (hd : s.devState = stReady ∨ s.devState = stRun) (hc : s.checkRun = 0) :
    Runs (.devCtlRunSet r v) s fun t => RegsOnly s t [aDevCtl, aDevStatus]
      ∧ t.reg aDevCtl = rputBit (s.reg aDevCtl) 0 true ∧ t.devState = stRun ∧ t.rf aDevStatus 24 8 = 0 := by
  obtain ⟨honly, hctl, hstatus, hstate⟩ := devCtl_state (s.setF aDevStatus 24 8 0) (rputBit (s.reg aDevCtl) 0 true) (n := stRun) (by decide)
  refine ⟨_, ?_, ((RegsOnly.refl s _).setReg (by simp) _).trans honly, hctl, hstate, ?_⟩
  · rw [regRow_runSet h hp hv h0 h1, runSet_taken hd hc, setB_eq, reg_setF, if_neg (by decide), WRes.row_ok]
  · rw [State.rf, hstatus, rfld_rput_other _ _ (by decide) (by decide), reg_setF, if_pos rfl, rfld_rput_same _ _ (by decide)]
    rfl

/-- A bit of DEV_CTL is cleared, and STATE may go back to READY with it. -/
theorem runs_back {i : Instr} {b : Bool} (w : W32) (hrow : exec i s
      = .next (if b = true then (s.setReg aDevCtl w).setDevState stReady else s.setReg aDevCtl w)) :
    Runs i s fun t => RegsOnly s t [aDevCtl, aDevStatus] ∧ t.reg aDevCtl = w
      ∧ t.reg aDevStatus = if b = true then rput (s.reg aDevStatus) 0 4 3 else s.reg aDevStatus := by
  refine ⟨_, hrow, ?_⟩
  cases b with
  | true =>
    obtain ⟨honly, hctl, hstatus, -⟩ := devCtl_state s w (n := stReady) (by decide)
    exact ⟨honly, hctl, hstatus⟩
  | false => exact ⟨(RegsOnly.refl s _).setReg (by simp) w, reg_setReg_self .., by rw [if_neg (by simp), if_neg (by simp), reg_setReg, if_neg (by decide)]⟩

theorem runs_runClear (h : TakesWrite s r aDevCtl v) (hp : rfld v 8 4 ≠ 0x5 ∧ rfld v 8 4 ≠ 0xA) (hv : rbit v 0 = false)
    (h0 : s.rb aDevCtl 0 = true) (h1 : rbit v 1 = s.rb aDevCtl 1) :
    Runs (.devCtlRunClear r v) s fun t => RegsOnly s t [aDevCtl, aDevStatus] ∧ t.reg aDevCtl = rputBit (s.reg aDevCtl) 0 false
      ∧ t.reg aDevStatus = if s.devState = stRun ∧ s.tasks = [] then rput (s.reg aDevStatus) 0 4 3 else s.reg aDevStatus := by
  have hstate : (s.setB aDevCtl 0 false).devState = s.devState := by
    rw [State.devState, State.rf, reg_setB, if_neg (by decide), State.devState, State.rf]
  have hrow : s.regRow r aDevCtl v = s.runClear := by
    rw [h.devCtl hp, State.modeWrite, hv, h0, h1]
    simp
  have hback := runs_back (i := .devCtlRunClear r v) (s := s) (b := s.devState = stRun && s.tasks.isEmpty) (rputBit (s.reg aDevCtl) 0 false)
    (by rw [exec_devCtlRunClear, hv, h0, hrow, State.runClear, hstate]; rfl)
  simpa using hback

theorem maintSet_row (h : TakesWrite s r aDevCtl v) (hp : rfld v 8 4 ≠ 0x5 ∧ rfld v 8 4 ≠ 0xA) (hv : rbit v 1 = true)
    (h1 : s.rb aDevCtl 1 = false) (h0 : rbit v 0 = s.rb aDevCtl 0) : exec (.devCtlMaintSet r v) s = .next (s.maintSet.row r aDevCtl) := by
  rw [exec_devCtlMaintSet, hv, h1, h.devCtl hp, State.modeWrite, hv, h0, h1]
  simp

theorem runs_maintSet (h : TakesWrite s r aDevCtl v) (hp : rfld v 8 4 ≠ 0x5 ∧ rfld v 8 4 ≠ 0xA) (hv : rbit v 1 = true)
    (h1 : s.rb aDevCtl 1 = false) (h0 : rbit v 0 = s.rb aDevCtl 0) (hd : s.devState = stReady) (ht : s.tasks = []) :
    Runs (.devCtlMaintSet r v) s fun t => RegsOnly s t [aDevCtl, aDevStatus] ∧ t.reg aDevCtl = rputBit (s.reg aDevCtl) 1 true
      ∧ t.reg aDevStatus = rput (s.reg aDevStatus) 0 4 5 := by
  obtain ⟨honly, hctl, hstatus, -⟩ := devCtl_state s (rputBit (s.reg aDevCtl) 1 true) (n := stMaint) (by decide)
  refine ⟨_, ?_, honly, hctl, hstatus⟩
  rw [maintSet_row h hp hv h1 h0, State.maintSet, if_neg (by simp [hd]), if_neg (by simp [ht]), setB_eq, WRes.row_ok]

theorem runs_maintClear (h : TakesWrite s r aDevCtl v) (hp : rfld v 8 4 ≠ 0x5 ∧ rfld v 8 4 ≠ 0xA) (hv : rbit v 1 = false)
    (h1 : s.rb aDevCtl 1 = true) (h0 : rbit v 0 = s.rb aDevCtl 0) :
    Runs (.devCtlMaintClear r v) s fun t => RegsOnly s t [aDevCtl, aDevStatus] ∧ t.reg aDevCtl = rputBit (s.reg aDevCtl) 1 false
      ∧ t.reg aDevStatus = if s.devState = stMaint then rput (s.reg aDevStatus) 0 4 3 else s.reg aDevStatus := by
  have hstate : (s.setB aDevCtl 1 false).devState = s.devState := by
    rw [State.devState, State.rf, reg_setB, if_neg (by decide), State.devState, State.rf]
  have hrow : s.regRow r aDevCtl v = s.maintClear := by
    rw [h.devCtl hp, State.modeWrite, hv, h0, h1]
    simp
  have hback := runs_back (i := .devCtlMaintClear r v) (s := s) (b := s.devState = stMaint) (rputBit (s.reg aDevCtl) 1 false)
    (by rw [exec_devCtlMaintClear, hv, h1, hrow, State.maintClear, hstate]; simp [setB_eq])
  simpa using hback

/-- Settles O40: each change of DEV_CTL is one of the register's four writes, and the check of RUN is its four reasons in order. -/
theorem deviceControl : Obligations.DeviceControl := by
  unfold Obligations.DeviceControl
  intro s r v h run maint plain no code
  have hcode : s.checkRun = code := checkRun_eq s
  refine ⟨fun h0 h1 => ?_, fun hp hv h0 h1 => ⟨fun h3 h4 => ?_, fun hd => ⟨fun hc => ?_, fun hc => ?_⟩⟩,
    fun hp hv h0 h1 => runs_runClear h hp hv h0 h1, fun hp hv h1 h0 => ⟨fun hd => ?_, fun hd ht => ?_, runs_maintSet h hp hv h1 h0⟩,
    fun hp hv h1 h0 => runs_maintClear h hp hv h1 h0⟩
  · exact congrArg Host.Outcome.next (h.devCtl_both h0 h1)
  · exact (regRow_runSet h hp hv h0 h1).trans (by rw [runSet_state h3 h4, WRes.row_nak])
  · obtain ⟨honly, hshown, hstate⟩ := answerRun_spec s { source := 0x01, key := s.keyOf r.who }
    refine ⟨_, honly, hshown.trans hcode, hstate, ?_⟩
    rw [regRow_runSet h hp hv h0 h1, runSet_refused hd (hcode ▸ hc), WRes.row_nak, hcode]
  · exact runs_runSet h hp hv h0 h1 hd (hcode.trans hc)
  · exact (maintSet_row h hp hv h1 h0).trans (by rw [State.maintSet, if_pos hd, WRes.row_nak])
  · exact (maintSet_row h hp hv h1 h0).trans (by rw [State.maintSet, if_neg (by simp [hd]), if_pos (by simpa using ht), WRes.row_nak])

end Sys2Proof.Machine
end

section
namespace Sys2Proof.Machine

/-! ## Accesses through the Dome cache (R281, R310) -/

variable {s t u : State} {a : Nat}

/-- Of the registers, only those that a Dome cache access moves changed. -/
def DomeRegs (s t : State) : Prop := ∀ a, a ∉ domeRegs → (∀ j, j < 32 → a ≠ aDomeSeed j) → t.reg a = s.reg a

theorem DomeRegs.refl (s : State) : DomeRegs s s := fun _ _ _ => rfl

theorem DomeRegs.trans (h : DomeRegs s t) (k : DomeRegs t u) : DomeRegs s u := fun a hc hs => (k a hc hs).trans (h a hc hs)

theorem DomeRegs.of_regs (h : t.regs = s.regs) : DomeRegs s t := fun a _ _ => by rw [State.reg, h, State.reg]

theorem aDomeCnt_mem {i : Nat} (h : i < 8) : aDomeCnt i ∈ domeRegs := List.mem_map.mpr ⟨i, List.mem_range.mpr h, rfl⟩

theorem domeRegs_bump (s : State) {i : Nat} (h : i < 8) (n : Nat) : DomeRegs s (s.bump (aDomeCnt i) n) := fun a hc _ => by
  rw [bump_eq, reg_setReg, if_neg]
  rintro rfl
  exact hc (aDomeCnt_mem h)

theorem domeRegs_seed (s : State) {j : Nat} (h : j < 32) (v : W32) : DomeRegs s (s.setReg (aDomeSeed j) v) := fun a _ hs => by
  rw [reg_setReg, if_neg (hs j h)]

/-- A register below the cache's counters, or above them. -/
theorem DomeRegs.reg (h : DomeRegs s t) (ha : a < 0x40100 ∨ 0x40300 ≤ a) : t.reg a = s.reg a := by
  refine h a (fun hm => ?_) fun j hj => ?_
  · obtain ⟨i, hi, rfl⟩ := List.mem_map.mp hm
    rw [List.mem_range] at hi
    simp only [aDomeCnt] at ha
    omega
  · simp only [aDomeSeed]
    omega

/-- A relation that every step of a fold keeps holds between its ends. -/
theorem foldl_keeps {α : Type} {R : State → State → Prop} (hrefl : ∀ s, R s s) (htrans : ∀ {s t u}, R s t → R t u → R s u)
    {f : State → α → State} (h : ∀ s x, R s (f s x)) (l : List α) (s : State) : R s (l.foldl f s) := by
  induction l generalizing s with
  | nil => exact hrefl s
  | cons x l ih => exact htrans (h s x) (ih _)

theorem domeRegs_foldl {α : Type} {f : State → α → State} (h : ∀ s x, DomeRegs s (f s x)) (l : List α) (s : State) :
    DomeRegs s (l.foldl f s) := foldl_keeps .refl .trans h l s

/-! ### Bookkeeping of lines, which changes no byte -/

/-- The cache has kept its books of some lines: a device at rest stays so, and its bytes are as they were. -/
structure Tended (s t : State) : Prop where
  dome : DomeOnly s t
  regs : DomeRegs s t
  rest : s.calm → t.mem = s.mem ∧ t.calm

theorem Tended.refl (s : State) : Tended s s := ⟨.refl s, .refl s, fun h => ⟨rfl, h⟩⟩

theorem Tended.trans (h : Tended s t) (k : Tended t u) : Tended s u where
  dome := h.dome.trans k.dome
  regs := h.regs.trans k.regs
  rest hc := by
    obtain ⟨hmem, hcalm⟩ := h.rest hc
    exact ⟨(k.rest hcalm).1.trans hmem, (k.rest hcalm).2⟩

theorem tended_foldl {α : Type} {f : State → α → State} (h : ∀ s x, Tended s (f s x)) (l : List α) (s : State) :
    Tended s (l.foldl f s) := foldl_keeps .refl .trans h l s

/-- Registers that accesses move are the only ones that changed, and nothing else. -/
theorem Tended.of_reg (h : DomeRegs s (s.setReg a v)) : Tended s (s.setReg a v) := ⟨setReg_domeOnly .., h, fun hc => ⟨rfl, hc⟩⟩

theorem tended_bump (s : State) {i : Nat} (h : i < 8) (n : Nat) : Tended s (s.bump (aDomeCnt i) n) := .of_reg (domeRegs_bump s h n)

theorem fills_writeBack (s : State) (k : Nat) : (s.writeBack k).dome.fills = s.dome.fills := by
  unfold State.writeBack
  split
  · rfl
  · split <;> rfl

theorem tended_writeBack (s : State) (k : Nat) : Tended s (s.writeBack k) where
  dome := writeBack_dome s k
  regs a ha _ := (writeBack_spec s k).1 a fun h => ha (h ▸ aDomeCnt_mem (by decide))
  rest hc := ⟨(writeBack_spec s k).2.1, (fills_writeBack s k).trans hc.1, (writeBack_spec s k).2.2.1.trans hc.2⟩

theorem tended_dropLine (s : State) (k : Nat) : Tended s (s.dropLine k) where
  dome := dropLine_dome s k
  regs := .of_regs (dropLine_spec s k).1
  rest hc := by
    obtain ⟨hmem, hfresh⟩ := (dropLine_spec s k).2.1 hc.2
    refine ⟨hmem, ?_, hfresh⟩
    unfold State.dropLine
    split
    · exact hc.1
    · rw [refresh_fresh (by exact hc.2)]
      exact hc.1

theorem tended_evict (s : State) (k : Nat) : Tended s (s.evict k) := (tended_writeBack s k).trans (tended_dropLine _ k)

theorem tended_install (s : State) (l w : Nat) : Tended s (s.install l w) := ⟨install_dome s l w, .of_regs rfl, fun hc => ⟨rfl, hc⟩⟩

theorem foldSlice_lt (n l : Nat) : foldSlice n l < 32 := by
  induction n generalizing l with
  | zero => exact Nat.zero_lt_succ 31
  | succ n ih => exact Nat.xor_lt_two_pow (n := 5) (Nat.mod_lt _ (by decide)) (ih _)

theorem tended_chooseVictim (s : State) (l : Nat) : Tended s (s.chooseVictim l).2 :=
  (Tended.of_reg (domeRegs_seed s (foldSlice_lt 9 l) _)).trans (tended_bump _ (by decide) 1)

theorem tended_victimHit (s : State) (l : Nat) : Tended s (s.victimHit l) := by
  unfold State.victimHit
  split
  · exact tended_bump s (by decide) 1
  · exact .refl s

/-- The tier's bytes are kept beneath a line that becomes dirty. -/
theorem tended_beneath (s : State) (d : Dome) (hd : s.calm → d.fills = [] ∧ d.fresh = []) : Tended s { s with dome := d } :=
  ⟨⟨_, _, _, _, rfl⟩, .of_regs rfl, fun hc => ⟨rfl, hd hc⟩⟩

theorem erase_eq_nil {α : Type} {m : SMap α} (h : m = []) (k : Nat) : SMap.erase m k = [] := by
  rw [h]
  rfl

theorem tended_dirtyLine (s : State) (l w : Nat) : Tended s (s.dirtyLine l w) := by
  unfold State.dirtyLine
  dsimp only
  split
  · exact .refl s
  · split
    · exact .refl s
    · refine Tended.trans (t := if lineGlacier l && decide (8192 ≤ (s.dirtyGlacier (lineSlice l)).length) then
          (match earliest (s.dirtyGlacier (lineSlice l)) with | some v => s.writeBack v | none => s) else s) ?_
        (tended_beneath _ _ fun hc => ⟨hc.1, erase_eq_nil hc.2 l⟩)
      split
      · split
        · exact tended_writeBack s _
        · exact .refl s
      · exact .refl s

theorem tended_wroteLine (s : State) (a n l : Nat) : Tended s (s.wroteLine a n l) := by
  unfold State.wroteLine
  split
  · exact ⟨⟨_, _, _, _, rfl⟩, .of_regs rfl, fun hc => ⟨rfl, hc⟩⟩
  · dsimp only
    split
    · exact ⟨⟨_, _, _, _, rfl⟩, .of_regs rfl, fun hc => ⟨rfl, hc⟩⟩
    · exact .refl s

theorem domeRegs_storeBytes (s : State) (a : Nat) (b : List Byte) : DomeRegs s (s.storeBytes a b) :=
  (DomeRegs.of_regs (t := { s with mem := Mem.writeN s.mem a b }) rfl).trans
    (domeRegs_foldl (fun u l => (tended_wroteLine u a b.length l).regs) _ _)

theorem settleFill_calm {l : Nat} (h : s.calm) : s.settleFill l = s := by
  rw [State.settleFill, h.1]
  rfl

theorem domeRegs_settleFill (s : State) (l : Nat) : DomeRegs s (s.settleFill l) := by
  unfold State.settleFill
  split
  · exact .refl s
  case h_2 f _ =>
    dsimp only
    have hfill : ∀ u : State, DomeRegs u (if f.raced then u.bump (aDomeCnt 4) else (u.evict (wayKey l f.way)).install l f.way) := by
      intro u
      split
      · exact domeRegs_bump u (by decide) 1
      · exact (tended_evict u _).regs.trans (tended_install ..).regs
    have hdirty : ∀ u : State, DomeRegs u (if (f.writes.isEmpty || f.raced) = true then u else u.dirtyLine l f.way) := by
      intro u
      split
      · exact .refl u
      · exact (tended_dirtyLine ..).regs
    have hwrites : ∀ u : State, DomeRegs u (f.writes.foldl (fun (t : State) (w : Nat × List Byte) => t.storeBytes w.1 w.2) u) :=
      fun u => domeRegs_foldl (fun u (w : Nat × List Byte) => domeRegs_storeBytes u w.1 w.2) _ u
    refine DomeRegs.trans ?_ (.of_regs rfl)
    refine DomeRegs.trans ?_ (hwrites _)
    refine DomeRegs.trans ?_ (hdirty _)
    exact (DomeRegs.of_regs rfl).trans (hfill _)

theorem tended_settleFill (s : State) (l : Nat) : Tended s (s.settleFill l) :=
  ⟨settleFill_dome s l, domeRegs_settleFill s l, fun hc => by rw [settleFill_calm hc]; exact ⟨rfl, hc⟩⟩

theorem tended_touch (s : State) (w : Bool) (l : Nat) : Tended s (s.touch w l) := by
  unfold State.touch
  split
  · exact .refl s
  · dsimp only
    have hdirty : ∀ (u : State) (v : Nat), Tended u (if w = true then u.dirtyLine l v else u) := by
      intro u v
      split
      · exact tended_dirtyLine ..
      · exact .refl u
    refine (tended_settleFill s l).trans (Tended.trans ?_ (hdirty _ _))
    split
    · exact tended_bump _ (by decide) 1
    · exact (tended_victimHit ..).trans ((tended_chooseVictim ..).trans ((tended_evict ..).trans (tended_install ..)))

/-! ### Reads and writes of a range -/

theorem tended_touchRange (s : State) (a n : Nat) : Tended s (s.touchRange a n) := by
  unfold State.touchRange
  split
  · exact .refl s
  · exact tended_foldl (fun u l => tended_touch u false l) _ s

theorem Tended.readsLeave (h : Tended s t) : ReadsLeave s t := by
  obtain ⟨rg, dm, bad, m, hframe⟩ := h.dome
  exact ⟨⟨rg, dm, bad, m, hframe⟩, h.regs, fun hc => (h.rest hc).1⟩

theorem tended_readTier (s : State) (a n : Nat) : Tended s (s.readTier a n).2 := tended_touchRange s a n

/-- What a read gives, with nothing in flight. -/
theorem readTier_calm (h : s.calm) (a n : Nat) : (s.readTier a n).1 = Mem.readN s.mem a n := by
  rw [State.readTier, ((tended_touchRange s a n).rest h).1]

theorem mem_foldl_wroteLine (a n : Nat) (l : List Nat) (s : State) :
    (l.foldl (fun u l => u.wroteLine a n l) s).mem = s.mem := by
  induction l generalizing s with
  | nil => rfl
  | cons x l ih =>
    rw [List.foldl_cons, ih]
    unfold State.wroteLine
    split
    · rfl
    · dsimp only
      split <;> rfl

theorem mem_storeBytes (s : State) (a : Nat) (b : List Byte) : (s.storeBytes a b).mem = Mem.writeN s.mem a b := mem_foldl_wroteLine ..

theorem calm_storeBytes (h : s.calm) (a : Nat) (b : List Byte) : (s.storeBytes a b).calm :=
  ((tended_foldl (fun u l => tended_wroteLine u a b.length l) _ { s with mem := Mem.writeN s.mem a b }).rest h).2

theorem domeRegs_writeTier (s : State) (a : Nat) (b : List Byte) : DomeRegs s (s.writeTier a b) := by
  have hlines : DomeRegs s (if b.isEmpty then s else (linesOf a b.length).foldl (fun u l => u.touch true l) s) := by
    split
    · exact .refl s
    · exact domeRegs_foldl (fun u l => (tended_touch u true l).regs) _ s
  exact hlines.trans (domeRegs_storeBytes _ a b)

/-- A write through the cache with nothing in flight: the bytes, and still nothing in flight. -/
theorem writeTier_calm (h : s.calm) (a : Nat) (b : List Byte) : (s.writeTier a b).mem = Mem.writeN s.mem a b ∧ (s.writeTier a b).calm := by
  have hlines : Tended s (if b.isEmpty then s else (linesOf a b.length).foldl (fun u l => u.touch true l) s) := by
    split
    · exact .refl s
    · exact tended_foldl (fun u l => tended_touch u true l) _ s
  obtain ⟨hmem, hcalm⟩ := hlines.rest h
  refine ⟨?_, ?_⟩
  · rw [State.writeTier, mem_storeBytes, hmem]
  · exact calm_storeBytes hcalm a b

/-- Bytes written at an address, and every other byte as before. -/
theorem writesMem_writeTier (h : s.calm) (a : Nat) (b : List Byte) : WritesMem s (s.writeTier a b) a b := by
  rw [WritesMem, (writeTier_calm h a b).1]
  exact ⟨Mem.readN_writeN b _ _, fun x hx => Mem.read_writeN_out b _ _ _ hx⟩

end Sys2Proof.Machine
end

section
namespace Sys2Proof.Machine

/-! ## Context switches (R755, R756) -/

variable {s t u : State} {a c : Nat}

theorem rb_of_reg (h : t.reg a = s.reg a) (i : Nat) : t.rb a i = s.rb a i := congrArg (rbit · i) h

theorem rf_of_reg (h : t.reg a = s.reg a) (lo n : Nat) : t.rf a lo n = s.rf a lo n := congrArg (rfld · lo n) h

theorem aCmap_range {k : Nat} (hk : k < 32) : aCtx c 0x100 ≤ aCmap c k ∧ aCmap c k + 4 < aCtx c 0x200 := by
  simp only [aCmap, aCtx]
  omega

/-- The counters that a context's map names follow the registers of the map. -/
theorem mappedCtrs_congr (h : ∀ b, aCtx c 0x100 ≤ b → b < aCtx c 0x200 → t.reg b = s.reg b) : t.mappedCtrs c = s.mappedCtrs c := by
  unfold State.mappedCtrs
  refine List.flatMap_congr fun k hk => ?_
  have hrange := aCmap_range (c := c) (List.mem_range.mp hk)
  have h0 : t.reg (aCmap c k) = s.reg (aCmap c k) := h _ (by omega) (by omega)
  have h4 : t.reg (aCmap c k + 4) = s.reg (aCmap c k + 4) := h _ (by omega) (by omega)
  simp only [rb_of_reg h0, rf_of_reg h4]

theorem ctxRuns_congr (h : t.cores = s.cores) (c : Nat) : t.ctxRuns c = s.ctxRuns c := by rw [State.ctxRuns, h, State.ctxRuns]

theorem foldl_clearCtr (l : List Nat) (s : State) :
    l.foldl (fun t p => t.setCtr p 0) s = { s with ctrs := (l.foldl (fun t p => t.setCtr p 0) s).ctrs }
    ∧ ∀ p, (l.foldl (fun t p => t.setCtr p 0) s).ctr p = if p ∈ l then 0 else s.ctr p := by
  induction l generalizing s with
  | nil => exact ⟨rfl, fun p => by simp⟩
  | cons q l ih =>
    obtain ⟨hframe, hctr⟩ := ih (s.setCtr q 0)
    rw [List.foldl_cons]
    refine ⟨hframe, fun p => ?_⟩
    rw [hctr, ctr_setCtr]
    by_cases h1 : p ∈ l <;> by_cases h2 : p = q <;> simp [h1, h2]

theorem clearCtxCtrs_spec (s : State) (c : Nat) : s.clearCtxCtrs c = { s with ctrs := (s.clearCtxCtrs c).ctrs }
    ∧ ∀ p, (s.clearCtxCtrs c).ctr p = if p ∈ s.mappedCtrs c then 0 else s.ctr p := foldl_clearCtr _ s

/-- A context has been switched: its counters are clear, but under T7SYNC, or their clear is due (R755, R756). -/
structure Switched (s t : State) (c : Nat) : Prop where
  frame : t = { s with ctrs := t.ctrs, clrDue := t.clrDue }
  due : s.ctxRuns c = true → t.ctrs = s.ctrs ∧ t.clrDue = nsetBit s.clrDue c true
  done : s.ctxRuns c = false → t.clrDue = s.clrDue
    ∧ ∀ p, t.ctr p = if s.rb (aCtxCtl c) 2 = false ∧ p ∈ s.mappedCtrs c then 0 else s.ctr p

theorem switched_ctxSwitch (s : State) (c : Nat) : Switched s (s.ctxSwitch c) c := by
  rw [State.ctxSwitch]
  split
  case isTrue hr => exact ⟨rfl, fun _ => ⟨rfl, rfl⟩, fun h => absurd (hr.symm.trans h) (by decide)⟩
  case isFalse hr =>
    rw [State.switchClear]
    split
    case isTrue ht => exact ⟨rfl, fun h => absurd h hr, fun _ => ⟨rfl, fun p => by simp [ht]⟩⟩
    case isFalse ht =>
      obtain ⟨hframe, hctr⟩ := clearCtxCtrs_spec s c
      refine ⟨?_, fun h => absurd h hr, fun _ => ⟨?_, fun p => ?_⟩⟩
      · rw [hframe]
      · rw [hframe]
      · rw [hctr]; simp [ht]

/-! ## CTX_CTL (R92, R99, R117) -/

variable {r : Req} {v : W32}

theorem exec_ctxCtlEnSet (c : Fin 16) : exec (.ctxCtlEnSet r c v) s
    = .next (if rbit v 0 && !s.ctxEn c.val then s.regRow r (aCtxCtl c.val) v else s) := rfl

theorem exec_ctxCtlEnClear (c : Fin 16) : exec (.ctxCtlEnClear r c v) s
    = .next (if !rbit v 0 && s.ctxEn c.val then s.regRow r (aCtxCtl c.val) v else s) := rfl

theorem exec_ctxCtlReset (c : Fin 16) : exec (.ctxCtlReset r c v) s
    = .next (if rbit v 1 && !rbit v 0 then s.regRow r (aCtxCtl c.val) v else s) := rfl

theorem exec_ctxCtlModeWrite (c : Fin 16) : exec (.ctxCtlModeWrite r c v) s
    = .next (if (v ^^^ s.reg (aCtxCtl c.val)) &&& 0x1C != 0 then s.regRow r (aCtxCtl c.val) v else s) := rfl

theorem writeReg_ctxCtl (hc : c < 16) : regInfo (aCtxCtl c) ≠ none
    ∧ s.writeReg r false false (aCtxCtl c) v = s.wCtxCtl (s.keyOf r.who) c v := by
  interval_cases c <;> exact ⟨Option.some_ne_none _, rfl⟩

theorem TakesWrite.ctxCtl (hc : c < 16) (h : TakesWrite s r (aCtxCtl c) v) :
    s.regRow r (aCtxCtl c) v = (s.wCtxCtl (s.keyOf r.who) c v).row r (aCtxCtl c) := by
  obtain ⟨hinfo, hw⟩ := writeReg_ctxCtl (s := s) (r := r) (v := v) hc
  rw [h.regRow_eq hinfo, hw]

/-- The write changes EXACT, REALTIME or T7SYNC of context c. -/
def State.changesMode (s : State) (c : Nat) (v : W32) : Prop := (v ^^^ s.reg (aCtxCtl c)) &&& 0x1C ≠ 0

theorem wCtxCtl_busy {key : Option Nat} (hm : s.changesMode c v) (hl : s.ctxLocked c = true) : s.wCtxCtl key c v = .nak s nkBusy := by
  rw [State.changesMode, BitVec.xor_comm] at hm
  rw [State.wCtxCtl, if_pos (Bool.and_eq_true_iff.mpr ⟨bne_iff_ne.mpr hm, hl⟩)]

/-- What a write that leaves EN at 0 makes of the two registers. -/
def State.disabled (s : State) (c : Nat) (v : W32) : State :=
  if rbit v 1 then (s.setReg (aCtxCtl c) (v &&& 0x1C)).setB (aCtxStatus c) 2 true else s.setReg (aCtxCtl c) (v &&& 0x1C)

theorem wCtxCtl_guard (may : s.changesMode c v → s.ctxLocked c = false) :
    ¬ (((s.reg (aCtxCtl c) ^^^ v) &&& 0x1C != 0) && s.ctxLocked c) = true := by
  rw [Bool.and_eq_true, bne_iff_ne, BitVec.xor_comm]
  exact fun ⟨hm, hl⟩ => absurd (hl.symm.trans (may hm)) (by decide)

theorem wCtxCtl_off {key : Option Nat} (may : s.changesMode c v → s.ctxLocked c = false) (hv : rbit v 0 = false) :
    s.wCtxCtl key c v = .ok (s.disabled c v) := by
  rw [State.wCtxCtl, if_neg (wCtxCtl_guard may), hv, State.disabled]
  simp

theorem wCtxCtl_on {key : Option Nat} (may : s.changesMode c v → s.ctxLocked c = false) (hv : rbit v 0 = true) (he : s.ctxEn c = false) :
    s.wCtxCtl key c v = if (s.enableCtx c v { source := 0x02, key := key }).1 ≠ 0
      then .nak (s.enableCtx c v { source := 0x02, key := key }).2 (s.enableCtx c v { source := 0x02, key := key }).1
      else .ok (s.enableCtx c v { source := 0x02, key := key }).2 := by
  rw [State.wCtxCtl, if_neg (wCtxCtl_guard may), if_pos hv, if_neg (by simp [he])]

theorem aCtxStatus_ne_ctl (c : Nat) : aCtxStatus c ≠ aCtxCtl c := by simp [aCtxStatus, aCtxCtl, aCtx]

theorem disabled_spec (s : State) (c : Nat) (v : W32) : RegsOnly s (s.disabled c v) [aCtxCtl c, aCtxStatus c]
    ∧ (s.disabled c v).reg (aCtxCtl c) = v &&& 0x1C
    ∧ (s.disabled c v).reg (aCtxStatus c) = if rbit v 1 then rputBit (s.reg (aCtxStatus c)) 2 true else s.reg (aCtxStatus c) := by
  have hne := aCtxStatus_ne_ctl c
  rw [State.disabled]
  split
  · refine ⟨((RegsOnly.refl s _).setReg (by simp) _).setB (by simp) .., ?_, ?_⟩
    · rw [reg_setB, if_neg hne.symm, reg_setReg_self]
    · rw [reg_setB, if_pos rfl, reg_setReg, if_neg hne]
  · refine ⟨(RegsOnly.refl s _).setReg (by simp) _, reg_setReg_self .., ?_⟩
    rw [reg_setReg, if_neg hne]

theorem rbit_and (w x : W32) (i : Nat) : rbit (w &&& x) i = (rbit w i && rbit x i) := by simp [rbit]

/-- Clearing EN (R99). -/
theorem ctxEn_disabled (s : State) (c : Nat) (v : W32) : (s.disabled c v).ctxEn c = false := by
  rw [State.ctxEn, State.rb, (disabled_spec s c v).2.1, rbit_and, show rbit (0x1C : W32) 0 = false by decide, Bool.and_false]

theorem rb_disabled_reset (s : State) (c : Nat) (v : W32) : (s.disabled c v).rb (aCtxStatus c) 2 = (rbit v 1 || s.rb (aCtxStatus c) 2) := by
  rw [State.rb, (disabled_spec s c v).2.2]
  cases rbit v 1 with
  | true => simp [rbit_rputBit]
  | false => simp [State.rb]

theorem runs_modeWrite (c : Fin 16) (h : TakesWrite s r (aCtxCtl c.val) v) (hm : s.changesMode c.val v) (hl : s.ctxLocked c.val = false)
    (h0 : rbit v 0 = false) (h1 : rbit v 1 = false) :
    Runs (.ctxCtlModeWrite r c v) s fun t => RegsOnly s t [aCtxCtl c.val] ∧ t.reg (aCtxCtl c.val) = v &&& 0x1C := by
  refine ⟨s.setReg (aCtxCtl c.val) (v &&& 0x1C), ?_, regsOnly_setReg, reg_setReg_self ..⟩
  rw [exec_ctxCtlModeWrite, if_pos (by exact bne_iff_ne.mpr hm), h.ctxCtl c.isLt, wCtxCtl_off (fun _ => hl) h0, WRes.row_ok, State.disabled,
    if_neg (by simp [h1])]

theorem exec_modeWrite_busy (c : Fin 16) (h : TakesWrite s r (aCtxCtl c.val) v) (hm : s.changesMode c.val v) (hl : s.ctxLocked c.val = true) :
    exec (.ctxCtlModeWrite r c v) s = .next (s.nakReg r nkBusy (aCtxCtl c.val)) := by
  rw [exec_ctxCtlModeWrite, if_pos (by exact bne_iff_ne.mpr hm), h.ctxCtl c.isLt, wCtxCtl_busy hm hl, WRes.row_nak]

theorem runs_enClear (c : Fin 16) (h : TakesWrite s r (aCtxCtl c.val) v) (h0 : rbit v 0 = false) (he : s.ctxEn c.val = true)
    (may : s.changesMode c.val v → s.ctxLocked c.val = false) :
    Runs (.ctxCtlEnClear r c v) s fun t => RegsOnly s t [aCtxCtl c.val, aCtxStatus c.val] ∧ t.reg (aCtxCtl c.val) = v &&& 0x1C
      ∧ t.ctxEn c.val = false ∧ t.rb (aCtxStatus c.val) 2 = (rbit v 1 || s.rb (aCtxStatus c.val) 2) := by
  obtain ⟨honly, hctl, -⟩ := disabled_spec s c.val v
  refine ⟨_, ?_, honly, hctl, ctxEn_disabled .., rb_disabled_reset ..⟩
  rw [exec_ctxCtlEnClear, if_pos (by simp [h0, he]), h.ctxCtl c.isLt, wCtxCtl_off may h0, WRes.row_ok]

theorem runs_ctxReset (c : Fin 16) (h : TakesWrite s r (aCtxCtl c.val) v) (h1 : rbit v 1 = true) (h0 : rbit v 0 = false)
    (may : s.changesMode c.val v → s.ctxLocked c.val = false) :
    Runs (.ctxCtlReset r c v) s fun t => RegsOnly s t [aCtxCtl c.val, aCtxStatus c.val] ∧ t.reg (aCtxCtl c.val) = v &&& 0x1C
      ∧ t.reg (aCtxStatus c.val) = rputBit (s.reg (aCtxStatus c.val)) 2 true := by
  obtain ⟨honly, hctl, hstatus⟩ := disabled_spec s c.val v
  refine ⟨_, ?_, honly, hctl, hstatus.trans (if_pos h1)⟩
  rw [exec_ctxCtlReset, if_pos (by simp [h0, h1]), h.ctxCtl c.isLt, wCtxCtl_off may h0, WRes.row_ok]

/-! ### Setting EN: the enable check (R117–R120, R833) -/

theorem checkEn_lt (s : State) (c : Nat) (exact' : Bool) : s.checkEn c exact' < 256 := by
  refine lowestCode_lt (by decide) ?_
  simp [rcNoProgram, rcOverlap, rcPin, rcExact, rcCmap, rcPbuf, rcPeerFw]

/-- NO_PROGRAM comes first. -/
theorem checkEn_noProgram (h : s.rb (aCtxStatus c) 1 = false) (exact' : Bool) : s.checkEn c exact' = 0x01 := by
  rw [State.checkEn, lowestCode_cons, if_pos (by simp [h])]
  rfl

theorem enableCtx_refused {y : Cause} {s0 : State} (h0 : s.imageRead c (s.prog c).descOff (s.prog c).descLen = s0)
    (h : s0.checkEn c (rbit v 4) ≠ 0) :
    s.enableCtx c v y = (s0.checkEn c (rbit v 4), s0.answerCtx c (s0.checkEn c (rbit v 4)) y) := by
  simp only [State.enableCtx, h0, if_pos h]

/-- The context with EN at 1 and its shape fixed. -/
def State.enabled (s : State) (c : Nat) (v : W32) : State :=
  { s.setReg (aCtxCtl c) (v &&& 0x1D) with ctxHeld := nsetBit s.ctxHeld c false }.setShape c

theorem enableCtx_taken {y : Cause} {s0 : State} (h0 : s.imageRead c (s.prog c).descOff (s.prog c).descLen = s0)
    (h : s0.checkEn c (rbit v 4) = 0) :
    s.enableCtx c v y = (0, ((s0.setF (aCtxStatus c) 24 8 0).enabled c v).ctxSwitch c) := by
  simp only [State.enableCtx, h0, h, ne_eq, not_true_eq_false, if_false, answerCtx_zero]
  rfl

theorem activeSpires_congr (h : ∀ sp, t.reg (aSpire sp 0) = s.reg (aSpire sp 0)) : t.activeSpires = s.activeSpires := by
  have hstate : t.spireState = s.spireState := funext fun sp => rf_of_reg (h sp) 28 4
  rw [State.activeSpires, hstate, State.activeSpires]

theorem activeSpires_le (s : State) : s.activeSpires ≤ 64 := (List.length_filter_le _ _).trans (by simp)

theorem enabled_spec (s : State) (hc : c < 16) (v : W32) :
    s.enabled c v = { s with
      regs := (s.enabled c v).regs, ctxHeld := nsetBit s.ctxHeld c false, enSpires := SMap.set s.enSpires 0 c s.activeSpires }
    ∧ (∀ b, b ∉ [aCtxCtl c, aCtx c 0x020] → (s.enabled c v).reg b = s.reg b) ∧ (s.enabled c v).reg (aCtxCtl c) = v &&& 0x1D
    ∧ (s.enabled c v).rf (aCtx c 0x020) 16 7 = if s.rb (aCtx c 0x020) 15 then s.rf (aCtx c 0x020) 0 7 else s.activeSpires := by
  have hne : aCtx c 0x020 ≠ aCtxCtl c := by simp [aCtxCtl, aCtx]
  let w : State := { s.setReg (aCtxCtl c) (v &&& 0x1D) with ctxHeld := nsetBit s.ctxHeld c false }
  have hw : ∀ b, b ≠ aCtxCtl c → w.reg b = s.reg b := fun b hb => (reg_setReg ..).trans (if_neg hb)
  have hspire : ∀ sp, aSpire sp 0 ≠ aCtxCtl c := fun sp => by simp only [aSpire, aCtxCtl, aCtx]; omega
  have hact : w.activeSpires = s.activeSpires := activeSpires_congr fun sp => hw _ (hspire sp)
  let x : State := { w with enSpires := SMap.set w.enSpires 0 c w.activeSpires }
  let n := if w.rb (aCtx c 0x020) 15 then w.rf (aCtx c 0x020) 0 7 else w.activeSpires
  have heq : s.enabled c v = x.setF (aCtx c 0x020) 16 7 n := rfl
  have hn : n = if s.rb (aCtx c 0x020) 15 then s.rf (aCtx c 0x020) 0 7 else s.activeSpires := by
    simp only [n, rb_of_reg (hw _ hne), rf_of_reg (hw _ hne), hact]
  have hlt : n < 2 ^ 7 := by
    rw [hn]
    split
    · exact Nat.mod_lt _ (by decide)
    · exact (activeSpires_le s).trans_lt (by decide)
  refine ⟨?_, fun b hb => ?_, ?_, ?_⟩
  · rw [heq, ← hact]
    rfl
  · rw [List.mem_cons, List.mem_singleton, not_or] at hb
    rw [heq, reg_setF, if_neg hb.2]
    exact hw b hb.1
  · rw [heq, reg_setF, if_neg hne.symm]
    exact reg_setReg_self ..
  · rw [heq, State.rf, reg_setF, if_pos rfl, rfld_rput_same _ _ (by decide), Nat.mod_eq_of_lt hlt, hn]

/-- Of the registers below the cache's and of the Spires', the read of a program's descriptors changes none. -/
theorem DomeRegs.ctx (h : DomeRegs s t) (hc : c < 16) {off : Nat} (ho : off < 0x1000) : t.reg (aCtx c off) = s.reg (aCtx c off) :=
  h.reg (.inl (by simp only [aCtx]; omega))

/-- Setting EN where the check allows it. -/
theorem runs_enSet (c : Fin 16) (h : TakesWrite s r (aCtxCtl c.val) v) (hv : rbit v 0 = true) (he : s.ctxEn c.val = false)
    (may : s.changesMode c.val v → s.ctxLocked c.val = false) {s0 : State}
    (h0 : s.imageRead c.val (s.prog c.val).descOff (s.prog c.val).descLen = s0) (htend : Tended s s0) (hcode : s0.checkEn c.val (rbit v 4) = 0) :
    Runs (.ctxCtlEnSet r c v) s fun t => t = { s0 with
        regs := t.regs, ctrs := t.ctrs, clrDue := t.clrDue, ctxHeld := nsetBit s.ctxHeld c.val false,
        enSpires := SMap.set s.enSpires 0 c.val s.activeSpires }
      ∧ (∀ b, b ∉ [aCtxCtl c.val, aCtxStatus c.val, aCtx c.val 0x020] → t.reg b = s0.reg b)
      ∧ t.reg (aCtxCtl c.val) = v &&& 0x1D ∧ t.ctxEn c.val = true ∧ t.rf (aCtxStatus c.val) 24 8 = 0
      ∧ t.rf (aCtx c.val 0x020) 16 7 =
          (if s.rb (aCtx c.val 0x020) 15 then s.rf (aCtx c.val 0x020) 0 7 else s.activeSpires)
      ∧ (s.ctxRuns c.val = true → t.ctrs = s.ctrs ∧ t.clrDue = nsetBit s.clrDue c.val true)
      ∧ (s.ctxRuns c.val = false → t.clrDue = s.clrDue
          ∧ ∀ p, t.ctr p = if rbit v 2 = false ∧ p ∈ s.mappedCtrs c.val then 0 else s.ctr p) := by
  have hrow : exec (.ctxCtlEnSet r c v) s = .next (((s0.setF (aCtxStatus c.val) 24 8 0).enabled c.val v).ctxSwitch c.val) := by
    rw [exec_ctxCtlEnSet, if_pos (by simp [hv, he]), h.ctxCtl c.isLt, wCtxCtl_on may hv he, enableCtx_taken h0 hcode, if_neg (by simp),
      WRes.row_ok]
  have hlow : ∀ off, off < 0x1000 → s0.reg (aCtx c.val off) = s.reg (aCtx c.val off) := fun off ho => htend.regs.ctx c.isLt ho
  have hspire : ∀ sp, s0.reg (aSpire sp 0) = s.reg (aSpire sp 0) := fun sp => htend.regs.reg (.inr (by simp only [aSpire]; omega))
  obtain ⟨rg, dm, bad, m, hframe⟩ := htend.dome
  clear h0
  -- the state with the check's answer
  obtain ⟨u, hu⟩ : ∃ u, s0.setF (aCtxStatus c.val) 24 8 0 = u := ⟨_, rfl⟩
  have hreg : ∀ b, b ≠ aCtxStatus c.val → u.reg b = s0.reg b := fun b hb => by rw [← hu, reg_setF, if_neg hb]
  have hanswer : u.reg (aCtxStatus c.val) = rput (s0.reg (aCtxStatus c.val)) 24 8 0 := by rw [← hu, reg_setF, if_pos rfl]
  have huframe : u = { s with regs := u.regs, dome := dm, badBytes := bad, mem := m } := by rw [← hu, hframe]; rfl
  have hshape : u.reg (aCtx c.val 0x020) = s.reg (aCtx c.val 0x020) :=
    (hreg _ (by simp [aCtxStatus, aCtx])).trans (hlow _ (by decide))
  have hact : u.activeSpires = s.activeSpires := activeSpires_congr fun sp =>
    (hreg _ (by have := c.isLt; simp only [aSpire, aCtxStatus, aCtx]; omega)).trans (hspire sp)
  -- the context enabled, and switched
  obtain ⟨hen, henreg, henctl, henshape⟩ := enabled_spec u c.isLt v
  obtain ⟨x, hx⟩ : ∃ x, u.enabled c.val v = x := ⟨_, rfl⟩
  rw [hu, hx] at hrow
  rw [hx] at henreg henctl
  rw [hx, hact] at hen henshape
  have hcores : x.cores = s.cores := by rw [hen, huframe]
  have hctrs : x.ctrs = s.ctrs := by rw [hen, huframe]
  have hdue : x.clrDue = s.clrDue := by rw [hen, huframe]
  have hmap : x.mappedCtrs c.val = s.mappedCtrs c.val := mappedCtrs_congr fun b hlo hhi => by
    simp only [aCtx] at hlo hhi
    rw [henreg b (by simp [aCtxCtl, aCtx]; omega), hreg b (by simp [aCtxStatus, aCtx]; omega)]
    exact htend.regs.reg (.inl (by have := c.isLt; omega))
  have hsw := switched_ctxSwitch x c.val
  have hswreg : ∀ b, (x.ctxSwitch c.val).reg b = x.reg b := fun b => by rw [hsw.frame]; rfl
  refine ⟨_, hrow, ?_, fun b hb => ?_, (hswreg _).trans henctl, ?_, ?_, ?_, ?_, ?_⟩
  · rw [hsw.frame, hen, huframe, hframe]
  · simp only [List.mem_cons, List.not_mem_nil, or_false, not_or] at hb
    rw [hswreg, henreg b (by simp [hb.1, hb.2.2]), hreg b hb.2.1]
  · rw [State.ctxEn, State.rb, hswreg, henctl, rbit_and, hv]
    rfl
  · have hne : aCtxStatus c.val ∉ [aCtxCtl c.val, aCtx c.val 0x020] := by simp [aCtxStatus, aCtxCtl, aCtx]
    rw [State.rf, hswreg, henreg _ hne, hanswer, rfld_rput_same _ _ (by decide)]
    rfl
  · rw [rf_of_reg (hswreg _), henshape, rb_of_reg hshape, rf_of_reg hshape]
  · intro hr
    obtain ⟨hc, hd⟩ := hsw.due ((ctxRuns_congr hcores c.val).trans hr)
    exact ⟨hc.trans hctrs, by rw [hd, hdue]⟩
  · intro hr
    obtain ⟨hd, hc⟩ := hsw.done ((ctxRuns_congr hcores c.val).trans hr)
    refine ⟨hd.trans hdue, fun p => ?_⟩
    rw [hc, hmap, State.rb, henctl, rbit_and, show rbit (0x1D : W32) 2 = true by decide, Bool.and_true, State.ctr, hctrs, State.ctr]

theorem exec_enSet_refused (c : Fin 16) (h : TakesWrite s r (aCtxCtl c.val) v) (hv : rbit v 0 = true) (he : s.ctxEn c.val = false)
    (may : s.changesMode c.val v → s.ctxLocked c.val = false) {s0 : State}
    (h0 : s.imageRead c.val (s.prog c.val).descOff (s.prog c.val).descLen = s0) (hcode : s0.checkEn c.val (rbit v 4) ≠ 0) :
    ∃ u, RegsOnly s0 u [aCtxStatus c.val, aDevRefuseLast, aDevRefuseCount] ∧ u.rf (aCtxStatus c.val) 24 8 = s0.checkEn c.val (rbit v 4)
      ∧ exec (.ctxCtlEnSet r c v) s = .next (u.nakReg r (s0.checkEn c.val (rbit v 4)) (aCtxCtl c.val)) := by
  refine ⟨_, regsOnly_answerCtx s0 c.val (s0.checkEn c.val (rbit v 4)) { source := 0x02, key := s.keyOf r.who },
    refuse_answerCtx (checkEn_lt ..) .., ?_⟩
  rw [exec_ctxCtlEnSet, if_pos (by simp [hv, he]), h.ctxCtl c.isLt, wCtxCtl_on may hv he, enableCtx_refused h0 hcode, if_pos hcode,
    WRes.row_nak]

end Sys2Proof.Machine
end

section
namespace Sys2Proof.Machine

/-! ## Context and Spire resets (R88, R93, R94) -/

variable {s t : State} {c : Nat}

theorem reg_resetRegs (s : State) (lo hi b : Nat) : (s.resetRegs lo hi).reg b = if lo ≤ b ∧ b < hi then regReset b else s.reg b := by
  have hcell := get_filter_key s.regs (fun a => !(decide (lo ≤ a) && decide (a < hi))) (regReset b) b
  rw [State.reg, State.resetRegs, hcell]
  by_cases h : lo ≤ b ∧ b < hi <;> simp [h, State.reg]

theorem exec_contextResetPerform (c : Fin 16) : exec (.contextResetPerform c) s = execContextResetPerform c s := rfl

theorem exec_spireReset (sp : Fin 64) : exec (.spireReset sp) s
    = .next (if s.works && s.spireState sp.val == 3 then s.clearSpire sp.val else s) := rfl

/-- A reset that is due, once no task of the context is left (R93). -/
theorem runs_contextReset (c : Fin 16) (hw : s.works = true) (h2 : s.rb (aCtxStatus c.val) 2 = true) (hn : ∀ x ∈ s.tasks, x.ctx ≠ c.val) :
    Runs (.contextResetPerform c) s fun t => t = { s with
        regs := t.regs, ctrs := t.ctrs, progs := t.progs, ctxHeld := nsetBit s.ctxHeld c.val false, clrDue := nsetBit s.clrDue c.val false }
      ∧ (∀ b, t.reg b = if aCtx c.val 0 ≤ b ∧ b < aCtx c.val 0x1000 then regReset b else s.reg b)
      ∧ (∀ p, t.ctr p = if p ∈ s.mappedCtrs c.val then 0 else s.ctr p)
      ∧ ∀ d, SMap.find t.progs d = if d = c.val then none else SMap.find s.progs d := by
  have hany : s.tasks.any (fun t => t.ctx == c.val) = false := by simpa using hn
  obtain ⟨hframe, hctr⟩ := clearCtxCtrs_spec s c.val
  obtain ⟨w, hwdef⟩ : ∃ w, s.clearCtxCtrs c.val = w := ⟨_, rfl⟩
  have hexec : exec (.contextResetPerform c) s = .next { w.resetRegs (aCtx c.val 0) (aCtx c.val 0x1000) with
      progs := SMap.erase w.progs c.val, ctxHeld := nsetBit w.ctxHeld c.val false, clrDue := nsetBit w.clrDue c.val false } := by
    rw [exec_contextResetPerform, execContextResetPerform]
    simp only [hw, h2, hany, Bool.not_true, Bool.false_eq_true, if_false, Bool.or_self, hwdef]
    rfl
  rw [hwdef] at hframe hctr
  refine ⟨_, hexec, ?_, fun b => ?_, fun p => ?_, fun d => ?_⟩
  · rw [hframe]
    rfl
  · exact (reg_resetRegs ..).trans (by rw [hframe]; rfl)
  · exact hctr p
  · exact (find_erase ..).trans (by rw [hframe])

theorem exec_contextReset_waits (c : Fin 16) (h : s.works = false ∨ ∃ x ∈ s.tasks, x.ctx = c.val) :
    exec (.contextResetPerform c) s = .next s := by
  rw [exec_contextResetPerform, execContextResetPerform]
  rcases h with h | ⟨x, hx, hc⟩
  · simp [h]
  · have hany : s.tasks.any (fun t => t.ctx == c.val) = true := List.any_eq_true.mpr ⟨x, hx, beq_iff_eq.mpr hc⟩
    simp [hany]

/-- What a Spire's reset leaves of it (R88, R94, R95). -/
theorem clearSpire_spec (s : State) (sp : Nat) : (∀ k, (s.clearSpire sp).core k = if k / 16 = sp then {} else s.core k)
    ∧ (∀ x, Mem.read (s.clearSpire sp).dmem x = if x / 2 ^ 19 = sp then 0 else Mem.read s.dmem x)
    ∧ ∀ x, Mem.read (s.clearSpire sp).mem x =
        if storeBase + sp * 2 ^ 23 ≤ x ∧ x < storeBase + (sp + 1) * 2 ^ 23 then 0 else Mem.read s.mem x := by
  refine ⟨fun k => ?_, fun x => ?_, fun x => ?_⟩
  · have hcell := get_filter_key s.cores (fun k => k / 16 != sp) ({} : Core) k
    refine hcell.trans ?_
    by_cases h : k / 16 = sp <;> simp [h, State.core]
  · refine (read_clearRange ..).trans (if_congr ?_ rfl rfl)
    omega
  · refine (read_clearRange ..).trans (if_congr ?_ rfl rfl)
    omega

/-- Settles O42: a write of CTX_CTL is refused, takes the bits, or goes through the enable check; the resets clear what they are for. -/
theorem contextControl : Obligations.ContextControl := by
  unfold Obligations.ContextControl
  intro s
  refine ⟨fun r c v h => ⟨exec_modeWrite_busy c h, runs_modeWrite c h, runs_enClear c h, runs_ctxReset c h,
      fun hv he hm => ?_⟩, fun c sp hw => ⟨exec_contextReset_waits c (.inl hw), ?_⟩,
    fun c hw h2 => ⟨fun hx => exec_contextReset_waits c (.inr hx), runs_contextReset c hw h2⟩, fun sp => ⟨fun h3 => ?_, fun hw h3 => ?_⟩⟩
  · have htend : Tended s (s.imageRead c.val (s.prog c.val).descOff (s.prog c.val).descLen) := tended_touchRange ..
    refine ⟨htend.readsLeave, fun h1 => checkEn_noProgram ?_ _, exec_enSet_refused c h hv he hm rfl, runs_enSet c h hv he hm rfl htend⟩
    exact (rb_of_reg (htend.regs.ctx c.isLt (off := 4) (by decide)) 1).trans h1
  · rw [exec_spireReset, if_neg (by simp [hw])]
  · rw [exec_spireReset, if_neg (by simp [h3])]
  · obtain ⟨hcore, hdmem, hmem⟩ := clearSpire_spec s sp.val
    exact ⟨s.clearSpire sp.val, by rw [exec_spireReset, if_pos (by simp [hw, h3])], rfl, rfl, rfl, rfl, rfl, hcore, hdmem, hmem⟩

end Sys2Proof.Machine
end

section
namespace Sys2Proof.Machine

/-! ## Table commands (R773–R778, R819) -/

variable {s t u : State} {r : Req} {c tb : Nat} {x : Table}

/-! ### CTX_TBL_CMD as a register -/

/-- A value of CTX_TBL_CMD: the operation and the table. -/
def tblCmd (op tb : Nat) : W32 := BitVec.ofNat 32 (op * 2 ^ 28 + tb)

theorem tblCmd_fields {op : Nat} (ho : op < 16) (ht : tb < 4096) : rfld (tblCmd op tb) 28 4 = op ∧ rfld (tblCmd op tb) 0 12 = tb := by
  have hlt : op * 2 ^ 28 + tb < 2 ^ 32 := by omega
  simp only [tblCmd, rfld, nbits, BitVec.toNat_ofNat, Nat.mod_eq_of_lt hlt]
  omega

theorem exec_switch (c : Fin 16) (tb : Fin 4096) : exec (.switch r c tb) s = .next (s.regRow r (aCtx c.val 0x08C) (tblCmd 1 tb.val)) := rfl

theorem exec_retire (c : Fin 16) (tb : Fin 4096) : exec (.retire r c tb) s = .next (s.regRow r (aCtx c.val 0x08C) (tblCmd 2 tb.val)) := rfl

theorem exec_query (c : Fin 16) (tb : Fin 4096) : exec (.query r c tb) s = .next (s.regRow r (aCtx c.val 0x08C) (tblCmd 3 tb.val)) := rfl

theorem exec_reclaim (c : Fin 16) (tb : Fin 4096) : exec (.reclaim r c tb) s = .next (s.regRow r (aCtx c.val 0x08C) (tblCmd 4 tb.val)) := rfl

theorem writeReg_tblCmd (hc : c < 16) (v : W32) : regInfo (aCtx c 0x08C) ≠ none
    ∧ s.writeReg r false false (aCtx c 0x08C) v = s.wTblCmd (s.keyOf r.who) c v := by
  interval_cases c <;> exact ⟨Option.some_ne_none _, rfl⟩

theorem TakesWrite.tblCmd (hc : c < 16) {v : W32} (h : TakesWrite s r (aCtx c 0x08C) v) :
    s.regRow r (aCtx c 0x08C) v = (s.wTblCmd (s.keyOf r.who) c v).row r (aCtx c 0x08C) := by
  obtain ⟨hinfo, hw⟩ := writeReg_tblCmd (s := s) (r := r) hc v
  rw [h.regRow_eq hinfo, hw]

/-- A table of another context is not to be had (R775). -/
theorem wTblCmd_foreign {op : Nat} {key : Option Nat} (h1 : 1 ≤ op) (h4 : op ≤ 4) (ht : tb < 4096) (hx : SMap.find s.tables tb = some x)
    (ho : x.owner ≠ c) : s.wTblCmd key c (tblCmd op tb) = .nak s nkConflict := by
  obtain ⟨hop, htab⟩ := tblCmd_fields (op := op) (by omega) ht
  simp only [State.wTblCmd, hop, htab, hx]
  rw [if_neg (by omega), if_pos (by simpa using ho)]

/-- The context's own tables, and those that belong to no context. -/
def State.mayTable (s : State) (c tb : Nat) : Prop := ∀ x, SMap.find s.tables tb = some x → x.owner = c

theorem wTblCmd_own {op : Nat} {key : Option Nat} (h1 : 1 ≤ op) (h4 : op ≤ 4) (ht : tb < 4096) (hm : s.mayTable c tb) :
    s.wTblCmd key c (tblCmd op tb) = if op = 1 then (s.tblSwitch key c tb).query c tb
      else if op = 2 then (if (s.newestOf c tb).isSome then .ok ((s.tblRetire c tb).tblQuery c tb) else .ok s)
      else if op = 3 then .ok (s.tblQuery c tb)
      else .ok ((s.tblReclaim c tb).tblQuery c tb) := by
  obtain ⟨hop, htab⟩ := tblCmd_fields (op := op) (by omega) ht
  simp only [State.wTblCmd, hop, htab]
  rw [if_neg (by omega), if_neg]
  split
  case h_1 x hx => simp [hm x hx]
  case h_2 => simp

/-! ### Results (R819) -/

theorem table?_own (hx : SMap.find s.tables tb = some x) (ho : x.owner = c) : s.table? c tb = some x := by
  simp only [State.table?, hx, if_pos ho]

theorem table?_none (h : SMap.find s.tables tb = none) : s.table? c tb = none := by simp only [State.table?, h]

theorem newestOf_own (hx : SMap.find s.tables tb = some x) (ho : x.owner = c) : s.newestOf c tb = x.top := by
  rw [State.newestOf, table?_own hx ho, Option.bind_some]

/-- The registers that show a table command's results. -/
def tblRegs (c : Nat) : List Nat := [aCtx c 0x090, aCtx c 0x094, aCtx c 0x098]

theorem tblQuery_only (s : State) (c tb : Nat) : RegsOnly s (s.tblQuery c tb) (tblRegs c) :=
  (((RegsOnly.refl s _).setReg (by simp [tblRegs]) _).setReg (by simp [tblRegs]) _).setReg (by simp [tblRegs]) _

/-- CTX_TBL_STATUS of n versions, with its two flags and p pinning batches. -/
def tblStatus (n p : Nat) (dist newest : Bool) : Nat := n * 2 ^ 29 + (if dist then 2 ^ 28 else 0) + (if newest then 2 ^ 27 else 0) + p

theorem tblStatus_fields {n p : Nat} (hn : n < 8) (hp : p < 2 ^ 16) (dist newest : Bool) :
    let w : W32 := BitVec.ofNat 32 (tblStatus n p dist newest)
    rfld w 29 3 = n ∧ rbit w 27 = newest ∧ rfld w 0 16 = p := by
  have hlt : tblStatus n p dist newest < 2 ^ 32 := by
    cases dist <;> cases newest <;> simp [tblStatus] <;> omega
  simp only [rfld, rbit, nbits, BitVec.getLsbD_ofNat, BitVec.toNat_ofNat, Nat.mod_eq_of_lt hlt, Nat.testBit_eq_decide_div_mod_eq]
  cases dist <;> cases newest <;> simp [tblStatus] <;> omega

/-- The versions that a query shows. -/
def State.shownTable (s : State) (c tb : Nat) : Table := (s.table? c tb).getD { owner := c, newest := false, versions := [] }

theorem reg_tblQuery_status (s : State) (c tb : Nat) : ∃ d, (s.tblQuery c tb).reg (aCtx c 0x090)
    = BitVec.ofNat 32 (tblStatus (min (s.shownTable c tb).versions.length 7)
        (min (s.batches.filter fun (b : Batch) => b.pins.any fun p => p.1 == tb).length 0xFFFF) d (s.shownTable c tb).top.isSome) := by
  have h1 : aCtx c 0x090 ≠ aCtx c 0x094 := by simp [aCtx]
  have h2 : aCtx c 0x090 ≠ aCtx c 0x098 := by simp [aCtx]
  simp only [State.tblQuery, State.shownTable, tblStatus]
  rw [reg_setReg, if_neg h2, reg_setReg, if_neg h1, reg_setReg_self]
  exact ⟨_, rfl⟩

theorem reg_tblQuery_gen {v : Version} (h : (s.shownTable c tb).top = some v) :
    (s.tblQuery c tb).reg (aCtx c 0x094) = BitVec.ofNat 32 v.gen := by
  have h3 : aCtx c 0x094 ≠ aCtx c 0x098 := by simp [aCtx]
  rw [State.shownTable] at h
  simp only [State.tblQuery, h]
  rw [reg_setReg, if_neg h3, reg_setReg_self]

theorem reg_tblQuery_oldest {v : Version} {l : List Version} (h : (s.shownTable c tb).versions = v :: l) :
    (s.tblQuery c tb).reg (aCtx c 0x098) = BitVec.ofNat 32 v.gen := by
  rw [State.shownTable] at h
  simp only [State.tblQuery, h]
  exact reg_setReg_self ..

/-- What the three registers show of one of the context's tables. -/
def ShowsTable (t : State) (c tb : Nat) (x : Table) : Prop :=
  t.rf (aCtx c 0x090) 29 3 = min x.versions.length 7 ∧ t.rb (aCtx c 0x090) 27 = x.top.isSome
  ∧ t.rf (aCtx c 0x090) 0 16 = min ((t.batches.filter fun (b : Batch) => b.pins.any fun p => p.1 == tb).length) 0xFFFF
  ∧ (∀ v, x.top = some v → t.reg (aCtx c 0x094) = BitVec.ofNat 32 v.gen)
  ∧ ∀ v l, x.versions = v :: l → t.reg (aCtx c 0x098) = BitVec.ofNat 32 v.gen

theorem tblQuery_shows (s : State) (c tb : Nat) : ShowsTable (s.tblQuery c tb) c tb (s.shownTable c tb) := by
  obtain ⟨d, hstatus⟩ := reg_tblQuery_status s c tb
  have hbatches : (s.tblQuery c tb).batches = s.batches := by rw [(tblQuery_only s c tb).1]
  rw [← hbatches] at hstatus
  obtain ⟨hn, ht, hp⟩ := tblStatus_fields (n := min (s.shownTable c tb).versions.length 7)
    (p := min ((s.tblQuery c tb).batches.filter fun (b : Batch) => b.pins.any fun p => p.1 == tb).length 0xFFFF) (by omega) (by omega)
    d (s.shownTable c tb).top.isSome
  rw [← hstatus] at hn ht hp
  exact ⟨hn, ht, hp, fun v hv => reg_tblQuery_gen hv, fun v l hv => reg_tblQuery_oldest hv⟩

theorem shownTable_own (hx : SMap.find s.tables tb = some x) (ho : x.owner = c) : s.shownTable c tb = x := by
  rw [State.shownTable, table?_own hx ho, Option.getD_some]

theorem shownTable_none (h : SMap.find s.tables tb = none) : s.shownTable c tb = { owner := c, newest := false, versions := [] } := by
  rw [State.shownTable, table?_none h, Option.getD_none]

/-- A command's registers show one of the context's own tables as the command leaves it. -/
theorem tblQuery_own (hx : SMap.find s.tables tb = some x) (ho : x.owner = c) : ShowsTable (s.tblQuery c tb) c tb x := by
  have hshows := tblQuery_shows s c tb
  rwa [shownTable_own hx ho] at hshows

/-- The statement's account of a command that leaves the tables m: its registers, and what else it leaves. -/
theorem tblQuery_results {u : State} {m : SMap Table} (hu : u = { s with tables := m }) :
    (RegsOnly { s with tables := (u.tblQuery c tb).tables } (u.tblQuery c tb) (tblRegs c)
      ∧ ∀ x, SMap.find (u.tblQuery c tb).tables tb = some x → x.owner = c →
          (u.tblQuery c tb).rf (aCtx c 0x090) 29 3 = min x.versions.length 7 ∧ (u.tblQuery c tb).rb (aCtx c 0x090) 27 = x.top.isSome
          ∧ (u.tblQuery c tb).rf (aCtx c 0x090) 0 16 = min ((s.batches.filter fun (b : Batch) => b.pins.any fun p => p.1 == tb).length) 0xFFFF
          ∧ (∀ v, x.top = some v → (u.tblQuery c tb).reg (aCtx c 0x094) = BitVec.ofNat 32 v.gen)
          ∧ ∀ v l, x.versions = v :: l → (u.tblQuery c tb).reg (aCtx c 0x098) = BitVec.ofNat 32 v.gen)
    ∧ u.tblQuery c tb = { s with tables := (u.tblQuery c tb).tables, regs := (u.tblQuery c tb).regs } ∧ (u.tblQuery c tb).tables = m := by
  have honly := tblQuery_only u c tb
  have hshows : ∀ x, SMap.find u.tables tb = some x → x.owner = c → ShowsTable (u.tblQuery c tb) c tb x := fun x hx ho => tblQuery_own hx ho
  have htables : (u.tblQuery c tb).tables = m := by rw [honly.1, hu]
  have hbatches : (u.tblQuery c tb).batches = s.batches := by rw [honly.1, hu]
  have hsame : ({ s with tables := m } : State) = u := hu.symm
  rw [htables, hsame]
  refine ⟨⟨honly, fun x hx ho => ?_⟩, ?_, rfl⟩
  · have hx' : SMap.find u.tables tb = some x := by rw [hu]; exact hx
    have h := hshows x hx' ho
    rwa [ShowsTable, hbatches] at h
  · rw [honly.1, hu]

/-! ### RETIRE, QUERY and RECLAIM -/

theorem tblRetire_own (hx : SMap.find s.tables tb = some x) (ho : x.owner = c) :
    s.tblRetire c tb = { s with tables := SMap.put s.tables tb { x with newest := false } } := by
  rw [State.tblRetire, table?_own hx ho]

theorem tblReclaim_own (hx : SMap.find s.tables tb = some x) (ho : x.owner = c) :
    s.tblReclaim c tb = { s with tables := SMap.put s.tables tb { x with versions := x.versions.map fun (v : Version) =>
      if v.gen = (s.reg (aCtx c 0x088)).toNat ∧ v.dist = true then { v with marked := true } else v } } := by
  simp [State.tblReclaim, table?_own hx ho]

theorem tblReclaim_none (h : SMap.find s.tables tb = none) : s.tblReclaim c tb = s := by
  rw [State.tblReclaim, table?_none h]

/-! ### The rows -/

theorem row_retire (c : Fin 16) (tb : Fin 4096) (h : TakesWrite s r (aCtx c.val 0x08C) (tblCmd 2 tb.val)) (hm : s.mayTable c.val tb.val) :
    exec (.retire r c tb) s = .next (if (s.newestOf c.val tb.val).isSome then (s.tblRetire c.val tb.val).tblQuery c.val tb.val else s) := by
  rw [exec_retire, h.tblCmd c.isLt, wTblCmd_own (by decide) (by decide) tb.isLt hm, if_neg (by decide), if_pos rfl]
  split <;> rfl

theorem row_query (c : Fin 16) (tb : Fin 4096) (h : TakesWrite s r (aCtx c.val 0x08C) (tblCmd 3 tb.val)) (hm : s.mayTable c.val tb.val) :
    exec (.query r c tb) s = .next (s.tblQuery c.val tb.val) := by
  rw [exec_query, h.tblCmd c.isLt, wTblCmd_own (by decide) (by decide) tb.isLt hm, if_neg (by decide), if_neg (by decide), if_pos rfl,
    WRes.row_ok]

theorem row_reclaim (c : Fin 16) (tb : Fin 4096) (h : TakesWrite s r (aCtx c.val 0x08C) (tblCmd 4 tb.val)) (hm : s.mayTable c.val tb.val) :
    exec (.reclaim r c tb) s = .next ((s.tblReclaim c.val tb.val).tblQuery c.val tb.val) := by
  rw [exec_reclaim, h.tblCmd c.isLt, wTblCmd_own (by decide) (by decide) tb.isLt hm, if_neg (by decide), if_neg (by decide),
    if_neg (by decide), WRes.row_ok]

theorem row_switch (c : Fin 16) (tb : Fin 4096) (h : TakesWrite s r (aCtx c.val 0x08C) (tblCmd 1 tb.val)) (hm : s.mayTable c.val tb.val) :
    exec (.switch r c tb) s = .next (((s.tblSwitch (s.keyOf r.who) c.val tb.val).query c.val tb.val).row r (aCtx c.val 0x08C)) := by
  rw [exec_switch, h.tblCmd c.isLt, wTblCmd_own (by decide) (by decide) tb.isLt hm, if_pos rfl]

theorem mayTable_own (hx : SMap.find s.tables tb = some x) (ho : x.owner = c) : s.mayTable c tb := fun y hy => by
  rw [hx, Option.some_inj] at hy
  rwa [← hy]

theorem mayTable_none (h : SMap.find s.tables tb = none) : s.mayTable c tb := fun y hy => by rw [h] at hy; cases hy

/-! ### SWITCH (R776, R777) -/

/-- The versions of the table that stay live beside a new one. -/
def State.staying (s : State) (tb : Nat) : List Version := match SMap.find s.tables tb with | some x => s.stayLive tb x | none => []

/-- The code that refuses a switch: EXACT with EAGER, then a fifth version. -/
def State.switchRefusal (s : State) (c tb : Nat) (b : List Byte) : Nat :=
  if s.rb (aCtxCtl c) 4 && vrEager b then 0x08 else if 4 ≤ (s.staying tb).length then 0x11 else 0

theorem staying_some (hx : SMap.find s.tables tb = some x) : s.staying tb = s.stayLive tb x := by
  rw [State.staying, hx]

theorem staying_none (hx : SMap.find s.tables tb = none) : s.staying tb = [] := by
  rw [State.staying, hx]

theorem switchCode_eq (s : State) (c tb : Nat) (b : List Byte) : s.switchCode c tb b = s.switchRefusal c tb b := by
  rcases Option.eq_none_or_eq_some (SMap.find s.tables tb) with hx | ⟨x, hx⟩
  · rw [State.switchCode, State.switchRefusal, staying_none hx, hx]
    rfl
  · rw [State.switchCode, State.switchRefusal, staying_some hx, hx]
    rfl

theorem switchCode_lt (s : State) (c tb : Nat) (b : List Byte) : s.switchCode c tb b < 256 := by
  rw [switchCode_eq, State.switchRefusal]
  split
  · decide
  · split <;> decide

/-- Reads of memory leave the tables, and what holds their versions. -/
theorem Tended.tables (h : Tended s t) : t.tables = s.tables ∧ t.staying tb = s.staying tb ∧ t.genHigh = s.genHigh := by
  obtain ⟨rg, dm, bad, m, rfl⟩ := h.dome
  exact ⟨rfl, rfl, rfl⟩

theorem tblSwitch_denied {key : Option Nat} {d : Nat} (h : s.checkAcc c (s.tblAddr c) 128 .rd = some (.perm d)) :
    s.tblSwitch key c tb = .nak s nkPermission := by
  simp only [State.tblSwitch, State.recordUnreadable, h, Option.map_some, State.noteBad]

theorem tblSwitch_malformed {key : Option Nat} (h : s.checkAcc c (s.tblAddr c) 128 .rd = none)
    (hv : (s.readTier (s.tblAddr c) 128).2.recordValid tb (s.readTier (s.tblAddr c) 128).1 = false) :
    s.tblSwitch key c tb = .nak (s.readTier (s.tblAddr c) 128).2 nkMalformed := by
  simp only [State.tblSwitch, State.recordUnreadable, h, Option.map_none, hv, Bool.not_false, if_true]

/-- A record that is read and valid goes through the enable check. -/
theorem tblSwitch_checked {key : Option Nat} {x0 : List Byte} {s1 : State} (h : s.checkAcc c (s.tblAddr c) 128 .rd = none)
    (hread : s.readTier (s.tblAddr c) 128 = (x0, s1)) (hv : s1.recordValid tb x0 = true) :
    s.tblSwitch key c tb = if s1.switchCode c tb x0 ≠ 0
      then .nak (s1.answerCtx c (s1.switchCode c tb x0) { source := 0x06, key := key }) (s1.switchCode c tb x0)
      else .ok ((s1.answerCtx c (s1.switchCode c tb x0) { source := 0x06, key := key }).installVersion c tb x0) := by
  simp only [State.tblSwitch, State.recordUnreadable, h, Option.map_none, hread, hv, Bool.not_true, Bool.false_eq_true, if_false]

/-- A version installed as the newest one. -/
theorem installVersion_spec (s : State) (c tb : Nat) (b : List Byte) :
    (∀ n, SMap.find (s.installVersion c tb b).tables n = if n = tb
      then some { owner := c, newest := true, versions := s.staying tb ++ [{ gen := getLe b 0x44 4, bytes := b }] } else SMap.find s.tables n)
    ∧ SMap.get (s.installVersion c tb b).genHigh 0 tb = getLe b 0x44 4 := by
  refine ⟨fun n => (find_put ..).trans ?_, ?_⟩
  · rw [State.staying]
    rfl
  · exact (SMap.get_put ..).trans (if_pos rfl)

/-- A switch that the check allows. -/
theorem runs_switch (c : Fin 16) (tb : Fin 4096) (h : TakesWrite s r (aCtx c.val 0x08C) (tblCmd 1 tb.val)) (hm : s.mayTable c.val tb.val)
    (ha : s.checkAcc c.val (s.tblAddr c.val) 128 .rd = none) {x0 : List Byte} {s1 : State}
    (hread : s.readTier (s.tblAddr c.val) 128 = (x0, s1)) (hv : s1.recordValid tb.val x0 = true) (hcode : s1.switchCode c.val tb.val x0 = 0) :
    Runs (.switch r c tb) s fun t => t = { s1 with regs := t.regs, tables := t.tables, genHigh := t.genHigh }
      ∧ (∀ n, SMap.find t.tables n = if n = tb.val then
          some { owner := c.val, newest := true, versions := s.staying tb.val ++ [{ gen := getLe x0 0x44 4, bytes := x0 }] }
          else SMap.find s.tables n)
      ∧ SMap.get t.genHigh 0 tb.val = getLe x0 0x44 4 ∧ t.rf (aCtxStatus c.val) 24 8 = 0 := by
  have htend : Tended s s1 := by
    have := tended_readTier s (s.tblAddr c.val) 128
    rwa [hread] at this
  obtain ⟨htables, hstay, -⟩ := htend.tables (tb := tb.val)
  obtain ⟨w, hw⟩ : ∃ w, s1.setF (aCtxStatus c.val) 24 8 0 = w := ⟨_, rfl⟩
  have hwonly : RegsOnly s1 w [aCtxStatus c.val] := hw ▸ (RegsOnly.refl s1 _).setF (by simp) ..
  have hanswer : w.rf (aCtxStatus c.val) 24 8 = 0 := by
    rw [← hw, State.rf, reg_setF, if_pos rfl, rfld_rput_same _ _ (by decide)]
    rfl
  have hexec : exec (.switch r c tb) s = .next ((w.installVersion c.val tb.val x0).tblQuery c.val tb.val) := by
    rw [row_switch c tb h hm, tblSwitch_checked ha hread hv, hcode, if_neg (by simp), answerCtx_zero, hw]
    rfl
  obtain ⟨hfind, hgen⟩ := installVersion_spec w c.val tb.val x0
  have hwt : w.tables = s1.tables ∧ w.staying tb.val = s1.staying tb.val := by rw [hwonly.1]; exact ⟨rfl, rfl⟩
  have hinst : w.installVersion c.val tb.val x0 = { w with
      tables := (w.installVersion c.val tb.val x0).tables, genHigh := (w.installVersion c.val tb.val x0).genHigh } := rfl
  have hquery := tblQuery_only (w.installVersion c.val tb.val x0) c.val tb.val
  generalize w.installVersion c.val tb.val x0 = y at *
  refine ⟨_, hexec, ?_, fun n => ?_, ?_, ?_⟩
  · rw [hquery.1, hinst, hwonly.1]
  · rw [hquery.1, hfind, hwt.1, hwt.2, hstay, htables]
  · rw [hquery.1, hgen]
  · rw [hquery.rf (by simp [tblRegs, aCtxStatus, aCtx]), hinst]
    exact hanswer

/-- The code is the same before and after the read of the record. -/
theorem Tended.switchRefusal (h : Tended s t) (hc : c < 16) (b : List Byte) : t.switchRefusal c tb b = s.switchRefusal c tb b := by
  obtain ⟨-, hstay, -⟩ := h.tables (tb := tb)
  rw [State.switchRefusal, State.switchRefusal, hstay, rb_of_reg (a := aCtxCtl c) (h.regs.ctx hc (by decide))]

/-- A SWITCH whose record the context may read. -/
theorem switch_read (c : Fin 16) (tb : Fin 4096) (h : TakesWrite s r (aCtx c.val 0x08C) (tblCmd 1 tb.val)) (hm : s.mayTable c.val tb.val)
    (ha : s.checkAcc c.val (s.tblAddr c.val) 128 .rd = none) {x0 : List Byte} {s1 : State}
    (hread : s.readTier (s.tblAddr c.val) 128 = (x0, s1)) :
    (s.calm → x0 = Mem.readN s.mem (s.tblAddr c.val) 128)
    ∧ (s1.recordValid tb.val x0 = false → exec (.switch r c tb) s = .next (s1.nakReg r nkMalformed (aCtx c.val 0x08C)))
    ∧ (s1.recordValid tb.val x0 = true → s.switchRefusal c.val tb.val x0 ≠ 0 →
        ∃ u, RegsOnly s1 u [aCtxStatus c.val, aDevRefuseLast, aDevRefuseCount]
          ∧ u.rf (aCtxStatus c.val) 24 8 = s.switchRefusal c.val tb.val x0
          ∧ exec (.switch r c tb) s = .next (u.nakReg r (s.switchRefusal c.val tb.val x0) (aCtx c.val 0x08C)))
    ∧ (s1.recordValid tb.val x0 = true → s.switchRefusal c.val tb.val x0 = 0 → Runs (.switch r c tb) s fun t =>
        t = { s1 with regs := t.regs, tables := t.tables, genHigh := t.genHigh }
        ∧ (∀ n, SMap.find t.tables n = if n = tb.val then
            some { owner := c.val, newest := true, versions := s.staying tb.val ++ [{ gen := getLe x0 0x44 4, bytes := x0 }] }
            else SMap.find s.tables n)
        ∧ SMap.get t.genHigh 0 tb.val = getLe x0 0x44 4 ∧ t.rf (aCtxStatus c.val) 24 8 = 0) := by
  have htend : Tended s s1 := by
    have := tended_readTier s (s.tblAddr c.val) 128
    rwa [hread] at this
  have hcode : s1.switchCode c.val tb.val x0 = s.switchRefusal c.val tb.val x0 := by
    rw [switchCode_eq, htend.switchRefusal c.isLt]
  refine ⟨fun hcalm => ?_, fun hv => ?_, fun hv hne => ?_, fun hv h0 => ?_⟩
  · have hx0 : x0 = (s.readTier (s.tblAddr c.val) 128).1 := by rw [hread]
    rw [hx0, readTier_calm hcalm]
  · have hread1 : (s.readTier (s.tblAddr c.val) 128).2 = s1 := by rw [hread]
    rw [row_switch c tb h hm, tblSwitch_malformed ha (by rw [hread]; exact hv), hread1]
    rfl
  · refine ⟨s1.answerCtx c.val (s.switchRefusal c.val tb.val x0) { source := 0x06, key := s.keyOf r.who }, regsOnly_answerCtx .., ?_, ?_⟩
    · have hlt : s.switchRefusal c.val tb.val x0 < 256 := by
        rw [← hcode]
        exact switchCode_lt ..
      exact refuse_answerCtx hlt ..
    · rw [row_switch c tb h hm, tblSwitch_checked ha hread hv, hcode, if_pos hne]
      rfl
  · exact runs_switch c tb h hm ha hread hv (hcode.trans h0)

/-! ### Versions that leave (R778) -/

theorem exec_versionReclaim (tb : Fin 4096) (gen : Nat) : exec (.versionReclaim tb gen) s = execVersionReclaim tb gen s := rfl

/-- What holds a version that is not the newest. -/
theorem reclaimable_iff {v : Version} {gen : Nat} (hv : v.gen = gen) : s.reclaimable tb v = false ↔
    (∃ b ∈ s.batches, (tb, gen) ∈ b.pins)
      ∨ (v.dist = true ∧ (v.marked = false ∨ ∃ p ∈ s.lookups, p.table = tb ∧ p.gen = gen)) := by
  subst hv
  have hpin : s.pinned tb v.gen = true ↔ ∃ b ∈ s.batches, (tb, v.gen) ∈ b.pins := by simp [State.pinned]
  have hlook : s.lookedUp tb v.gen = true ↔ ∃ p ∈ s.lookups, p.table = tb ∧ p.gen = v.gen := by simp [State.lookedUp]
  rw [← hpin, ← hlook, State.reclaimable]
  cases v.dist <;> cases v.marked <;> cases s.pinned tb v.gen <;> simp

theorem execVersionReclaim_found {tb : Fin 4096} {gen : Nat} {v : Version} (hw : s.works = true) (hx : SMap.find s.tables tb.val = some x)
    (hv : (x.versions.find? fun (y : Version) => y.gen == gen) = some v) : exec (.versionReclaim tb gen) s
      = .next (if x.top = some v || !s.reclaimable tb.val v then s
          else s.putTable tb.val { x with versions := x.versions.filter fun y => y.gen != gen }) := by
  simp only [exec_versionReclaim, execVersionReclaim, hw, hx, hv, Bool.not_true, Bool.false_eq_true, if_false]
  split <;> rfl

theorem find_putTable (s : State) (tb n : Nat) (x : Table) : SMap.find (s.putTable tb x).tables n
    = if n = tb then (if x.versions.isEmpty then none else some x) else SMap.find s.tables n := by
  simp only [State.putTable]
  split
  · exact find_erase ..
  · exact find_put ..

theorem versionReclaim_row (tb : Fin 4096) {gen : Nat} {v : Version} (hx : SMap.find s.tables tb.val = some x)
    (hv : (x.versions.find? fun (y : Version) => y.gen == gen) = some v) :
    let stays : Prop := x.top = some v ∨ (∃ b ∈ s.batches, (tb.val, gen) ∈ b.pins)
      ∨ (v.dist = true ∧ (v.marked = false ∨ ∃ p ∈ s.lookups, p.table = tb.val ∧ p.gen = gen))
    let rest := x.versions.filter fun (y : Version) => y.gen != gen
    (stays ∨ s.works = false → exec (.versionReclaim tb gen) s = .next s)
    ∧ (¬ stays → s.works = true → Runs (.versionReclaim tb gen) s fun t => t = { s with tables := t.tables }
        ∧ ∀ n, SMap.find t.tables n = if n = tb.val then (if rest.isEmpty then none else some { x with versions := rest })
          else SMap.find s.tables n) := by
  have hgen : v.gen = gen := by simpa using List.find?_some hv
  have hheld := reclaimable_iff (s := s) (tb := tb.val) hgen
  refine ⟨fun h => ?_, fun hs hw => ?_⟩
  · by_cases hw : s.works = true
    · rw [execVersionReclaim_found hw hx hv, if_pos]
      simp only [Bool.or_eq_true, decide_eq_true_eq, Bool.not_eq_true', hheld]
      exact h.resolve_right (by simp [hw])
    · simp [exec_versionReclaim, execVersionReclaim, hw]
  · refine ⟨s.putTable tb.val { x with versions := x.versions.filter fun y => y.gen != gen }, ?_, rfl, fun n => find_putTable ..⟩
    rw [execVersionReclaim_found hw hx hv, if_neg]
    simp only [Bool.or_eq_true, decide_eq_true_eq, Bool.not_eq_true', hheld]
    exact hs

/-- Settles O46: each command answers for the context's own tables, and what holds a version is what keeps it. -/
theorem tableCommands : Obligations.TableCommands := by
  unfold Obligations.TableCommands
  intro s r c tb a cmd rows three left tables results
  refine ⟨fun op i x hi h hx ho => ?_, fun x hx ho => ⟨fun h => ⟨fun ht => ?_, fun ht => ?_⟩, fun h => ?_, fun h => ?_⟩,
    fun hn => ⟨fun h => ?_, fun h => ?_⟩, fun h hm => ⟨fun d hd => ?_, fun ha => ?_⟩, fun gen x v hx hv => versionReclaim_row tb hx hv⟩
  · have hop : 1 ≤ op ∧ op ≤ 4 ∧ exec i s = .next (s.regRow r (aCtx c.val 0x08C) (tblCmd op tb.val)) := by
      simp only [rows, List.mem_cons, Prod.mk.injEq, List.not_mem_nil, or_false] at hi
      rcases hi with ⟨rfl, rfl⟩ | ⟨rfl, rfl⟩ | ⟨rfl, rfl⟩ | ⟨rfl, rfl⟩
      all_goals exact ⟨by decide, by decide, rfl⟩
    obtain ⟨h1, h4, hexec⟩ := hop
    have htake : TakesWrite s r (aCtx c.val 0x08C) (tblCmd op tb.val) := h
    rw [hexec, htake.tblCmd c.isLt, wTblCmd_foreign h1 h4 tb.isLt hx ho, WRes.row_nak]
  · rw [row_retire c tb h (mayTable_own hx ho), newestOf_own hx ho, ht]
    rfl
  · obtain ⟨hres, hframe, htab⟩ := tblQuery_results (c := c.val) (tb := tb.val) (tblRetire_own hx ho)
    refine ⟨_, ?_, hres, hframe, fun n => ?_⟩
    · rw [row_retire c tb h (mayTable_own hx ho), newestOf_own hx ho, if_pos (Option.isSome_iff_ne_none.mpr ht)]
    · rw [htab, find_put]
  · obtain ⟨hres, hframe, htab⟩ := tblQuery_results (c := c.val) (tb := tb.val) (tblReclaim_own hx ho)
    exact ⟨_, row_reclaim c tb h (mayTable_own hx ho), hres, hframe, fun n => by rw [htab, find_put]⟩
  · obtain ⟨hres, hframe, htab⟩ := tblQuery_results (c := c.val) (tb := tb.val) (s := s) (u := s) (m := s.tables) rfl
    exact ⟨_, row_query c tb h (mayTable_own hx ho), hres, htab⟩
  · rw [row_retire c tb h (mayTable_none hn), State.newestOf, table?_none hn]
    rfl
  · refine ⟨_, by rw [row_reclaim c tb h (mayTable_none hn), tblReclaim_none hn], tblQuery_only .., ?_⟩
    rw [(tblQuery_shows s c.val tb.val).1, shownTable_none hn]
    rfl
  · rw [row_switch c tb h hm, tblSwitch_denied hd]
    rfl
  · exact switch_read c tb h hm ha rfl

end Sys2Proof.Machine
end

section
namespace Sys2Proof.Machine

/-! ## Messages of a session (R170–R185)

What sending a message changes, and how a message that is processed in its turn ends. -/

variable {s t u : State} {k : Fin 8} {i n typ : Nat} {p : List Byte}

/-! ### Sending -/

theorem leave_port (s : State) (f : OutFrame) : ∃ q, s.leave f = { s with port := q } := by
  unfold State.leave
  split
  · exact ⟨_, rfl⟩
  split
  · exact ⟨_, rfl⟩
  split
  · exact ⟨_, rfl⟩
  split
  · exact ⟨_, rfl⟩
  · exact ⟨_, rfl⟩

theorem transmit_port (s : State) (f : OutFrame) : ∃ q, s.transmit f = { s with port := q } := by
  unfold State.transmit
  split
  · exact ⟨_, rfl⟩
  · exact leave_port s f

theorem send_eq (s : State) (d : NetAddr) (m : OutMsg) : ∃ q, s.send d m = { s with tx := s.tx ++ [m], port := q } := by
  unfold State.send
  dsimp only
  split
  case h_1 f _ =>
    obtain ⟨q, h⟩ := transmit_port (s.emit m) f
    exact ⟨q, h⟩
  case h_2 => exact ⟨_, rfl⟩

/-- Nothing changed but what session i's sending keeps: its own sending side, the messages that left and the port. -/
structure Sends (s t : State) (i : Nat) : Prop where
  frame : t = { s with sess := t.sess, tx := t.tx, port := t.port }
  others : ∀ j, j ≠ i → t.ses j = s.ses j
  own : ∃ lim due nx buf ce, t.ses i = { s.ses i with rxLimit := lim, ackDue := due, txNext := nx, txBuf := buf, ceEcho := ce }

theorem Sends.refl (s : State) (i : Nat) : Sends s s i := ⟨rfl, fun _ _ => rfl, _, _, _, _, _, rfl⟩

theorem Sends.trans (h : Sends s t i) (g : Sends t u i) : Sends s u i := by
  obtain ⟨hf, ho, _, _, _, _, _, hs⟩ := h
  obtain ⟨gf, go, _, _, _, _, _, gs⟩ := g
  exact ⟨by rw [gf, hf], fun j hj => (go j hj).trans (ho j hj), _, _, _, _, _, by rw [gs, hs]⟩

/-- A session's sending side, written. -/
theorem Sends.setSes {v : Session} (h : ∃ lim due nx buf ce, v = { s.ses i with rxLimit := lim, ackDue := due, txNext := nx, txBuf := buf, ceEcho := ce }) :
    Sends s (s.setSes i v) i := by
  obtain ⟨lim, due, nx, buf, ce, rfl⟩ := h
  refine ⟨rfl, fun j hj => ?_, lim, due, nx, buf, ce, ?_⟩
  · rw [ses_setSes, if_neg hj]
  · rw [ses_setSes, if_pos rfl]

theorem Sends.send (h : Sends s t i) (d : NetAddr) (m : OutMsg) : Sends s (t.send d m) i ∧ (t.send d m).tx = t.tx ++ [m] := by
  obtain ⟨q, hq⟩ := send_eq t d m
  rw [hq]
  exact ⟨⟨by rw [h.frame], h.others, h.own⟩, rfl⟩

theorem sends_grant (s : State) (i : Nat) : Sends s (s.grant i) i ∧ (s.grant i).tx = s.tx := by
  unfold State.grant
  dsimp only
  split
  · exact ⟨.refl s i, rfl⟩
  · exact ⟨.setSes ⟨_, _, _, _, _, rfl⟩, rfl⟩

theorem Sent.of_tx {flags seq : Nat} {payload : List Byte} (h : s.tx = t.tx) (g : Sent s u i typ flags seq payload) :
    Sent t u i typ flags seq payload := by
  rwa [Sent, ← h]

theorem sends_emitDwp (s : State) (i typ flags seq : Nat) (payload : List Byte) :
    Sends s (s.emitDwp i typ flags seq payload) i ∧ Sent s (s.emitDwp i typ flags seq payload) i typ flags seq payload := by
  obtain ⟨hg, htx⟩ := sends_grant s i
  have hset : Sends s ((s.grant i).setSes i { (s.grant i).ses i with ceEcho := false, ackDue := none }) i :=
    hg.trans (.setSes ⟨_, _, _, _, _, rfl⟩)
  simp only [State.emitDwp, Sent]
  generalize kmac256 _ _ _ _ = tag
  generalize sessionWord _ _ _ = sw
  refine ⟨(hset.send _ _).1, (if ((s.grant i).ses i).ceEcho then 1 else 0), sw, ((s.grant i).ses i).rxAck,
    ((s.grant i).ses i).rxLimit - ((s.grant i).ses i).rxAck, tag, by split <;> omega, ?_⟩
  rw [(hset.send _ _).2, ← htx]
  rfl

theorem sends_sendSeq (s : State) (i typ : Nat) (payload : List Byte) (ans : Nat) : Sends s (s.sendSeq i typ payload ans) i := by
  simp only [State.sendSeq]
  split
  · exact .refl s i
  · split
    · exact (Sends.setSes ⟨_, _, _, _, _, rfl⟩).trans (sends_emitDwp ..).1
    · exact .setSes ⟨_, _, _, _, _, rfl⟩

/-- With credit the message leaves at once. -/
theorem sent_sendSeq (ho : (s.ses i).isOpen = true) (hc : s.credit i) (typ : Nat) (payload : List Byte) (ans : Nat) :
    Sent s (s.sendSeq i typ payload ans) i typ 0 (s.ses i).txNext payload := by
  have hgo : decide ((s.ses i).txNext ≤ (s.ses i).txLimit) = true := decide_eq_true hc
  simp only [State.sendSeq, ho, hgo, Bool.not_true, Bool.false_eq_true, if_false, if_true]
  have htx : ∀ v, (s.setSes i v).tx = s.tx := fun _ => rfl
  exact Sent.of_tx (htx _) (sends_emitDwp ..).2

theorem sends_nak (s : State) (i seq typ reason value : Nat) : Sends s (s.nak i seq typ reason value) i := sends_sendSeq ..

/-! ### A message in hand -/

/-- What the end of a message's processing reads of session k stands as before. -/
structure KeepsHand (s t : State) (k : Fin 8) : Prop where
  fanouts : t.fanouts = s.fanouts
  form : t.form = s.form
  journaling : ∀ n, t.journaling k.val n = s.journaling k.val n
  isOpen : (t.ses k.val).isOpen = (s.ses k.val).isOpen
  rxDone : (t.ses k.val).rxDone = (s.ses k.val).rxDone
  rxBuf : (t.ses k.val).rxBuf = (s.ses k.val).rxBuf
  held : (t.ses k.val).held = (s.ses k.val).held

theorem KeepsHand.refl (s : State) (k : Fin 8) : KeepsHand s s k := ⟨rfl, rfl, fun _ => rfl, rfl, rfl, rfl, rfl⟩

theorem KeepsHand.trans (h : KeepsHand s t k) (g : KeepsHand t u k) : KeepsHand s u k :=
  ⟨g.fanouts.trans h.fanouts, g.form.trans h.form, fun n => (g.journaling n).trans (h.journaling n), g.isOpen.trans h.isOpen,
    g.rxDone.trans h.rxDone, g.rxBuf.trans h.rxBuf, g.held.trans h.held⟩

/-- Where the sessions and the tasks stand, and no message waits for others. -/
theorem KeepsHand.of_same (hf : t.fanouts = s.fanouts) (hm : t.form = s.form) (ht : t.tasks = s.tasks) (hs : t.sess = s.sess) : KeepsHand s t k := by
  have hses : t.ses k.val = s.ses k.val := by rw [State.ses, State.ses, hs]
  refine ⟨hf, hm, fun n => ?_, ?_, ?_, ?_, ?_⟩
  · rw [State.journaling, State.journaling, ht]
  all_goals rw [hses]

theorem Sends.keepsHand (h : Sends s t i) (k : Fin 8) : KeepsHand s t k := by
  obtain ⟨hf, ho, _, _, _, _, _, hs⟩ := h
  refine ⟨by rw [hf], by rw [hf], fun n => by rw [hf]; rfl, ?_, ?_, ?_, ?_⟩
  all_goals
    by_cases hk : k.val = i
    · rw [hk, hs]
    · rw [ho _ hk]

/-! ### The end of a message -/

theorem took_eq (u : State) (k : Fin 8) (n : Nat) :
    ∃ q, u.took k n = { u.setSes k.val { u.ses k.val with rxDone := n, rxBuf := [] } with port := q } := by
  obtain ⟨w, x, h, -⟩ := pfcSync_only (u.setSes k.val { u.ses k.val with rxDone := n, rxBuf := [] })
  exact ⟨_, h⟩

theorem took_frame (u : State) (k : Fin 8) (n : Nat) : u.took k n = { u with sess := (u.took k n).sess, port := (u.took k n).port } := by
  obtain ⟨q, h⟩ := took_eq u k n
  rw [h]
  rfl

theorem ses_took (u : State) (k : Fin 8) (n j : Nat) :
    (u.took k n).ses j = if j = k.val then { u.ses k.val with rxDone := n, rxBuf := [] } else u.ses j := by
  obtain ⟨q, h⟩ := took_eq u k n
  rw [h]
  exact ses_setSes ..

theorem took_took (u : State) (k : Fin 8) (n : Nat) : Took (u.took k n) k n := by
  rw [Took, ses_took, if_pos rfl]
  exact ⟨rfl, rfl⟩

/-- Message n is the one that session k has reached, and nothing holds its end up. -/
structure InHand (u : State) (k : Fin 8) (n typ : Nat) (p : List Byte) : Prop where
  isOpen : (u.ses k.val).isOpen = true
  next : n = (u.ses k.val).rxDone + 1
  alone : ∃ a, (u.ses k.val).rxBuf = [{ seq := n, typ := typ, payload := p, arrival := a }]
  free : u.waits { who := .sess k, seq := n } = false
  calm : u.fanouts = []

theorem Turn.inHand (h : Turn s k n typ p) : InHand s k n typ p := ⟨h.isOpen, h.next, h.alone, h.free, h.calm⟩

theorem KeepsHand.waits (h : KeepsHand s t k) (n : Nat) : t.waits { who := .sess k, seq := n } = s.waits { who := .sess k, seq := n } := by
  have hj := h.journaling n
  simp only [State.journaling] at hj
  simp only [State.waits, whoIdx, h.held, h.fanouts, h.form, hj]

theorem KeepsHand.inHand (h : KeepsHand s t k) (g : InHand s k n typ p) : InHand t k n typ p := by
  refine ⟨h.isOpen.trans g.isOpen, ?_, ?_, (h.waits n).trans g.free, h.fanouts.trans g.calm⟩
  · rw [h.rxDone]
    exact g.next
  · rw [h.rxBuf]
    exact g.alone

theorem InHand.isHead (h : InHand u k n typ p) : u.isHead { who := .sess k, seq := n } typ p = true := by
  obtain ⟨a, ha⟩ := h.alone
  simp [State.isHead, whoIdx, h.isOpen, Session.head?, ha, h.next]

theorem InHand.doneHead (h : InHand u k n typ p) : u.doneHead k.val = u.took k n := by
  obtain ⟨a, ha⟩ := h.alone
  simp [State.doneHead, State.took, ha, h.next]

theorem InHand.finish (h : InHand u k n typ p) : u.finish k.val = u.took k n := by
  have hbuf : ((u.took k n).ses k.val).rxBuf = [] := (took_took u k n).2
  simp only [State.finish, h.doneHead, hbuf, List.length_nil, State.skipBad]

theorem InHand.finishMsg (h : InHand u k n typ p) : u.finishMsg { who := .sess k, seq := n } typ p = u.took k n := by
  have hfan : (u.took k n).fanouts = [] := by
    rw [took_frame]
    exact h.calm
  simp only [State.finishMsg, h.isHead, h.free, Bool.not_false, Bool.and_true, if_true, whoIdx, h.finish, State.settleFanouts, hfan,
    List.foldl_nil]

/-- A message in its turn takes its effect. -/
theorem Turn.onMsg (h : Turn s k n typ p) (f : State → State) :
    s.onMsg { who := .sess k, seq := n } typ p f = (f s).finishMsg { who := .sess k, seq := n } typ p := by
  rw [State.onMsg, h.inHand.isHead, h.turn, h.free]
  rfl

/-- … and is done, where what it reads of its session stands. -/
theorem Turn.runs (h : Turn s k n typ p) {f : State → State} (hf : f s = t) (hk : KeepsHand s t k) :
    s.onMsg { who := .sess k, seq := n } typ p f = t.took k n := by
  rw [h.onMsg, hf, (hk.inHand h.inHand).finishMsg]

/-- A message that is refused has no other effect (R173, R230). -/
theorem Turn.refused (h : Turn s k n typ p) {f : State → State} {reason value : Nat} (hf : f s = s.nak k.val n typ reason value) :
    s.onMsg { who := .sess k, seq := n } typ p f = (s.nak k.val n typ reason value).took k n := h.runs hf ((sends_nak ..).keepsHand k)

theorem onMsg_idle {r : Req} (h : s.isHead r typ p = false ∨ s.inTurn r = false ∨ s.waits r = true) (f : State → State) :
    s.onMsg r typ p f = s := by
  rw [State.onMsg, if_neg]
  rcases h with h | h | h <;> simp [h]

end Sys2Proof.Machine
end

section
namespace Sys2Proof.Machine

/-! ## Messages that a partner sends: the checks they share (R109, R173, R850, R946) -/

variable {s t u : State} {k : Fin 8} {i n typ : Nat} {p : List Byte} {x : Instr}

/-- The state in which session k is done with message n: u but for the session's queue and the pauses that the port asks for. -/
def State.done (u : State) (k : Fin 8) (n : Nat) (q : Port) : State :=
  { u.setSes k.val { u.ses k.val with rxDone := n, rxBuf := [] } with port := q }

theorem took_done (u : State) (k : Fin 8) (n : Nat) (q : Port) : Took (u.done k n q) k n := by
  have hses : (u.done k n q).ses k.val = { u.ses k.val with rxDone := n, rxBuf := [] } := (ses_setSes ..).trans (if_pos rfl)
  rw [Took, hses]
  exact ⟨rfl, rfl⟩

/-- A message in its turn whose effect t leaves its session's queue as it was: t, and the message is done. -/
theorem Turn.ends (h : Turn s k n typ p) {f : State → State} (hx : exec x s = .next (s.onMsg { who := .sess k, seq := n } typ p f)) (hf : f s = t)
    (hk : KeepsHand s t k) {P : State → Prop} (hP : ∀ q, P (t.done k n q)) : Runs x s P := by
  obtain ⟨q, hq⟩ := took_eq t k n
  exact ⟨t.done k n q, by rw [hx, h.runs hf hk, hq]; rfl, hP q⟩

/-- A message in its turn that is refused. -/
theorem Turn.no (h : Turn s k n typ p) {f : State → State} {reason value : Nat}
    (hx : exec x s = .next (s.onMsg { who := .sess k, seq := n } typ p f)) (hf : f s = s.nak k.val n typ reason value) :
    Refused x s k n typ reason value := by
  rw [Refused, hx, h.refused hf]

/-- What left before the message was done has left. -/
theorem Sent.done {flags seq : Nat} {payload : List Byte} (h : Sent s u i typ flags seq payload) (q : Port) :
    Sent s (u.done k n q) i typ flags seq payload := h

theorem mayCtx_sess {c : Nat} : s.mayCtx (.sess k) c = true ↔ s.mayUse k c := by
  simp [State.mayCtx, State.mayUse]

theorem gate_eq_zero {held : Bool} (hr : s.devState ≠ stRecovery) (hh : held = true → s.replaying = false) : s.gate held = 0 := by
  rw [State.gate, if_neg hr, if_neg]
  cases held with
  | false => simp
  | true => simp [hh rfl]

theorem gate_recovery {held : Bool} (hr : s.devState = stRecovery) : s.gate held = nkState := by rw [State.gate, if_pos hr]

theorem gate_replaying (hr : s.devState ≠ stRecovery) (hp : s.replaying = true) : s.gate true = nkState := by
  rw [State.gate, if_neg hr, hp]
  rfl

theorem nkState_ne_zero : nkState ≠ 0 := by decide

/-- The requests of a partner's messages. -/
def messages (r : Req) (p : List Byte) : List (Instr × Nat) := [(.write r p, tyWrite), (.read r p, tyRead),
  (.loadProgram r p, tyLoad), (.submit r p, tySubmit), (.getResult r p, tyGetResult), (.release r p, tyRelease),
  (.cancel r p, tyCancel), (.signal r p, tySignal), (.startAt r p, tyStartAt), (.controlRd r p, tyControlRd),
  (.controlWr r p, tyControlWr), (.telemetry r p, tyTelemetry), (.firmware r p, tyFirmware)]

/-- Each is processed in its turn, or held. -/
theorem exec_message {r : Req} (h : (x, typ) ∈ messages r p) (s : State) : exec x s = .next s ∨ ∃ f, exec x s = .next (s.onMsg r typ p f) := by
  simp only [messages, List.mem_cons, Prod.mk.injEq, List.not_mem_nil, or_false] at h
  by_cases hx : x = .controlWr r p ∧ s.ctlHeld = true
  · refine .inl ?_
    rw [hx.1]
    exact congrArg _ (if_pos hx.2)
  · refine .inr ?_
    rcases h with ⟨rfl, rfl⟩ | ⟨rfl, rfl⟩ | ⟨rfl, rfl⟩ | ⟨rfl, rfl⟩ | ⟨rfl, rfl⟩ | ⟨rfl, rfl⟩ | ⟨rfl, rfl⟩ | ⟨rfl, rfl⟩ | ⟨rfl, rfl⟩ | ⟨rfl, rfl⟩
      | ⟨rfl, rfl⟩ | ⟨rfl, rfl⟩ | ⟨rfl, rfl⟩
    case inr.inr.inr.inr.inr.inr.inr.inr.inr.inr.inl => exact ⟨_, congrArg _ (if_neg fun hc => hx ⟨rfl, hc⟩)⟩
    all_goals exact ⟨_, rfl⟩

/-- The messages that RECOVERY refuses (R109). -/
def recoveryRefuses (r : Req) (p : List Byte) : List (Instr × Nat) := [(.write r p, tyWrite), (.read r p, tyRead),
  (.loadProgram r p, tyLoad), (.submit r p, tySubmit), (.getResult r p, tyGetResult), (.release r p, tyRelease),
  (.cancel r p, tyCancel), (.signal r p, tySignal), (.startAt r p, tyStartAt), (.telemetry r p, tyTelemetry)]

theorem refused_recovery (h : (x, typ) ∈ recoveryRefuses { who := .sess k, seq := n } p) (ht : Turn s k n typ p) (hr : s.devState = stRecovery) :
    Refused x s k n typ nkState 0 := by
  have hgate : ∀ held, s.gate held ≠ 0 := fun held => by
    rw [gate_recovery hr]
    exact nkState_ne_zero
  simp only [recoveryRefuses, List.mem_cons, Prod.mk.injEq, List.not_mem_nil, or_false] at h
  rcases h with ⟨rfl, rfl⟩ | ⟨rfl, rfl⟩ | ⟨rfl, rfl⟩ | ⟨rfl, rfl⟩ | ⟨rfl, rfl⟩ | ⟨rfl, rfl⟩ | ⟨rfl, rfl⟩ | ⟨rfl, rfl⟩ | ⟨rfl, rfl⟩ | ⟨rfl, rfl⟩
  all_goals exact ht.no rfl (if_pos (hgate _))

/-! ### The replay record (R844) -/

/-- Nothing changed but the record ring and the registers that show it. -/
structure Noted (s t : State) : Prop where
  frame : t = { s with replay := t.replay, regs := t.regs }
  regs : ∀ a, a < aDet 0x110 ∨ aDet 0x120 ≤ a → t.reg a = s.reg a

theorem Noted.setPair (h : Noted s t) {lo : Nat} (hlo : aDet 0x110 ≤ lo ∧ lo + 4 < aDet 0x120) (v : Nat) : Noted s (t.setPair lo v) := by
  refine ⟨by rw [State.setPair, h.frame]; rfl, fun a ha => ?_⟩
  have h0 : a ≠ lo := by omega
  have h4 : a ≠ lo + 4 := by omega
  rw [State.setPair, reg_setReg, if_neg h4, reg_setReg, if_neg h0, h.regs a ha]

theorem noted_record (s : State) (kind key ctx ref : Nat) (data : Option (List Byte)) (body : List Byte) :
    Noted s (s.record kind key ctx ref data body) := by
  have hring : ∀ rp, Noted s { s with replay := rp } := fun _ => ⟨rfl, fun _ _ => rfl⟩
  simp only [State.record]
  split
  · exact ⟨rfl, fun _ _ => rfl⟩
  · exact ((hring _).setPair (by decide) _).setPair (by decide) _

theorem Noted.keepsHand (h : Noted s t) (k : Fin 8) : KeepsHand s t k := by
  rw [h.frame]
  exact .of_same rfl rfl rfl rfl

theorem DomeOnly.keepsHand (h : DomeOnly s t) (k : Fin 8) : KeepsHand s t k := by
  obtain ⟨rg, dm, bad, m, rfl⟩ := h
  exact .of_same rfl rfl rfl rfl

/-! ### WRITE (R190, R192, R193) -/

theorem writeMsg_refused (h : s.writeRefusal (.sess k) p = i) (hi : i ≠ 0) :
    s.writeMsg { who := .sess k, seq := n } p = s.nak k.val n tyWrite i 0 := by
  rw [State.writeMsg, h, if_pos hi]
  rfl

theorem writeMsg_stores (h : s.writeRefusal (.sess k) p = 0) : s.writeMsg { who := .sess k, seq := n } p
    = s.storeData (s.recKey (.sess k)) (getLe p 0 1) n (getLe p 8 8) (p.drop 16) := by
  rw [State.writeMsg, h]
  rfl

theorem exec_write (h : Turn s k n tyWrite p) (hr : s.devState ≠ stRecovery) (hp : s.replaying = false) :
    exec (.write { who := .sess k, seq := n } p) s
      = .next (s.onMsg { who := .sess k, seq := n } tyWrite p fun _ => s.writeMsg { who := .sess k, seq := n } p) := by
  have hx : exec (.write { who := .sess k, seq := n } p) s = .next (s.onMsg { who := .sess k, seq := n } tyWrite p fun t =>
      if t.gate false ≠ 0 then t.refuse { who := .sess k, seq := n } tyWrite nkState 0
      else if t.replaying then t.writeReplay { who := .sess k, seq := n } p else t.writeMsg { who := .sess k, seq := n } p) := rfl
  rw [hx, h.onMsg, h.onMsg, gate_eq_zero hr (by simp), hp]
  rfl

/-- Why a WRITE is refused. -/
theorem writeRefusal_spec (s : State) (k : Fin 8) (p : List Byte) :
    let c := getLe p 0 1
    let formed : Prop := 16 ≤ p.length ∧ c < 16 ∧ zeroAt p 1 7 = true
    let granted : Prop := s.mayUse k c ∧ s.checkAcc c (getLe p 8 8) (p.drop 16).length .wr = none
    (¬ formed → s.writeRefusal (.sess k) p = nkMalformed) ∧ (formed → ¬ granted → s.writeRefusal (.sess k) p = nkPermission)
    ∧ (formed → granted → s.writeRefusal (.sess k) p = if s.inUse (getLe p 8 8) (p.drop 16).length false then nkInUse else 0) := by
  intro c formed granted
  have hformed : (p.length < 16 ∨ 15 < getLe p 0 1 ∨ (!zeroAt p 1 7) = true) ↔ ¬ formed := by
    simp only [formed, c, Bool.not_eq_true']
    rw [not_and_or, not_and_or, not_le, not_lt, Nat.succ_le_iff, Bool.not_eq_true]
  have hgranted : (!s.mayCtx (.sess k) (getLe p 0 1) || (s.checkAcc (getLe p 0 1) (getLe p 8 8) (p.length - 16) .wr).isSome) = true
      ↔ ¬ granted := by
    simp only [granted, c, ← mayCtx_sess, List.length_drop, Bool.or_eq_true, Bool.not_eq_true', Option.isSome_iff_ne_none]
    rw [not_and_or, Bool.not_eq_true]
  rw [State.writeRefusal, List.length_drop]
  refine ⟨fun hf => if_pos (hformed.mpr hf), fun hf hg => ?_, fun hf hg => ?_⟩
  · exact (if_neg fun h => hformed.mp h hf).trans (if_pos (hgranted.mpr hg))
  · exact (if_neg fun h => hformed.mp h hf).trans (if_neg fun h => hgranted.mp h hg)

/-- Storing a partner's bytes. -/
theorem storeData_spec (s : State) (key c ref a : Nat) (d : List Byte) :
    ∃ v, Noted s v ∧ DomeOnly v (s.storeData key c ref a d) ∧ (s.calm → WritesMem s (s.storeData key c ref a d) a d) := by
  have hnoted := noted_record s 0x03 key c ref (some d) (natLe 1 c ++ zeros 7 ++ natLe 8 a ++ natLe 8 d.length)
  rw [State.storeData]
  generalize s.record 0x03 key c ref (some d) (natLe 1 c ++ zeros 7 ++ natLe 8 a ++ natLe 8 d.length) = v at hnoted ⊢
  refine ⟨v, hnoted, writeTier_dome v a d, fun hc => ?_⟩
  have hsame : v.mem = s.mem ∧ v.calm := by
    rw [hnoted.frame]
    exact ⟨rfl, hc⟩
  have hmem := writesMem_writeTier hsame.2 a d
  rwa [WritesMem, hsame.1] at hmem

theorem write_clauses (h : Turn s k n tyWrite p) (hr : s.devState ≠ stRecovery) (hp : s.replaying = false) :
    let c := getLe p 0 1
    let a := getLe p 8 8
    let d := p.drop 16
    let formed : Prop := 16 ≤ p.length ∧ c < 16 ∧ zeroAt p 1 7 = true
    let granted : Prop := s.mayUse k c ∧ s.checkAcc c a d.length .wr = none
    let no := Refused (.write { who := .sess k, seq := n } p) s k n tyWrite
    (¬ formed → no nkMalformed 0) ∧ (formed → ¬ granted → no nkPermission 0)
    ∧ (formed → granted → s.inUse a d.length false = true → no nkInUse 0)
    ∧ (formed → granted → s.inUse a d.length false = false → Runs (.write { who := .sess k, seq := n } p) s fun t =>
        t.tasks = s.tasks ∧ t.keys = s.keys ∧ t.tx = s.tx ∧ t.cores = s.cores ∧ Took t k n ∧ (s.calm → WritesMem s t a d)) := by
  obtain ⟨hbad, hdenied, hgranted⟩ := writeRefusal_spec s k p
  have hexec := exec_write h hr hp
  refine ⟨fun hf => h.no hexec (writeMsg_refused (hbad hf) (by decide)), fun hf hg => h.no hexec (writeMsg_refused (hdenied hf hg) (by decide)),
    fun hf hg hu => h.no hexec (writeMsg_refused ((hgranted hf hg).trans (if_pos hu)) (by decide)), fun hf hg hu => ?_⟩
  obtain ⟨v, hnoted, hdome, hmem⟩ := storeData_spec s (s.recKey (.sess k)) (getLe p 0 1) n (getLe p 8 8) (p.drop 16)
  refine h.ends hexec (writeMsg_stores ((hgranted hf hg).trans (if_neg (by rw [hu]; exact Bool.false_ne_true)))) ((hnoted.keepsHand k).trans (hdome.keepsHand k)) fun q => ?_
  generalize s.storeData (s.recKey (.sess k)) (getLe p 0 1) n (getLe p 8 8) (p.drop 16) = w at hdome hmem ⊢
  refine ⟨?_, ?_, ?_, ?_, took_done .., hmem⟩
  all_goals
    obtain ⟨rg, dm, bad, m, rfl⟩ := hdome
    rw [hnoted.frame]
    rfl

/-! ### READ_DATA (R191) -/

theorem sends_sendPieces (j : Nat) : ∀ (s : State) (i tag off : Nat) (b : List Byte), Sends s (sendPieces j s i tag off b) i := by
  induction j with
  | zero => exact fun s i _ _ _ => .refl s i
  | succ j ih =>
    intro s i tag off b
    simp only [sendPieces]
    split
    · exact sends_sendSeq ..
    · exact (sends_sendSeq ..).trans (ih ..)

theorem sends_sendReadData (s : State) (i tag : Nat) (b : List Byte) : Sends s (s.sendReadData i tag b) i := sends_sendPieces ..

/-- Bytes that fit a message go in one. -/
theorem sent_sendReadData (ho : (s.ses i).isOpen = true) (hc : s.credit i) {b : List Byte} (hb : b.length + 8 ≤ s.maxPay i) (tag : Nat) :
    Sent s (s.sendReadData i tag b) i tyReadData 0 (s.ses i).txNext (natLe 4 tag ++ natLe 4 0 ++ b) := by
  have hone : s.sendReadData i tag b = s.answer i tyReadData (natLe 4 tag ++ natLe 4 0 ++ b) := by
    simp only [State.sendReadData, sendPieces]
    rw [if_pos (by omega), List.take_of_length_le (by omega)]
  rw [hone]
  exact sent_sendSeq ho hc ..

/-- What a session's sending leaves of the device. -/
theorem Sends.store (h : Sends s t i) : t.tasks = s.tasks ∧ t.keys = s.keys ∧ t.mem = s.mem := by
  rw [h.frame]
  exact ⟨rfl, rfl, rfl⟩

theorem Tended.store (h : Tended s t) : t.tasks = s.tasks ∧ t.keys = s.keys := by
  obtain ⟨rg, dm, bad, m, rfl⟩ := h.dome
  exact ⟨rfl, rfl⟩

/-- Sending reads nothing that an access of memory moves. -/
theorem Tended.sending (h : Tended s t) (k : Fin 8) :
    t.ses k.val = s.ses k.val ∧ t.tx = s.tx ∧ t.maxPay k.val = s.maxPay k.val := by
  have hreg : t.reg (aSessDwp k.val) = s.reg (aSessDwp k.val) := h.regs.reg (.inl (by simp only [aSessDwp, aSess]; omega))
  obtain ⟨rg, dm, bad, m, rfl⟩ := h.dome
  refine ⟨rfl, rfl, ?_⟩
  rw [State.maxPay, if_pos k.isLt, State.maxPay, if_pos k.isLt, rf_of_reg hreg]

theorem Tended.sent_sendReadData (h : Tended s t) (ho : (s.ses k.val).isOpen = true) (hc : s.credit k.val) {b : List Byte}
    (hb : b.length + 8 ≤ s.maxPay k.val) (tag : Nat) :
    Sent s (t.sendReadData k.val tag b) k.val tyReadData 0 (s.ses k.val).txNext (natLe 4 tag ++ natLe 4 0 ++ b) := by
  obtain ⟨hses, htx, hpay⟩ := h.sending k
  rw [← hses] at ho ⊢
  refine Sent.of_tx htx (Machine.sent_sendReadData ho ?_ (hpay ▸ hb) tag)
  rw [State.credit, hses]
  exact hc

/-! ### READ (R190–R192, R267) -/

theorem exec_read : exec (.read { who := .sess k, seq := n } p) s
    = .next (s.onMsg { who := .sess k, seq := n } tyRead p fun t => t.readMsg { who := .sess k, seq := n } p) := rfl

/-- What a READ does, check by check. -/
theorem readMsg_eq (hr : s.devState ≠ stRecovery) : s.readMsg { who := .sess k, seq := n } p
    = if p.length ≠ 0x18 ∨ 15 < getLe p 0 1 ∨ !zeroAt p 1 7 ∨ getLe p 0x10 4 = 0 ∨ 1048576 < getLe p 0x10 4 then s.nak k.val n tyRead nkMalformed 0
      else if !s.mayCtx (.sess k) (getLe p 0 1) then s.nak k.val n tyRead nkPermission 0
      else if (s.checkAcc (getLe p 0 1) (getLe p 8 8) (getLe p 0x10 4) .rd).isSome then
        (s.noteBad (getLe p 0 1) (s.keyOf (.sess k)) (s.checkAcc (getLe p 0 1) (getLe p 8 8) (getLe p 0x10 4) .rd)).nak k.val n tyRead nkPermission 0
      else if s.inUse (getLe p 8 8) (getLe p 0x10 4) true then s.nak k.val n tyRead nkInUse 0
      else (s.readTier (getLe p 8 8) (getLe p 0x10 4)).2.sendReadData k.val (getLe p 0x14 4) (s.readTier (getLe p 8 8) (getLe p 0x10 4)).1 := by
  simp only [State.readMsg, gate_eq_zero hr (held := false) (by simp)]
  rfl

theorem read_clauses (h : Turn s k n tyRead p) (hr : s.devState ≠ stRecovery) :
    let c := getLe p 0 1
    let a := getLe p 8 8
    let len := getLe p 0x10 4
    let formed : Prop := p.length = 0x18 ∧ c < 16 ∧ zeroAt p 1 7 = true ∧ 1 ≤ len ∧ len ≤ 1048576
    let no := Refused (.read { who := .sess k, seq := n } p) s k n tyRead
    (¬ formed → no nkMalformed 0)
    ∧ (formed → ¬ s.mayUse k c ∨ (∃ w, s.checkAcc c a len .rd = some (.perm w)) → no nkPermission 0)
    ∧ (formed → s.mayUse k c → s.checkAcc c a len .rd = none → s.inUse a len true = true → no nkInUse 0)
    ∧ (formed → s.mayUse k c → s.checkAcc c a len .rd = none → s.inUse a len true = false →
        Runs (.read { who := .sess k, seq := n } p) s fun t =>
          t.tasks = s.tasks ∧ t.keys = s.keys ∧ Took t k n ∧ (s.calm → t.mem = s.mem)
          ∧ (s.calm → len + 8 ≤ s.maxPay k.val → s.credit k.val → Sent s t k.val tyReadData 0 (s.ses k.val).txNext
              (natLe 4 (getLe p 0x14 4) ++ natLe 4 0 ++ Mem.readN s.mem a len))) := by
  intro c a len formed no
  have hformed : (p.length ≠ 0x18 ∨ 15 < getLe p 0 1 ∨ (!zeroAt p 1 7) = true ∨ getLe p 0x10 4 = 0 ∨ 1048576 < getLe p 0x10 4) ↔ ¬ formed := by
    simp only [formed, c, len, Bool.not_eq_true']
    rw [not_and_or, not_and_or, not_and_or, not_and_or, Bool.not_eq_true, not_lt, not_le, not_le, Nat.lt_one_iff, Nat.succ_le_iff]
  have hmay : (!s.mayCtx (.sess k) (getLe p 0 1)) = true ↔ ¬ s.mayUse k c := by
    rw [← mayCtx_sess, Bool.not_eq_true', Bool.not_eq_true]
  have hmalformed : ¬ formed → s.readMsg { who := .sess k, seq := n } p = s.nak k.val n tyRead nkMalformed 0 := fun hf => by
    rw [readMsg_eq hr, if_pos (hformed.mpr hf)]
  have hforeign : formed → ¬ s.mayUse k c → s.readMsg { who := .sess k, seq := n } p = s.nak k.val n tyRead nkPermission 0 := fun hf hm => by
    rw [readMsg_eq hr, if_neg fun h => hformed.mp h hf, if_pos (hmay.mpr hm)]
  have hown : formed → s.mayUse k c → s.readMsg { who := .sess k, seq := n } p = if (s.checkAcc c a len .rd).isSome then
        (s.noteBad c (s.keyOf (.sess k)) (s.checkAcc c a len .rd)).nak k.val n tyRead nkPermission 0
      else if s.inUse a len true then s.nak k.val n tyRead nkInUse 0
      else (s.readTier a len).2.sendReadData k.val (getLe p 0x14 4) (s.readTier a len).1 := fun hf hm => by
    rw [readMsg_eq hr, if_neg fun h => hformed.mp h hf, if_neg fun h => hmay.mp h hm]
  refine ⟨fun hf => h.no exec_read (hmalformed hf), fun hf hbad => h.no exec_read ?_, fun hf hm ha hu => h.no exec_read ?_, fun hf hm ha hu => ?_⟩
  · by_cases hm : s.mayUse k c
    · obtain ⟨w, hw⟩ := hbad.resolve_left (not_not_intro hm)
      rw [hown hf hm, hw]
      rfl
    · exact hforeign hf hm
  · rw [hown hf hm, ha, if_neg (by simp), if_pos hu]
  · have htend := tended_readTier s a len
    have hsends := sends_sendReadData (s.readTier a len).2 k.val (getLe p 0x14 4) (s.readTier a len).1
    have hread : s.readMsg { who := .sess k, seq := n } p = (s.readTier a len).2.sendReadData k.val (getLe p 0x14 4) (s.readTier a len).1 := by
      rw [hown hf hm, ha, if_neg (by simp), if_neg (by simp [hu])]
    obtain ⟨htasks, hkeys, hmem⟩ := hsends.store
    obtain ⟨htasks', hkeys'⟩ := htend.store
    have hsent : s.calm → len + 8 ≤ s.maxPay k.val → s.credit k.val → Sent s
        ((s.readTier a len).2.sendReadData k.val (getLe p 0x14 4) (s.readTier a len).1) k.val tyReadData 0 (s.ses k.val).txNext
        (natLe 4 (getLe p 0x14 4) ++ natLe 4 0 ++ Mem.readN s.mem a len) := fun hc hfit hcr => by
      rw [readTier_calm hc]
      exact htend.sent_sendReadData h.isOpen hcr (by rw [length_readN]; exact hfit) _
    generalize (s.readTier a len).2.sendReadData k.val (getLe p 0x14 4) (s.readTier a len).1 = w at hread hsends hsent htasks hkeys hmem
    exact h.ends exec_read hread ((htend.dome.keepsHand k).trans (hsends.keepsHand k)) fun q =>
      ⟨htasks.trans htasks', hkeys.trans hkeys', took_done .., fun hc => hmem.trans (htend.rest hc).1, fun hc hfit hcr => (hsent hc hfit hcr).done q⟩

end Sys2Proof.Machine
end

section
namespace Sys2Proof.Machine

/-! ## LOAD_PROGRAM (R194, R195, R415) -/

variable {s t u : State} {k : Fin 8} {c i n typ : Nat} {p b : List Byte} {x : Instr}

/-! ### Where an address lies -/

/-- A place follows the regions, the glacier tier's registers and the fuses. -/
structure SamePlaces (s t : State) : Prop where
  regs : ∀ a, 0x50000 ≤ a → a < 0x58000 → t.reg a = s.reg a
  fuses : t.fuses = s.fuses
  failed : t.outOfService = s.outOfService

theorem SamePlaces.trans (h : SamePlaces s t) (g : SamePlaces t u) : SamePlaces s u :=
  ⟨fun a hl hu => (g.regs a hl hu).trans (h.regs a hl hu), g.fuses.trans h.fuses, g.failed.trans h.failed⟩

theorem SamePlaces.rgn (h : SamePlaces s t) {j off : Nat} (hj : j < 16) (ho : off < 0x10) : t.reg (aRgn j + off) = s.reg (aRgn j + off) :=
  h.regs _ (by simp only [aRgn]; omega) (by simp only [aRgn]; omega)

theorem SamePlaces.regionOf (h : SamePlaces s t) (a : Nat) : t.regionOf a = s.regionOf a := by
  unfold State.regionOf
  refine List.find?_congr fun j hj => ?_
  have hj16 := List.mem_range.mp hj
  have h0 : t.reg (aRgn j) = s.reg (aRgn j) := h.rgn hj16 (off := 0) (by decide)
  rw [rb_of_reg h0, rf_of_reg (h.rgn hj16 (off := 4) (by decide)),
    rf_of_reg (h.rgn hj16 (off := 4) (by decide))]

theorem SamePlaces.placeNear (h : SamePlaces s t) (a : Nat) : t.placeNear a = s.placeNear a := by
  rw [State.placeNear, h.regionOf, State.placeNear]
  rcases hr : s.regionOf a with _ | j
  · rfl
  · have hj : j < 16 := List.mem_range.mp (List.mem_of_find?_eq_some hr)
    have h0 := h.rgn hj (off := 0) (by decide)
    have h4 := h.rgn hj (off := 4) (by decide)
    have h8 := h.rgn hj (off := 8) (by decide)
    simp only [Nat.add_zero] at h0
    simp only [rb_of_reg h0, rf_of_reg h0, rf_of_reg h4, rf_of_reg h8]

theorem SamePlaces.glacierSize (h : SamePlaces s t) : t.glacierSize = s.glacierSize := by
  rw [State.glacierSize, rf_of_reg (h.regs aMemCap (by decide) (by decide)), State.glacierSize]

theorem SamePlaces.place (h : SamePlaces s t) (a : Nat) : t.place a = s.place a := by
  have hglacier := h.regs aMemGlacier (by decide) (by decide)
  simp only [State.place, h.placeNear, h.glacierSize, rf_of_reg hglacier, h.fuses]

theorem SamePlaces.unbackedAt (h : SamePlaces s t) (a : Nat) : t.unbackedAt a = s.unbackedAt a := by
  rw [State.unbackedAt, h.place, State.unbackedAt]

theorem SamePlaces.lostAt (h : SamePlaces s t) (a : Nat) : t.lostAt a = s.lostAt a := by
  simp only [State.lostAt, h.place, h.failed]

theorem SamePlaces.imageAddr (h : SamePlaces s t) (c : Nat) : t.imageAddr c = s.imageAddr c := by
  rw [State.imageAddr, h.glacierSize, rf_of_reg (h.regs aMemGrsv (by decide) (by decide)), State.imageAddr]

/-- An access of memory leaves every place where it was. -/
theorem SamePlaces.of_dome (h : DomeOnly s t) (g : DomeRegs s t) : SamePlaces s t := by
  obtain ⟨rg, dm, bad, m, hframe⟩ := h
  exact ⟨fun a hl hu => g.reg (.inr (by omega)), by rw [hframe], by rw [hframe]⟩

/-! ### Bytes written granule by granule (R257) -/

/-- A granule that a write reaches: it is backed, and its stack or channel has not failed. -/
def State.takesAt (s : State) (g : Nat) : Bool := !(s.unbackedAt g || s.lostAt g)

theorem SamePlaces.takesAt (h : SamePlaces s t) (g : Nat) : t.takesAt g = s.takesAt g := by
  rw [State.takesAt, h.unbackedAt, h.lostAt, State.takesAt]

/-- What putOwn writes in one granule. -/
def State.putPart (s : State) (a : Nat) (b : List Byte) (g : Nat) : State :=
  if s.unbackedAt g || s.lostAt g then s else s.writeTier (max g a) (slice b (max g a - a) (min (g + 4096) (a + b.length) - max g a))

theorem putOwn_eq (s : State) (a : Nat) (b : List Byte) : s.putOwn a b = (granules a b.length).foldl (fun u g => u.putPart a b g) s := rfl

theorem getD_slice (b : List Byte) {off n j : Nat} (hj : j < n) : (slice b off n).getD j 0 = b.getD (off + j) 0 := by
  rw [slice, List.getD_eq_getElem?_getD, List.getElem?_take_of_lt hj, List.getElem?_drop, ← List.getD_eq_getElem?_getD]

/-- A byte that a write covers is read back. -/
theorem read_writeN_in (l : List Byte) : ∀ (m : Mem) (a y : Nat), a ≤ y → y < a + l.length → Mem.read (Mem.writeN m a l) y = l.getD (y - a) 0 := by
  induction l with
  | nil => exact fun m a y ha hy => absurd hy (by simpa using ha)
  | cons v l ih =>
    intro m a y ha hy
    rw [Mem.writeN]
    by_cases hya : y = a
    · rw [hya, Mem.read_writeN_out _ _ _ _ (by omega), Mem.read_write, if_pos rfl, Nat.sub_self]
      rfl
    · obtain ⟨j, rfl⟩ : ∃ j, y = a + 1 + j := ⟨y - (a + 1), by omega⟩
      rw [ih _ _ _ (by omega) (by simp only [List.length_cons] at hy; omega)]
      rw [show a + 1 + j - a = j + 1 by omega, show a + 1 + j - (a + 1) = j by omega]
      rfl

theorem length_slice (b : List Byte) (off n : Nat) : (slice b off n).length = min n (b.length - off) := by
  rw [slice, List.length_take, List.length_drop]

theorem putPart_places (s : State) (a : Nat) (b : List Byte) (g : Nat) : DomeOnly s (s.putPart a b g) ∧ DomeRegs s (s.putPart a b g) := by
  unfold State.putPart
  split
  · exact ⟨.refl s, .refl s⟩
  · exact ⟨writeTier_dome .., domeRegs_writeTier s _ _⟩

/-- One granule's bytes, with nothing in flight. -/
theorem putPart_spec (h : s.calm) (a : Nat) (b : List Byte) (j : Nat) :
    (s.putPart a b (j * 4096)).calm ∧ ∀ y, Mem.read (s.putPart a b (j * 4096)).mem y
      = if y / 4096 = j ∧ a ≤ y ∧ y < a + b.length ∧ s.takesAt (j * 4096) = true then b.getD (y - a) 0 else Mem.read s.mem y := by
  unfold State.putPart
  split
  case isTrue hno =>
    refine ⟨h, fun y => (if_neg ?_).symm⟩
    rintro ⟨-, -, -, hyes⟩
    rw [State.takesAt, hno] at hyes
    cases hyes
  case isFalse hyes =>
    obtain ⟨hmem, hcalm⟩ := writeTier_calm h (max (j * 4096) a)
      (slice b (max (j * 4096) a - a) (min (j * 4096 + 4096) (a + b.length) - max (j * 4096) a))
    have hlen := length_slice b (max (j * 4096) a - a) (min (j * 4096 + 4096) (a + b.length) - max (j * 4096) a)
    refine ⟨hcalm, fun y => ?_⟩
    rw [hmem]
    split
    case isTrue hin =>
      obtain ⟨hj, hlo, hhi, -⟩ := hin
      rw [read_writeN_in _ _ _ _ (by omega) (by omega), getD_slice _ (by omega)]
      congr 1
      omega
    case isFalse hout =>
      refine Mem.read_writeN_out _ _ _ _ ?_
      rw [not_and, not_and, not_and] at hout
      have htake : s.takesAt (j * 4096) = true := by rw [State.takesAt, Bool.eq_false_iff.mpr hyes]; rfl
      by_contra hin
      exact hout (by omega) (by omega) (by omega) htake

/-- The bytes of several granules. -/
theorem foldl_putPart (a : Nat) (b : List Byte) (l : List Nat) : ∀ s : State, s.calm →
    ∀ y, Mem.read (l.foldl (fun u j => u.putPart a b (j * 4096)) s).mem y
      = if y / 4096 ∈ l ∧ a ≤ y ∧ y < a + b.length ∧ s.takesAt (y / 4096 * 4096) = true then b.getD (y - a) 0 else Mem.read s.mem y := by
  induction l with
  | nil => exact fun s _ y => by simp
  | cons j l ih =>
    intro s h y
    obtain ⟨hcalm, hread⟩ := putPart_spec h a b j
    obtain ⟨hdome, hregs⟩ := putPart_places s a b (j * 4096)
    rw [List.foldl_cons, ih _ hcalm, hread, (SamePlaces.of_dome hdome hregs).takesAt]
    by_cases hj : y / 4096 = j
    · subst hj
      by_cases hin : a ≤ y ∧ y < a + b.length ∧ s.takesAt (y / 4096 * 4096) = true
      · simp [hin]
      · simp only [hin, and_false, if_false]
    · simp [hj]

theorem foldl_putPart_places (a : Nat) (b : List Byte) (l : List Nat) : ∀ s : State,
    DomeOnly s (l.foldl (fun u g => u.putPart a b g) s) ∧ DomeRegs s (l.foldl (fun u g => u.putPart a b g) s) := by
  induction l with
  | nil => exact fun s => ⟨.refl s, .refl s⟩
  | cons g l ih =>
    intro s
    obtain ⟨hdome, hregs⟩ := putPart_places s a b g
    obtain ⟨hdome', hregs'⟩ := ih (s.putPart a b g)
    exact ⟨hdome.trans hdome', hregs.trans hregs'⟩

/-- Bytes written granule by granule stand where memory takes them, and nothing else changes. -/
theorem putOwn_spec (s : State) (a : Nat) (b : List Byte) : DomeOnly s (s.putOwn a b) ∧ DomeRegs s (s.putOwn a b)
    ∧ (s.calm → ∀ y, Mem.read (s.putOwn a b).mem y
      = if a ≤ y ∧ y < a + b.length ∧ s.takesAt (y / 4096 * 4096) = true then b.getD (y - a) 0 else Mem.read s.mem y) := by
  rw [putOwn_eq]
  obtain ⟨hdome, hregs⟩ := foldl_putPart_places a b (granules a b.length) s
  refine ⟨hdome, hregs, fun hc y => ?_⟩
  rw [granules, List.foldl_map]
  have hfold := foldl_putPart a b ((List.range ((a + b.length - 1) / 4096 + 1 - a / 4096)).map fun i => a / 4096 + i) s hc y
  rw [List.foldl_map] at hfold
  rw [hfold]
  refine if_congr ⟨fun h => h.2, fun h => ⟨?_, h⟩⟩ rfl rfl
  obtain ⟨hlo, hhi, -⟩ := h
  exact List.mem_map.mpr ⟨y / 4096 - a / 4096, List.mem_range.mpr (by omega), by omega⟩

/-! ### The message's checks (R173, R195, R946) -/

/-- The bytes of an image with a message's, as LOAD_PROGRAM collects them. -/
def State.loadedBy (s : State) (k : Fin 8) (p : List Byte) : List Byte :=
  if getLe p 8 8 = 0 then [] else SMap.get s.loads [] (16 * k.val + getLe p 0 1)

theorem loadRefusal_spec (s : State) (k : Fin 8) (p : List Byte) :
    let c := getLe p 0 1
    let formed : Prop := 16 ≤ p.length ∧ c < 16 ∧ getLe p 1 1 ≤ 1 ∧ zeroAt p 2 6 = true
    (¬ formed → s.loadRefusal (.sess k) p = nkMalformed) ∧ (formed → ¬ s.mayUse k c → s.loadRefusal (.sess k) p = nkPermission)
    ∧ (formed → s.mayUse k c → s.loadRefusal (.sess k) p = if s.ctxActive c then nkBusy else 0) := by
  intro c formed
  have hformed : (p.length < 16 ∨ 15 < getLe p 0 1 ∨ 1 < getLe p 1 1 ∨ (!zeroAt p 2 6) = true) ↔ ¬ formed := by
    simp only [formed, c, Bool.not_eq_true']
    rw [not_and_or, not_and_or, not_and_or, not_le, not_lt, not_le, Nat.succ_le_iff, Bool.not_eq_true]
  have hmay : (!s.mayCtx (.sess k) (getLe p 0 1)) = true ↔ ¬ s.mayUse k c := by
    rw [← mayCtx_sess, Bool.not_eq_true', Bool.not_eq_true]
  rw [State.loadRefusal]
  refine ⟨fun hf => if_pos (hformed.mpr hf), fun hf hm => ?_, fun hf hm => ?_⟩
  · exact (if_neg fun h => hformed.mp h hf).trans (if_pos (hmay.mpr hm))
  · exact (if_neg fun h => hformed.mp h hf).trans (if_neg fun h => hmay.mp h hm)

theorem loadBytes_eq (s : State) (k : Fin 8) (p : List Byte) : s.loadBytes (.sess k) p
    = if getLe p 8 8 = (s.loadedBy k p).length ∧ (s.loadedBy k p ++ p.drop 16).length ≤ 2 ^ 24 then some (s.loadedBy k p ++ p.drop 16) else none := by
  have heq : s.loadBytes (.sess k) p = if getLe p 8 8 ≠ (s.loadedBy k p).length ∨ 2 ^ 24 < (s.loadedBy k p).length + (p.length - 16) then none
      else some (s.loadedBy k p ++ p.drop 16) := rfl
  rw [heq, List.length_append, List.length_drop]
  by_cases hfits : getLe p 8 8 = (s.loadedBy k p).length ∧ (s.loadedBy k p).length + (p.length - 16) ≤ 2 ^ 24
  · rw [if_pos hfits, if_neg]
    omega
  · rw [if_neg hfits, if_pos]
    omega

theorem exec_loadProgram (h : Turn s k n tyLoad p) (hr : s.devState ≠ stRecovery) (hp : s.replaying = false) :
    exec (.loadProgram { who := .sess k, seq := n } p) s
      = .next (s.onMsg { who := .sess k, seq := n } tyLoad p fun _ => s.loadMsg { who := .sess k, seq := n } p) := by
  have hx : exec (.loadProgram { who := .sess k, seq := n } p) s = .next (s.onMsg { who := .sess k, seq := n } tyLoad p fun t =>
      if t.gate false ≠ 0 then t.refuse { who := .sess k, seq := n } tyLoad nkState 0
      else if t.replaying then t.loadReplay { who := .sess k, seq := n } p else t.loadMsg { who := .sess k, seq := n } p) := rfl
  rw [hx, h.onMsg, h.onMsg, gate_eq_zero hr (by simp), hp]
  rfl

theorem loadMsg_refused (h : s.loadRefusal (.sess k) p = i) (hi : i ≠ 0) :
    s.loadMsg { who := .sess k, seq := n } p = s.nak k.val n tyLoad i 0 := by
  rw [State.loadMsg, h, if_pos hi]
  rfl

theorem loadMsg_broken (h : s.loadRefusal (.sess k) p = 0) (hb : s.loadBytes (.sess k) p = none) :
    s.loadMsg { who := .sess k, seq := n } p = s.nak k.val n tyLoad nkMalformed 0 := by
  rw [State.loadMsg, h, hb]
  rfl

/-- What a message's bytes are added to is kept, or checked and installed. -/
theorem loadMsg_bytes (h : s.loadRefusal (.sess k) p = 0) (hb : s.loadBytes (.sess k) p = some b) :
    s.loadMsg { who := .sess k, seq := n } p = if loadLast p then s.loadImage { who := .sess k, seq := n } (getLe p 0 1) b
      else { s with loads := SMap.put s.loads (16 * k.val + getLe p 0 1) b } := by
  rw [State.loadMsg, h, hb]
  rfl

theorem loadLast_of_zero (h : getLe p 1 1 = 0) : loadLast p = false := by
  rw [loadLast, h]
  rfl

theorem loadLast_of_one (h : getLe p 1 1 = 1) : loadLast p = true := by
  rw [loadLast, h]
  rfl

theorem checkLoad_lt (s : State) (c : Nat) (x : Program) : s.checkLoad c x < 256 := by
  rw [State.checkLoad]
  refine lowestCode_lt (by decide) ?_
  simp only [List.forall_mem_cons]
  exact ⟨by decide, by decide, by decide, by decide, by decide, by decide, by decide, by decide, by simp⟩

theorem loadImage_broken (hi : s.imageRefusal b ≠ 0) :
    s.loadImage { who := .sess k, seq := n } c b = s.nak k.val n tyLoad (s.imageRefusal b) 0 := by
  rw [State.loadImage, if_pos hi]
  rfl

theorem loadImage_refused (hi : s.imageRefusal b = 0) (hc : s.checkLoad c { image := b } ≠ 0) :
    s.loadImage { who := .sess k, seq := n } c b = (s.answerCtx c (s.checkLoad c { image := b }) { source := 0x04, key := some (s.ses k.val).key }).nak
      k.val n tyLoad (s.checkLoad c { image := b }) 0 := by
  rw [State.loadImage]
  simp only [hi, ne_eq, not_true_eq_false, if_false, hc, not_false_eq_true, if_true]
  rfl

theorem recKey_sess (s : State) (k : Fin 8) : s.recKey (.sess k) = (s.ses k.val).key := by
  rw [State.recKey, State.keyOf, Option.getD_some]

theorem reg_of_regs (h : t.regs = s.regs) (a : Nat) : t.reg a = s.reg a := by rw [State.reg, h, State.reg]

/-- The state that a check's answer leaves before an installation: REFUSE clear, and the message's collected bytes dropped. -/
def State.cleared (s : State) (k : Fin 8) (c : Nat) : State :=
  { s.setF (aCtxStatus c) 24 8 0 with loads := SMap.erase (s.setF (aCtxStatus c) 24 8 0).loads (16 * k.val + c) }

theorem cleared_frame (s : State) (k : Fin 8) (c : Nat) : ∃ rg ld, s.cleared k c = { s with regs := rg, loads := ld } := by
  have hset : ∀ a v ld, ({ s.setReg a v with loads := ld } : State) = { s with regs := (s.setReg a v).regs, loads := ld } := fun _ _ _ => rfl
  rw [State.cleared, setF_eq, hset]
  exact ⟨_, _, rfl⟩

theorem reg_cleared (s : State) (k : Fin 8) (c a : Nat) :
    (s.cleared k c).reg a = if a = aCtxStatus c then rput (s.reg (aCtxStatus c)) 24 8 0 else s.reg a := by
  have hregs : (s.cleared k c).regs = (s.setF (aCtxStatus c) 24 8 0).regs := by rw [State.cleared]
  rw [reg_of_regs hregs, reg_setF]

theorem loadImage_installs (hi : s.imageRefusal b = 0) (hc : s.checkLoad c { image := b } = 0) :
    s.loadImage { who := .sess k, seq := n } c b = (s.cleared k c).installProgram c (s.ses k.val).key n b := by
  have hses : ∀ a v, (s.setReg a v).ses k.val = s.ses k.val := fun _ _ => rfl
  have hkey : (s.setF (aCtxStatus c) 24 8 0).recKey (.sess k) = (s.ses k.val).key := by rw [recKey_sess, setF_eq, hses]
  rw [State.loadImage]
  simp only [hi, ne_eq, not_true_eq_false, if_false, hc, answerCtx_zero, hkey, loadKey, whoIdx, State.cleared]

/-! ### A program installed (R116, R418, R755) -/

/-- What an installation changes: the record ring, registers, bytes of memory, the cache's books, the context's program and lines, and its
counters or their clear. -/
structure Installed (s t : State) (c : Nat) (b : List Byte) : Prop where
  frame : ∃ rp rg dm bad m ct cd, t = { s with
    replay := rp, regs := rg, dome := dm, badBytes := bad, mem := m, ctrs := ct, clrDue := cd,
    progs := SMap.put s.progs c { image := b }, icache := s.icache.filter fun e => e.2.tag % 16 != c }
  status : t.reg (aCtxStatus c) = rputBit (s.reg (aCtxStatus c)) 1 true
  due : s.ctxRuns c = true → t.ctrs = s.ctrs ∧ t.clrDue.testBit c = true
  clear : s.ctxRuns c = false → ∀ q, t.ctr q = if s.rb (aCtxCtl c) 2 = false ∧ q ∈ s.mappedCtrs c then 0 else s.ctr q
  bytes : s.calm → ∀ y, Mem.read t.mem y = if s.imageAddr c ≤ y ∧ y < s.imageAddr c + b.length ∧ s.takesAt (y / 4096 * 4096) = true
    then b.getD (y - s.imageAddr c) 0 else Mem.read s.mem y

/-- The image's bytes, with the record and the context's bit. -/
structure Stored (s t : State) (c : Nat) (b : List Byte) : Prop where
  frame : ∃ rp rg dm bad m, t = { s with replay := rp, regs := rg, dome := dm, badBytes := bad, mem := m }
  regs : ∀ a, a < 0x40100 → t.reg a = if a = aCtxStatus c then rputBit (s.reg (aCtxStatus c)) 1 true else s.reg a
  bytes : s.calm → ∀ y, Mem.read t.mem y = if s.imageAddr c ≤ y ∧ y < s.imageAddr c + b.length ∧ s.takesAt (y / 4096 * 4096) = true
    then b.getD (y - s.imageAddr c) 0 else Mem.read s.mem y

theorem stored_image (s : State) (hc : c < 16) (key ref : Nat) (b d : List Byte) :
    Stored s (((s.record 0x04 key c ref (some b) d).setB (aCtxStatus c) 1 true).storeImage c b) c b := by
  have hnoted := noted_record s 0x04 key c ref (some b) d
  generalize s.record 0x04 key c ref (some b) d = v at hnoted ⊢
  obtain ⟨w, hw⟩ : ∃ w, v.setB (aCtxStatus c) 1 true = w := ⟨_, rfl⟩
  have hstatus : aCtxStatus c < 0x40100 := by simp only [aCtxStatus, aCtx]; omega
  have hregs : ∀ a, a < aDet 0x110 → w.reg a = if a = aCtxStatus c then rputBit (s.reg (aCtxStatus c)) 1 true else s.reg a := fun a ha => by
    rw [← hw, setB_eq, reg_setReg, hnoted.regs a (.inl ha), hnoted.regs (aCtxStatus c) (.inl (hstatus.trans (by decide)))]
  have hframe : w = { s with replay := w.replay, regs := w.regs } := by
    rw [← hw, setB_eq, hnoted.frame]
    rfl
  have hplaces : SamePlaces s w := by
    refine ⟨fun a hl hu => ?_, by rw [hframe], by rw [hframe]⟩
    rw [hregs a (hu.trans (by decide)), if_neg (by omega)]
  obtain ⟨hdome, hdregs, hbytes⟩ := putOwn_spec w (w.imageAddr c) b
  rw [hw, State.storeImage]
  generalize w.putOwn (w.imageAddr c) b = t at hdome hdregs hbytes
  refine ⟨?_, fun a ha => ?_, fun hcalm y => ?_⟩
  · obtain ⟨rg, dm, bad, m, rfl⟩ := hdome
    rw [hframe]
    exact ⟨_, _, _, _, _, rfl⟩
  · rw [hdregs.reg (.inl ha), hregs a (ha.trans (by decide))]
  · have hsame : w.mem = s.mem ∧ w.calm := by
      rw [hframe]
      exact ⟨rfl, hcalm⟩
    rw [hbytes hsame.2 y, hplaces.imageAddr, hplaces.takesAt, hsame.1]

/-- The program and the context's lines, beside the image's bytes. -/
def State.withProgram (s : State) (c : Nat) (b : List Byte) : State :=
  { s with progs := SMap.put s.progs c { image := b }, icache := s.icache.filter fun e => e.2.tag % 16 != c }

theorem installProgram_eq (s : State) (c key ref : Nat) (b : List Byte) : s.installProgram c key ref b
    = ((((s.record 0x04 key c ref (some b) (shake256 b 32)).setB (aCtxStatus c) 1 true).storeImage c b).withProgram c b).ctxSwitch c := by
  rw [State.installProgram, State.withProgram]

theorem Stored.installed (h : Stored s t c b) (hc : c < 16) : Installed s ((t.withProgram c b).ctxSwitch c) c b := by
  have hframe : t.withProgram c b = { t with
      progs := SMap.put t.progs c { image := b }, icache := t.icache.filter fun e => e.2.tag % 16 != c } := rfl
  generalize t.withProgram c b = w at hframe ⊢
  have hswitch := switched_ctxSwitch w c
  generalize w.ctxSwitch c = u at hswitch ⊢
  have hsame : w.cores = s.cores ∧ w.ctrs = s.ctrs := by
    obtain ⟨rp, rg, dm, bad, m, hv⟩ := h.frame
    rw [hframe, hv]
    exact ⟨rfl, rfl⟩
  have hruns := ctxRuns_congr hsame.1 c
  have hwregs : w.regs = t.regs := by rw [hframe]
  have hregs : ∀ a, a < 0x40100 → a ≠ aCtxStatus c → w.reg a = s.reg a := fun a ha hne => by
    rw [reg_of_regs hwregs, h.regs a ha, if_neg hne]
  have hctl : w.reg (aCtxCtl c) = s.reg (aCtxCtl c) :=
    hregs _ (by simp only [aCtxCtl, aCtx]; omega) (by simp only [aCtxCtl, aCtxStatus, aCtx]; omega)
  have hmap : w.mappedCtrs c = s.mappedCtrs c :=
    mappedCtrs_congr fun a hl hu => hregs a (by simp only [aCtx] at hu; omega) (by simp only [aCtx, aCtxStatus] at hl ⊢; omega)
  refine ⟨?_, ?_, fun hr => ?_, fun hr q => ?_, fun hcalm y => ?_⟩
  · obtain ⟨rp, rg, dm, bad, m, hv⟩ := h.frame
    rw [hswitch.frame, hframe, hv]
    exact ⟨_, _, _, _, _, _, _, rfl⟩
  · have huregs : u.regs = w.regs := by rw [hswitch.frame]
    rw [reg_of_regs huregs, reg_of_regs hwregs, h.regs _ (by simp only [aCtxStatus, aCtx]; omega), if_pos rfl]
  · obtain ⟨hctrs, hdue⟩ := hswitch.due (hruns.trans hr)
    exact ⟨hctrs.trans hsame.2, by rw [hdue, testBit_nsetBit, if_pos rfl]⟩
  · rw [(hswitch.done (hruns.trans hr)).2 q, rb_of_reg hctl, hmap, State.ctr, hsame.2, State.ctr]
  · have hmem : u.mem = t.mem := by rw [hswitch.frame, hframe]
    rw [hmem, h.bytes hcalm]

theorem installed_program (s : State) (hc : c < 16) (key ref : Nat) (b : List Byte) : Installed s (s.installProgram c key ref b) c b := by
  rw [installProgram_eq]
  exact (stored_image s hc key ref b (shake256 b 32)).installed hc

theorem places_cleared (s : State) (k : Fin 8) (hc : c < 16) : SamePlaces s (s.cleared k c) := by
  obtain ⟨rg, ld, hframe⟩ := cleared_frame s k c
  refine ⟨fun a hl hu => ?_, by rw [hframe], by rw [hframe]⟩
  rw [reg_cleared, if_neg (by simp only [aCtxStatus, aCtx]; omega)]

/-- What a program's installation by LOAD_PROGRAM leaves. -/
structure LoadDone (s t : State) (c : Nat) (b : List Byte) : Prop where
  prog : t.prog c = { image := b } ∧ ∀ d, d ≠ c → t.prog d = s.prog d
  status : t.rb (aCtxStatus c) 1 = true ∧ t.rf (aCtxStatus c) 24 8 = 0
  lines : t.icache = (s.icache.filter fun e => e.2.tag % 16 != c)
  rest : t.tasks = s.tasks ∧ t.tx = s.tx
  due : s.ctxRuns c = true → t.ctrs = s.ctrs ∧ t.clrDue.testBit c = true
  clear : s.ctxRuns c = false → ∀ q, t.ctr q = if s.rb (aCtxCtl c) 2 = false ∧ q ∈ s.mappedCtrs c then 0 else s.ctr q
  bytes : s.calm → (∀ y, s.imageAddr c ≤ y → y < s.imageAddr c + b.length → s.unbackedAt (y / 4096 * 4096) = false →
      s.lostAt (y / 4096 * 4096) = false → Mem.read t.mem y = b.getD (y - s.imageAddr c) 0)
    ∧ ∀ y, (y < s.imageAddr c ∨ s.imageAddr c + b.length ≤ y) → Mem.read t.mem y = Mem.read s.mem y

theorem Installed.keepsHand (h : Installed s t c b) (k : Fin 8) : KeepsHand s t k := by
  obtain ⟨rp, rg, dm, bad, m, ct, cd, rfl⟩ := h.frame
  exact .of_same rfl rfl rfl rfl

theorem Installed.loadDone (h : Installed (s.cleared k c) t c b) (hc : c < 16) : LoadDone s t c b := by
  obtain ⟨rg0, ld0, hclear⟩ := cleared_frame s k c
  have hplaces := places_cleared s k hc
  have hsame : (s.cleared k c).cores = s.cores ∧ (s.cleared k c).ctrs = s.ctrs ∧ (s.cleared k c).mem = s.mem
      ∧ (s.cleared k c).progs = s.progs ∧ (s.cleared k c).icache = s.icache ∧ (s.cleared k c).tasks = s.tasks ∧ (s.cleared k c).tx = s.tx
      ∧ (s.cleared k c).dome = s.dome := by
    rw [hclear]
    exact ⟨rfl, rfl, rfl, rfl, rfl, rfl, rfl, rfl⟩
  obtain ⟨hcores, hctrs, hmem, hprogs, hlines, htasks, htx, hdomes⟩ := hsame
  have hruns := ctxRuns_congr hcores c
  have hother : ∀ a, a ≠ aCtxStatus c → (s.cleared k c).reg a = s.reg a := fun a ha => by rw [reg_cleared, if_neg ha]
  have hctl : (s.cleared k c).reg (aCtxCtl c) = s.reg (aCtxCtl c) := hother _ (by simp only [aCtxCtl, aCtxStatus, aCtx]; omega)
  have hmap : (s.cleared k c).mappedCtrs c = s.mappedCtrs c :=
    mappedCtrs_congr fun a hl hu => hother a (by simp only [aCtx, aCtxStatus] at hl ⊢; omega)
  have hstatus := h.status
  rw [reg_cleared, if_pos rfl] at hstatus
  have hput : t.progs = SMap.put s.progs c { image := b } ∧ t.icache = (s.icache.filter fun e => e.2.tag % 16 != c)
      ∧ t.tasks = s.tasks ∧ t.tx = s.tx := by
    obtain ⟨rp, rg, dm, bad, m, ct, cd, ht⟩ := h.frame
    rw [ht, hprogs, hlines, htasks, htx]
    exact ⟨rfl, rfl, rfl, rfl⟩
  obtain ⟨htprogs, htlines, httasks, httx⟩ := hput
  refine ⟨⟨?_, fun d hd => ?_⟩, ⟨?_, ?_⟩, htlines, ⟨httasks, httx⟩, fun hr => ?_, fun hr q => ?_, fun hcalm => ?_⟩
  · rw [State.prog, htprogs, SMap.get_put, if_pos rfl]
  · rw [State.prog, htprogs, SMap.get_put, if_neg hd, State.prog]
  · rw [State.rb, hstatus, rbit_rputBit _ _ (by decide), if_pos rfl]
  · rw [State.rf, hstatus, rfld_rputBit_other _ _ (by decide) (by decide), rfld_rput_same _ _ (by decide)]
    rfl
  · rw [← hctrs]
    exact h.due (hruns.trans hr)
  · rw [h.clear (hruns.trans hr), rb_of_reg hctl, hmap, State.ctr, hctrs, State.ctr]
  · have hread := h.bytes (by rwa [State.calm, hdomes])
    rw [hplaces.imageAddr, hmem] at hread
    refine ⟨fun y hl hu hb hlost => ?_, fun y hout => ?_⟩
    · rw [hread, if_pos ⟨hl, hu, by rw [hplaces.takesAt, State.takesAt, hb, hlost]; rfl⟩]
    · rw [hread, if_neg (by omega)]

theorem LoadDone.done (h : LoadDone s t c b) (q : Port) : LoadDone s (t.done k n q) c b :=
  ⟨h.prog, h.status, h.lines, h.rest, h.due, h.clear, h.bytes⟩

theorem RegsOnly.keepsHand {l : List Nat} (h : RegsOnly s t l) (k : Fin 8) : KeepsHand s t k := by
  rw [h.1]
  exact .of_same rfl rfl rfl rfl

/-- A message that an enable check refuses: the answer on the context, the count of refusals and the NAK are all that it leaves. -/
theorem Turn.checkRefused (h : Turn s k n typ p) {f : State → State} {reason value : Nat} {y : Cause}
    (hx : exec x s = .next (s.onMsg { who := .sess k, seq := n } typ p f))
    (hf : f s = (s.answerCtx c reason y).nak k.val n typ reason value) (hlt : reason < 256) (hne : reason ≠ 0) :
    Runs x s fun t => t.rf (aCtxStatus c) 24 8 = reason ∧ Counted s t aDevRefuseCount ∧ Took t k n
      ∧ t = { s with regs := t.regs, sess := t.sess, tx := t.tx, port := t.port } := by
  have honly := regsOnly_answerCtx s c reason y
  have hrefuse := refuse_answerCtx (s := s) hlt c y
  have hcount := counted_answerCtx (s := s) hne c y
  generalize s.answerCtx c reason y = v at hf honly hrefuse hcount
  have hsent := sends_nak v k.val n typ reason value
  generalize v.nak k.val n typ reason value = w at hf hsent
  have hwregs : w.regs = v.regs := by rw [hsent.frame]
  refine h.ends hx hf ((honly.keepsHand k).trans (hsent.keepsHand k)) fun q => ?_
  have hqregs : (w.done k n q).regs = v.regs := hwregs
  refine ⟨?_, ?_, took_done .., ?_⟩
  · rw [rf_of_reg (reg_of_regs hqregs _)]
    exact hrefuse
  · rw [Counted, reg_of_regs hqregs]
    exact hcount
  · rw [hsent.frame, honly.1]
    rfl

/-! ### The clauses of the statement -/

theorem load_clauses (h : Turn s k n tyLoad p) (hr : s.devState ≠ stRecovery) (hp : s.replaying = false) :
    let c := getLe p 0 1
    let b := s.loadedBy k p ++ p.drop 16
    let formed : Prop := 16 ≤ p.length ∧ c < 16 ∧ getLe p 1 1 ≤ 1 ∧ zeroAt p 2 6 = true
    let fits : Prop := getLe p 8 8 = (s.loadedBy k p).length ∧ b.length ≤ 2 ^ 24
    let no := Refused (.loadProgram { who := .sess k, seq := n } p) s k n tyLoad
    (¬ formed → no nkMalformed 0) ∧ (formed → ¬ s.mayUse k c → no nkPermission 0)
    ∧ (formed → s.mayUse k c → s.ctxActive c = true → no nkBusy 0)
    ∧ (formed → s.mayUse k c → s.ctxActive c = false →
      (¬ fits → no nkMalformed 0)
      ∧ (fits → getLe p 1 1 = 0 → exec (.loadProgram { who := .sess k, seq := n } p) s
          = .next ({ s with loads := SMap.put s.loads (16 * k.val + c) b }.took k n))
      ∧ (fits → getLe p 1 1 = 1 →
        (s.imageRefusal b ≠ 0 → no (s.imageRefusal b) 0)
        ∧ (s.imageRefusal b = 0 → s.checkLoad c { image := b } ≠ 0 → Runs (.loadProgram { who := .sess k, seq := n } p) s fun t =>
            t.rf (aCtxStatus c) 24 8 = s.checkLoad c { image := b } ∧ t.progs = s.progs ∧ t.loads = s.loads ∧ t.mem = s.mem
            ∧ Took t k n ∧ Counted s t aDevRefuseCount)
        ∧ (s.imageRefusal b = 0 → s.checkLoad c { image := b } = 0 → Runs (.loadProgram { who := .sess k, seq := n } p) s fun t =>
            LoadDone s t c b ∧ Took t k n))) := by
  intro c b formed fits no
  have hexec := exec_loadProgram h hr hp
  obtain ⟨hbad, hforeign, hown⟩ := loadRefusal_spec s k p
  have hbytes := loadBytes_eq s k p
  refine ⟨fun hf => h.no hexec (loadMsg_refused (hbad hf) (by decide)), fun hf hm => h.no hexec (loadMsg_refused (hforeign hf hm) (by decide)),
    fun hf hm ha => h.no hexec (loadMsg_refused ((hown hf hm).trans (if_pos ha)) (by decide)), fun hf hm ha => ?_⟩
  have hgo : s.loadRefusal (.sess k) p = 0 := (hown hf hm).trans (if_neg (by rw [ha]; exact Bool.false_ne_true))
  refine ⟨fun hfit => h.no hexec (loadMsg_broken hgo (hbytes.trans (if_neg hfit))), fun hfit hlast => ?_, fun hfit hlast => ?_⟩
  · have hmsg := loadMsg_bytes (n := n) hgo (hbytes.trans (if_pos hfit))
    rw [loadLast_of_zero hlast, if_neg Bool.false_ne_true] at hmsg
    rw [hexec, h.runs (t := { s with loads := SMap.put s.loads (16 * k.val + c) b }) hmsg (.of_same rfl rfl rfl rfl)]
  · have hmsg := loadMsg_bytes (n := n) hgo (hbytes.trans (if_pos hfit))
    rw [loadLast_of_one hlast, if_pos rfl] at hmsg
    refine ⟨fun hi => h.no hexec (hmsg.trans (loadImage_broken hi)), fun hi hcode => ?_, fun hi hcode => ?_⟩
    · obtain ⟨t, hrun, hrefuse, hcount, htook, hframe⟩ := h.checkRefused hexec (hmsg.trans (loadImage_refused hi hcode)) (checkLoad_lt ..) hcode
      exact ⟨t, hrun, hrefuse, by rw [hframe], by rw [hframe], by rw [hframe], htook, hcount⟩
    · have hinst := installed_program (s.cleared k c) hf.2.1 (s.ses k.val).key n b
      have hkeep : KeepsHand s (s.cleared k c) k := by
        obtain ⟨rg, ld, hframe⟩ := cleared_frame s k c
        rw [hframe]
        exact .of_same rfl rfl rfl rfl
      have hinstalls := hmsg.trans (loadImage_installs hi hcode)
      have hdone := hinst.loadDone hf.2.1
      generalize (s.cleared k c).installProgram c (s.ses k.val).key n b = w at hinstalls hinst hdone
      exact h.ends hexec hinstalls (hkeep.trans (hinst.keepsHand k)) fun q => ⟨hdone.done q, took_done ..⟩

end Sys2Proof.Machine
end

section
namespace Sys2Proof.Machine

/-! ## GET_RESULT and RELEASE (R212, R216–R221) -/

variable {s t u : State} {k : Fin 8} {i n : Nat} {p : List Byte} {x : Instr}

/-! ### RESULT messages (R216, R218) -/

theorem sends_sendResults (j : Nat) : ∀ (s : State) (i : Nat) (h d : List Byte), Sends s (sendResults j s i h d) i := by
  induction j with
  | zero => exact fun s i _ _ => .refl s i
  | succ j ih =>
    intro s i h d
    simp only [sendResults]
    split
    · exact sends_sendSeq ..
    · exact (sends_sendSeq ..).trans (ih ..)

/-- A slot's header and data that fit a message go in one. -/
theorem Tended.sent_sendResults (g : Tended s t) (ho : (s.ses k.val).isOpen = true) (hc : s.credit k.val) (j : Nat) (h : List Byte)
    {d : List Byte} (hd : d.length + 64 ≤ s.maxPay k.val) :
    Sent s (sendResults (j + 1) t k.val h d) k.val tyResult 0 (s.ses k.val).txNext (h ++ d) := by
  obtain ⟨hses, htx, hpay⟩ := g.sending k
  have hone : sendResults (j + 1) t k.val h d = t.answer k.val tyResult (h ++ d) := by
    simp only [sendResults]
    rw [hpay, if_pos (by omega), List.take_of_length_le (by omega)]
  rw [hone, ← hses]
  refine Sent.of_tx htx (sent_sendSeq (by rw [hses]; exact ho) ?_ ..)
  rw [State.credit, hses]
  exact hc

/-! ### GET_RESULT (R212, R217–R219) -/

theorem exec_getResult : exec (.getResult { who := .sess k, seq := n } p) s
    = .next (s.onMsg { who := .sess k, seq := n } tyGetResult p fun t => t.getResult { who := .sess k, seq := n } p) := rfl

/-- The result that key slot's partner asks for is held and its memory is there. -/
def State.holdsResult (s : State) (k : Fin 8) (asn : Nat) : Prop :=
  asn ∈ (s.key (s.ses k.val).key).unreleased ∧ s.lostAt (s.rslotAt k.val asn) = false

theorem getResult_long (hr : s.devState ≠ stRecovery) (hp : p.length ≠ 16) :
    s.getResult { who := .sess k, seq := n } p = s.nak k.val n tyGetResult nkMalformed 0 := by
  simp only [State.getResult, gate_eq_zero hr (held := false) (by simp)]
  exact (if_neg (by simp)).trans (if_pos hp)

theorem getResult_running (hr : s.devState ≠ stRecovery) (hp : p.length = 16) (ht : s.task? (s.ses k.val).key (getLe p 0 8) ≠ none) :
    s.getResult { who := .sess k, seq := n } p
      = s.nak k.val n tyGetResult nkNotReady (s.key (s.ses k.val).key).lastCommitted := by
  simp only [State.getResult, gate_eq_zero hr (held := false) (by simp), hp, whoIdx, Option.isSome_iff_ne_none.mpr ht]
  rfl

theorem holdsResult_iff {asn : Nat} : (!(s.key (s.ses k.val).key).unreleased.contains asn || s.lostAt (s.rslotAt k.val asn)) = false
    ↔ s.holdsResult k asn := by
  simp [State.holdsResult]

theorem getResult_none (hr : s.devState ≠ stRecovery) (hp : p.length = 16) (ht : s.task? (s.ses k.val).key (getLe p 0 8) = none)
    (hh : ¬ s.holdsResult k (getLe p 0 8)) : s.getResult { who := .sess k, seq := n } p = s.nak k.val n tyGetResult nkNoResult 0 := by
  have hno := Bool.eq_true_of_not_eq_false (mt holdsResult_iff.mp hh)
  simp only [State.getResult, gate_eq_zero hr (held := false) (by simp), hp, whoIdx, ht, Option.isSome_none, hno]
  rfl

theorem getResult_held (hr : s.devState ≠ stRecovery) (hp : p.length = 16) (ht : s.task? (s.ses k.val).key (getLe p 0 8) = none)
    (hh : s.holdsResult k (getLe p 0 8)) {h d : List Byte} {t u : State} (hhead : s.readTier (s.rslotAt k.val (getLe p 0 8)) 64 = (h, t))
    (hdata : t.readTier (s.rslotAt k.val (getLe p 0 8) + 64 + getLe p 8 4)
      (min (getLe p 8 4 + getLe p 12 4) (getLe h 0x14 4) - getLe p 8 4) = (d, u)) :
    s.getResult { who := .sess k, seq := n } p = sendResults (d.length + 1) u k.val h d := by
  have hyes := holdsResult_iff.mpr hh
  simp only [State.getResult, gate_eq_zero hr (held := false) (by simp), hp, whoIdx, ht, Option.isSome_none, hyes, hhead, hdata]
  rfl

theorem getResult_clauses (g : Turn s k n tyGetResult p) (hr : s.devState ≠ stRecovery) :
    let asn := getLe p 0 8
    let key := (s.ses k.val).key
    let q := s.key key
    let no := Refused (.getResult { who := .sess k, seq := n } p) s k n tyGetResult
    let a := s.rslotAt k.val asn
    let h := Mem.readN s.mem a 64
    let len := min (getLe p 8 4 + getLe p 12 4) (getLe h 0x14 4) - getLe p 8 4
    let held : Prop := asn ∈ q.unreleased ∧ s.lostAt a = false
    (p.length ≠ 16 → no nkMalformed 0) ∧ (p.length = 16 → s.task? key asn ≠ none → no nkNotReady q.lastCommitted)
    ∧ (p.length = 16 → s.task? key asn = none → ¬ held → no nkNoResult 0)
    ∧ (p.length = 16 → s.task? key asn = none → held → Runs (.getResult { who := .sess k, seq := n } p) s fun t =>
        t.keys = s.keys ∧ t.tasks = s.tasks ∧ Took t k n ∧ (s.calm → t.mem = s.mem)
        ∧ (s.calm → len + 64 ≤ s.maxPay k.val → s.credit k.val →
            Sent s t k.val tyResult 0 (s.ses k.val).txNext (h ++ Mem.readN s.mem (a + 64 + getLe p 8 4) len))) := by
  intro asn key q no a h len held
  refine ⟨fun hp => g.no exec_getResult (getResult_long hr hp), fun hp ht => g.no exec_getResult (getResult_running hr hp ht),
    fun hp ht hh => g.no exec_getResult (getResult_none hr hp ht hh), fun hp ht hh => ?_⟩
  obtain ⟨h', t, hhead⟩ : ∃ h' t, s.readTier a 64 = (h', t) := ⟨_, _, rfl⟩
  obtain ⟨d, u, hdata⟩ : ∃ d u, t.readTier (a + 64 + getLe p 8 4) (min (getLe p 8 4 + getLe p 12 4) (getLe h' 0x14 4) - getLe p 8 4) = (d, u) :=
    ⟨_, _, rfl⟩
  have htend1 : Tended s t := by
    have := tended_readTier s a 64
    rwa [hhead] at this
  have htend : Tended s u := by
    have := tended_readTier t (a + 64 + getLe p 8 4) (min (getLe p 8 4 + getLe p 12 4) (getLe h' 0x14 4) - getLe p 8 4)
    rw [hdata] at this
    exact htend1.trans this
  have hread : s.calm → h' = h ∧ d = Mem.readN s.mem (a + 64 + getLe p 8 4) len := fun hc => by
    have h1 : h' = h := by
      have := readTier_calm hc a 64
      rwa [hhead] at this
    obtain ⟨hmem, hcalm⟩ := htend1.rest hc
    have h2 := readTier_calm hcalm (a + 64 + getLe p 8 4) (min (getLe p 8 4 + getLe p 12 4) (getLe h' 0x14 4) - getLe p 8 4)
    rw [hdata, hmem] at h2
    rw [h1] at h2
    exact ⟨h1, h2⟩
  have hsends := sends_sendResults (d.length + 1) u k.val h' d
  obtain ⟨htasks, hkeys, hmem⟩ := hsends.store
  obtain ⟨htasks', hkeys'⟩ := htend.store
  have hsent : s.calm → len + 64 ≤ s.maxPay k.val → s.credit k.val → Sent s (sendResults (d.length + 1) u k.val h' d) k.val tyResult 0
      (s.ses k.val).txNext (h ++ Mem.readN s.mem (a + 64 + getLe p 8 4) len) := fun hc hfit hcr => by
    obtain ⟨hh', hd⟩ := hread hc
    rw [← hh', ← hd]
    exact htend.sent_sendResults g.isOpen hcr _ h' (by rw [hd, length_readN]; exact hfit)
  have hmsg := getResult_held (n := n) hr hp ht hh hhead hdata
  generalize sendResults (d.length + 1) u k.val h' d = w at hmsg hsends hsent htasks hkeys hmem
  refine g.ends exec_getResult hmsg ((htend.dome.keepsHand k).trans (hsends.keepsHand k)) fun q =>
    ⟨hkeys.trans hkeys', htasks.trans htasks', took_done .., fun hc => hmem.trans (htend.rest hc).1,
      fun hc hfit hcr => (hsent hc hfit hcr).done q⟩

/-! ### RELEASE (R220, R221) -/

theorem exec_release : exec (.release { who := .sess k, seq := n } p) s
    = .next (s.onMsg { who := .sess k, seq := n } tyRelease p fun t => t.releaseMsg { who := .sess k, seq := n } p) := rfl

theorem clearSeq_dome (s : State) (a : Nat) : DomeOnly s (s.clearSeq a) := by
  unfold State.clearSeq
  split
  · exact .refl s
  · exact writeTier_dome ..

theorem clearSlots_dome (s : State) (j : Nat) (l : List Nat) : DomeOnly s (s.clearSlots j l) := by
  unfold State.clearSlots
  split
  · exact foldl_dome _ (fun u m => clearSeq_dome u _) l s
  · exact .refl s

/-- What a release leaves: the range has gone from the key's unreleased results. -/
structure Freed (s t : State) (j asn count : Nat) : Prop where
  range : ∀ m, m ∈ (t.key j).unreleased ↔ m ∈ (s.key j).unreleased ∧ (m < asn ∨ asn + count ≤ m)
  others : ∀ i, i ≠ j → t.key i = s.key i
  rest : t.tasks = s.tasks ∧ t.tx = s.tx ∧ t.fanouts = s.fanouts ∧ t.form = s.form ∧ t.sess = s.sess

theorem key_of_keys (h : t.keys = s.keys) (j : Nat) : t.key j = s.key j := by rw [State.key, h, State.key]

theorem freed_freeResults (s : State) (j asn count : Nat) : Freed s (s.freeResults j asn count) j asn count := by
  obtain ⟨l, hl⟩ : ∃ l, (s.key j).unreleased.filter (fun m => decide (asn ≤ m) && decide (m < asn + count)) = l := ⟨_, rfl⟩
  have hdome := clearSlots_dome s j l
  rw [State.freeResults, hl]
  generalize s.clearSlots j l = w at hdome
  have hkeys : w.keys = s.keys := by
    obtain ⟨rg, dm, bad, m, rfl⟩ := hdome
    rfl
  refine ⟨fun m => ?_, fun i hi => ?_, ?_⟩
  · rw [key_setKey, if_pos rfl, List.mem_filter]
    refine and_congr_right fun _ => ?_
    simp only [Bool.not_eq_true', Bool.and_eq_false_iff, decide_eq_false_iff_not]
    omega
  · rw [key_setKey, if_neg hi, key_of_keys hkeys]
  · obtain ⟨rg, dm, bad, m, rfl⟩ := hdome
    exact ⟨rfl, rfl, rfl, rfl, rfl⟩

theorem freed_releaseOf (s : State) (j ref asn count : Nat) : Freed s (s.releaseOf j ref asn count) j asn count := by
  have hnoted := noted_record s 0x09 j 0 ref none (natLe 8 asn ++ natLe 4 count)
  rw [State.releaseOf]
  generalize s.record 0x09 j 0 ref none (natLe 8 asn ++ natLe 4 count) = v at hnoted
  have hkeys : v.keys = s.keys := by rw [hnoted.frame]
  have hrest : v.tasks = s.tasks ∧ v.tx = s.tx ∧ v.fanouts = s.fanouts ∧ v.form = s.form ∧ v.sess = s.sess := by
    rw [hnoted.frame]
    exact ⟨rfl, rfl, rfl, rfl, rfl⟩
  obtain ⟨hrange, hothers, htasks, htx, hfan, hform, hsess⟩ := freed_freeResults v j asn count
  obtain ⟨htasks', htx', hfan', hform', hsess'⟩ := hrest
  exact ⟨fun m => by rw [hrange, key_of_keys hkeys], fun i hi => by rw [hothers i hi, key_of_keys hkeys], htasks.trans htasks',
    htx.trans htx', hfan.trans hfan', hform.trans hform', hsess.trans hsess'⟩

theorem Freed.keepsHand {j asn count : Nat} (h : Freed s t j asn count) (k : Fin 8) : KeepsHand s t k := by
  obtain ⟨htasks, -, hfan, hform, hsess⟩ := h.rest
  exact .of_same hfan hform htasks hsess

theorem releaseMsg_malformed (hr : s.devState ≠ stRecovery) (hp : ¬ (p.length = 16 ∧ 1 ≤ getLe p 8 4 ∧ zeroAt p 12 4 = true)) :
    s.releaseMsg { who := .sess k, seq := n } p = s.nak k.val n tyRelease nkMalformed 0 := by
  have hbad : p.length ≠ 16 ∨ getLe p 8 4 = 0 ∨ (!zeroAt p 12 4) = true := by
    simp only [Bool.not_eq_true']
    rwa [not_and_or, not_and_or, Bool.not_eq_true, not_le, Nat.lt_one_iff] at hp
  simp only [State.releaseMsg, gate_eq_zero hr (held := false) (by simp)]
  exact (if_neg (by simp)).trans (if_pos hbad)

theorem releaseMsg_formed (hr : s.devState ≠ stRecovery) (hp : p.length = 16 ∧ 1 ≤ getLe p 8 4 ∧ zeroAt p 12 4 = true) :
    (∀ m v, (s.key (s.ses k.val).key).releaseRefusal (getLe p 0 8) (getLe p 8 4) = some (m, v) →
      s.releaseMsg { who := .sess k, seq := n } p = s.nak k.val n tyRelease m v)
    ∧ ((s.key (s.ses k.val).key).releaseRefusal (getLe p 0 8) (getLe p 8 4) = none →
      s.releaseMsg { who := .sess k, seq := n } p = s.releaseOf (s.ses k.val).key n (getLe p 0 8) (getLe p 8 4)) := by
  obtain ⟨hlen, hcount, hzero⟩ := hp
  have hgood : ¬ (p.length ≠ 16 ∨ getLe p 8 4 = 0 ∨ (!zeroAt p 12 4) = true) := by
    rw [hzero, hlen]
    rintro (h | h | h)
    · exact h rfl
    · omega
    · cases h
  simp only [State.releaseMsg, gate_eq_zero hr (held := false) (by simp)]
  rw [if_neg (by simp), if_neg hgood]
  refine ⟨fun m v he => ?_, fun he => ?_⟩
  · simp only [whoIdx, he]
    rfl
  · simp only [whoIdx, he]

theorem release_clauses (g : Turn s k n tyRelease p) (hr : s.devState ≠ stRecovery) :
    let asn := getLe p 0 8
    let key := (s.ses k.val).key
    let q := s.key key
    let count := getLe p 8 4
    let top := asn + count - 1
    let formed : Prop := p.length = 16 ∧ 1 ≤ count ∧ zeroAt p 12 4 = true
    let open_ : Prop := max asn (q.lastCommitted + 1) ≤ min top q.lastIssued
    let no := Refused (.release { who := .sess k, seq := n } p) s k n tyRelease
    (¬ formed → no nkMalformed 0) ∧ (formed → open_ → no nkNotReady q.lastCommitted)
    ∧ (formed → ¬ open_ → q.lastIssued < top → no nkNoResult (max asn (q.lastIssued + 1)))
    ∧ (formed → ¬ open_ → top ≤ q.lastIssued → Runs (.release { who := .sess k, seq := n } p) s fun t =>
        (∀ m, m ∈ (t.key key).unreleased ↔ m ∈ q.unreleased ∧ (m < asn ∨ asn + count ≤ m))
        ∧ (∀ j, j ≠ key → t.key j = s.key j) ∧ t.tasks = s.tasks ∧ t.tx = s.tx ∧ Took t k n) := by
  intro asn key q count top formed open_ no
  refine ⟨fun hf => g.no exec_release (releaseMsg_malformed hr hf), fun hf ho => g.no exec_release ?_, fun hf ho ht => g.no exec_release ?_,
    fun hf ho ht => ?_⟩
  · exact (releaseMsg_formed hr hf).1 _ _ (if_pos ho)
  · exact (releaseMsg_formed hr hf).1 _ _ ((if_neg ho).trans (if_pos ht))
  · have hdone := freed_releaseOf s key n asn count
    have hmsg := (releaseMsg_formed (n := n) hr hf).2 ((if_neg ho).trans (if_neg (not_lt.mpr ht)))
    have hkey : s.releaseOf (s.ses k.val).key n (getLe p 0 8) (getLe p 8 4) = s.releaseOf key n asn count := rfl
    rw [hkey] at hmsg
    generalize s.releaseOf key n asn count = w at hmsg hdone
    refine g.ends exec_release hmsg (hdone.keepsHand k) fun q' => ?_
    obtain ⟨hrange, hothers, htasks, htx, -⟩ := hdone
    exact ⟨hrange, hothers, htasks, htx, took_done ..⟩

end Sys2Proof.Machine
end

section
namespace Sys2Proof.Machine

/-! ## CANCEL (R222, R223, R435, R681) -/

variable {s t u : State} {k : Fin 8} {key asn n : Nat} {p : List Byte}

/-! ### What stopping a task leaves of the messages and of the tasks -/

/-- The sessions, and what waits for other devices, stand; a task may have recorded counters (R762). -/
structure Winds (s t : State) : Prop where
  fanouts : t.fanouts = s.fanouts
  form : t.form = s.form
  sess : t.sess = s.sess
  tasks : ∃ g : Task → List (Nat × Nat × Nat), t.tasks = s.tasks.map fun x => { x with t7 := g x }

theorem Winds.of_same (hf : t.fanouts = s.fanouts) (hm : t.form = s.form) (hs : t.sess = s.sess) (ht : t.tasks = s.tasks) : Winds s t :=
  ⟨hf, hm, hs, fun x => x.t7, ht.trans (List.map_id _).symm⟩

theorem Winds.refl (s : State) : Winds s s := .of_same rfl rfl rfl rfl

theorem Winds.trans (h : Winds s t) (g : Winds t u) : Winds s u := by
  obtain ⟨a, ha⟩ := h.tasks
  obtain ⟨b, hb⟩ := g.tasks
  refine ⟨g.fanouts.trans h.fanouts, g.form.trans h.form, g.sess.trans h.sess, fun x => b { x with t7 := a x }, ?_⟩
  rw [hb, ha, List.map_map]
  rfl

theorem winds_foldl {α : Type} {f : State → α → State} (h : ∀ s x, Winds s (f s x)) (l : List α) (s : State) :
    Winds s (l.foldl f s) := foldl_keeps .refl .trans h l s

theorem DomeOnly.winds (h : DomeOnly s t) : Winds s t := by
  obtain ⟨rg, dm, bad, m, rfl⟩ := h
  exact .of_same rfl rfl rfl rfl

theorem PfcOnly.winds (h : PfcOnly s t) : Winds s t := by
  obtain ⟨w, x, rfl, -⟩ := h
  exact .of_same rfl rfl rfl rfl

theorem RegsOnly.winds {l : List Nat} (h : RegsOnly s t l) : Winds s t := by
  rw [h.1]
  exact .of_same rfl rfl rfl rfl

theorem winds_setReg (s : State) (a : Nat) (v : W32) : Winds s (s.setReg a v) := .of_same rfl rfl rfl rfl

theorem winds_report (s : State) (r : ErrReport) : Winds s (s.report r) := by
  rw [(report_spec s r).2]
  exact .of_same rfl rfl rfl rfl

/-! Counters and waiters -/

theorem winds_setCtr (s : State) (q v : Nat) : Winds s (s.setCtr q v) := .of_same rfl rfl rfl rfl

theorem winds_setCore (s : State) (j : Nat) (c : Core) : Winds s (s.setCore j c) := .of_same rfl rfl rfl rfl

theorem winds_noteT7 (s : State) (key asn vc q : Nat) : Winds s (s.noteT7 key asn vc q) := by
  refine ⟨rfl, rfl, rfl, fun x => if (x.key == key && x.asn == asn) = true then (x.noteT7 vc q (s.ctr q)).t7 else x.t7, ?_⟩
  refine List.map_congr_left fun x _ => ?_
  simp only [Task.noteT7]
  split
  · split <;> rfl
  · rfl

theorem winds_passWait (s : State) (w : Waiter) : Winds s (s.passWait w) := by
  have htake : Winds s (if w.kind = 2 then (s.noteT7 w.key w.asn w.vc w.phys).setCtr w.phys (s.ctr w.phys - w.target) else s) := by
    split
    · exact (winds_noteT7 ..).trans (winds_setCtr ..)
    · exact .refl s
  exact htake.trans (winds_setCore ..)

theorem winds_register {w : Waiter} (h : s.register w = some t) : Winds s t := by
  simp only [State.register] at h
  split at h
  · cases h
    exact .of_same rfl rfl rfl rfl
  · split at h
    · cases h
      exact .trans (t := { s with waiters := s.waiters ++ [{ w with pooled := true }] }) (.of_same rfl rfl rfl rfl) (winds_setReg ..)
    · cases h

theorem winds_unhold (s : State) (j : Nat) : Winds s (s.unhold j) := .of_same rfl rfl rfl rfl

theorem winds_admitHeld (s : State) (w : Waiter) : Winds s (s.admitHeld w) := by
  unfold State.admitHeld
  split
  · exact (winds_unhold ..).trans (winds_passWait ..)
  · split
    · exact .refl s
    · next t h => exact (winds_register h).trans (winds_unhold ..)

theorem winds_admitPool (s : State) : Winds s s.admitPool := winds_foldl winds_admitHeld _ s

theorem winds_dropWaiter (s : State) (j : Nat) : Winds s (s.dropWaiter j) :=
  .trans (t := { s with waiters := s.waiters.filter fun w => w.core != j }) (.of_same rfl rfl rfl rfl)
    ((winds_unhold ..).trans (winds_admitPool ..))

theorem winds_switchClear (s : State) (c : Nat) : Winds s (s.switchClear c) := by
  unfold State.switchClear
  split
  · exact .refl s
  · exact winds_foldl (fun s q => winds_setCtr s q 0) _ s

theorem winds_dueClears (s : State) : Winds s s.dueClears := by
  refine winds_foldl (fun s c => ?_) _ s
  split
  · exact (winds_switchClear s c).trans (.of_same rfl rfl rfl rfl)
  · exact .refl s

/-! The dispatcher's books -/

theorem winds_ringPut (s : State) (c lo cfg cnt : Nat) (granted : Bool) (e : List Byte) : Winds s (s.ringPut c lo cfg cnt granted e) := by
  unfold State.ringPut
  dsimp only
  split
  · exact .refl s
  · split
    · exact (winds_setReg ..).trans (writeTier_dome ..).winds
    · refine Winds.trans ?_ (winds_setReg ..)
      split
      · exact winds_setReg ..
      · exact .refl s

theorem winds_dtrace (s : State) (reason asn item frag sp core ctx key prio : Nat) :
    Winds s (s.dtrace reason asn item frag sp core ctx key prio) := by
  unfold State.dtrace
  split
  · exact .refl s
  · exact winds_ringPut ..

theorem winds_setSpireState (s : State) (sp v : Nat) : Winds s (s.setSpireState sp v) := (winds_setReg ..).trans (winds_dtrace ..)

theorem winds_checkDrained (s : State) : Winds s s.checkDrained := by
  refine winds_foldl (fun s sp => ?_) _ s
  split
  · exact winds_setSpireState ..
  · exact .refl s

theorem winds_countSpawns (s : State) : Winds s s.countSpawns := by
  unfold State.countSpawns
  split
  · exact .refl s
  · exact winds_foldl (fun s e => (winds_setReg ..).trans (winds_setCore ..)) _ s

theorem winds_updateBp (s : State) : Winds s s.updateBp := by
  have hstatus : ∀ (v : State) (n : Nat) (a b : Bool),
      Winds v (((v.setF (aDisp 0x004) 0 19 n).setB (aDisp 0x004) 30 a).setB (aDisp 0x004) 31 b) := fun v n a b =>
    (winds_setReg ..).trans ((winds_setReg ..).trans (winds_setReg ..))
  have hlevel : ∀ (v w : State) (up down : Bool), Winds v w →
      Winds v (if up then ((w.bump (aDisp 0x114)).dtrace 0x09 0 0 0 0xFF 0xFF 0 0 0).pfcSync
        else if down then (w.dtrace 0x0A 0 0 0 0xFF 0xFF 0 0 0).pfcSync else w) := by
    intro v w up down h
    split
    · exact h.trans ((winds_setReg ..).trans ((winds_dtrace ..).trans (pfcSync_only _).winds))
    · split
      · exact h.trans ((winds_dtrace ..).trans (pfcSync_only _).winds)
      · exact h
  exact (winds_countSpawns s).trans (hlevel _ _ _ _ (hstatus ..))

/-! Items, streams and batches -/

/-- A core's next item goes where it belongs to the task. -/
def State.stopNext (s : State) (key asn j : Nat) : State :=
  match (s.core j).next with
  | some i => if i.of key asn then (s.traceItem 0x07 i j).setCore j { s.core j with next := none } else s
  | none => s

/-- So does the item that it runs. -/
def State.stopRun (s : State) (key asn j : Nat) : State :=
  match (s.core j).run with
  | some i =>
    if i.of key asn then (s.setCore j { s.core j with run := none, hold := none, pend := [] }).dropWaiter j else s
  | none => s

theorem stopCore_eq (s : State) (key asn j : Nat) : s.stopCore key asn j = (s.stopNext key asn j).stopRun key asn j := rfl

theorem winds_stopNext (s : State) (key asn j : Nat) : Winds s (s.stopNext key asn j) := by
  unfold State.stopNext
  split
  · split
    · exact (winds_dtrace ..).trans (winds_setCore ..)
    · exact .refl s
  · exact .refl s

theorem winds_stopRun (s : State) (key asn j : Nat) : Winds s (s.stopRun key asn j) := by
  unfold State.stopRun
  split
  · split
    · exact (winds_setCore ..).trans (winds_dropWaiter ..)
    · exact .refl s
  · exact .refl s

theorem winds_stopCore (s : State) (key asn j : Nat) : Winds s (s.stopCore key asn j) := by
  rw [stopCore_eq]
  exact (winds_stopNext ..).trans (winds_stopRun ..)

theorem winds_stopItems (s : State) (key asn : Nat) : Winds s (s.stopItems key asn) := by
  unfold State.stopItems
  dsimp only
  refine Winds.trans ?_ (winds_updateBp _)
  refine Winds.trans ?_ (winds_foldl (fun s j => winds_stopCore s key asn j) _ _)
  exact (winds_foldl (fun s e => winds_dtrace s _ _ _ _ _ _ _ _ _) _ s).trans (.of_same rfl rfl rfl rfl)

theorem winds_idleStrm (s : State) (q : Nat) : Winds s (s.idleStrm q) := .of_same rfl rfl rfl rfl

theorem winds_setOps (s : State) (ops : List Op) (arr : SMap ArrRun) (reqs : List RowReq) (exch : List Exch) :
    Winds s { s with ops := ops, arr := arr, reqs := reqs, exch := exch } := .of_same rfl rfl rfl rfl

theorem winds_stopStreams (s : State) (key asn : Nat) : Winds s (s.stopStreams key asn) := by
  unfold State.stopStreams
  dsimp only
  refine Winds.trans ?_ (winds_setOps ..)
  exact (winds_foldl winds_idleStrm _ s).trans (winds_setReg ..)

theorem winds_closeBatches (s : State) (key asn : Nat) : Winds s (s.closeBatches key asn) := .of_same rfl rfl rfl rfl

theorem winds_closeParked (s : State) (key asn : Nat) : Winds s (s.closeParked key asn) := winds_foldl winds_idleStrm _ s

theorem winds_stopTask (s : State) (key asn : Nat) : Winds s (s.stopTask key asn) :=
  (winds_stopItems ..).trans ((winds_stopStreams ..).trans ((winds_closeBatches ..).trans ((winds_dueClears _).trans (winds_checkDrained _))))

theorem winds_residueCheck (s : State) (x : Task) : Winds s (s.residueCheck x) := by
  unfold State.residueCheck
  dsimp only
  split
  · exact .refl s
  · split
    · exact winds_setReg ..
    · exact (winds_setReg ..).trans ((winds_setReg ..).trans (winds_report ..))

/-! ### A cancelled task -/

theorem find?_map_task (l : List Task) (g : Task → Task) (key asn : Nat) (hg : ∀ x, (g x).key = x.key ∧ (g x).asn = x.asn) :
    (l.map g).find? (fun x => x.key == key && x.asn == asn) = (l.find? fun x => x.key == key && x.asn == asn).map g := by
  rw [List.find?_map]
  congr 1
  refine List.find?_congr fun x _ => ?_
  simp only [Function.comp_apply, (hg x).1, (hg x).2]

/-- Stopping leaves a task but for the counters that it recorded. -/
theorem Winds.task? (h : Winds s t) {x : Task} (hx : s.task? key asn = some x) : ∃ l, t.task? key asn = some { x with t7 := l } := by
  obtain ⟨g, hg⟩ := h.tasks
  refine ⟨g x, ?_⟩
  rw [State.task?, hg, find?_map_task s.tasks (fun x => { x with t7 := g x }) _ _ fun _ => ⟨rfl, rfl⟩, ← State.task?, hx, Option.map_some]

theorem task?_modTask {x : Task} (hx : s.task? key asn = some x) {f : Task → Task} (hf : ∀ y, (f y).key = y.key ∧ (f y).asn = y.asn) :
    (s.modTask key asn f).task? key asn = some (f x) := by
  have hg : ∀ y : Task, (if y.key == key && y.asn == asn then f y else y).key = y.key ∧ (if y.key == key && y.asn == asn then f y else y).asn = y.asn := by
    intro y
    split
    · exact hf y
    · exact ⟨rfl, rfl⟩
  have hkey := List.find?_some hx
  rw [State.task?, State.modTask, find?_map_task _ _ _ _ hg, ← State.task?, hx, Option.map_some, if_pos hkey]

theorem any_map_task (l : List Task) (g : Task → Task) (hg : ∀ x, (g x).accepted = x.accepted ∧ (g x).sess = x.sess ∧ (g x).seq = x.seq)
    (i n : Nat) : (l.map g).any (fun x => !x.accepted && x.sess == i && x.seq == n) = l.any fun x => !x.accepted && x.sess == i && x.seq == n := by
  rw [List.any_map]
  congr 1
  funext x
  obtain ⟨hacc, hsess, hseq⟩ := hg x
  simp only [Function.comp_apply, hacc, hsess, hseq]

theorem KeepsHand.of_tasks (hf : t.fanouts = s.fanouts) (hm : t.form = s.form) (hs : t.sess = s.sess) {g : Task → Task} (ht : t.tasks = s.tasks.map g)
    (hg : ∀ x, (g x).accepted = x.accepted ∧ (g x).sess = x.sess ∧ (g x).seq = x.seq) : KeepsHand s t k := by
  have hses : t.ses k.val = s.ses k.val := by rw [State.ses, State.ses, hs]
  refine ⟨hf, hm, fun n => ?_, ?_, ?_, ?_, ?_⟩
  · rw [State.journaling, ht, any_map_task _ _ hg, State.journaling]
  all_goals rw [hses]

theorem Winds.keepsHand (h : Winds s t) (k : Fin 8) : KeepsHand s t k := by
  obtain ⟨g, hg⟩ := h.tasks
  exact .of_tasks h.fanouts h.form h.sess hg fun _ => ⟨rfl, rfl, rfl⟩

theorem keepsHand_modTask {f : Task → Task} (hf : ∀ x, (f x).accepted = x.accepted ∧ (f x).sess = x.sess ∧ (f x).seq = x.seq) (k : Fin 8) :
    KeepsHand s (s.modTask key asn f) k := by
  refine .of_tasks rfl rfl rfl rfl fun x => ?_
  split
  · exact hf x
  · exact ⟨rfl, rfl, rfl⟩

/-- A task that ends is marked, and is otherwise as it was. -/
theorem endTask_spec {x : Task} (hx : s.task? key asn = some x) (k : Fin 8) :
    KeepsHand s (s.endTask key asn) k ∧ ∃ l, (s.endTask key asn).task? key asn = some { x with t7 := l, ended := true } := by
  rw [State.endTask, hx]
  dsimp only
  split
  case isTrue hend =>
    refine ⟨.refl s k, x.t7, ?_⟩
    rw [hx, ← hend]
  case isFalse =>
    have hclose : Winds s (((s.residueCheck x).closeParked key asn).closeBatches key asn) :=
      (winds_residueCheck s x).trans ((winds_closeParked ..).trans (winds_closeBatches ..))
    generalize ((s.residueCheck x).closeParked key asn).closeBatches key asn = v at hclose ⊢
    obtain ⟨l, hl⟩ := hclose.task? hx
    have hmark := task?_modTask hl (f := fun y => { y with ended := true }) fun _ => ⟨rfl, rfl⟩
    have hkeep := keepsHand_modTask (s := v) (key := key) (asn := asn) (f := fun y => { y with ended := true }) (fun _ => ⟨rfl, rfl, rfl⟩) k
    generalize (v.modTask key asn fun y => { y with ended := true }) = w at hmark hkeep ⊢
    have hrest : Winds w w.dueClears.checkDrained := (winds_dueClears w).trans (winds_checkDrained _)
    obtain ⟨l', hl'⟩ := hrest.task? hmark
    exact ⟨(hclose.keepsHand k).trans (hkeep.trans (hrest.keepsHand k)), l', hl'⟩

/-- A cancelled task stops, and will commit ABORTED_BY_PARTNER. -/
theorem cancelTask_spec {x : Task} (hx : s.task? key asn = some x) (k : Fin 8) : KeepsHand s (s.cancelTask key asn) k
    ∧ ∃ y, (s.cancelTask key asn).task? key asn = some y ∧ y.cancelled = true ∧ y.ended = true ∧ y.status = some (0x0200, 0) := by
  have hmark := task?_modTask hx (f := fun y => { y with cancelled := true, retryDue := false, status := some (stAborted, 0) }) fun _ => ⟨rfl, rfl⟩
  have hkeep := keepsHand_modTask (s := s) (key := key) (asn := asn)
    (f := fun y => { y with cancelled := true, retryDue := false, status := some (stAborted, 0) }) (fun _ => ⟨rfl, rfl, rfl⟩) k
  rw [State.cancelTask]
  generalize (s.modTask key asn fun y => { y with cancelled := true, retryDue := false, status := some (stAborted, 0) }) = w at hmark hkeep ⊢
  have hstop := winds_stopTask w key asn
  obtain ⟨l, hl⟩ := hstop.task? hmark
  obtain ⟨hend, l', hl'⟩ := endTask_spec hl k
  exact ⟨hkeep.trans ((hstop.keepsHand k).trans hend), _, hl', rfl, rfl, rfl⟩

/-! ### The message -/

theorem exec_cancel : exec (.cancel { who := .sess k, seq := n } p) s
    = .next (s.onMsg { who := .sess k, seq := n } tyCancel p fun t => t.cancelMsg { who := .sess k, seq := n } p) := rfl

/-- The key's task is there and not yet recorded (R872). -/
def State.alive (s : State) (k : Fin 8) (asn : Nat) : Prop := ∃ x, s.task? (s.ses k.val).key asn = some x ∧ s.recorded x = false

theorem alive_iff {k : Fin 8} {asn : Nat} : ((s.task? (s.ses k.val).key asn).any fun x => !s.recorded x) = true ↔ s.alive k asn := by
  rw [Option.any_eq_true, State.alive]
  simp only [Bool.not_eq_true']

theorem cancelMsg_long (hr : s.devState ≠ stRecovery) (hp : p.length ≠ 8) :
    s.cancelMsg { who := .sess k, seq := n } p = s.nak k.val n tyCancel nkMalformed 0 := by
  simp only [State.cancelMsg, gate_eq_zero hr (held := false) (by simp)]
  exact (if_neg (by simp)).trans (if_pos hp)

theorem cancelMsg_alive (hr : s.devState ≠ stRecovery) (hp : p.length = 8) (ha : s.alive k (getLe p 0 8)) :
    s.cancelMsg { who := .sess k, seq := n } p
      = (s.record 0x08 (s.ses k.val).key 0 n none (natLe 8 (getLe p 0 8))).cancelTask (s.ses k.val).key (getLe p 0 8) := by
  simp only [State.cancelMsg, gate_eq_zero hr (held := false) (by simp)]
  exact (if_neg (by simp)).trans ((if_neg (not_not_intro hp)).trans (if_pos (alive_iff.mpr ha)))

theorem cancelMsg_gone (hr : s.devState ≠ stRecovery) (hp : p.length = 8) (ha : ¬ s.alive k (getLe p 0 8)) :
    s.cancelMsg { who := .sess k, seq := n } p = s.nak k.val n tyCancel
      (if 1 ≤ getLe p 0 8 ∧ getLe p 0 8 ≤ (s.key (s.ses k.val).key).lastIssued then nkCommitted else nkNoResult) 0 := by
  rw [apply_ite (fun m => s.nak k.val n tyCancel m 0)]
  simp only [State.cancelMsg, gate_eq_zero hr (held := false) (by simp)]
  exact (if_neg (by simp)).trans ((if_neg (not_not_intro hp)).trans (if_neg (mt alive_iff.mp ha)))

theorem cancel_clauses (g : Turn s k n tyCancel p) (hr : s.devState ≠ stRecovery) :
    let asn := getLe p 0 8
    let key := (s.ses k.val).key
    let no := Refused (.cancel { who := .sess k, seq := n } p) s k n tyCancel
    let alive : Prop := ∃ x, s.task? key asn = some x ∧ s.recorded x = false
    (p.length ≠ 8 → no nkMalformed 0)
    ∧ (p.length = 8 → alive → Runs (.cancel { who := .sess k, seq := n } p) s fun t =>
        (∃ x, t.task? key asn = some x ∧ x.cancelled = true ∧ x.ended = true ∧ x.status = some (0x0200, 0)) ∧ Took t k n)
    ∧ (p.length = 8 → ¬ alive → 1 ≤ asn ∧ asn ≤ (s.key key).lastIssued → no nkCommitted 0)
    ∧ (p.length = 8 → ¬ alive → asn = 0 ∨ (s.key key).lastIssued < asn → no nkNoResult 0) := by
  intro asn key no alive
  refine ⟨fun hp => g.no exec_cancel (cancelMsg_long hr hp), fun hp ha => ?_, fun hp ha hi => g.no exec_cancel ?_,
    fun hp ha hi => g.no exec_cancel ?_⟩
  · obtain ⟨x, hx, -⟩ := id ha
    have hmsg := cancelMsg_alive (n := n) hr hp ha
    have hnoted := noted_record s 0x08 (s.ses k.val).key 0 n none (natLe 8 (getLe p 0 8))
    generalize s.record 0x08 (s.ses k.val).key 0 n none (natLe 8 (getLe p 0 8)) = v at hmsg hnoted
    have hv : v.task? key asn = some x := by
      rw [hnoted.frame]
      exact hx
    obtain ⟨hkeep, hy⟩ := cancelTask_spec hv k
    replace hmsg : s.cancelMsg { who := .sess k, seq := n } p = v.cancelTask key asn := hmsg
    generalize v.cancelTask key asn = w at hmsg hkeep hy
    exact g.ends exec_cancel hmsg ((hnoted.keepsHand k).trans hkeep) fun q => ⟨hy, took_done ..⟩
  · rw [cancelMsg_gone hr hp ha, if_pos hi]
  · have hno : ¬ (1 ≤ asn ∧ asn ≤ (s.key key).lastIssued) := by omega
    rw [cancelMsg_gone hr hp ha, if_neg hno]

end Sys2Proof.Machine
end

section
namespace Sys2Proof.Machine

/-! ## Memory and results, from the messages' clauses -/

/-- Settles O54: each message by its own checks in their order, where it is in its turn. -/
theorem memoryAndResults : Obligations.MemoryAndResults := by
  unfold Obligations.MemoryAndResults
  refine ⟨fun s r p x typ hx hidle => ?_, fun s k n p => ⟨fun x typ hx ht hr => refused_recovery hx ht hr,
    fun hr => ⟨fun h hp => write_clauses h hr hp, fun h => read_clauses h hr, fun h hp => ?_, fun h => getResult_clauses h hr,
      fun h => release_clauses h hr, fun h => cancel_clauses h hr⟩⟩⟩
  · rcases exec_message hx s with h | ⟨f, h⟩
    · exact h
    · rw [h, onMsg_idle hidle]
  · obtain ⟨hbad, hforeign, hbusy, hgo⟩ := load_clauses h hr hp
    refine ⟨hbad, hforeign, hbusy, fun hf hm ha => ?_⟩
    obtain ⟨hbroken, hmore, hlast⟩ := hgo hf hm ha
    refine ⟨hbroken, hmore, fun hfit h1 => ?_⟩
    obtain ⟨himage, hcheck, hinstall⟩ := hlast hfit h1
    refine ⟨himage, hcheck, fun hi hc => ?_⟩
    obtain ⟨t, hexec, hdone, htook⟩ := hinstall hi hc
    obtain ⟨⟨hprog, hothers⟩, ⟨hloaded, hrefuse⟩, hlines, ⟨htasks, htx⟩, hdue, hclear, hbytes⟩ := hdone
    exact ⟨t, hexec, hprog, hothers, hloaded, hrefuse, hlines, htasks, htx, htook, hdue, hclear, hbytes⟩

end Sys2Proof.Machine
end

section
namespace Sys2Proof.Machine

/-! ## CONTROL_RD and CONTROL_WR (R196, R939–R943) -/

variable {s t u : State} {k : Fin 8} {n : Nat} {p : List Byte} {x : Instr}

/-! ### Reading registers -/

/-- Nothing changed but session i's samples of pairs (R943). -/
structure Samples (s t : State) (i : Nat) : Prop where
  frame : t = { s with sess := t.sess }
  others : ∀ j, j ≠ i → t.ses j = s.ses j
  own : ∃ m, t.ses i = { s.ses i with samples := m }

theorem Samples.refl (s : State) (i : Nat) : Samples s s i := ⟨rfl, fun _ _ => rfl, _, rfl⟩

theorem Samples.trans {i : Nat} (h : Samples s t i) (g : Samples t u i) : Samples s u i := by
  obtain ⟨hf, ho, m, hs⟩ := h
  obtain ⟨gf, go, m', gs⟩ := g
  exact ⟨by rw [gf, hf], fun j hj => (go j hj).trans (ho j hj), m', by rw [gs, hs]⟩

theorem samples_setSample (s : State) (k : Fin 8) (lo v : Nat) : Samples s (s.setSample (.sess k) lo v) k.val := by
  have hset : s.setSample (.sess k) lo v = s.setSes k.val { s.ses k.val with samples := SMap.put (s.ses k.val).samples lo v } := rfl
  rw [hset]
  refine ⟨rfl, fun j hj => ?_, SMap.put (s.ses k.val).samples lo v, ?_⟩
  · rw [ses_setSes, if_neg hj]
  · rw [ses_setSes, if_pos rfl]

theorem samples_readReg (s : State) (k : Fin 8) (a : Nat) : Samples s (s.readReg (.sess k) a).2 k.val := by
  unfold State.readReg
  split
  · exact samples_setSample ..
  · split
    · exact .refl ..
    · split
      · exact .refl ..
      · split
        · exact .refl ..
        · exact .refl ..

theorem samples_readRegs (j : Nat) : ∀ (s : State) (k : Fin 8) (a : Nat), Samples s (State.readRegs j s (.sess k) a).2 k.val := by
  induction j with
  | zero => exact fun s k _ => .refl s k.val
  | succ j ih => exact fun s k a => (samples_readReg s k a).trans (ih ..)

theorem Samples.keepsHand {i : Nat} (h : Samples s t i) (k : Fin 8) : KeepsHand s t k := by
  obtain ⟨hf, ho, m, hs⟩ := h
  refine ⟨by rw [hf], by rw [hf], fun n => by rw [hf]; rfl, ?_, ?_, ?_, ?_⟩
  all_goals
    by_cases hk : k.val = i
    · rw [hk, hs]
    · rw [ho _ hk]

/-- Registers that are read as they are held. -/
theorem readReg_device {a : Nat} (ha : a = aDevId ∨ a = aDevCtl ∨ a = aDevStatus ∨ a = aPwrStatus) :
    s.readReg (.sess k) a = (s.reg a, s) := by
  rcases ha with rfl | rfl | rfl | rfl
  all_goals rfl

/-! ### CONTROL_RD (R939–R941) -/

theorem exec_controlRd : exec (.controlRd { who := .sess k, seq := n } p) s
    = .next (s.onMsg { who := .sess k, seq := n } tyControlRd p fun t => t.controlRd { who := .sess k, seq := n } p) := rfl

theorem ctlRange_iff (reg nw : Nat) : ctlRange reg nw = true ↔ ¬ (reg % 4 = 0 ∧ reg + 4 * nw ≤ 0x140000) := by
  rw [ctlRange, Bool.or_eq_true, bne_iff_ne, decide_eq_true_eq]
  omega

theorem controlRd_clauses (g : Turn s k n tyControlRd p) :
    let reg := getLe p 0 4
    let nw := getLe p 4 2
    let formed : Prop := p.length = 12 ∧ zeroAt p 6 2 = true ∧ 1 ≤ nw ∧ nw ≤ 256
    let inside : Prop := reg % 4 = 0 ∧ reg + 4 * nw ≤ 0x140000
    let no := Refused (.controlRd { who := .sess k, seq := n } p) s k n tyControlRd
    (s.devState = stRecovery → 0x10000 < reg + 4 * nw → no nkState 0)
    ∧ (s.devState ≠ stRecovery ∨ reg + 4 * nw ≤ 0x10000 →
      (¬ formed → no nkMalformed 0) ∧ (formed → ¬ inside → no nkMalformed reg)
      ∧ (formed → inside → Runs (.controlRd { who := .sess k, seq := n } p) s fun t =>
          t = { s with sess := t.sess, tx := t.tx, port := t.port } ∧ Took t k n
          ∧ (nw = 1 → reg = aDevId ∨ reg = aDevCtl ∨ reg = aDevStatus ∨ reg = aPwrStatus → 12 ≤ s.maxPay k.val → s.credit k.val →
              Sent s t k.val tyReadData 0 (s.ses k.val).txNext (natLe 4 (getLe p 8 4) ++ natLe 4 0 ++ natLe 4 (s.reg reg).toNat)))) := by
  intro reg nw formed inside no
  have hformed : (p.length ≠ 12 ∨ (!zeroAt p 6 2) = true ∨ getLe p 4 2 = 0 ∨ 256 < getLe p 4 2) ↔ ¬ formed := by
    simp only [formed, nw, Bool.not_eq_true']
    rw [not_and_or, not_and_or, not_and_or, Bool.not_eq_true, not_le, not_le, Nat.lt_one_iff]
  have hrange := ctlRange_iff (getLe p 0 4) (getLe p 4 2)
  refine ⟨fun hr hreg => g.no exec_controlRd (if_pos ⟨hr, hreg⟩), fun hopen => ?_⟩
  have hgo : ¬ (s.devState = stRecovery ∧ 0x10000 < getLe p 0 4 + 4 * getLe p 4 2) := by
    rintro ⟨hr, hreg⟩
    rcases hopen with h | h
    · exact h hr
    · exact absurd hreg (not_lt.mpr h)
  refine ⟨fun hf => g.no exec_controlRd ((if_neg hgo).trans (if_pos (hformed.mpr hf))),
    fun hf hi => g.no exec_controlRd ((if_neg hgo).trans ((if_neg fun h => hformed.mp h hf).trans (if_pos (hrange.mpr hi)))), fun hf hi => ?_⟩
  have hmsg : s.controlRd { who := .sess k, seq := n } p
      = (State.readRegs nw s (.sess k) reg).2.sendReadData k.val (getLe p 8 4) (State.readRegs nw s (.sess k) reg).1 :=
    (if_neg hgo).trans ((if_neg fun h => hformed.mp h hf).trans (if_neg fun h => hrange.mp h hi))
  have hsamples := samples_readRegs nw s k reg
  have hsends := sends_sendReadData (State.readRegs nw s (.sess k) reg).2 k.val (getLe p 8 4) (State.readRegs nw s (.sess k) reg).1
  have hone : nw = 1 → reg = aDevId ∨ reg = aDevCtl ∨ reg = aDevStatus ∨ reg = aPwrStatus →
      State.readRegs nw s (.sess k) reg = (natLe 4 (s.reg reg).toNat, s) := fun h1 hreg => by
    simp only [h1, State.readRegs, readReg_device hreg, List.append_nil]
  generalize State.readRegs nw s (.sess k) reg = e at hmsg hsamples hsends hone
  have hsent : nw = 1 → reg = aDevId ∨ reg = aDevCtl ∨ reg = aDevStatus ∨ reg = aPwrStatus → 12 ≤ s.maxPay k.val → s.credit k.val →
      Sent s (e.2.sendReadData k.val (getLe p 8 4) e.1) k.val tyReadData 0 (s.ses k.val).txNext
        (natLe 4 (getLe p 8 4) ++ natLe 4 0 ++ natLe 4 (s.reg reg).toNat) := fun h1 hreg hfit hcr => by
    rw [hone h1 hreg]
    exact sent_sendReadData g.isOpen hcr (by rw [length_natLe]; exact hfit) _
  generalize e.2.sendReadData k.val (getLe p 8 4) e.1 = w at hmsg hsends hsent
  refine g.ends exec_controlRd hmsg ((hsamples.keepsHand k).trans (hsends.keepsHand k)) fun q =>
    ⟨?_, took_done .., fun h1 hreg hfit hcr => (hsent h1 hreg hfit hcr).done q⟩
  rw [hsends.frame, hsamples.frame]
  rfl

/-! ### A sequence of writes (R196, R942) -/

variable {r : Req} {a : Nat} {v : W32} {l : List (Nat × W32)} {group : Bool}

/-- As a message's, a plain register's write does nothing else either. -/
theorem writeReg_plainRegs_msg (s : State) (r : Req) (v : W32) : ∀ x ∈ plainRegs, s.writeReg r true false x.1 v = .ok (s.put x.1 v) := by
  simp only [plainRegs, List.forall_mem_append, List.forall_mem_map, List.mem_range]
  refine ⟨⟨⟨⟨?_, fun i hi => ?_⟩, fun c hc => ?_⟩, fun c hc => ?_⟩, fun c hc => ?_⟩
  · simp only [List.forall_mem_cons, List.not_mem_nil, false_imp_iff, implies_true, and_true]
    and_intros
    all_goals rfl
  · interval_cases i <;> rfl
  all_goals interval_cases c <;> rfl

theorem ctlRun_unknown (h : regInfo a = none) : s.ctlRun r group ((a, v) :: l) = .stop s nkMalformed a := by
  rw [State.ctlRun, State.ctlWrite, if_pos (by rw [h]; rfl)]

theorem ctlRun_denied (h : regInfo a ≠ none) (hm : s.mayWrite r.who a v = false) :
    s.ctlRun r group ((a, v) :: l) = .stop s nkPermission a := by
  rw [State.ctlRun, State.ctlWrite, if_neg (by simpa using h), hm]
  rfl

theorem ctlRun_plain {rw wc : Nat} (h : (a, rw, wc) ∈ plainRegs) (hm : s.mayWrite r.who a v = true) (hq : s.rb (aDet 0x100) 1 = false)
    (ho : (s.ses (whoIdx r.who)).isOpen = true) : s.ctlRun r false ((a, v) :: l) = (s.put a v).ctlRun r false l := by
  have hinfo : (regInfo a).isNone = false := by
    have := regInfo_plainRegs _ h
    cases hi : regInfo a with
    | none => rw [hi] at this; cases this
    | some i => rfl
  have hopen : ((s.put a v).ses (whoIdx r.who)).isOpen = true := ho
  have hwrite : s.ctlWrite r true false a v = .ok (s.put a v) := by
    rw [State.ctlWrite, hinfo, hm, hq]
    exact writeReg_plainRegs_msg s r v _ h
  rw [State.ctlRun, hwrite]
  simp only [hopen, Bool.or_true, if_true]

theorem plain_of_mem {rw wc : Nat} (h : (a, rw, wc) ∈ plainRegs) : Plain s (s.put a v) a rw wc v := by
  have hi := regInfo_plainRegs _ h
  simp only [Option.map_eq_some_iff, Prod.mk.injEq] at hi
  obtain ⟨i, hi, rfl, rfl⟩ := hi
  exact plain_put hi

/-! ### CONTROL_WR -/

theorem exec_controlWr (h : s.ctlHeld = false) : exec (.controlWr { who := .sess k, seq := n } p) s
    = .next (s.onMsg { who := .sess k, seq := n } tyControlWr p fun t => t.controlWr { who := .sess k, seq := n } p) := by
  have hx : exec (.controlWr { who := .sess k, seq := n } p) s = .next (if s.ctlHeld then s
    else s.onMsg { who := .sess k, seq := n } tyControlWr p fun t => t.controlWr { who := .sess k, seq := n } p) := rfl
  rw [hx, h]
  rfl

theorem controlWr_gated (h : s.devState = stRecovery ∨ (s.replaying = true ∧ ¬ (0xF0100 ≤ getLe p 0 4 ∧ getLe p 0 4 + 4 * getLe p 4 2 ≤ 0xF0200))) :
    s.controlWr { who := .sess k, seq := n } p = s.nak k.val n tyControlWr nkState 0 := by
  have hgate : s.gate (!inDet (getLe p 0 4) (getLe p 4 2)) ≠ 0 := by
    by_cases hr : s.devState = stRecovery
    · rw [gate_recovery hr]
      exact nkState_ne_zero
    · obtain ⟨hp, hd⟩ := h.resolve_left hr
      have hdet : inDet (getLe p 0 4) (getLe p 4 2) = false := by
        rw [inDet, Bool.and_eq_false_iff, decide_eq_false_iff_not, decide_eq_false_iff_not]
        exact not_and_or.mp hd
      rw [hdet, Bool.not_false, gate_replaying hr hp]
      exact nkState_ne_zero
  exact if_pos hgate

/-- What a CONTROL_WR does past its gate, check by check. -/
theorem controlWr_spec (hr : s.devState ≠ stRecovery) (hp : s.replaying = false) :
    let reg := getLe p 0 4
    let nw := getLe p 4 2
    let formed : Prop := p.length = 8 + 4 * nw ∧ zeroAt p 6 2 = true ∧ 1 ≤ nw ∧ nw ≤ 256
    let inside : Prop := reg % 4 = 0 ∧ reg + 4 * nw ≤ 0x140000
    let got := s.controlWr { who := .sess k, seq := n } p
    (¬ formed → got = s.nak k.val n tyControlWr nkMalformed 0) ∧ (formed → ¬ inside → got = s.nak k.val n tyControlWr nkMalformed reg)
    ∧ (formed → inside → ¬ (reg = 0x10100 ∧ nw = 18) → ∃ l, got = State.seqAnswer { who := .sess k, seq := n }
        (s.ctlRun { who := .sess k, seq := n } (decide (reg = 0x120010 ∧ nw = 9)) ((reg, BitVec.ofNat 32 (getLe p 8 4)) :: l))
        ∧ (nw = 1 → l = []) ∧ (nw = 2 → ∃ v, l = [(reg + 4, v)])) := by
  intro reg nw formed inside got
  have hformed : (p.length ≠ 8 + 4 * getLe p 4 2 ∨ (!zeroAt p 6 2) = true ∨ getLe p 4 2 = 0 ∨ 256 < getLe p 4 2) ↔ ¬ formed := by
    simp only [formed, nw, Bool.not_eq_true']
    rw [not_and_or, not_and_or, not_and_or, Bool.not_eq_true, not_le, not_le, Nat.lt_one_iff]
  have hrange := ctlRange_iff (getLe p 0 4) (getLe p 4 2)
  have hgate : ¬ s.gate (!inDet (getLe p 0 4) (getLe p 4 2)) ≠ 0 := not_not_intro (gate_eq_zero hr fun _ => hp)
  refine ⟨fun hf => (if_neg hgate).trans (if_pos (hformed.mpr hf)),
    fun hf hi => (if_neg hgate).trans ((if_neg fun h => hformed.mp h hf).trans (if_pos (hrange.mpr hi))), fun hf hi hq => ?_⟩
  obtain ⟨j, hj⟩ : ∃ j, nw = j + 1 := ⟨nw - 1, by have := hf.2.2.1; omega⟩
  have hpairs : ctlPairs reg (p.drop 8) nw = (reg, BitVec.ofNat 32 (getLe p 8 4)) :: ctlPairs (reg + 4) ((p.drop 8).drop 4) j := by
    rw [hj, ctlPairs]
    rfl
  refine ⟨ctlPairs (reg + 4) ((p.drop 8).drop 4) j, ?_, fun h1 => ?_, fun h2 => ?_⟩
  · rw [← hpairs]
    exact (if_neg hgate).trans ((if_neg fun h => hformed.mp h hf).trans ((if_neg fun h => hrange.mp h hi).trans (if_neg hq)))
  · have hj0 : j = 0 := by omega
    rw [hj0, ctlPairs]
  · have hj1 : j = 1 := by omega
    rw [hj1, ctlPairs, ctlPairs]
    exact ⟨_, rfl⟩

/-- A sequence that a register's refusal stops. -/
theorem Turn.stopped (g : Turn s k n tyControlWr p) {f : State → State} {res : SeqRes} {reason : Nat}
    (hx : exec x s = .next (s.onMsg { who := .sess k, seq := n } tyControlWr p f))
    (hf : f s = State.seqAnswer { who := .sess k, seq := n } res) (hres : res = .stop s reason a) : Refused x s k n tyControlWr reason a :=
  g.no hx (by rw [hf, hres]; rfl)

theorem controlWr_clauses (g : Turn s k n tyControlWr p) (hheld : s.ctlHeld = false) :
    let reg := getLe p 0 4
    let nw := getLe p 4 2
    let det : Prop := 0xF0100 ≤ reg ∧ reg + 4 * nw ≤ 0xF0200
    let formed : Prop := p.length = 8 + 4 * nw ∧ zeroAt p 6 2 = true ∧ 1 ≤ nw ∧ nw ≤ 256
    let inside : Prop := reg % 4 = 0 ∧ reg + 4 * nw ≤ 0x140000
    let x : Instr := .controlWr { who := .sess k, seq := n } p
    let no := Refused x s k n tyControlWr
    let v : W32 := BitVec.ofNat 32 (getLe p 8 4)
    (s.devState = stRecovery ∨ (s.replaying = true ∧ ¬ det) → no nkState 0)
    ∧ (s.devState ≠ stRecovery → s.replaying = false →
      (¬ formed → no nkMalformed 0) ∧ (formed → ¬ inside → no nkMalformed reg)
      ∧ (formed → inside → ¬ (reg = 0x10100 ∧ nw = 18) →
        (regInfo reg = none → no nkMalformed reg)
        ∧ (regInfo reg ≠ none → s.mayWrite (.sess k) reg v = false → no nkPermission reg)
        ∧ (s.mayWrite (.sess k) reg v = true → s.rb (aDet 0x100) 1 = false → ∀ rw wc, (reg, rw, wc) ∈ plainRegs →
          (nw = 1 → Runs x s fun t => t = { s with regs := t.regs, sess := t.sess, port := t.port } ∧ Plain s t reg rw wc v
            ∧ (∀ a, a ≠ reg → t.reg a = s.reg a) ∧ t.tx = s.tx ∧ Took t k n)
          ∧ (nw = 2 → regInfo (reg + 4) = none → Runs x s fun t =>
              t = { s with regs := t.regs, sess := t.sess, tx := t.tx, port := t.port } ∧ Plain s t reg rw wc v
              ∧ (∀ a, a ≠ reg → t.reg a = s.reg a) ∧ Took t k n
              ∧ (s.credit k.val → Sent s t k.val tyNak 0 (s.ses k.val).txNext (nakPayload n tyControlWr nkMalformed (reg + 4))))))) := by
  intro reg nw det formed inside x no v
  have hexec := exec_controlWr (k := k) (n := n) (p := p) hheld
  refine ⟨fun h => g.no hexec (controlWr_gated h), fun hr hp => ?_⟩
  obtain ⟨hbad, hout, hrun⟩ := controlWr_spec (k := k) (n := n) (p := p) hr hp
  refine ⟨fun hf => g.no hexec (hbad hf), fun hf hi => g.no hexec (hout hf hi), fun hf hi hq => ?_⟩
  obtain ⟨l, hmsg, hl1, hl2⟩ := hrun hf hi hq
  refine ⟨fun hu => g.stopped hexec hmsg (ctlRun_unknown hu), fun hu hm => g.stopped hexec hmsg (ctlRun_denied hu hm),
    fun hm hdet rw wc hx => ?_⟩
  have hplain := plain_of_mem (s := s) (v := v) hx
  have honly : RegsOnly s (s.put reg v) [reg] := regsOnly_put
  have hother : ∀ a, a ≠ reg → (s.put reg v).reg a = s.reg a := fun a ha => honly.reg (by simpa using ha)
  have hses : (s.put reg v).ses k.val = s.ses k.val := rfl
  have hfirst := fun l => ctlRun_plain (r := { who := .sess k, seq := n }) (l := l) hx hm hdet g.isOpen
  refine ⟨fun h1 => ?_, fun h2 hnone => ?_⟩
  · have hgroup : decide (reg = 0x120010 ∧ nw = 9) = false := decide_eq_false (by omega)
    rw [hgroup, hl1 h1, hfirst] at hmsg
    generalize s.put reg v = w at hmsg hplain honly hother
    refine g.ends hexec hmsg (honly.keepsHand k) fun q => ⟨?_, hplain, hother, ?_, took_done ..⟩
    · rw [honly.1]
      rfl
    · rw [honly.1]
      rfl
  · obtain ⟨v', hv'⟩ := hl2 h2
    have hgroup : decide (reg = 0x120010 ∧ nw = 9) = false := decide_eq_false (by omega)
    rw [hgroup, hv', hfirst, ctlRun_unknown hnone] at hmsg
    have hmsg' : s.controlWr { who := .sess k, seq := n } p = (s.put reg v).nak k.val n tyControlWr nkMalformed (reg + 4) := hmsg
    generalize s.put reg v = w at hmsg' hplain honly hother hses
    have hsends := sends_nak w k.val n tyControlWr nkMalformed (reg + 4)
    have hsent : s.credit k.val → Sent s (w.nak k.val n tyControlWr nkMalformed (reg + 4)) k.val tyNak 0 (s.ses k.val).txNext
        (nakPayload n tyControlWr nkMalformed (reg + 4)) := fun hc => by
      have htx : w.tx = s.tx := by rw [honly.1]
      rw [← hses]
      exact Sent.of_tx htx (sent_sendSeq (by rw [hses]; exact g.isOpen) (by rw [State.credit, hses]; exact hc) ..)
    generalize w.nak k.val n tyControlWr nkMalformed (reg + 4) = z at hmsg' hsends hsent
    have hregs : z.regs = w.regs := by rw [hsends.frame]
    refine g.ends hexec hmsg' ((honly.keepsHand k).trans (hsends.keepsHand k)) fun q => ⟨?_, ?_, ?_, took_done .., fun hc => (hsent hc).done q⟩
    · rw [hsends.frame, honly.1]
      rfl
    · intro j hj
      rw [← hplain j hj]
      exact congrArg (·.getLsbD j) (reg_of_regs (s := w) (t := z.done k n q) hregs reg)
    · intro a ha
      rw [← hother a ha]
      exact reg_of_regs (s := w) (t := z.done k n q) hregs a

end Sys2Proof.Machine
end

section
namespace Sys2Proof.Machine

/-! ## SIGNAL and START_AT (R734, R810–R815) -/

variable {s t u : State} {k : Fin 8} {c vc v q n : Nat} {p : List Byte} {x : Instr}

/-! ### An addition to a counter -/

/-- Nothing changed but counters, their waiters, what tasks recorded of them, and a report. -/
structure Counts (s t : State) : Prop where
  frame : ∃ tk ct wt rg dr er, t = { s with tasks := tk, ctrs := ct, waiters := wt, regs := rg, draws := dr, errs := er }
  winds : Winds s t

theorem Counts.refl (s : State) : Counts s s := ⟨⟨_, _, _, _, _, _, rfl⟩, .refl s⟩

theorem Counts.trans (h : Counts s t) (g : Counts t u) : Counts s u := by
  obtain ⟨a, b, c, d, e, f, hf⟩ := h.frame
  obtain ⟨a', b', c', d', e', f', gf⟩ := g.frame
  exact ⟨⟨a', b', c', d', e', f', by rw [gf, hf]⟩, h.winds.trans g.winds⟩

theorem counts_foldl {α : Type} {f : State → α → State} (h : ∀ s x, Counts s (f s x)) (l : List α) (s : State) :
    Counts s (l.foldl f s) := foldl_keeps .refl .trans h l s

theorem counts_noteT7 (s : State) (key asn vc q : Nat) : Counts s (s.noteT7 key asn vc q) := ⟨⟨_, _, _, _, _, _, rfl⟩, winds_noteT7 ..⟩

theorem counts_setCtr (s : State) (q v : Nat) : Counts s (s.setCtr q v) := ⟨⟨_, _, _, _, _, _, rfl⟩, winds_setCtr ..⟩

theorem counts_setReg (s : State) (a : Nat) (v : W32) : Counts s (s.setReg a v) := ⟨⟨_, _, _, _, _, _, rfl⟩, winds_setReg ..⟩

theorem counts_report (s : State) (r : ErrReport) : Counts s (s.report r) := ⟨⟨_, _, _, _, _, _, (report_spec s r).2⟩, winds_report ..⟩

theorem counts_setWaiters (s : State) (l : List Waiter) : Counts s { s with waiters := l } :=
  ⟨⟨_, _, _, _, _, _, rfl⟩, .of_same rfl rfl rfl rfl⟩

theorem counts_wakeOne (s : State) (w : Waiter) : Counts s (s.wakeOne w) := by
  unfold State.wakeOne
  dsimp only
  split
  · exact .refl s
  · refine Counts.trans ?_ (counts_setWaiters ..)
    split
    · exact (counts_noteT7 ..).trans (counts_setCtr ..)
    · exact .refl s

theorem counts_wake (s : State) (q : Nat) : Counts s (s.wake q) := counts_foldl counts_wakeOne _ s

/-- A wait that takes nothing from its counter leaves every counter. -/
theorem ctrs_wakeOne {w : Waiter} (h : w.kind ≠ 2) : (s.wakeOne w).ctrs = s.ctrs := by
  simp only [State.wakeOne, if_neg h]
  split
  · rfl
  · rfl

theorem ctrs_wake (h : s.noTaker q) : (s.wake q).ctrs = s.ctrs := by
  have hfold : ∀ l : List Waiter, (∀ w ∈ l, w.kind ≠ 2) → ∀ u : State, (l.foldl State.wakeOne u).ctrs = u.ctrs := by
    intro l
    induction l with
    | nil => exact fun _ _ => rfl
    | cons w l ih =>
      intro hl u
      obtain ⟨hw, hrest⟩ := List.forall_mem_cons.mp hl
      rw [List.foldl_cons, ih hrest, ctrs_wakeOne hw]
  refine hfold _ (fun w hw => ?_) s
  obtain ⟨hmem, hon⟩ := List.mem_filter.mp hw
  exact h w hmem hon

/-- The counter after an addition, and the report of one that saturates. -/
def State.added (s : State) (ctx key asn vc q v : Nat) : State :=
  let s1 := s.noteT7 key asn vc q
  let s2 := s1.setCtr q (min (s1.ctr q + v) (2 ^ 64 - 1))
  if s1.ctr q + v < 2 ^ 64 then s2
  else (s2.bump (aSync 0x100)).report
    { cls := clsCounterSat, origin := 0x403 + 4 * (q / 512), reporter := 0x403 + 4 * (q / 512), ctx := ctx, key := key, asn := asn }

theorem addCtr_eq (s : State) (ctx key asn vc q v : Nat) : s.addCtr ctx key asn vc q v
    = if v = 0 then s else (s.added ctx key asn vc q v).wake q := rfl

theorem added_spec (s : State) (ctx key asn vc q v : Nat) : Counts s (s.added ctx key asn vc q v)
    ∧ (s.added ctx key asn vc q v).waiters = s.waiters ∧ ∀ j, (s.added ctx key asn vc q v).ctr j = if j = q then min (s.ctr q + v) (2 ^ 64 - 1) else s.ctr j := by
  have hsum : (s.noteT7 key asn vc q).ctr q = s.ctr q := rfl
  have hctr : ∀ j m, ((s.noteT7 key asn vc q).setCtr q m).ctr j = if j = q then m else s.ctr j := fun j m => SMap.get_set ..
  have hset : ∀ m, Counts s ((s.noteT7 key asn vc q).setCtr q m) := fun m => (counts_noteT7 ..).trans (counts_setCtr ..)
  have hwait : ∀ m, ((s.noteT7 key asn vc q).setCtr q m).waiters = s.waiters := fun _ => rfl
  simp only [State.added, hsum]
  generalize min (s.ctr q + v) (2 ^ 64 - 1) = m
  have hm := hctr (m := m)
  have hcounts := hset m
  have hwaiters := hwait m
  generalize (s.noteT7 key asn vc q).setCtr q m = w at hm hcounts hwaiters ⊢
  split
  · exact ⟨hcounts, hwaiters, hm⟩
  · have hreport := fun e => (report_spec (w.bump (aSync 0x100)) e).2
    have hbump : (w.bump (aSync 0x100)).waiters = w.waiters ∧ (w.bump (aSync 0x100)).ctrs = w.ctrs := ⟨rfl, rfl⟩
    refine ⟨hcounts.trans ((counts_setReg ..).trans (counts_report ..)), ?_, fun j => ?_⟩
    · rw [hreport]
      exact hbump.1.trans hwaiters
    · rw [← hm j, State.ctr, State.ctr, hreport]
      exact congrArg (fun m => SMap.get m 0 j) hbump.2

/-- An addition at a counter's home (R734, R735, R751). -/
theorem addCtr_spec (s : State) (ctx key asn vc q v : Nat) :
    Counts s (s.addCtr ctx key asn vc q v) ∧ Incremented s (s.addCtr ctx key asn vc q v) q v := by
  rw [addCtr_eq, Incremented]
  split
  · exact ⟨.refl s, rfl⟩
  · obtain ⟨hcounts, hwaiters, hctr⟩ := added_spec s ctx key asn vc q v
    generalize s.added ctx key asn vc q v = w at hcounts hwaiters hctr ⊢
    refine ⟨hcounts.trans (counts_wake w q), fun hno j => ?_⟩
    have hno' : w.noTaker q := fun y hy => hno y (hwaiters ▸ hy)
    have hsame : (w.wake q).ctr j = w.ctr j := by rw [State.ctr, ctrs_wake hno', State.ctr]
    rw [hsame, hctr]
    by_cases hj : j = q
    · rw [if_pos hj, if_pos hj, hj]
    · rw [if_neg hj, if_neg hj]

/-- Where the counters and their waiters stand alike, an addition to the one is an addition to the other. -/
theorem Incremented.of_same {m : Nat} (h : Incremented s u q m) (hc : s.ctrs = t.ctrs) (hw : s.waiters = t.waiters) : Incremented t u q m := by
  have hctr : ∀ j, s.ctr j = t.ctr j := fun j => by rw [State.ctr, hc, State.ctr]
  have hno : s.noTaker q = t.noTaker q := by rw [State.noTaker, hw, State.noTaker]
  simp only [Incremented, hc, hno, hctr] at h ⊢
  exact h

/-! ### The checks on CONTEXT, VC and VALUE (R811) -/

theorem signalRefusal_good {rsvOk : Bool} (h : SignalGood s k c vc v rsvOk q) : s.signalRefusal (.sess k) c vc v rsvOk = 0 := by
  obtain ⟨hv, hc, hrsv, hm, hen, htr⟩ := h
  have hformed : ¬ (v = 0 ∨ 15 < c ∨ (!rsvOk) = true) := by
    rw [hrsv]
    rintro (h | h | h)
    · exact hv h
    · omega
    · cases h
  rw [State.signalRefusal, if_neg hformed, mayCtx_sess.mpr hm, hen, htr]
  rfl

theorem signalRefusal_bad {rsvOk : Bool} {m : Nat} (h : SignalBad s k c vc v rsvOk m) : s.signalRefusal (.sess k) c vc v rsvOk = m ∧ m ≠ 0 := by
  have hformed : (v = 0 ∨ 15 < c ∨ (!rsvOk) = true) ↔ ¬ (v ≠ 0 ∧ c < 16 ∧ rsvOk = true) := by
    rw [not_and_or, not_and_or, not_not, not_lt, Nat.succ_le_iff, Bool.not_eq_true', Bool.not_eq_true]
  have hpast : (v ≠ 0 ∧ c < 16 ∧ rsvOk = true) → ¬ (v = 0 ∨ 15 < c ∨ (!rsvOk) = true) := fun hf h => hformed.mp h hf
  rw [State.signalRefusal]
  rcases h with ⟨hf, rfl⟩ | ⟨hf, hm, rfl⟩ | ⟨hf, hm, hen, rfl⟩ | ⟨hf, hm, hen, htr, rfl⟩
  · exact ⟨if_pos (hformed.mpr hf), by decide⟩
  · have hmay : s.mayCtx (.sess k) c = false := Bool.eq_false_iff.mpr fun h => hm (mayCtx_sess.mp h)
    rw [if_neg (hpast hf), hmay]
    exact ⟨rfl, by decide⟩
  · rw [if_neg (hpast hf), mayCtx_sess.mpr hm, hen]
    exact ⟨rfl, by decide⟩
  · rw [if_neg (hpast hf), mayCtx_sess.mpr hm, hen]
    refine ⟨?_, by decide⟩
    rcases htarget : s.translate c vc with _ | _ | _
    · rfl
    case some.ctr q => exact absurd htarget (htr q)
    · rfl

/-! ### SIGNAL -/

theorem exec_signal : exec (.signal { who := .sess k, seq := n } p) s
    = .next (s.onMsg { who := .sess k, seq := n } tySignal p fun t => t.signalMsg { who := .sess k, seq := n } p) := rfl

theorem addFrom_ctr {target : Option Target} (h : s.translate c vc = target) (hq : target = some (.ctr q)) :
    s.addFrom c vc v = s.addCtr c 0xFF 0 vc q v := by
  rw [State.addFrom, h, hq]

theorem addFrom_other (h : ∀ q, s.translate c vc ≠ some (.ctr q)) : s.addFrom c vc v = s := by
  rw [State.addFrom]
  rcases htarget : s.translate c vc with _ | _ | _
  · rfl
  case some.ctr q => exact absurd htarget (h q)
  · rfl

/-- The map that an identifier goes through is the context's registers. -/
theorem translate_congr (h : ∀ a, aCtx c 0x100 ≤ a → a < aCtx c 0x200 → t.reg a = s.reg a) (vc : Nat) : t.translate c vc = s.translate c vc := by
  unfold State.translate
  rw [← List.head?_filterMap, ← List.head?_filterMap]
  refine congrArg _ (List.filterMap_congr fun j hj => ?_)
  have hrange := aCmap_range (c := c) (List.mem_range.mp hj)
  have h0 : t.reg (aCmap c j) = s.reg (aCmap c j) := h _ (by omega) (by omega)
  have h4 : t.reg (aCmap c j + 4) = s.reg (aCmap c j + 4) := h _ (by omega) (by omega)
  simp only [State.cmapAt, rb_of_reg h0, rf_of_reg h0, rf_of_reg h4]

theorem Noted.ctx (h : Noted s t) (hc : c < 16) {off : Nat} (ho : off < 0x1000) : t.reg (aCtx c off) = s.reg (aCtx c off) :=
  h.regs _ (.inl (by simp only [aCtx, aDet]; omega))

theorem Noted.translate (h : Noted s t) (hc : c < 16) (vc : Nat) : t.translate c vc = s.translate c vc :=
  translate_congr (fun a _ hu => h.regs a (.inl (by simp only [aCtx, aDet] at hu ⊢; omega))) vc

theorem Counts.store (h : Counts s t) : t.mem = s.mem ∧ t.tx = s.tx ∧ t.sess = s.sess ∧ t.starts = s.starts ∧ t.tick = s.tick := by
  obtain ⟨a, b, c, d, e, f, rfl⟩ := h.frame
  exact ⟨rfl, rfl, rfl, rfl, rfl⟩

theorem signal_clauses (g : Turn s k n tySignal p) (hr : s.devState ≠ stRecovery) :
    let c := getLe p 0 1
    let vc := getLe p 2 2
    let v := getLe p 4 4
    let no := Refused (.signal { who := .sess k, seq := n } p) s k n tySignal
    (s.replaying = true → no nkState 0)
    ∧ (s.replaying = false → (p.length ≠ 8 → no nkMalformed 0)
      ∧ (p.length = 8 → (∀ m, SignalBad s k c vc v (zeroAt p 1 1) m → no m 0)
        ∧ ∀ q, SignalGood s k c vc v (zeroAt p 1 1) q → Runs (.signal { who := .sess k, seq := n } p) s fun t =>
            Incremented s t q v ∧ t.mem = s.mem ∧ t.tx = s.tx ∧ Took t k n)) := by
  intro c vc v no
  refine ⟨fun hp => g.no exec_signal (if_pos ?_), fun hp => ?_⟩
  · rw [gate_replaying hr hp]
    exact nkState_ne_zero
  have hgate : ¬ s.gate true ≠ 0 := not_not_intro (gate_eq_zero hr fun _ => hp)
  refine ⟨fun hl => g.no exec_signal ((if_neg hgate).trans (if_pos hl)), fun hl => ⟨fun m hbad => ?_, fun q hgood => ?_⟩⟩
  · obtain ⟨hcode, hne⟩ := signalRefusal_bad hbad
    refine g.no exec_signal ((if_neg hgate).trans ((if_neg (not_not_intro hl)).trans ((if_pos ?_).trans ?_)))
    · exact fun h => hne (hcode.symm.trans h)
    · exact congrArg (fun m => s.nak k.val n tySignal m 0) hcode
  · have hcode := signalRefusal_good hgood
    obtain ⟨-, hc, -, -, -, htr⟩ := hgood
    have hmsg : s.signalMsg { who := .sess k, seq := n } p = (s.record 0x06 (s.recKey (.sess k)) c n none p).addFrom c vc v :=
      (if_neg hgate).trans ((if_neg (not_not_intro hl)).trans (if_neg (not_not_intro hcode)))
    have hnoted := noted_record s 0x06 (s.recKey (.sess k)) c n none p
    generalize s.record 0x06 (s.recKey (.sess k)) c n none p = w at hmsg hnoted
    rw [addFrom_ctr (hnoted.translate hc vc) htr] at hmsg
    obtain ⟨hcounts, hinc⟩ := addCtr_spec w c 0xFF 0 vc q v
    generalize w.addCtr c 0xFF 0 vc q v = z at hmsg hcounts hinc
    have hsame : w.mem = s.mem ∧ w.tx = s.tx ∧ w.ctrs = s.ctrs ∧ w.waiters = s.waiters := by
      rw [hnoted.frame]
      exact ⟨rfl, rfl, rfl, rfl⟩
    obtain ⟨hmem, htx, hctrs, hwaiters⟩ := hsame
    obtain ⟨hmem', htx', -, -, -⟩ := hcounts.store
    exact g.ends exec_signal hmsg ((hnoted.keepsHand k).trans (hcounts.winds.keepsHand k)) fun q' =>
      ⟨hinc.of_same hctrs hwaiters, hmem'.trans hmem, htx'.trans htx, took_done ..⟩

/-! ### A timed start fires (R813) -/

theorem exec_timedStartFire (m : Nat) : exec (.timedStartFire m) s = execTimedStartFire m s := rfl

theorem timedStart_clauses (s : State) (m : Nat) : (s.starts[m]? = none → exec (.timedStartFire m) s = .next s)
    ∧ ∀ x, s.starts[m]? = some x →
      (s.works = false ∨ (∃ y ∈ s.starts, y.tick < x.tick) → exec (.timedStartFire m) s = .next s)
      ∧ (s.works = true → (∀ y ∈ s.starts, x.tick ≤ y.tick) → Runs (.timedStartFire m) s fun t =>
          t.tick = min (max s.tick x.tick) (2 ^ 64 - 1) ∧ t.starts = s.starts.eraseIdx m ∧ t.mem = s.mem ∧ t.sess = s.sess
          ∧ (∀ q, s.translate x.ctx x.vc = some (.ctr q) → Incremented s t q x.value)
          ∧ ((∀ q, s.translate x.ctx x.vc ≠ some (.ctr q)) → t.ctrs = s.ctrs)) := by
  refine ⟨fun hnone => ?_, fun x hx => ⟨fun hidle => ?_, fun hw hfirst => ?_⟩⟩
  · rw [exec_timedStartFire, execTimedStartFire, hnone]
    split <;> rfl
  · rw [exec_timedStartFire, execTimedStartFire, hx]
    rcases hidle with hw | ⟨y, hy, hlt⟩
    · rw [hw]
      rfl
    · have hany : (s.starts.any fun y : TStart => decide (y.tick < x.tick)) = true := List.any_eq_true.mpr ⟨y, hy, decide_eq_true hlt⟩
      split
      · rfl
      · exact if_pos hany
  · have hany : ¬ (s.starts.any fun y : TStart => decide (y.tick < x.tick)) = true := by
      rw [List.any_eq_true]
      rintro ⟨y, hy, hlt⟩
      exact absurd (of_decide_eq_true hlt) (not_lt.mpr (hfirst y hy))
    obtain ⟨w, hwdef⟩ : ∃ w : State, { s.passTo x.tick with starts := s.starts.eraseIdx m } = w := ⟨_, rfl⟩
    have hframe : w = { s with tick := min (max s.tick x.tick) (2 ^ 64 - 1), starts := s.starts.eraseIdx m } := hwdef.symm
    have hexec : exec (.timedStartFire m) s = .next (w.addFrom x.ctx x.vc x.value) := by
      rw [exec_timedStartFire, execTimedStartFire, hw, hx, ← hwdef]
      exact if_neg hany
    have hregs : w.regs = s.regs := by rw [hframe]
    have htr : w.translate x.ctx x.vc = s.translate x.ctx x.vc := translate_congr (fun a _ _ => reg_of_regs hregs a) _
    have hsame : w.tick = min (max s.tick x.tick) (2 ^ 64 - 1) ∧ w.starts = s.starts.eraseIdx m ∧ w.mem = s.mem ∧ w.sess = s.sess
        ∧ w.ctrs = s.ctrs ∧ w.waiters = s.waiters := by
      rw [hframe]
      exact ⟨rfl, rfl, rfl, rfl, rfl, rfl⟩
    obtain ⟨htick, hstarts, hmem, hsess, hctrs, hwaiters⟩ := hsame
    by_cases hctr : ∃ q, s.translate x.ctx x.vc = some (.ctr q)
    · obtain ⟨q, hq⟩ := hctr
      obtain ⟨hcounts, hinc⟩ := addCtr_spec w x.ctx 0xFF 0 x.vc q x.value
      rw [addFrom_ctr htr hq] at hexec
      obtain ⟨hmem', -, hsess', hstarts', htick'⟩ := hcounts.store
      refine ⟨_, hexec, htick'.trans htick, hstarts'.trans hstarts, hmem'.trans hmem, hsess'.trans hsess, fun q' hq' => ?_, fun hno => absurd hq (hno q)⟩
      have hqq : q' = q := by
        rw [hq] at hq'
        cases hq'
        rfl
      rw [hqq]
      exact hinc.of_same hctrs hwaiters
    · have hother : ∀ q, s.translate x.ctx x.vc ≠ some (.ctr q) := fun q hq => hctr ⟨q, hq⟩
      rw [addFrom_other fun q => by rw [htr]; exact hother q] at hexec
      exact ⟨w, hexec, htick, hstarts, hmem, hsess, fun q hq => absurd hq (hother q), fun _ => hctrs⟩

end Sys2Proof.Machine
end

section
namespace Sys2Proof.Machine

/-! ## START_AT (R813–R815) -/

variable {s t u w : State} {k : Fin 8} {n : Nat} {p : List Byte} {x : Instr}

theorem exec_startAt : exec (.startAt { who := .sess k, seq := n } p) s
    = .next (s.onMsg { who := .sess k, seq := n } tyStartAt p fun t => t.startAt { who := .sess k, seq := n } p) := rfl

/-- The timebase has the locks that a timed start needs (R161, R814). -/
theorem timeUnlocked_iff : s.timeUnlocked = true ↔ ¬ (s.rb aPortStatus 7 = true ∧ (s.rb aPortCfg 3 = false ∨ s.rb aPortStatus 6 = true)) := by
  rw [State.timeUnlocked]
  cases s.rb aPortStatus 7 <;> cases s.rb aPortCfg 3 <;> cases s.rb aPortStatus 6 <;> decide

/-! ### The other ranks (R815) -/

/-- The registers of the peer group stand. -/
def SamePeers (s t : State) : Prop := ∀ a, 0x28000 ≤ a → a < 0x29000 → t.reg a = s.reg a

theorem SamePeers.otherRanks (h : SamePeers s t) : t.otherRanks = s.otherRanks := by
  have hreg : t.reg (aPeer 0x04) = s.reg (aPeer 0x04) := h _ (by decide) (by decide)
  rw [State.otherRanks, State.groupSize, State.myRank, rf_of_reg hreg, rf_of_reg hreg, State.otherRanks, State.groupSize, State.myRank]

theorem SamePeers.groupFormed (h : SamePeers s t) : t.groupFormed = s.groupFormed := by
  rw [State.groupFormed, rf_of_reg (h (aPeer 0x14) (by decide) (by decide)), State.groupFormed]

theorem fanRanks_alone (h : getLe p 1 1 = 0 ∨ s.groupFormed = false) : s.fanRanks p = [] := by
  rw [State.fanRanks, if_neg]
  rcases h with h | h
  · rw [h]
    simp [nbit]
  · simp [h]

theorem fanRanks_others (h : getLe p 1 1 = 1) (hg : s.groupFormed = true) : s.fanRanks p = s.otherRanks := by
  rw [State.fanRanks, h, hg]
  rfl

theorem fanOut_alone {r : Req} (h : s.fanRanks p = []) : s.fanOut r p = s := by
  rw [State.fanOut, h]
  rfl

/-- A message goes on to other ranks: no partner's session changes. -/
theorem foldl_sendSeq (typ : Nat) (b : List Byte) (l : List Nat) : ∀ s : State,
    let t := l.foldl (fun t q => t.sendSeq (16 + q) typ b) s
    t = { s with sess := t.sess, tx := t.tx, port := t.port } ∧ ∀ k : Fin 8, t.ses k.val = s.ses k.val := by
  induction l with
  | nil => exact fun s => ⟨rfl, fun _ => rfl⟩
  | cons q l ih =>
    intro s
    have hsend := sends_sendSeq s (16 + q) typ b 0
    obtain ⟨hframe, hses⟩ := ih (s.sendSeq (16 + q) typ b)
    rw [List.foldl_cons]
    generalize s.sendSeq (16 + q) typ b = v at hsend hframe hses ⊢
    generalize l.foldl (fun t q => t.sendSeq (16 + q) typ b) v = z at hframe hses ⊢
    exact ⟨by rw [hframe, hsend.frame], fun k => (hses k).trans (hsend.others _ (by have := k.isLt; omega))⟩

/-- What a START_AT that went to every other rank waits for. -/
def State.fanoutTo (s : State) (r : Req) : Fanout where
  req := r
  due := s.otherRanks.map fun q => (q, (s.ses (16 + q)).txNext)
  refused := (s.otherRanks.filter fun q => !(s.ses (16 + q)).isOpen).map fun q => (q, nkState)

theorem fanoutTo_due (s : State) (r : Req) : (s.fanoutTo r).due.map (·.1) = s.otherRanks := by
  rw [State.fanoutTo, List.map_map]
  exact List.map_id _

/-- A START_AT that goes on waits for every rank that it went to. -/
theorem fanOut_spec {r : Req} (h : s.fanRanks p = s.otherRanks) (hne : s.otherRanks ≠ [])
    (hall : ∀ j ∈ s.otherRanks, (s.ses (16 + j)).isOpen = true) :
    let t := s.fanOut r p
    t = { s with sess := t.sess, tx := t.tx, port := t.port, fanouts := s.fanouts ++ [s.fanoutTo r] } ∧ ∀ k : Fin 8, t.ses k.val = s.ses k.val := by
  intro t
  have hgo : (s.otherRanks.filter fun q => (s.ses (16 + q)).isOpen) = s.otherRanks := List.filter_eq_self.mpr hall
  have hsome : s.otherRanks.isEmpty = false := by simpa using hne
  obtain ⟨v, hv⟩ : ∃ v : State, { s with fanouts := s.fanouts ++ [s.fanoutTo r] } = v := ⟨_, rfl⟩
  have ht : t = s.otherRanks.foldl (fun t q => t.sendSeq (16 + q) tyStartAt (putBytes p 1 (natLe 1 (getLe p 1 1 - 1)))) v := by
    rw [← hv]
    simp only [t, State.fanOut, h, hsome, Bool.false_eq_true, if_false, hgo, State.fanoutTo]
  obtain ⟨hframe, hses⟩ := foldl_sendSeq tyStartAt (putBytes p 1 (natLe 1 (getLe p 1 1 - 1))) s.otherRanks v
  rw [← ht] at hframe hses
  refine ⟨?_, fun k => ?_⟩
  · rw [hframe, ← hv]
  · rw [hses k, ← hv]
    rfl

/-- A message that waits for other ranks is not done yet (R815). -/
theorem finishMsg_waits {f : Fanout} (ht : t.fanouts = [f]) (hreq : f.req = { who := .sess k, seq := n })
    (hdue : f.due ≠ []) : t.finishMsg { who := .sess k, seq := n } tyStartAt p = t := by
  have hwaits : t.waits { who := .sess k, seq := n } = true := by
    simp [State.waits, ht, hreq]
  have hempty : f.due.isEmpty = false := by simpa using hdue
  simp only [State.finishMsg, hwaits, Bool.not_true, Bool.and_false, Bool.false_eq_true, if_false, State.settleFanouts, ht, List.foldl_cons,
    List.foldl_nil, State.settleFanout, hempty, Bool.not_false, if_true]

/-! ### The message's effects -/

/-- A timed start becomes pending. -/
def State.withStart (s : State) (x : TStart) : State := { s with starts := s.starts ++ [x] }

/-- The checks before the timebase's are passed. -/
theorem startAt_passed (hgate : s.gate true = 0) (hl : p.length = 16)
    (hcode : s.signalRefusal (.sess k) (getLe p 0 1) (getLe p 2 2) (getLe p 4 4) (decide (getLe p 1 1 < 2)) = 0) :
    s.startAt { who := .sess k, seq := n } p =
      let code := if s.timeUnlocked then rcTime else 0
      let s1 := s.answerCtx (getLe p 0 1) code { source := 0x07, key := s.keyOf (.sess k) }
      let no := fun m => s1.nak k.val n tyStartAt m (if (s.fanRanks p).isEmpty then 0 else s.myRank)
      if code ≠ 0 then no code
      else if s1.untilPtp (getLe p 8 8) < 10000 then no nkState
      else if 64 ≤ s1.starts.length then no nkBusy
      else ((s1.record 0x07 (s1.recKey (.sess k)) (getLe p 0 1) n none p).withStart
        ⟨s1.tick + (s1.untilPtp (getLe p 8 8)).toNat, getLe p 0 1, getLe p 2 2, getLe p 4 4⟩).fanOut { who := .sess k, seq := n } p := by
  have hbad : ¬ s.signalRefusal (.sess k) (getLe p 0 1) (getLe p 2 2) (getLe p 4 4) (decide (getLe p 1 1 < 2)) ≠ 0 := not_not_intro hcode
  exact (if_neg (not_not_intro hgate)).trans ((if_neg (not_not_intro hl)).trans (if_neg hbad))

/-- Without the locks the check's answer is TIMEBASE_UNLOCKED. -/
theorem startAt_unlocked (hgate : s.gate true = 0) (hl : p.length = 16)
    (hcode : s.signalRefusal (.sess k) (getLe p 0 1) (getLe p 2 2) (getLe p 4 4) (decide (getLe p 1 1 < 2)) = 0) (ht : s.timeUnlocked = true) :
    ∃ v, s.startAt { who := .sess k, seq := n } p
      = (s.answerCtx (getLe p 0 1) rcTime { source := 0x07, key := s.keyOf (.sess k) }).nak k.val n tyStartAt rcTime v := by
  refine ⟨if (s.fanRanks p).isEmpty then 0 else s.myRank, (startAt_passed hgate hl hcode).trans ?_⟩
  rw [ht]
  exact if_pos (by decide)

/-- With them its answer is 0, and PTPTIME and the room for timed starts decide. -/
theorem startAt_timed (hgate : s.gate true = 0) (hl : p.length = 16)
    (hcode : s.signalRefusal (.sess k) (getLe p 0 1) (getLe p 2 2) (getLe p 4 4) (decide (getLe p 1 1 < 2)) = 0) (ht : s.timeUnlocked = false)
    (hw : s.setF (aCtxStatus (getLe p 0 1)) 24 8 0 = w) :
    s.startAt { who := .sess k, seq := n } p =
      if w.untilPtp (getLe p 8 8) < 10000 then w.nak k.val n tyStartAt nkState (if (s.fanRanks p).isEmpty then 0 else s.myRank)
      else if 64 ≤ w.starts.length then w.nak k.val n tyStartAt nkBusy (if (s.fanRanks p).isEmpty then 0 else s.myRank)
      else ((w.record 0x07 (w.recKey (.sess k)) (getLe p 0 1) n none p).withStart
        ⟨w.tick + (w.untilPtp (getLe p 8 8)).toNat, getLe p 0 1, getLe p 2 2, getLe p 4 4⟩).fanOut { who := .sess k, seq := n } p := by
  have hzero : (if s.timeUnlocked then rcTime else 0) = 0 := by rw [ht]; rfl
  refine (startAt_passed hgate hl hcode).trans ?_
  simp only [hzero, answerCtx_zero, hw]
  exact if_neg (by simp)

/-- The check's answer 0 on the context. -/
theorem regsOnly_clearRefuse (s : State) (c : Nat) : RegsOnly s (s.setF (aCtxStatus c) 24 8 0) [aCtxStatus c] :=
  (RegsOnly.refl s _).setF (by simp) ..

theorem RegsOnly.untilPtp {l : List Nat} (h : RegsOnly s t l) (ptp : Nat) : t.untilPtp ptp = s.untilPtp ptp ∧ t.tick = s.tick ∧ t.starts = s.starts := by
  rw [h.1]
  exact ⟨rfl, rfl, rfl⟩

/-- A timed start has been added; the refusal shown on the context and the replay record are all else that changed. -/
structure Started (s t : State) (x : TStart) : Prop where
  frame : ∃ rp rg, t = { s with replay := rp, regs := rg, starts := s.starts ++ [x] }
  peers : SamePeers s t

theorem started_withStart {c key ref : Nat} {b : List Byte} (hc : c < 16) (hw : RegsOnly s w [aCtxStatus c]) (x : TStart) :
    Started s ((w.record 0x07 key c ref none b).withStart x) x := by
  have hnoted := noted_record w 0x07 key c ref none b
  generalize w.record 0x07 key c ref none b = v at hnoted
  have hregs : (v.withStart x).regs = v.regs := rfl
  refine ⟨?_, fun a hl hu => ?_⟩
  · rw [State.withStart, hnoted.frame, hw.1]
    exact ⟨_, _, rfl⟩
  · rw [reg_of_regs hregs, hnoted.regs a (.inl (hu.trans (by decide))), hw.reg (by simp only [List.mem_singleton, aCtxStatus, aCtx]; omega)]

theorem Started.keepsHand {x : TStart} (h : Started s t x) (k : Fin 8) : KeepsHand s t k := by
  obtain ⟨rp, rg, rfl⟩ := h.frame
  exact .of_same rfl rfl rfl rfl

/-- Nothing changed but the sessions, what left, the port, and what waits for other ranks. -/
def Talks (s t : State) : Prop := t = { s with sess := t.sess, tx := t.tx, port := t.port, fanouts := t.fanouts }

theorem Talks.refl (s : State) : Talks s s := rfl

theorem Talks.trans (h : Talks s t) (g : Talks t u) : Talks s u := by
  rw [Talks] at h g ⊢
  rw [g, h]

theorem talks_foldl {α : Type} {f : State → α → State} (h : ∀ s x, Talks s (f s x)) (l : List α) (s : State) :
    Talks s (l.foldl f s) := foldl_keeps .refl .trans h l s

theorem Sends.talks {i : Nat} (h : Sends s t i) : Talks s t := by
  rw [Talks, h.frame]

theorem talks_doneHead (s : State) (i : Nat) : Talks s (s.doneHead i) := by
  obtain ⟨w, x, h, -⟩ := pfcSync_only (s.setSes i { s.ses i with
    rxDone := (s.ses i).rxDone + 1, rxBuf := (s.ses i).rxBuf.filter fun m => m.seq != (s.ses i).rxDone + 1 })
  rw [State.doneHead, h]
  rfl

theorem talks_peerNak (s : State) (i : Nat) (b : List Byte) : Talks s (s.peerNak i b) := rfl

theorem talks_skipBad (j : Nat) : ∀ (s : State) (i : Nat), Talks s (State.skipBad j s i) := by
  induction j with
  | zero => exact fun s _ => .refl s
  | succ j ih =>
    intro s i
    rw [State.skipBad]
    split
    · split
      · exact (sends_nak ..).talks.trans ((talks_doneHead ..).trans (ih ..))
      · split
        · exact (talks_peerNak ..).trans ((talks_doneHead ..).trans (ih ..))
        · exact .refl s
    · exact .refl s

theorem talks_finish (s : State) (i : Nat) : Talks s (s.finish i) := (talks_doneHead s i).trans (talks_skipBad ..)

theorem talks_setFanouts (s : State) (l : List Fanout) : Talks s { s with fanouts := l } := rfl

/-- The answer of a START_AT whose ranks have all answered. -/
def State.fanAnswer (s : State) (f : Fanout) : State :=
  match sortKey (fun (e : Nat × Nat) => e.1) f.refused with
  | e :: _ => s.nak (whoIdx f.req.who) f.req.seq tyStartAt e.2 e.1
  | [] => s

theorem talks_fanAnswer (s : State) (f : Fanout) : Talks s (s.fanAnswer f) := by
  unfold State.fanAnswer
  split
  · exact (sends_nak ..).talks
  · exact .refl s

theorem settleFanout_eq (s : State) (f : Fanout) : s.settleFanout f = if !f.due.isEmpty then s
    else if ((({ s with fanouts := s.fanouts.filter fun g => g.req != f.req } : State).fanAnswer f).ses (whoIdx f.req.who)).isOpen
      then (({ s with fanouts := s.fanouts.filter fun g => g.req != f.req } : State).fanAnswer f).finish (whoIdx f.req.who)
      else ({ s with fanouts := s.fanouts.filter fun g => g.req != f.req } : State).fanAnswer f := rfl

theorem talks_settleFanout (s : State) (f : Fanout) : Talks s (s.settleFanout f) := by
  have hanswer := (talks_setFanouts s (s.fanouts.filter fun g => g.req != f.req)).trans (talks_fanAnswer _ f)
  rw [settleFanout_eq]
  split
  · exact .refl s
  · split
    · exact hanswer.trans (talks_finish ..)
    · exact hanswer

theorem talks_finishMsg (s : State) (r : Req) (typ : Nat) (p : List Byte) : Talks s (s.finishMsg r typ p) := by
  rw [State.finishMsg]
  refine Talks.trans ?_ (talks_foldl talks_settleFanout _ _)
  split
  · exact talks_finish ..
  · exact .refl s

theorem talks_fanOut (s : State) (r : Req) (p : List Byte) : Talks s (s.fanOut r p) := by
  unfold State.fanOut
  dsimp only
  split
  · exact .refl s
  · exact (talks_setFanouts ..).trans (talks_foldl (fun s _ => (sends_sendSeq s ..).talks) _ _)

/-- A START_AT that passes every check, and what the other ranks' part leaves of it. -/
theorem startAt_done (g : Turn s k n tyStartAt p) {y : TStart} (hmsg : s.startAt { who := .sess k, seq := n } p = w.fanOut { who := .sess k, seq := n } p)
    (hw : Started s w y) (hflag : getLe p 1 1 < 2) :
    let alone : Prop := getLe p 1 1 = 0 ∨ s.groupFormed = false
    Runs (.startAt { who := .sess k, seq := n } p) s fun t => t.starts = s.starts ++ [y] ∧ t.ctrs = s.ctrs ∧ t.mem = s.mem
      ∧ (alone → Took t k n ∧ t.tx = s.tx)
      ∧ (¬ alone → s.otherRanks ≠ [] → (∀ j ∈ s.otherRanks, (s.ses (16 + j)).isOpen = true) →
          (t.ses k.val).rxBuf = (s.ses k.val).rxBuf
          ∧ ∃ f, t.fanouts = [f] ∧ f.req = { who := .sess k, seq := n } ∧ f.due.map (·.1) = s.otherRanks) := by
  intro alone
  have hexec : exec (.startAt { who := .sess k, seq := n } p) s
      = .next ((w.fanOut { who := .sess k, seq := n } p).finishMsg { who := .sess k, seq := n } tyStartAt p) := by
    rw [exec_startAt, g.onMsg, hmsg]
  have hsame : w.starts = s.starts ++ [y] ∧ w.ctrs = s.ctrs ∧ w.mem = s.mem ∧ w.tx = s.tx ∧ w.fanouts = [] ∧ w.sess = s.sess := by
    obtain ⟨rp, rg, hframe⟩ := hw.frame
    rw [hframe]
    exact ⟨rfl, rfl, rfl, rfl, g.calm, rfl⟩
  obtain ⟨hstarts, hctrs, hmem, htx, hfan, hsess⟩ := hsame
  have hses : ∀ j, w.ses j = s.ses j := fun j => by rw [State.ses, hsess, State.ses]
  have htalks : Talks w ((w.fanOut { who := .sess k, seq := n } p).finishMsg { who := .sess k, seq := n } tyStartAt p) :=
    (talks_fanOut ..).trans (talks_finishMsg ..)
  have hgroup := hw.peers.groupFormed
  have hothers := hw.peers.otherRanks
  refine ⟨_, hexec, ?_, ?_, ?_, fun ha => ?_, fun ha hne hall => ?_⟩
  · rw [htalks]
    exact hstarts
  · rw [htalks]
    exact hctrs
  · rw [htalks]
    exact hmem
  · have halone : w.fanRanks p = [] := fanRanks_alone (by rw [hgroup]; exact ha)
    rw [fanOut_alone halone, ((hw.keepsHand k).inHand g.inHand).finishMsg]
    refine ⟨took_took .., ?_⟩
    rw [took_frame]
    exact htx
  · obtain ⟨hone, hformed⟩ := not_or.mp ha
    have hranks : w.fanRanks p = w.otherRanks :=
      fanRanks_others (by omega) (by rw [hgroup]; exact Bool.eq_true_of_not_eq_false hformed)
    obtain ⟨hframe, hkept⟩ := fanOut_spec (r := { who := .sess k, seq := n }) hranks (by rw [hothers]; exact hne)
      (by rw [hothers]; exact fun j hj => by rw [hses]; exact hall j hj)
    have hdue : (w.fanoutTo { who := .sess k, seq := n }).due.map (·.1) = s.otherRanks := (fanoutTo_due ..).trans hothers
    have hwait : (w.fanOut { who := .sess k, seq := n } p).fanouts = [w.fanoutTo { who := .sess k, seq := n }] := by
      rw [hframe, hfan]
      rfl
    have hsome : (w.fanoutTo { who := .sess k, seq := n }).due ≠ [] := fun h => hne (by rw [← hdue, h]; rfl)
    rw [finishMsg_waits hwait rfl hsome]
    exact ⟨by rw [hkept, hses], _, hwait, rfl, hdue⟩

/-! ### The clauses of the statement -/

theorem startAt_clauses (g : Turn s k n tyStartAt p) (hr : s.devState ≠ stRecovery) :
    let c := getLe p 0 1
    let vc := getLe p 2 2
    let v := getLe p 4 4
    let x : Instr := .startAt { who := .sess k, seq := n } p
    let no := Refused x s k n tyStartAt
    let locked : Prop := s.rb aPortStatus 7 = true ∧ (s.rb aPortCfg 3 = false ∨ s.rb aPortStatus 6 = true)
    let d := s.untilPtp (getLe p 8 8)
    let no' := fun (m : Nat) => exec x s = .next (((s.setF (aCtxStatus c) 24 8 0).nak k.val n tyStartAt m 0).took k n)
    let alone : Prop := getLe p 1 1 = 0 ∨ s.groupFormed = false
    (s.replaying = true → no nkState 0)
    ∧ (s.replaying = false → (p.length ≠ 16 → no nkMalformed 0)
      ∧ (p.length = 16 → alone → ∀ m, SignalBad s k c vc v (decide (getLe p 1 1 < 2)) m → no m 0)
      ∧ (p.length = 16 → ∀ q, SignalGood s k c vc v (decide (getLe p 1 1 < 2)) q →
        (¬ locked → Runs x s fun t => t.rf (aCtxStatus c) 24 8 = 0x09 ∧ Counted s t aDevRefuseCount
          ∧ t.starts = s.starts ∧ t.ctrs = s.ctrs ∧ Took t k n)
        ∧ (locked → alone → d < 10000 → no' nkState) ∧ (locked → alone → 10000 ≤ d → 64 ≤ s.starts.length → no' nkBusy)
        ∧ (locked → 10000 ≤ d → s.starts.length < 64 → Runs x s fun t =>
            t.starts = s.starts ++ [{ tick := s.tick + d.toNat, ctx := c, vc := vc, value := v }] ∧ t.ctrs = s.ctrs
            ∧ t.mem = s.mem ∧ (alone → Took t k n ∧ t.tx = s.tx)
            ∧ (¬ alone → s.otherRanks ≠ [] → (∀ j ∈ s.otherRanks, (s.ses (16 + j)).isOpen = true) →
                (t.ses k.val).rxBuf = (s.ses k.val).rxBuf
                ∧ ∃ f, t.fanouts = [f] ∧ f.req = { who := .sess k, seq := n } ∧ f.due.map (·.1) = s.otherRanks)))) := by
  intro c vc v x no locked d no' alone
  refine ⟨fun hp => g.no exec_startAt (if_pos ?_), fun hp => ?_⟩
  · rw [gate_replaying hr hp]
    exact nkState_ne_zero
  have hgate : s.gate true = 0 := gate_eq_zero hr fun _ => hp
  have hvalue : alone → (if (s.fanRanks p).isEmpty then 0 else s.myRank) = 0 := fun ha => by
    rw [fanRanks_alone ha]
    rfl
  refine ⟨fun hl => g.no exec_startAt ((if_neg (not_not_intro hgate)).trans (if_pos hl)), fun hl ha m hbad => ?_, fun hl q hgood => ?_⟩
  · obtain ⟨hcode, hne⟩ := signalRefusal_bad hbad
    refine g.no exec_startAt ((if_neg (not_not_intro hgate)).trans ((if_neg (not_not_intro hl)).trans ((if_pos ?_).trans ?_)))
    · exact fun h => hne (hcode.symm.trans h)
    · have hrefuse : ∀ a b, a = m → b = 0 → s.refuse { who := .sess k, seq := n } tyStartAt a b = s.nak k.val n tyStartAt m 0 := by
        rintro a b rfl rfl
        rfl
      exact hrefuse _ _ hcode (hvalue ha)
  have hcode := signalRefusal_good hgood
  obtain ⟨-, hc, hflag, -, -, -⟩ := hgood
  have honly := regsOnly_clearRefuse s c
  obtain ⟨w, hw⟩ : ∃ w, s.setF (aCtxStatus c) 24 8 0 = w := ⟨_, rfl⟩
  have htimed := fun hlocked => startAt_timed (n := n) hgate hl hcode (Bool.eq_false_iff.mpr fun h => timeUnlocked_iff.mp h hlocked) hw
  rw [hw] at honly
  obtain ⟨hptp, htick, hstarts⟩ := honly.untilPtp (getLe p 8 8)
  simp only [hptp, htick, hstarts] at htimed
  have hnak : ∀ m, s.startAt { who := .sess k, seq := n } p = w.nak k.val n tyStartAt m 0 → no' m := fun m hm => by
    have hrun := g.runs (f := fun t => t.startAt { who := .sess k, seq := n } p) hm ((honly.keepsHand k).trans ((sends_nak ..).keepsHand k))
    rw [← hw] at hrun
    exact congrArg _ hrun
  refine ⟨fun hno => ?_, fun hlocked ha hd => hnak _ ((htimed hlocked).trans ?_), fun hlocked ha hd hfull => hnak _ ((htimed hlocked).trans ?_),
    fun hlocked hd hroom => ?_⟩
  · obtain ⟨m, hmsg⟩ := startAt_unlocked (n := n) hgate hl hcode (timeUnlocked_iff.mpr hno)
    obtain ⟨t, hrun, hrefuse, hcount, htook, hframe⟩ := g.checkRefused exec_startAt hmsg (by decide) (by decide)
    exact ⟨t, hrun, hrefuse, hcount, by rw [hframe], by rw [hframe], htook⟩
  · rw [if_pos hd, hvalue ha]
  · rw [if_neg (not_lt.mpr hd), if_pos hfull, hvalue ha]
  · have hmsg := (htimed hlocked).trans ((if_neg (not_lt.mpr hd)).trans (if_neg (not_le.mpr hroom)))
    exact startAt_done g hmsg (started_withStart hc honly _) (of_decide_eq_true hflag)

end Sys2Proof.Machine
end

section
namespace Sys2Proof.Machine

/-! ## TELEMETRY and FIRMWARE (R110–R112, R170, R198) -/

variable {s t u : State} {k : Fin 8} {n : Nat} {p : List Byte} {x : Instr}

/-! ### TELEMETRY -/

theorem exec_telemetry : exec (.telemetry { who := .sess k, seq := n } p) s
    = .next (s.onMsg { who := .sess k, seq := n } tyTelemetry p fun t => t.telemetry { who := .sess k, seq := n } p) := rfl

/-- A write of a session that keeps what the end of a message reads. -/
theorem keepsHand_setSes {v : Session} (h : v.isOpen = (s.ses k.val).isOpen ∧ v.rxDone = (s.ses k.val).rxDone ∧ v.rxBuf = (s.ses k.val).rxBuf
    ∧ v.held = (s.ses k.val).held) : KeepsHand s (s.setSes k.val v) k := by
  obtain ⟨hopen, hdone, hbuf, hheld⟩ := h
  have hses : (s.setSes k.val v).ses k.val = v := (ses_setSes ..).trans (if_pos rfl)
  exact ⟨rfl, rfl, fun _ => rfl, by rw [hses, hopen], by rw [hses, hdone], by rw [hses, hbuf], by rw [hses, hheld]⟩

theorem telemetry_clauses (g : Turn s k n tyTelemetry p) (hr : s.devState ≠ stRecovery) :
    let per := getLe p 0 8
    let formed : Prop := p.length = 12 ∧ (per = 0 ∨ 1000000 ≤ per) ∧ getLe p 8 4 < 16
    (¬ formed → Refused (.telemetry { who := .sess k, seq := n } p) s k n tyTelemetry nkMalformed 0)
    ∧ (formed → exec (.telemetry { who := .sess k, seq := n } p) s = .next ((s.setSes k.val { s.ses k.val with
        telPeriod := per, telSet := getLe p 8 4, telDue := s.tick + per }).took k n)) := by
  intro per formed
  have hformed : (p.length ≠ 12 ∨ (getLe p 0 8 ≠ 0 ∧ getLe p 0 8 < 1000000) ∨ 15 < getLe p 8 4) ↔ ¬ formed := by
    simp only [formed, per]
    omega
  have hgate : ¬ s.gate false ≠ 0 := not_not_intro (gate_eq_zero hr (by simp))
  refine ⟨fun hf => g.no exec_telemetry ((if_neg hgate).trans (if_pos (hformed.mpr hf))), fun hf => ?_⟩
  have hmsg : s.telemetry { who := .sess k, seq := n } p
      = s.setSes k.val { s.ses k.val with telPeriod := per, telSet := getLe p 8 4, telDue := s.tick + per } :=
    (if_neg hgate).trans (if_neg fun h => hformed.mp h hf)
  rw [exec_telemetry, g.runs (f := fun t => t.telemetry { who := .sess k, seq := n } p) hmsg (keepsHand_setSes ⟨rfl, rfl, rfl, rfl⟩)]

/-! ### A telemetry report -/

theorem exec_telemetryReport : exec (.telemetryReport k) s = execTelemetryReport k s := rfl

theorem samples_readList (l : List Nat) : ∀ (s : State) (k : Fin 8), Samples s (s.readList (.sess k) l).2 k.val := by
  induction l with
  | nil => exact fun s k => .refl s k.val
  | cons a l ih => exact fun s k => (samples_readReg s k a).trans (ih _ k)

theorem telemetryReport_idle (h : (s.ses k.val).isOpen = false ∨ (s.ses k.val).telPeriod = 0) : exec (.telemetryReport k) s = .next s := by
  rw [exec_telemetryReport, execTelemetryReport, if_pos]
  rcases h with h | h <;> simp [h]

theorem telemetryReport_runs (ho : (s.ses k.val).isOpen = true) (hper : (s.ses k.val).telPeriod ≠ 0) :
    Runs (.telemetryReport k) s fun t =>
      let now := min (max s.tick (s.ses k.val).telDue) (2 ^ 64 - 1)
      t = { s with tick := now, sess := t.sess, tx := t.tx, port := t.port } ∧ (t.ses k.val).telDue = now + (s.ses k.val).telPeriod
      ∧ (s.credit k.val → ∃ pl, pl.take 12 = natLe 8 now ++ natLe 4 (s.ses k.val).telSet ∧ Sent s t k.val tyTelemetry 0 (s.ses k.val).txNext pl) := by
  obtain ⟨now, hnow⟩ : ∃ now, min (max s.tick (s.ses k.val).telDue) (2 ^ 64 - 1) = now := ⟨_, rfl⟩
  obtain ⟨w, hw⟩ : ∃ w, ({ s with tick := now } : State).setSes k.val { s.ses k.val with telDue := now + (s.ses k.val).telPeriod } = w := ⟨_, rfl⟩
  have hexec : exec (.telemetryReport k) s = .next ((w.readList (.sess k) (telRegs (s.ses k.val).telSet)).2.sendSeq k.val tyTelemetry
      (natLe 8 now ++ natLe 4 (s.ses k.val).telSet ++ (w.readList (.sess k) (telRegs (s.ses k.val).telSet)).1)) := by
    have hpass : s.passTo (s.ses k.val).telDue = { s with tick := now } := by rw [← hnow]; rfl
    rw [exec_telemetryReport, execTelemetryReport, if_neg (by simp [ho, hper])]
    simp only [hpass, hw]
  have hsamples := samples_readList (telRegs (s.ses k.val).telSet) w k
  generalize w.readList (.sess k) (telRegs (s.ses k.val).telSet) = e at hexec hsamples
  obtain ⟨b, v⟩ := e
  replace hsamples : Samples w v k.val := hsamples
  have hwses : w.ses k.val = { s.ses k.val with telDue := now + (s.ses k.val).telPeriod } := by
    rw [← hw, ses_setSes, if_pos rfl]
  obtain ⟨m, hvses⟩ := hsamples.own
  simp only [hwses] at hvses
  have hframe : v = { s with tick := now, sess := v.sess } := by
    rw [hsamples.frame, ← hw]
    rfl
  have hsends := sends_sendSeq v k.val tyTelemetry (natLe 8 now ++ natLe 4 (s.ses k.val).telSet ++ b) 0
  have hsent := fun hc => sent_sendSeq (s := v) (i := k.val) (by rw [hvses]; exact ho) hc tyTelemetry
    (natLe 8 now ++ natLe 4 (s.ses k.val).telSet ++ b) 0
  dsimp only at hexec
  generalize v.sendSeq k.val tyTelemetry (natLe 8 now ++ natLe 4 (s.ses k.val).telSet ++ b) = z at hexec hsends hsent
  obtain ⟨lim, due, nx, buf, ce, hzses⟩ := hsends.own
  have hcredit : s.credit k.val → v.credit k.val := fun hc => by
    rw [State.credit, hvses]
    exact hc
  have htx : v.tx = s.tx := by rw [hframe]
  refine ⟨z, hexec, ?_⟩
  rw [hnow]
  refine ⟨?_, ?_, fun hc => ⟨natLe 8 now ++ natLe 4 (s.ses k.val).telSet ++ b, ?_, ?_⟩⟩
  · rw [hsends.frame, hframe]
  · rw [hzses, hvses]
  · rw [List.take_append_of_le_length (by simp [length_natLe]), List.take_of_length_le (by simp [length_natLe])]
  · have h := hsent (hcredit hc)
    rw [hvses] at h
    exact h.of_tx htx

/-! ### FIRMWARE -/

theorem exec_firmware : exec (.firmware { who := .sess k, seq := n } p) s
    = .next (s.onMsg { who := .sess k, seq := n } tyFirmware p fun t => t.firmware { who := .sess k, seq := n } p) := rfl

/-- The states in which an update goes on, and the place that it has reached (R110, R198). -/
def State.updates (s : State) (k : Fin 8) (off : Nat) : Prop :=
  (s.devState = stReady ∨ s.devState = stMaint ∨ s.devState = stRecovery) ∧ (off = 0 ∨ (s.boot.updOwner = some k ∧ off = s.boot.updNext))

theorem fwRefusal_eq (s : State) (k : Fin 8) (n : Nat) (p : List Byte) : s.fwRefusal { who := .sess k, seq := n } p =
    if p.length < 16 ∨ 1 < getLe p 8 4 ∨ (!zeroAt p 12 4) = true then nkMalformed
    else if (!s.isOwner k.val) = true then nkPermission
    else if s.devState ≠ stReady ∧ s.devState ≠ stMaint ∧ s.devState ≠ stRecovery then nkState
    else if getLe p 0 8 ≠ 0 ∧ (s.boot.updOwner ≠ some k ∨ getLe p 0 8 ≠ s.boot.updNext) then nkState
    else 0 := rfl

theorem fwRefusal_spec (s : State) (k : Fin 8) (n : Nat) (p : List Byte) :
    let formed : Prop := 16 ≤ p.length ∧ getLe p 8 4 ≤ 1 ∧ zeroAt p 12 4 = true
    let got := s.fwRefusal { who := .sess k, seq := n } p
    (¬ formed → got = nkMalformed) ∧ (formed → s.isOwner k.val = false → got = nkPermission)
    ∧ (formed → s.isOwner k.val = true → ¬ s.updates k (getLe p 0 8) → got = nkState)
    ∧ (formed → s.isOwner k.val = true → s.updates k (getLe p 0 8) → got = 0) := by
  intro formed got
  have hformed : (p.length < 16 ∨ 1 < getLe p 8 4 ∨ (!zeroAt p 12 4) = true) ↔ ¬ formed := by
    simp only [formed, Bool.not_eq_true']
    rw [not_and_or, not_and_or, not_le, not_le, Bool.not_eq_true]
  have hpast : formed → ¬ (p.length < 16 ∨ 1 < getLe p 8 4 ∨ (!zeroAt p 12 4) = true) := fun hf h => hformed.mp h hf
  have hstate : (s.devState ≠ stReady ∧ s.devState ≠ stMaint ∧ s.devState ≠ stRecovery)
      ↔ ¬ (s.devState = stReady ∨ s.devState = stMaint ∨ s.devState = stRecovery) := by rw [not_or, not_or]
  have hplace : (getLe p 0 8 ≠ 0 ∧ (s.boot.updOwner ≠ some k ∨ getLe p 0 8 ≠ s.boot.updNext))
      ↔ ¬ (getLe p 0 8 = 0 ∨ (s.boot.updOwner = some k ∧ getLe p 0 8 = s.boot.updNext)) := by rw [not_or, not_and_or]
  have heq := fwRefusal_eq s k n p
  refine ⟨fun hf => heq.trans (if_pos (hformed.mpr hf)), fun hf ho => ?_, fun hf ho hu => ?_, fun hf ho hu => ?_⟩
  · exact heq.trans ((if_neg (hpast hf)).trans (if_pos (by rw [ho]; rfl)))
  · refine heq.trans ((if_neg (hpast hf)).trans ((if_neg (by rw [ho]; exact Bool.false_ne_true)).trans ?_))
    rw [State.updates, not_and_or] at hu
    by_cases hs : s.devState = stReady ∨ s.devState = stMaint ∨ s.devState = stRecovery
    · exact (if_neg fun h => hstate.mp h hs).trans (if_pos (hplace.mpr (hu.resolve_left (not_not_intro hs))))
    · exact if_pos (hstate.mpr hs)
  · exact heq.trans ((if_neg (hpast hf)).trans ((if_neg (by rw [ho]; exact Bool.false_ne_true)).trans
      ((if_neg fun h => hstate.mp h hu.1).trans (if_neg fun h => hplace.mp h hu.2))))

/-! #### The image's bytes (R111, R198) -/

/-- Every byte of an erased sector reads 0xFF. -/
theorem read_erased (m : Mem) (j y : Nat) : Mem.read (Mem.writeN m 0 (List.replicate j 0xFF)) y = if y < j then 0xFF else Mem.read m y := by
  split
  case isTrue h =>
    rw [read_writeN_in _ _ _ _ (Nat.zero_le y) (by rw [List.length_replicate]; omega), Nat.sub_zero, List.getD_eq_getElem?_getD,
      List.getElem?_replicate, if_pos h, Option.getD_some]
  case isFalse h => exact Mem.read_writeN_out _ _ _ _ (.inr (by rw [List.length_replicate]; omega))

/-- Bytes are read as they were where a write does not reach. -/
theorem readN_writeN_out (m : Mem) (l : List Byte) {a b : Nat} (j : Nat) (h : a + l.length ≤ b) : Mem.readN (Mem.writeN m a l) b j = Mem.readN m b j := by
  induction j generalizing b with
  | zero => rfl
  | succ j ih => rw [Mem.readN, Mem.readN, ih (by omega), Mem.read_writeN_out _ _ _ _ (.inr h)]

/-- What an image's bytes leave: the flash, and what the SMD holds of the update. -/
theorem fwData_frame (s : State) (k : Fin 8) (n off : Nat) (d : List Byte) :
    let t := s.fwData { who := .sess k, seq := n } off d
    t = { s with flash := t.flash, boot := t.boot } ∧ t.boot.updOwner = some k ∧ t.boot.updNext = off + d.length := ⟨rfl, rfl, rfl⟩

/-- Past the header's sector the bytes go to the flash. -/
theorem fwData_flash {off : Nat} (h : 4096 ≤ off) (s : State) (k : Fin 8) (n : Nat) (d : List Byte) :
    let t := s.fwData { who := .sess k, seq := n } off d
    t.flash = Mem.writeN s.flash off d ∧ t.boot.updHead = s.boot.updHead := by
  have h0 : 4096 - off = 0 := by omega
  have hne : off ≠ 0 := by omega
  simp only [State.fwData, h0, if_neg hne, Nat.max_eq_left h, List.drop_zero, List.take_zero, List.append_nil]
  exact ⟨trivial, trivial⟩

/-- The first sector is kept in the SMD, and erased in the flash. -/
theorem fwData_header (s : State) (k : Fin 8) (n : Nat) {d : List Byte} (h : d.length ≤ 4096) :
    let t := s.fwData { who := .sess k, seq := n } 0 d
    t.flash = Mem.writeN s.flash 0 (List.replicate 4096 0xFF) ∧ t.boot.updHead = d := by
  have hdrop : d.drop (4096 - 0) = [] := List.drop_eq_nil_of_le (by omega)
  have htake : d.take (4096 - 0) = d := List.take_of_length_le (by omega)
  simp only [State.fwData, if_true, hdrop, htake, List.nil_append, Mem.writeN]
  exact ⟨trivial, trivial⟩

/-! #### The reset that LAST asks for (R112) -/

/-- Where every session is closed, a message's end changes no more than what waits for other ranks. -/
theorem sendSeq_closed {i : Nat} (h : (s.ses i).isOpen = false) (typ : Nat) (b : List Byte) (ans : Nat) : s.sendSeq i typ b ans = s := by
  simp only [State.sendSeq, h, Bool.not_false, if_true]

theorem settleFanout_closed (h : ∀ j, (s.ses j).isOpen = false) (f : Fanout) : ∃ l, s.settleFanout f = { s with fanouts := l } := by
  have hclosed : ∀ (l : List Fanout) j, (({ s with fanouts := l } : State).ses j).isOpen = false := fun _ j => h j
  have hanswer : ∀ l, ({ s with fanouts := l } : State).fanAnswer f = { s with fanouts := l } := by
    intro l
    rw [State.fanAnswer]
    split
    · exact sendSeq_closed (hclosed l _) ..
    · rfl
  rw [settleFanout_eq]
  split
  · exact ⟨s.fanouts, rfl⟩
  · rw [hanswer, if_neg (by rw [hclosed]; exact Bool.false_ne_true)]
    exact ⟨_, rfl⟩

theorem settleFanouts_closed (l : List Fanout) : ∀ s : State, (∀ j, (s.ses j).isOpen = false) →
    ∃ m, l.foldl State.settleFanout s = { s with fanouts := m } := by
  induction l with
  | nil => exact fun s _ => ⟨s.fanouts, rfl⟩
  | cons f l ih =>
    intro s h
    obtain ⟨m, hm⟩ := settleFanout_closed h f
    rw [List.foldl_cons, hm]
    exact ih _ h

theorem finishMsg_closed (h : ∀ j, (s.ses j).isOpen = false) (r : Req) (typ : Nat) (p : List Byte) :
    ∃ m, s.finishMsg r typ p = { s with fanouts := m } := by
  have hhead : s.isHead r typ p = false := by
    simp only [State.isHead, h, Bool.false_and]
  rw [State.finishMsg, hhead]
  exact settleFanouts_closed _ s h

theorem ColdLeft.closed (h : ColdLeft s t) (j : Nat) : (t.ses j).isOpen = false := by
  obtain ⟨-, hsess, -⟩ := h.idle
  rw [State.ses, hsess]
  rfl

/-! #### The clauses of the statement -/

theorem firmware_refused {m : Nat} (h : s.fwRefusal { who := .sess k, seq := n } p = m) (hm : m ≠ 0) :
    s.firmware { who := .sess k, seq := n } p = s.nak k.val n tyFirmware m 0 := by
  simp only [State.firmware, h]
  exact if_pos hm

theorem firmware_taken (h : s.fwRefusal { who := .sess k, seq := n } p = 0) : s.firmware { who := .sess k, seq := n } p =
    if nbit (getLe p 8 4) 0 then ({ s.fwData { who := .sess k, seq := n } (getLe p 0 8) (p.drop 16) with
      flash := Mem.writeN (s.fwData { who := .sess k, seq := n } (getLe p 0 8) (p.drop 16)).flash 0
        (s.fwData { who := .sess k, seq := n } (getLe p 0 8) (p.drop 16)).boot.updHead }.coldReset 0x6).startBoot
    else s.fwData { who := .sess k, seq := n } (getLe p 0 8) (p.drop 16) := by
  simp only [State.firmware, h]
  exact if_neg (by simp)

theorem firmware_data (g : Turn s k n tyFirmware p) (hgo : s.fwRefusal { who := .sess k, seq := n } p = 0) (hlast : getLe p 8 4 = 0) :
    let off := getLe p 0 8
    let d := p.drop 16
    Runs (.firmware { who := .sess k, seq := n } p) s fun t =>
      t = { s with flash := t.flash, boot := t.boot, sess := t.sess, port := t.port } ∧ Took t k n
      ∧ t.boot.updOwner = some k ∧ t.boot.updNext = off + d.length
      ∧ (4096 ≤ off → Mem.readN t.flash off d.length = d ∧ t.boot.updHead = s.boot.updHead
          ∧ ∀ x, (x < off ∨ off + d.length ≤ x) → Mem.read t.flash x = Mem.read s.flash x)
      ∧ (off = 0 → d.length ≤ 4096 → t.boot.updHead = d
          ∧ ∀ x, Mem.read t.flash x = if x < 4096 then 0xFF else Mem.read s.flash x) := by
  intro off d
  have hmsg : s.firmware { who := .sess k, seq := n } p = s.fwData { who := .sess k, seq := n } off d := by
    rw [firmware_taken hgo, hlast]
    rfl
  obtain ⟨hframe, howner, hnext⟩ := fwData_frame s k n off d
  have hflash := fun h : 4096 ≤ off => fwData_flash h s k n d
  have hheader : off = 0 → d.length ≤ 4096 → (s.fwData { who := .sess k, seq := n } off d).flash = Mem.writeN s.flash 0 (List.replicate 4096 0xFF)
      ∧ (s.fwData { who := .sess k, seq := n } off d).boot.updHead = d := fun h0 hd => by
    rw [h0]
    exact fwData_header s k n hd
  generalize s.fwData { who := .sess k, seq := n } off d = w at hmsg hframe howner hnext hflash hheader
  have hkeep : KeepsHand s w k := by
    rw [hframe]
    exact .of_same rfl rfl rfl rfl
  refine g.ends exec_firmware hmsg hkeep fun q => ⟨?_, took_done .., howner, hnext, fun ho => ?_, fun h0 hd => ?_⟩
  · rw [hframe]
    rfl
  · obtain ⟨hf, hh⟩ := hflash ho
    have hq : (w.done k n q).flash = Mem.writeN s.flash off d := hf
    rw [hq]
    exact ⟨Mem.readN_writeN .., hh, fun x hx => Mem.read_writeN_out _ _ _ _ hx⟩
  · obtain ⟨hf, hh⟩ := hheader h0 hd
    have hq : (w.done k n q).flash = Mem.writeN s.flash 0 (List.replicate 4096 0xFF) := hf
    rw [hq]
    exact ⟨hh, fun x => read_erased ..⟩

/-- LAST writes the header, and a cold reset follows. -/
theorem firmware_last (g : Turn s k n tyFirmware p) (hgo : s.fwRefusal { who := .sess k, seq := n } p = 0) (hlast : getLe p 8 4 = 1)
    (hoff : 4096 ≤ getLe p 0 8) (hhead : s.boot.updHead.length ≤ 4096) :
    Runs (.firmware { who := .sess k, seq := n } p) s fun t => Mem.readN t.flash 0 s.boot.updHead.length = s.boot.updHead
      ∧ Mem.readN t.flash (getLe p 0 8) (p.drop 16).length = p.drop 16 ∧ t.lastReset = 6 ∧ t.tasks = [] ∧ t.cores = []
      ∧ ∀ j, (t.ses j).isOpen = false := by
  obtain ⟨w, hw⟩ : ∃ w : State, { s.fwData { who := .sess k, seq := n } (getLe p 0 8) (p.drop 16) with
      flash := Mem.writeN (s.fwData { who := .sess k, seq := n } (getLe p 0 8) (p.drop 16)).flash 0
        (s.fwData { who := .sess k, seq := n } (getLe p 0 8) (p.drop 16)).boot.updHead } = w := ⟨_, rfl⟩
  obtain ⟨hflash, hheader⟩ := fwData_flash hoff s k n (p.drop 16)
  have hwflash : w.flash = Mem.writeN (Mem.writeN s.flash (getLe p 0 8) (p.drop 16)) 0 s.boot.updHead := by
    rw [← hw, ← hflash, ← hheader]
  obtain ⟨u, hu, hleft, hsource, -⟩ := coldReset_startBoot w (source := 6) (by decide)
  have hmsg : s.firmware { who := .sess k, seq := n } p = u := by
    rw [firmware_taken hgo, hlast, hw, ← hu]
    rfl
  obtain ⟨m, hm⟩ := finishMsg_closed hleft.closed { who := .sess k, seq := n } tyFirmware p
  have hexec : exec (.firmware { who := .sess k, seq := n } p) s = .next { u with fanouts := m } := by
    rw [exec_firmware, g.onMsg, hmsg, hm]
  obtain ⟨htasks, -, hcores, -⟩ := hleft.idle
  have huflash := hleft.flash.trans hwflash
  refine ⟨_, hexec, ?_, ?_, hsource, htasks, hcores, hleft.closed⟩
  · rw [huflash]
    exact Mem.readN_writeN ..
  · rw [huflash, readN_writeN_out _ _ _ (by omega)]
    exact Mem.readN_writeN ..

theorem firmware_clauses (g : Turn s k n tyFirmware p) :
    let off := getLe p 0 8
    let d := p.drop 16
    let formed : Prop := 16 ≤ p.length ∧ getLe p 8 4 ≤ 1 ∧ zeroAt p 12 4 = true
    let state : Prop := (s.devState = stReady ∨ s.devState = stMaint ∨ s.devState = stRecovery)
      ∧ (off = 0 ∨ (s.boot.updOwner = some k ∧ off = s.boot.updNext))
    let no := Refused (.firmware { who := .sess k, seq := n } p) s k n tyFirmware
    (¬ formed → no nkMalformed 0) ∧ (formed → s.isOwner k.val = false → no nkPermission 0)
    ∧ (formed → s.isOwner k.val = true → ¬ state → no nkState 0)
    ∧ (formed → s.isOwner k.val = true → state → getLe p 8 4 = 0 → Runs (.firmware { who := .sess k, seq := n } p) s fun t =>
        t = { s with flash := t.flash, boot := t.boot, sess := t.sess, port := t.port } ∧ Took t k n
        ∧ t.boot.updOwner = some k ∧ t.boot.updNext = off + d.length
        ∧ (4096 ≤ off → Mem.readN t.flash off d.length = d ∧ t.boot.updHead = s.boot.updHead
            ∧ ∀ x, (x < off ∨ off + d.length ≤ x) → Mem.read t.flash x = Mem.read s.flash x)
        ∧ (off = 0 → d.length ≤ 4096 → t.boot.updHead = d
            ∧ ∀ x, Mem.read t.flash x = if x < 4096 then 0xFF else Mem.read s.flash x))
    ∧ (formed → s.isOwner k.val = true → state → getLe p 8 4 = 1 → 4096 ≤ off → s.boot.updHead.length ≤ 4096 →
        Runs (.firmware { who := .sess k, seq := n } p) s fun t => Mem.readN t.flash 0 s.boot.updHead.length = s.boot.updHead
          ∧ Mem.readN t.flash off d.length = d ∧ t.lastReset = 6 ∧ t.tasks = [] ∧ t.cores = []
          ∧ ∀ j, (t.ses j).isOpen = false) := by
  intro off d formed state no
  obtain ⟨hbad, hforeign, hplace, hgo⟩ := fwRefusal_spec s k n p
  exact ⟨fun hf => g.no exec_firmware (firmware_refused (hbad hf) (by decide)),
    fun hf ho => g.no exec_firmware (firmware_refused (hforeign hf ho) (by decide)),
    fun hf ho hs => g.no exec_firmware (firmware_refused (hplace hf ho hs) (by decide)),
    fun hf ho hs hl => firmware_data g (hgo hf ho hs) hl, fun hf ho hs hl hoff hh => firmware_last g (hgo hf ho hs) hl hoff hh⟩

/-- Settles O55: each message by its own checks in their order, and the events that they leave to come. -/
theorem registersSignalsAndFirmware : Obligations.RegistersSignalsAndFirmware := by
  unfold Obligations.RegistersSignalsAndFirmware
  intro s k n p r i reg nw c vc v
  exact ⟨fun h => controlRd_clauses h, fun h => congrArg _ (if_pos h), fun h hheld => controlWr_clauses h hheld, fun h hr => signal_clauses h hr,
    fun h hr => startAt_clauses h hr, fun m => timedStart_clauses s m, fun h hr => telemetry_clauses h hr, telemetryReport_idle,
    telemetryReport_runs, fun h => firmware_clauses h⟩

end Sys2Proof.Machine
end

section
namespace Sys2Proof.Machine

/-! ## The full ring of error records (R889, R891, R892) and the port's failed lanes -/

variable {s : State} {r : ErrReport}

/-- What the filter finds a record by, and when its time is over (R889, R891): class, origin, OPEN, and the tick at which it opened. -/
def ErrRec.mark (e : ErrRec) : Nat × Nat × Bool × Nat := (e.cls, e.origin, e.isOpen, e.first)

/-- The marks of the records in the ring, oldest first. -/
def State.marks (s : State) : List (Nat × Nat × Bool × Nat) := s.errs.map ErrRec.mark

/-- Every OPEN record is within its 1,000,000 ticks. -/
def State.noneDue (s : State) : Prop := ∀ m ∈ s.marks, m.2.2.1 = true → s.tick ≤ m.2.2.2 + errWindow

theorem reported_iff_mark {c o : Nat} : Reported s c o ↔ ∃ n, (c, o, true, n) ∈ s.marks := by
  simp only [Reported, State.marks, List.mem_map, ErrRec.mark, Prod.mk.injEq]
  exact ⟨fun ⟨e, he, hc, ho, hp⟩ => ⟨e.first, e, he, hc, ho, hp, rfl⟩, fun ⟨_, e, he, hc, ho, hp, _⟩ => ⟨e, he, hc, ho, hp⟩⟩

theorem marks_followRoot (rs : List ErrRec) (cl : Nat) : (followRoot rs cl).map ErrRec.mark = rs.map ErrRec.mark := by
  unfold followRoot
  split
  · rfl
  · rw [List.map_map]
    refine List.map_congr_left fun e _ => ?_
    rw [Function.comp_apply]
    split <;> rfl

/-- Where no record is due, none closes. -/
theorem closeDue_of_noneDue (h : s.noneDue) : closeDue s.errs s.tick = s.errs := by
  have hnil : s.errs.filter (fun e => e.isOpen && decide (e.first + errWindow < s.tick)) = [] := by
    refine List.filter_eq_nil_iff.mpr fun e he => ?_
    have hd : e.isOpen = true → s.tick ≤ e.first + errWindow := h _ (List.mem_map_of_mem he)
    rw [Bool.and_eq_true, decide_eq_true_iff]
    exact fun ⟨hp, hlt⟩ => absurd (hd hp) (Nat.not_le.mpr hlt)
  rw [closeDue, hnil, List.foldl_nil]

/-- A report of a key that an OPEN record has changes no mark. -/
theorem marks_report_merge (hd : s.noneDue) (h : Reported s r.cls r.origin) : (s.report r).marks = s.marks := by
  unfold State.report
  dsimp only [State.draw]
  rw [closeDue_of_noneDue hd]
  split
  case h_1 e he =>
    rw [State.marks, marks_followRoot, List.map_map]
    refine List.map_congr_left fun x _ => ?_
    rw [Function.comp_apply]
    split <;> rfl
  case h_2 hnone =>
    obtain ⟨e, he, hc, ho, hp⟩ := h
    exact absurd (List.find?_eq_none.mp hnone e he) (by simp [hc, ho, hp])

/-- A report of a new key to a full ring overwrites the oldest record. -/
theorem marks_report_full (hd : s.noneDue) (h : ¬ Reported s r.cls r.origin) (hfull : 4096 ≤ s.marks.length) :
    (s.report r).marks = s.marks.tail ++ [(r.cls, r.origin, true, s.tick)] := by
  rw [State.marks, List.length_map] at hfull
  unfold State.report
  dsimp only [State.draw]
  rw [closeDue_of_noneDue hd]
  split
  case h_1 e he =>
    have hkey := List.find?_some he
    simp only [Bool.and_eq_true, beq_iff_eq] at hkey
    obtain ⟨⟨hp, ho⟩, hc⟩ := hkey
    exact absurd ⟨e, List.mem_of_find?_eq_some he, hc, ho, hp⟩ h
  case h_2 =>
    rw [State.marks, marks_followRoot, decide_eq_true hfull, if_pos rfl, List.map_append, State.marks, List.map_tail]
    rfl

theorem tick_report (s : State) (r : ErrReport) : (s.report r).tick = s.tick := by rw [(report_spec s r).2]

/-- Of two reports to a full ring, the second overwrites the record of the first, where that record is the oldest. -/
theorem not_reported_report_report {a b : ErrReport} {n : Nat} {l : List (Nat × Nat × Bool × Nat)} (hd : s.noneDue)
    (hs : s.marks = (a.cls, a.origin, true, n) :: l) (hl : 4095 ≤ l.length) (ha : ∀ m ∈ l, m.1 ≠ a.cls)
    (hb : ∀ m ∈ s.marks, m.1 ≠ b.cls) : ¬ Reported ((s.report a).report b) a.cls a.origin := by
  have hab : a.cls ≠ b.cls := hb _ (hs ▸ List.mem_cons_self)
  have hfirst : (s.report a).marks = s.marks := marks_report_merge hd (reported_iff_mark.mpr ⟨n, hs ▸ List.mem_cons_self⟩)
  have hd' : (s.report a).noneDue := by rwa [State.noneDue, hfirst, tick_report]
  have hnew : ¬ Reported (s.report a) b.cls b.origin := by
    rw [reported_iff_mark, hfirst]
    exact fun ⟨_, hm⟩ => hb _ hm rfl
  have hsecond := marks_report_full hd' hnew (by rw [hfirst, hs, List.length_cons]; omega)
  rw [reported_iff_mark, hsecond, hfirst, hs, List.tail_cons]
  rintro ⟨k, hm⟩
  rcases List.mem_append.mp hm with hm | hm
  · exact ha _ hm rfl
  · rw [List.mem_singleton, Prod.mk.injEq] at hm
    exact hab hm.1

theorem exec_laneFailure (l : Fin 8) : exec (.laneFailure l) s = .next (s.loseLane l.val) := rfl

/-- A lane's failure reports LANE and then UNIT_OUT of the lane, to the ring as it stood (R884). -/
theorem errs_loseLane {l p : Nat} (hp : s.subOfLane l = some p) (he : s.pins.ethTx = true) :
    ∃ u : State, u.errs = s.errs ∧ u.tick = s.tick
      ∧ (s.loseLane l).errs = ((u.report { cls := clsLane, origin := 0x580 + l, reporter := 0x580 + l }).report
          { cls := clsUnitOut, origin := 0x580 + l, reporter := 0x580 + l }).errs := by
  refine ⟨State.lifeAdd (((s.setB aPortStatus (8 + l) true).setF aPortStatus 16 8 (s.rf aPortStatus 16 8 &&& (255 - s.lanesOf p))).subDown p)
    0x6 (0x580 + l) 1, rfl, rfl, ?_⟩
  simp only [State.loseLane, hp, he, Bool.not_true, Bool.false_eq_true, if_false]

/-- A record that opened at tick 0, as number n. -/
def openRec (cls origin n : Nat) : ErrRec :=
  { first := 0, originTick := 0, last := 0, seq := n, rootSeq := 0, echo := 0, origin := origin, reporter := origin, cls := cls, isOpen := true,
    root := n == 0, persist := false, status := 0xFFFF, detail := 0, ctx := 0xFF, key := 0xFF, asn := 0, addr := 0, body := [], cluster := 0 }

/-- A device whose P0 is up on eight lanes, and whose ring of 4,096 records is full: the oldest is of lane 0, and four classes of each of the
1,024 cores but for one follow it, every key another. -/
def fullRing : State :=
  { (host.setReg aPortStatus 0x01FF0000).setReg (aErr 0x00C) 4096 with
    pins := { host.pins with ethTx := true },
    errs := openRec clsLane 0x580 0 :: (List.range 4095).map fun i => openRec (clsInstrFault + i % 4) (i / 4) (i + 1) }

theorem fullRing_lane : fullRing.subOfLane 0 = some 0 ∧ fullRing.pins.ethTx = true ∧ fullRing.tick = 0 := by decide +kernel

theorem marks_fullRing : fullRing.marks = (clsLane, 0x580, true, 0) :: (List.range 4095).map fun i => (clsInstrFault + i % 4, i / 4, true, 0) := by
  rw [State.marks, fullRing, List.map_cons, List.map_map]
  rfl

/-- After the failure of lane 0 no record of it is left as LANE. -/
theorem not_reported_fullRing : ¬ Reported (fullRing.loseLane 0) clsLane 0x580 := by
  obtain ⟨hp, he, htick⟩ := fullRing_lane
  obtain ⟨u, hu, hutick, herrs⟩ := errs_loseLane hp he
  have hmarks : u.marks = fullRing.marks := by rw [State.marks, hu, State.marks]
  have hd : u.noneDue := fun m _ _ => by rw [hutick, htick]; exact Nat.zero_le _
  have hcores : ∀ m ∈ (List.range 4095).map fun i => (clsInstrFault + i % 4, i / 4, true, 0), 0x08 ≤ m.1 ∧ m.1 < 0x0C := by
    refine List.forall_mem_map.mpr fun i _ => ?_
    dsimp only [clsInstrFault]
    omega
  unfold Reported
  rw [herrs]
  refine not_reported_report_report (a := { cls := clsLane, origin := 0x580 + 0, reporter := 0x580 + 0 }) hd (hmarks.trans marks_fullRing)
    (by rw [List.length_map, List.length_range]) (fun m hm => ?_) (fun m hm => ?_)
  · have h := hcores m hm
    dsimp only [clsLane]
    omega
  · dsimp only [clsUnitOut]
    rw [hmarks, marks_fullRing] at hm
    rcases List.mem_cons.mp hm with rfl | hm
    · decide
    · have h := hcores m hm
      omega

/-- Refutes O51: a failed lane need not stand reported. It is reported as LANE and then as UNIT_OUT (R884); where the ring is full and its oldest
record is the lane's OPEN record, LANE merges into that record (R889), and UNIT_OUT opens a record that overwrites it (R892). -/
theorem not_portEvents : ¬ Obligations.PortEvents := by
  unfold Obligations.PortEvents
  intro h
  obtain ⟨-, hlane, -⟩ := h fullRing
  obtain ⟨hp, he, -⟩ := fullRing_lane
  obtain ⟨t, ht, -, -, -, hreported, -⟩ := (hlane 0).2 0 hp he
  rw [exec_laneFailure] at ht
  have hstate : fullRing.loseLane 0 = t := Host.Outcome.next.inj ht
  exact not_reported_fullRing (hstate ▸ hreported)

end Sys2Proof.Machine
end

section
namespace Sys2Proof.Machine

/-! ## RDMA READ of a store in error (R224, R879, R885) -/

/-- Queue pair 0, of session 0 and context 0. -/
def pair0 : Qp := { words := putBytes (zeros 64) 0x2A [1], sess := 0, ctx := 0, sq := 0, rq := 0 }

/-- The R_Key of window 1 of context 0 in its first generation. -/
def rkey1 : W32 := 0x00100000

/-- Window 1 of context 0 grants remote reads of the first bytes of Spire 0's store, where no byte is readable without an error; FAIL_LIMIT is 1, and
no task is under way. No write of a window's registers brings it there (R266), but the statement is about every state. -/
def storeInError : State :=
  { (((quiet.setReg (aErr 0x004) 1).setReg (aWin 0 1 + 4) 0x1000).setReg (aWin 0 1 + 8) 1).setReg (aWin 0 1 + 12) 0x14 with
    badBytes := [(storeBase / 128, 1)], qps := [(0, some pair0)] }

theorem storeInError_answers : stReady ≤ storeInError.devState ∧ storeInError.devState ≤ stRecovery
    ∧ storeInError.qp? 0 = some pair0 ∧ storeInError.works = true ∧ storeInError.mem.scr = [] := by decide +kernel

theorem storeInError_grants : storeInError.rkeyGrants pair0 rkey1 storeBase 1 .rrd := by
  unfold State.rkeyGrants
  decide +kernel

theorem storeInError_unreadable : storeInError.firstBad storeBase 1 true ≠ none := by decide +kernel

/-- The error takes the Spire out of service, and the bytes of its store are free from then on. -/
theorem scr_read_storeInError {t : State} (ht : exec (.rdmaRead 0 0 rkey1 storeBase 1) storeInError = .next t) : t.mem.scr.length = 1 := by
  have h : (match exec (.rdmaRead 0 0 rkey1 storeBase 1) storeInError with | .next t => t.mem.scr.length | _ => 0) = 1 := by decide +kernel
  rwa [ht] at h

/-- Refutes O53: with no task under way, a READ that meets an uncorrectable error need not leave memory as it was. Where the error is the
fault of a Spire's store that reaches FAIL_LIMIT, the Spire leaves service, and its store loses its contents (R883, R885). -/
theorem not_rdmaAndQueuePairs : ¬ Obligations.RdmaAndQueuePairs := by
  unfold Obligations.RdmaAndQueuePairs
  intro h
  obtain ⟨hpackets, -⟩ := h
  obtain ⟨-, hlive⟩ := hpackets storeInError 0 0
  obtain ⟨hready, hlast, hpair, hworks, hscr⟩ := storeInError_answers
  obtain ⟨-, -, hread, -⟩ := hlive pair0 ⟨hready, hlast⟩ hpair rfl
  obtain ⟨-, hgranted⟩ := hread rkey1 storeBase 1 (.inl rfl)
  obtain ⟨hbad, -⟩ := hgranted hworks storeInError_grants
  obtain ⟨t, ht, -, -, hidle⟩ := hbad (by decide) storeInError_unreadable
  have hmem : t.mem = storeInError.mem := (hidle rfl).1
  have hlost := scr_read_storeInError ht
  rw [hmem, hscr] at hlost
  cases hlost

end Sys2Proof.Machine
end

section
namespace Sys2Proof.Machine

/-! ## A commit whose log meets the journal's last channel (R205, R872, R883, R969) -/

/-- A value to be added, when its task commits, to row 0 of a table whose directory begins the glacier tier. -/
def addToRow0 : LogEntry :=
  { item := 0, frag := 0, req := 0, desc := zeros 8 ++ natLe 8 glacierBase, unit := 11, row := 0, add := true, vals := [] }

/-- Task 1 of key 1 has ended, and its log holds that value. -/
def endedTask : Task := { task1 with ended := true, log := [addToRow0] }

/-- Channel 3 alone carries the glacier tier and the journal, FAIL_LIMIT is 1, and the first byte of the tier, where window 1 of context 0 grants reads,
is in error. Key 1 has the task that has ended, and one that is admitted only. -/
def lastChannel : State :=
  { (((((host.setReg aMemCap 16).setReg aMemGlacier 0x10000008).setReg (aErr 0x004) 1).setReg (aWin 0 1 + 4) 0x800).setReg
      (aWin 0 1 + 8) 1).setReg (aWin 0 1 + 12) 0x11 with
    journal := { a := 3, b := 3, single := true }, badBytes := [(glacierBase / 128, 1)],
    tasks := [endedTask, { task1 with asn := 2, token := 2, seq := 2, accepted := false }],
    keys := [(1, { present := true, owner := true, lastIssued := 2, tokenAccepted := 2, unreleased := [1, 2] })] }

theorem lastChannel_task : lastChannel.task? 1 1 = some endedTask := by decide +kernel

theorem lastChannel_first : lastChannel.works = true ∧ ∀ y ∈ lastChannel.tasks, y.key = endedTask.key → endedTask.asn ≤ y.asn := by decide +kernel

theorem lastChannel_due : endedTask.accepted = true ∧ endedTask.ended = true ∧ 1 = (lastChannel.key 1).lastCommitted + 1
    ∧ lastChannel.ops = [] ∧ lastChannel.reqs = [] ∧ lastChannel.slotOfKey 1 = some 0 ∧ (lastChannel.key 1).lastIssued = 2 := by decide +kernel

/-- Where a task's results take no byte, RESULT_LEN is 0. -/
theorem resultLen_zero {t : Task} (h : t.resultMax = 0) (s : State) : s.resultLen t = 0 := by
  rw [State.resultLen, h]
  exact Nat.mod_one _

/-- The admission is taken back as the commit reads the row. -/
theorem lastIssued_commit : ((lastChannel.commitTask endedTask 0).key 1).lastIssued = 1 := by
  simp only [State.commitTask, resultLen_zero (t := endedTask) rfl]
  decide +kernel

/-- The task commits, as the step that carries it out says. -/
theorem exec_commit_lastChannel : exec (.taskCommit 1 1) lastChannel = .next (lastChannel.commitTask endedTask 0) := by
  have hearlier : (lastChannel.tasks.any fun x => x.key == endedTask.key && decide (x.asn < endedTask.asn)) = false := by decide +kernel
  obtain ⟨haccepted, hended, hnext, hops, hreqs, hslot, -⟩ := lastChannel_due
  have hidle : lastChannel.underWay 1 1 = false := by simp [State.underWay, hops, hreqs]
  have hexec : exec (.taskCommit 1 1) lastChannel = execTaskCommit 1 1 lastChannel := rfl
  have hkey : (1 : Fin 16).val = 1 := rfl
  have hhead : endedTask.head = none := rfl
  simp only [hexec, execTaskCommit, hkey, lastChannel_task, lastChannel_first.1, hearlier, hhead, hslot, haccepted, hended, ← hnext, hidle]
  rfl

/-- Refutes O56: a commit need not leave the rest of its key's slot as it was. Where the application of its log meets an error that takes the
journal's last channel out of service, admissions whose journal writes are not complete are taken back, and with them their ASNs (R205, R872, R969). -/
theorem not_acceptedWork : ¬ Obligations.AcceptedWork := by
  unfold Obligations.AcceptedWork
  intro h
  obtain ⟨-, hrest⟩ := h
  obtain ⟨-, -, -, -, hcommits⟩ := hrest lastChannel
  obtain ⟨-, htask⟩ := hcommits 1 1
  obtain ⟨-, -, hcommit, -⟩ := htask endedTask lastChannel_task
  obtain ⟨haccepted, hended, hnext, hops, hreqs, hslot, hissued⟩ := lastChannel_due
  obtain ⟨t, ht, hkey, -⟩ := hcommit 0 rfl lastChannel_first
    ⟨haccepted, hended, hnext, by simp [hops], by simp [hreqs]⟩ hslot
  rw [exec_commit_lastChannel] at ht
  obtain rfl := Host.Outcome.next.inj ht
  have hback : ((lastChannel.commitTask endedTask 0).key (1 : Fin 16).val).lastIssued = 1 := lastIssued_commit
  rw [hkey] at hback
  exact absurd (hissued.symm.trans hback) (by decide)

end Sys2Proof.Machine
end

section
namespace Sys2Proof.Machine

/-! ## A key slot's queue restarts (R427, R919, R920, R926) -/

variable {s t u : State} {k p : Nat}

theorem macsec_setMacsec (p q : Nat) (m : Macsec) : (s.setMacsec p m).macsec q = if q = p then m else s.macsec q := SMap.get_set ..

/-- What a key command may change beside registers and queue pairs: key slots, tasks, whose memories the cores hold, and what sub-ports know. -/
def KeyFrame (s t : State) : Prop :=
  t = { s with keys := t.keys, tasks := t.tasks, cores := t.cores, port := { s.port with macsec := t.port.macsec } }

theorem KeyFrame.trans (h : KeyFrame s t) (g : KeyFrame t u) : KeyFrame s u := by
  unfold KeyFrame at *
  rw [g, h]

theorem KeyFrame.reg (h : KeyFrame s t) (a : Nat) : t.reg a = s.reg a := by rw [h]; rfl

/-! ### What goes with a slot's queue -/

/-- A sub-port's record of a partner's frames, without those under key slot k. -/
def Macsec.without (m : Macsec) (k : Nat) : Macsec := { m with rx := m.rx.filter fun w => w.key != k }

theorem Macsec.without_idem (m : Macsec) : (m.without k).without k = m.without k := by
  simp [Macsec.without, List.filter_filter]

/-- Sub-port p forgets what it has seen of partners under key slot k. -/
def State.forget (k : Nat) (s : State) (p : Nat) : State := s.setMacsec p ((s.macsec p).without k)

theorem dropRx_eq (s : State) (k : Nat) : s.dropRx k = (List.range 8).foldl (State.forget k) s := rfl

theorem foldl_forget (l : List Nat) (s : State) :
    l.foldl (State.forget k) s = { s with port := { s.port with macsec := (l.foldl (State.forget k) s).port.macsec } }
    ∧ ∀ p, (l.foldl (State.forget k) s).macsec p = if p ∈ l then (s.macsec p).without k else s.macsec p := by
  induction l generalizing s with
  | nil => exact ⟨rfl, fun p => rfl⟩
  | cons q l ih =>
    obtain ⟨hframe, hmacsec⟩ := ih (s.forget k q)
    refine ⟨hframe, fun p => ?_⟩
    rw [List.foldl_cons, hmacsec, State.forget, macsec_setMacsec]
    by_cases hp : p = q
    · subst hp
      simp [Macsec.without_idem]
    · simp [hp]

/-- A core's data memory belongs to no task of key k. -/
def Core.disowned (c : Core) (k : Nat) : Core := { c with owner := if c.owner.1 = k then (0, 0) else c.owner }

/-- Its data memory belongs to no task at all. -/
def Core.freed (c : Core) : Core := { c with owner := (0, 0) }

theorem foldl_disown (l : List Nat) (s : State) : l.foldl State.disown s = { s with cores := (l.foldl State.disown s).cores }
    ∧ ∀ m, (l.foldl State.disown s).core m = if m ∈ l then (s.core m).freed else s.core m := by
  induction l generalizing s with
  | nil => exact ⟨rfl, fun m => rfl⟩
  | cons j l ih =>
    obtain ⟨hframe, hcore⟩ := ih (s.disown j)
    have hj : ∀ m, (s.disown j).core m = if m = j then (s.core j).freed else s.core m := fun m => core_setCore ..
    refine ⟨hframe, fun m => ?_⟩
    rw [List.foldl_cons, hcore, hj]
    by_cases hm : m = j
    · subst hm
      simp [Core.freed]
    · simp [hm]

/-- A core that is not listed is as it was made: its data memory belongs to no task. -/
theorem core_unlisted {m : Nat} (h : m ∉ s.cores.map (·.1)) : s.core m = {} := by
  have hnone : s.cores.find? (fun e => e.1 == m) = none := List.find?_eq_none.mpr fun e he hm =>
    h (List.mem_map.mpr ⟨e, he, beq_iff_eq.mp hm⟩)
  simp [State.core, SMap.get, hnone]

theorem disownKey_spec (s : State) (k : Nat) :
    s.disownKey k = { s with cores := (s.disownKey k).cores } ∧ ∀ m, (s.disownKey k).core m = (s.core m).disowned k := by
  have hfold : s.disownKey k = ((s.cores.filter fun e => (s.core e.1).owner.1 == k).map (·.1)).foldl State.disown s := by
    rw [List.foldl_map]
    rfl
  obtain ⟨hframe, hcore⟩ := foldl_disown ((s.cores.filter fun e => (s.core e.1).owner.1 == k).map (·.1)) s
  rw [← hfold] at hframe hcore
  refine ⟨hframe, fun m => (hcore m).trans ?_⟩
  have hlisted : m ∈ (s.cores.filter fun e => (s.core e.1).owner.1 == k).map (·.1) ↔ m ∈ s.cores.map (·.1) ∧ (s.core m).owner.1 = k := by
    simp only [List.mem_map, List.mem_filter, beq_iff_eq]
    exact ⟨fun ⟨e, ⟨he, ho⟩, hm⟩ => ⟨⟨e, he, hm⟩, hm ▸ ho⟩, fun ⟨⟨e, he, hm⟩, ho⟩ => ⟨e, ⟨he, hm ▸ ho⟩, hm⟩⟩
  rw [Core.disowned]
  by_cases ho : (s.core m).owner.1 = k
  · by_cases hm : m ∈ s.cores.map (·.1)
    · rw [if_pos (hlisted.mpr ⟨hm, ho⟩), if_pos ho, Core.freed]
    · rw [if_neg fun h => hm (hlisted.mp h).1, core_unlisted hm, ite_self]
  · rw [if_neg fun h => ho (hlisted.mp h).2, if_neg ho]

/-- What goes with a slot's queue is gone; the slot itself stands as it did. -/
def State.unqueued (s : State) (k : Nat) : State := ((s.dropRx k).dropAdmitted k).disownKey k

theorem unqueued_spec (s : State) (k : Nat) : KeyFrame s (s.unqueued k) ∧ (s.unqueued k).keys = s.keys
    ∧ (s.unqueued k).tasks = s.tasks.filter (fun x => x.key != k || x.accepted)
    ∧ (∀ m, (s.unqueued k).core m = (s.core m).disowned k)
    ∧ ∀ p, (s.unqueued k).macsec p = if p < 8 then (s.macsec p).without k else s.macsec p := by
  obtain ⟨hport, hmacsec⟩ := foldl_forget (k := k) (List.range 8) s
  rw [← dropRx_eq] at hport hmacsec
  obtain ⟨hcores, hcore⟩ := disownKey_spec ((s.dropRx k).dropAdmitted k) k
  rw [← State.unqueued] at hcores hcore
  generalize s.dropRx k = d at hport hmacsec hcores hcore
  generalize s.unqueued k = t at hcores hcore
  refine ⟨?_, ?_, ?_, fun m => (hcore m).trans ?_, fun p => ?_⟩
  · rw [KeyFrame, hcores, hport]
    rfl
  · rw [hcores, hport]
    rfl
  · rw [hcores, hport]
    rfl
  · rw [hport]
    rfl
  · have hp := hmacsec p
    simp only [List.mem_range] at hp
    rw [← hp, hcores]
    rfl

/-- A queue that restarts, as far as it is not in the slot itself. -/
theorem queueRestarts_of (htasks : t.tasks = (s.unqueued k).tasks) (hcores : t.cores = (s.unqueued k).cores)
    (hrx : ∀ p, p < 8 → (t.macsec p).rx = ((s.unqueued k).macsec p).rx) : QueueRestarts s t k := by
  obtain ⟨-, -, hfilter, hcore, hmacsec⟩ := unqueued_spec s k
  refine ⟨htasks.trans hfilter, fun m => ?_, fun p hp => ?_⟩
  · rw [State.core, hcores]
    exact hcore m
  · rw [hrx p hp, hmacsec, if_pos hp]
    rfl

/-! ### The slot itself -/

/-- The slot of a key command: the new key or none, as the slot was before. -/
def KeySlot.holding (v : KeySlot) (present owner : Bool) (key : List Byte) : KeySlot :=
  { v with present := present, owner := owner, key := key }

theorem placeKey_none (s : State) (k : Nat) :
    s.placeKey k ((s.key k).holding false false []) = (s.unqueued k).setKey k ((s.key k).began false false []) := rfl

/-- Sub-port p was silent under key slot k and sends again: it is up, and protects its frames under that slot. -/
def State.sendsUnder (s : State) (k p : Nat) : Bool := s.subUp p && s.macsecOn p && s.macsecKey p == k

/-- A sub-port that R929 silenced takes its next GEN where it sends again. -/
def State.regen (k : Nat) (s : State) (p : Nat) : State := if s.sendsUnder k p then s.newGen p else s

theorem placeKey_some (s : State) (k : Nat) (owner : Bool) (key : List Byte) :
    s.placeKey k ((s.key k).holding true owner key)
      = (s.key k).mute.foldl (State.regen k) ((s.unqueued k).setKey k ((s.key k).began true owner key)) := rfl

theorem sendsUnder_congr (h : ∀ a, a < 0x20000 ∨ a % 0x1000 = 0 → t.reg a = s.reg a) (k p : Nat) : t.sendsUnder k p = s.sendsUnder k p := by
  have hsplit : t.split = s.split := by
    rw [State.split, State.devState, rf_of_reg (h aDevStatus (by decide)), rf_of_reg (h aPortCfg (by decide))]
    rfl
  have hup : t.subUp p = s.subUp p := rb_of_reg (h aPortStatus (by decide)) _
  have hon : t.macsecOn p = s.macsecOn p := by rw [State.macsecOn, hsplit, rb_of_reg (h aPortCfg (by decide)), State.macsecOn]
  have hkey : t.macsecKey p = s.macsecKey p := by
    rw [State.macsecKey, rf_of_reg (h aKsess (by decide)),
      rf_of_reg (h (aSessCfg _) (.inr (by simp only [aSessCfg, aSess]; omega))), State.macsecKey]
  rw [State.sendsUnder, hup, hon, hkey, State.sendsUnder]

/-- A sub-port's own association as a new GEN leaves it: the first of a new key. -/
def Macsec.restarted (m : Macsec) : Macsec := { m with txGen := 1, txPn := 0 }

/-- The sub-ports that hit names have taken the first GEN of the key in slot k, and nothing else changed. -/
structure Regenerated (k : Nat) (hit : Nat → Prop) (s t : State) : Prop where
  frame : t = { s with keys := t.keys, port := { s.port with macsec := t.port.macsec } }
  others : ∀ j, j ≠ k → t.key j = s.key j
  slot : t.key k = { s.key k with genTx := (t.key k).genTx }
  hits : ∀ p, hit p → SMap.get (t.key k).genTx 0 p = 1 ∧ t.macsec p = (s.macsec p).restarted
  misses : ∀ p, ¬ hit p → SMap.get (t.key k).genTx 0 p = SMap.get (s.key k).genTx 0 p ∧ t.macsec p = s.macsec p

theorem Regenerated.none (s : State) {hit : Nat → Prop} (h : ∀ p, ¬ hit p) : Regenerated k hit s s :=
  ⟨rfl, fun _ _ => rfl, rfl, fun p hp => absurd hp (h p), fun _ _ => ⟨rfl, rfl⟩⟩

theorem Regenerated.sendsUnder {hit : Nat → Prop} (h : Regenerated k hit s t) (p : Nat) : t.sendsUnder k p = s.sendsUnder k p :=
  sendsUnder_congr (fun _ _ => by rw [h.frame]; rfl) k p

/-- A slot that silences no sub-port, and whose key sub-port p has not used. -/
theorem regenerated_regen (hmute : (s.key k).mute = []) (hgen : SMap.get (s.key k).genTx 0 p = 0) :
    Regenerated k (fun q => q = p ∧ s.sendsUnder k p = true) s (s.regen k p) := by
  unfold State.regen
  split
  case isFalse hno => exact .none s fun q hq => hno hq.2
  case isTrue hsends =>
    have hk : s.macsecKey p = k := by
      simp only [State.sendsUnder, Bool.and_eq_true, beq_iff_eq] at hsends
      exact hsends.2
    have hnew : s.newGen p = (s.setKey k { s.key k with genTx := SMap.set (s.key k).genTx 0 p 1 }).setMacsec p (s.macsec p).restarted := by
      simp only [State.newGen, hk, hmute, hgen]
      rfl
    have hslot : (s.newGen p).key k = { s.key k with genTx := SMap.set (s.key k).genTx 0 p 1 } := by
      rw [hnew]
      exact key_setKey_self ..
    have hmacsec : ∀ q, (s.newGen p).macsec q = if q = p then (s.macsec p).restarted else s.macsec q := fun q => by
      rw [hnew]
      exact macsec_setMacsec ..
    refine ⟨by rw [hnew]; rfl, fun j hj => ?_, by rw [hslot], fun q hq => ?_, fun q hq => ?_⟩
    · rw [hnew]
      exact (key_setKey ..).trans (if_neg hj)
    · rw [hslot, hmacsec, if_pos hq.1, hq.1, SMap.get_set, if_pos rfl]
      exact ⟨rfl, rfl⟩
    · have hqp : q ≠ p := fun e => hq ⟨e, hsends⟩
      rw [hslot, hmacsec, if_neg hqp, SMap.get_set, if_neg hqp]
      exact ⟨rfl, rfl⟩

theorem regenerated_foldl {l : List Nat} (hl : l.Nodup) (hmute : (s.key k).mute = []) (hgen : ∀ p ∈ l, SMap.get (s.key k).genTx 0 p = 0) :
    Regenerated k (fun q => q ∈ l ∧ s.sendsUnder k q = true) s (l.foldl (State.regen k) s) := by
  induction l generalizing s with
  | nil => exact .none s fun q hq => absurd hq.1 List.not_mem_nil
  | cons p l ih =>
    obtain ⟨hp, hl⟩ := List.nodup_cons.mp hl
    have hstep := regenerated_regen hmute (hgen p List.mem_cons_self)
    have hrest := ih hl (s := s.regen k p) (by rw [hstep.slot]; exact hmute) fun q hq => by
      rw [(hstep.misses q fun h => hp (h.1 ▸ hq)).1]
      exact hgen q (List.mem_cons_of_mem p hq)
    refine ⟨?_, fun j hj => (hrest.others j hj).trans (hstep.others j hj), ?_, fun q hq => ?_, fun q hq => ?_⟩
    · rw [List.foldl_cons, hrest.frame, hstep.frame]
    · rw [List.foldl_cons, hrest.slot, hstep.slot]
    · obtain ⟨hmem, hsends⟩ := hq
      by_cases hql : q ∈ l
      · obtain ⟨hgen1, hmacsec⟩ := hrest.hits q ⟨hql, (hstep.sendsUnder q).trans hsends⟩
        rw [(hstep.misses q fun h => hp (h.1 ▸ hql)).2] at hmacsec
        exact ⟨hgen1, hmacsec⟩
      · obtain rfl := (List.mem_cons.mp hmem).resolve_right hql
        obtain ⟨hgen1, hmacsec⟩ := hrest.misses q fun h => hql h.1
        obtain ⟨hgen0, hmacsec0⟩ := hstep.hits q ⟨rfl, hsends⟩
        exact ⟨hgen1.trans hgen0, hmacsec.trans hmacsec0⟩
    · obtain ⟨hgen1, hmacsec⟩ := hrest.misses q fun h => hq ⟨List.mem_cons_of_mem p h.1, (hstep.sendsUnder q).symm.trans h.2⟩
      obtain ⟨hgen0, hmacsec0⟩ := hstep.misses q fun h => hq ⟨h.1 ▸ List.mem_cons_self, h.1 ▸ h.2⟩
      exact ⟨hgen1.trans hgen0, hmacsec.trans hmacsec0⟩

end Sys2Proof.Machine
end

section
namespace Sys2Proof.Machine

/-! ## Key commands (R917–R920) -/

variable {s t u : State} {r : Req} {k n : Nat}

/-! ### What placing a key leaves -/

/-- A slot that is emptied. -/
theorem placeKey_none_spec (s : State) (k : Nat) : let t := s.placeKey k ((s.key k).holding false false [])
    KeyFrame s t ∧ QueueRestarts s t k ∧ ∀ j, t.key j = if j = k then (s.key j).began false false [] else s.key j := by
  obtain ⟨hframe, hkeys, -⟩ := unqueued_spec s k
  rw [placeKey_none]
  refine ⟨hframe.trans rfl, queueRestarts_of rfl rfl fun _ _ => rfl, fun j => ?_⟩
  rw [key_setKey, key_of_keys hkeys]
  split
  case isTrue hj => rw [hj]
  case isFalse hj => rfl

/-- Sub-port p, which R929 silenced on slot n, sends again. -/
def State.owes (s : State) (n p : Nat) : Prop := p ∈ (s.key n).mute ∧ s.subUp p = true ∧ s.macsecOn p = true ∧ s.macsecKey p = n

theorem owes_iff (s : State) (n p : Nat) : s.owes n p ↔ p ∈ (s.key n).mute ∧ s.sendsUnder n p = true := by
  simp only [State.owes, State.sendsUnder, Bool.and_eq_true, beq_iff_eq, and_assoc]

/-- A slot that takes a new key, where no sub-port is listed twice as silent. -/
theorem placeKey_some_spec (s : State) (k : Nat) (owner : Bool) (key : List Byte) (hmute : (s.key k).mute.Nodup) :
    let t := s.placeKey k ((s.key k).holding true owner key)
    KeyFrame s t ∧ QueueRestarts s t k
      ∧ (∀ j, t.key j = if j = k then { (s.key j).began true owner key with genTx := (t.key j).genTx } else s.key j)
      ∧ ∀ p, p < 8 → (s.owes k p → SMap.get (t.key k).genTx 0 p = 1
            ∧ t.macsec p = { s.macsec p with rx := (t.macsec p).rx, txGen := 1, txPn := 0 })
          ∧ (¬ s.owes k p → SMap.get (t.key k).genTx 0 p = 0 ∧ t.macsec p = { s.macsec p with rx := (t.macsec p).rx }) := by
  obtain ⟨hframe, hkeys, -, -, hmacsec⟩ := unqueued_spec s k
  rw [placeKey_some]
  generalize hv : (s.unqueued k).setKey k ((s.key k).began true owner key) = v
  have hslot : v.key k = (s.key k).began true owner key := by rw [← hv, key_setKey_self]
  have hvframe : KeyFrame s v := hframe.trans (by rw [← hv]; rfl)
  have hvmacsec : ∀ p, v.macsec p = (s.unqueued k).macsec p := fun p => by rw [← hv]; rfl
  have hregen := regenerated_foldl (s := v) (k := k) hmute (by rw [hslot]; rfl) (fun p _ => by rw [hslot]; rfl)
  generalize (s.key k).mute.foldl (State.regen k) v = t at hregen
  have howes : ∀ p, s.owes k p ↔ p ∈ (s.key k).mute ∧ v.sendsUnder k p = true := fun p => by
    rw [owes_iff, sendsUnder_congr fun a _ => hvframe.reg a]
  have hrx : ∀ p, (t.macsec p).rx = ((s.unqueued k).macsec p).rx := fun p => by
    by_cases hp : p ∈ (s.key k).mute ∧ v.sendsUnder k p = true
    · rw [(hregen.hits p hp).2, hvmacsec]
      rfl
    · rw [(hregen.misses p hp).2, hvmacsec]
  refine ⟨hvframe.trans (by rw [KeyFrame, hregen.frame]), queueRestarts_of ?_ ?_ fun p _ => hrx p, fun j => ?_, fun p hp => ⟨fun h => ?_, fun h => ?_⟩⟩
  · rw [hregen.frame, ← hv]
    rfl
  · rw [hregen.frame, ← hv]
    rfl
  · split
    case isTrue hj =>
      subst hj
      rw [← hslot, ← hregen.slot]
    case isFalse hj =>
      rw [hregen.others j hj, ← hv, key_setKey, if_neg hj, key_of_keys hkeys]
  · obtain ⟨hgen, hmac⟩ := hregen.hits p ((howes p).mp h)
    refine ⟨hgen, ?_⟩
    rw [hmac, hvmacsec, hmacsec, if_pos hp]
    rfl
  · obtain ⟨hgen, hmac⟩ := hregen.misses p fun hh => h ((howes p).mpr hh)
    refine ⟨hgen.trans (by rw [hslot]; rfl), ?_⟩
    rw [hmac, hvmacsec, hmacsec, if_pos hp]
    rfl

end Sys2Proof.Machine
end

section
namespace Sys2Proof.Machine

/-! ## INSTALL (R917, R918) -/

variable {s t u : State} {r : Req} {k n : Nat}

/-! ### The nine words of the command -/

/-- A requester that may write the key registers, and whose session stands. -/
def State.keysOpen (s : State) (r : Req) : Prop :=
  r.who = .i3c ∨ ∃ k, r.who = .sess k ∧ s.isOwner k.val = true ∧ (s.ses k.val).isOpen = true

theorem TakesWrite.keysOpen {v : W32} (h : TakesWrite s r (aSec 0x030) v) : s.keysOpen r := by
  have hgate := h.gate
  have hright := h.right
  cases hw : r.who with
  | i3c => exact .inl hw
  | peer q => simp [State.mayWrite, hw] at hright
  | sess k =>
    refine .inr ⟨k, hw, ?_, ?_⟩
    · simpa [State.mayWrite, hw, State.sessRight, aSec, aDet, aLife, aSync] using hright
    · simp only [State.regGate, hw] at hgate
      by_contra hclosed
      simp [hclosed] at hgate

/-- What such a requester may write: every key register, with any value. -/
theorem State.keysOpen.mayWrite (h : s.keysOpen r) {a : Nat} (ha : aSec 0x010 ≤ a ∧ a ≤ aSec 0x030) (v : W32) : s.mayWrite r.who a v = true := by
  rcases h with h | ⟨k, h, ho, -⟩
  · simp [State.mayWrite, h, i3cWrites, ha]
  · simp [State.mayWrite, h, ho]

theorem State.keysOpen.regs (h : s.keysOpen r) (ht : t = { s with regs := t.regs }) : t.keysOpen r := by
  rw [ht]
  exact h

theorem State.keysOpen.stays (h : s.keysOpen r) : r.who = .i3c ∨ (s.ses (whoIdx r.who)).isOpen = true := by
  rcases h with h | ⟨k, h, -, ho⟩
  · exact .inl h
  · rw [h]
    exact .inr ho

/-- Word i of SEC_KEY_W0 to W7, as the bytes b give it. -/
def keyWord (b : List Byte) (i : Nat) : W32 := BitVec.ofNat 32 (getLe (b.drop (4 * i)) 0 4)

/-- The key registers hold the first 32 of the bytes b. -/
def State.loaded (s : State) (b : List Byte) : State := (List.range 8).foldl (fun t i => t.setReg (aSec (0x010 + 4 * i)) (keyWord b i)) s

theorem installPairs_eq (n : Nat) (owner : Bool) (b : List Byte) : installPairs n owner b
    = ((List.range 8).map fun i => (aSec (0x010 + 4 * i), keyWord (b ++ zeros 32) i))
      ++ [(aSec 0x030, BitVec.ofNat 32 (2 ^ 30 + (if owner then 256 else 0) + n))] := by
  simp [installPairs, ctlPairs, keyWord, List.range_succ, List.drop_drop, aSec]

/-- One word of a key stands in its register. -/
theorem ctlRun_keyWord {i : Nat} (hi : i < 8) (h : s.keysOpen r) (w : W32) (l : List (Nat × W32)) :
    s.ctlRun r true ((aSec (0x010 + 4 * i), w) :: l) = (s.setReg (aSec (0x010 + 4 * i)) w).ctlRun r true l := by
  have hinfo : (regInfo (aSec (0x010 + 4 * i))).isNone = false := by interval_cases i <;> rfl
  have hright := h.mayWrite (a := aSec (0x010 + 4 * i)) (by simp only [aSec]; omega) w
  have hword : (aSec (0x010 + 4 * i) != aSec 0x030) = true := by simp only [aSec, bne_iff_ne]; omega
  have hwrite : s.writeReg r true true (aSec (0x010 + 4 * i)) w = .ok (s.setReg (aSec (0x010 + 4 * i)) w) := by interval_cases i <;> rfl
  have hstays : r.who = .i3c ∨ ((s.setReg (aSec (0x010 + 4 * i)) w).ses (whoIdx r.who)).isOpen = true := h.stays
  have hctl : s.ctlWrite r true true (aSec (0x010 + 4 * i)) w = .ok (s.setReg (aSec (0x010 + 4 * i)) w) := by
    simp [State.ctlWrite, hinfo, hright, hword, hwrite]
  simp only [State.ctlRun, hctl]
  exact if_pos (by simpa using hstays)

theorem ctlRun_keyWords {l : List Nat} (hl : ∀ i ∈ l, i < 8) (b : List Byte) (rest : List (Nat × W32)) : ∀ s : State, s.keysOpen r →
    s.ctlRun r true ((l.map fun i => (aSec (0x010 + 4 * i), keyWord b i)) ++ rest)
      = (l.foldl (fun t i => t.setReg (aSec (0x010 + 4 * i)) (keyWord b i)) s).ctlRun r true rest := by
  induction l with
  | nil => exact fun _ _ => rfl
  | cons i l ih =>
    intro s h
    rw [List.map_cons, List.cons_append, ctlRun_keyWord (hl i List.mem_cons_self) h, List.foldl_cons]
    exact ih (fun j hj => hl j (List.mem_cons_of_mem i hj)) _ h

theorem loaded_regsOnly (s : State) (b : List Byte) : RegsOnly s (s.loaded b) (regBlock (aSec 0x010) 8) := by
  have hfold : ∀ (l : List Nat) (t : State), l ⊆ List.range 8 → RegsOnly s t (regBlock (aSec 0x010) 8) →
      RegsOnly s (l.foldl (fun t i => t.setReg (aSec (0x010 + 4 * i)) (keyWord b i)) t) (regBlock (aSec 0x010) 8) := by
    intro l
    induction l with
    | nil => exact fun t _ ht => ht
    | cons i l ih =>
      intro t hl ht
      have hi : aSec (0x010 + 4 * i) ∈ regBlock (aSec 0x010) 8 :=
        List.mem_map.mpr ⟨i, hl List.mem_cons_self, by simp only [aSec]; omega⟩
      exact ih _ (fun j hj => hl (List.mem_cons_of_mem i hj)) (ht.setReg hi _)
  exact hfold _ s (List.Subset.refl _) (.refl s _)

theorem reg_loaded {i : Nat} (hi : i < 8) (b : List Byte) : (s.loaded b).reg (aSec (0x010 + 4 * i)) = keyWord b i := by
  simp only [State.loaded, List.range_succ, List.range_zero, List.nil_append, List.foldl_append, List.foldl_cons, List.foldl_nil, reg_setReg]
  interval_cases i <;> rfl

/-- The bytes of a word, as they stood. -/
theorem natLe_keyWord {b : List Byte} {i : Nat} (h : 4 * i + 4 ≤ b.length) : natLe 4 (keyWord b i).toNat = slice b (4 * i) 4 := by
  have hlen : (slice (b.drop (4 * i)) 0 4).length = 4 := by simp [slice]; omega
  have hlt : getLe (b.drop (4 * i)) 0 4 < 2 ^ 32 := (leNat_lt _).trans_eq (by rw [hlen]; rfl)
  rw [keyWord, BitVec.toNat_ofNat, Nat.mod_eq_of_lt hlt]
  have hback := natLe_leNat (slice (b.drop (4 * i)) 0 4)
  rwa [hlen] at hback

/-- Words of four bytes, one after another. -/
theorem flatMap_words (b : List Byte) (m : Nat) : ((List.range m).flatMap fun i => slice b (4 * i) 4) = b.take (4 * m) := by
  induction m with
  | zero => rfl
  | succ m ih =>
    rw [List.range_succ, List.flatMap_append, ih, Nat.mul_succ, List.take_add]
    simp [slice]

theorem keyWords_loaded {b : List Byte} (h : 32 ≤ b.length) (s : State) : (s.loaded b).keyWords = b.take 32 := by
  have hwords : ∀ i ∈ List.range 8, natLe 4 ((s.loaded b).reg (aSec (0x010 + 4 * i))).toNat = slice b (4 * i) 4 := fun i hi => by
    have hi8 := List.mem_range.mp hi
    rw [reg_loaded hi8, natLe_keyWord (by omega)]
  rw [State.keyWords, List.flatMap_congr hwords, flatMap_words]

/-! ### The command -/

/-- SEC_KEY_CMD of an INSTALL. -/
def installCmd (n : Nat) (owner : Bool) : W32 := BitVec.ofNat 32 (2 ^ 30 + (if owner then 256 else 0) + n)

theorem installCmd_fields : ∀ (n : Fin 16) (owner : Bool), rfld (installCmd n.val owner) 30 2 = 1 ∧ rfld (installCmd n.val owner) 0 4 = n.val
    ∧ rbit (installCmd n.val owner) 8 = owner := by decide

theorem keyInstall_ne_pend (s t : State) (r : Req) (n : Nat) (owner : Bool) (w : List Byte) : s.keyInstall r n owner w ≠ .pend t := by
  unfold State.keyInstall
  dsimp only
  split
  · exact fun h => by cases h
  · split <;> exact fun h => by cases h

/-- The last word of the nine carries the command out. -/
theorem ctlRun_installCmd (h : s.keysOpen r) (hq : s.rb (aDet 0x100) 1 = false) (n : Fin 16) (owner : Bool) :
    State.seqAnswer r (s.ctlRun r true [(aSec 0x030, installCmd n.val owner)]) = (s.keyInstall r n.val owner s.keyWords).row r (aSec 0x030) := by
  obtain ⟨hop, hslot, howner⟩ := installCmd_fields n owner
  have hwrite : s.writeReg r true true (aSec 0x030) (installCmd n.val owner) = s.wKeyCmd r true (installCmd n.val owner) := rfl
  have hcmd : s.wKeyCmd r true (installCmd n.val owner) = s.keyInstall r n.val owner s.keyWords := by
    simp [State.wKeyCmd, hop, hslot, howner]
  have hctl : s.ctlWrite r true true (aSec 0x030) (installCmd n.val owner) = s.keyInstall r n.val owner s.keyWords := by
    have hinfo : (regInfo (aSec 0x030)).isNone = false := rfl
    simp [State.ctlWrite, hinfo, h.mayWrite (a := aSec 0x030) (by decide), hq, hwrite, hcmd]
  simp only [State.ctlRun, hctl]
  cases hinstall : s.keyInstall r n.val owner s.keyWords with
  | nak t m => rfl
  | pend t => exact absurd hinstall (keyInstall_ne_pend s t r n.val owner s.keyWords)
  | ok t =>
    dsimp only
    split <;> rfl

theorem exec_install {v : W32} (h : TakesWrite s r (aSec 0x030) v) (n : Fin 16) (owner : Bool) (b : List Byte) :
    exec (.install r n owner b) s
      = .next (((s.loaded (b ++ zeros 32)).keyInstall r n.val owner ((b ++ zeros 32).take 32)).row r (aSec 0x030)) := by
  have hexec : exec (.install r n owner b) s = execInstall r n owner b s := rfl
  have hopen := h.keysOpen
  have hregs := loaded_regsOnly s (b ++ zeros 32)
  have hquiet : (s.loaded (b ++ zeros 32)).rb (aDet 0x100) 1 = false := by
    rw [hregs.rb (by decide)]
    exact h.quiet
  have hopen' : (s.loaded (b ++ zeros 32)).keysOpen r := hopen.regs hregs.1
  have hrun : s.ctlRun r true (installPairs n.val owner b)
      = (s.loaded (b ++ zeros 32)).ctlRun r true [(aSec 0x030, installCmd n.val owner)] := by
    rw [installPairs_eq, ctlRun_keyWords (fun i hi => List.mem_range.mp hi) _ _ s hopen, State.loaded, installCmd]
  rw [hexec, execInstall, State.seqRow, h.gate]
  simp only [hrun, ctlRun_installCmd hopen' hquiet]
  rw [keyWords_loaded (by simp [zeros])]
  rfl

/-! ### Refusals, and the key in its slot -/

theorem keyBusy_regs (h : t = { s with regs := t.regs }) (n : Nat) : t.keyBusy n = s.keyBusy n := by
  rw [h]
  rfl

theorem keyMask_regs (h : t = { s with regs := t.regs }) (f : KeySlot → Bool) : t.keyMask f = s.keyMask f := by
  rw [h]
  rfl

/-- Some slot holds an owner key. -/
def State.ownerHeld (s : State) : Prop := s.keyMask (fun (k : KeySlot) => k.present && k.owner) ≠ 0

theorem keyInstall_denied {owner : Bool} (hw : r.who = .i3c) (h : s.ownerHeld ∨ owner = false) (n : Nat) (w : List Byte) :
    s.keyInstall r n owner w = .nak s nkPermission := by
  unfold State.ownerHeld at h
  simp only [State.keyInstall, hw]
  exact if_pos (by simpa using h)

/-- A requester that may install a key with this owner bit, as far as who it is goes. -/
def State.mayInstall (s : State) (r : Req) (owner : Bool) : Prop := r.who = .i3c → ¬ s.ownerHeld ∧ owner = true

theorem keyInstall_allowed {owner : Bool} (h : s.mayInstall r owner) (n : Nat) (w : List Byte) : s.keyInstall r n owner w
    = if s.keyBusy n then .nak s nkBusy
      else .ok (s.placeKey n ((s.key n).holding true owner
        (if r.who == .i3c then w else List.zipWith (· ^^^ ·) w (wrapPad (s.ses (whoIdx r.who)).ks n r.seq)))).clearKeyWords := by
  rw [State.keyInstall]
  refine if_neg fun hdenied => ?_
  simp only [Bool.and_eq_true, beq_iff_eq, Bool.or_eq_true, bne_iff_ne, Bool.not_eq_true'] at hdenied
  obtain ⟨hw, hheld | howner⟩ := hdenied
  · exact (h hw).1 hheld
  · exact absurd (h hw).2 (by simp [howner])

/-- W0 to W7 are cleared, and nothing else changes. -/
theorem clearKeyWords_spec (s : State) : s.clearKeyWords = { s with regs := s.clearKeyWords.regs }
    ∧ ∀ a, s.clearKeyWords.reg a = if a ∈ regBlock (aSec 0x010) 8 then 0 else s.reg a := by
  have hfold : ∀ (l : List Nat) (t : State), t.clearRegs l = { t with regs := (t.clearRegs l).regs }
      ∧ ∀ a, (t.clearRegs l).reg a = if a ∈ l then 0 else t.reg a := by
    intro l
    induction l with
    | nil => exact fun t => ⟨rfl, fun _ => rfl⟩
    | cons b l ih =>
      intro t
      obtain ⟨hframe, hreg⟩ := ih (t.setReg b 0)
      refine ⟨hframe, fun a => ?_⟩
      have hstep : (t.clearRegs (b :: l)).reg a = ((t.setReg b 0).clearRegs l).reg a := rfl
      rw [hstep, hreg, reg_setReg]
      by_cases hb : a = b <;> simp [hb]
  exact hfold (regBlock (aSec 0x010) 8) s

/-- What an INSTALL does where nothing refuses it (R918, R920). -/
def Installs (i : Instr) (s : State) (n : Nat) (owner : Bool) (key : List Byte) : Prop :=
  Runs i s fun t =>
    t = { s with regs := t.regs, keys := t.keys, tasks := t.tasks, cores := t.cores, port := { s.port with macsec := t.port.macsec } }
    ∧ (∀ a, t.reg a = if a ∈ regBlock (aSec 0x010) 8 then 0 else s.reg a) ∧ QueueRestarts s t n
    ∧ (∀ k, t.key k = if k = n then { (s.key k).began true owner key with genTx := (t.key k).genTx } else s.key k)
    ∧ ∀ p, p < 8 → (s.owes n p → SMap.get (t.key n).genTx 0 p = 1
          ∧ t.macsec p = { s.macsec p with rx := (t.macsec p).rx, txGen := 1, txPn := 0 })
        ∧ (¬ s.owes n p → SMap.get (t.key n).genTx 0 p = 0 ∧ t.macsec p = { s.macsec p with rx := (t.macsec p).rx })

/-- A key placed once the words of the command stand in their registers. -/
theorem installs_of {i : Instr} {owner : Bool} {key : List Byte} (hu : RegsOnly s u (regBlock (aSec 0x010) 8)) (hmute : (s.key n).mute.Nodup)
    (hexec : exec i s = .next (u.placeKey n ((u.key n).holding true owner key)).clearKeyWords) : Installs i s n owner key := by
  have hkey : ∀ j, u.key j = s.key j := fun j => by rw [hu.1]; rfl
  have hmacsec : ∀ p, u.macsec p = s.macsec p := fun p => by rw [hu.1]; rfl
  have howes : ∀ p, u.owes n p ↔ s.owes n p := fun p => by
    rw [owes_iff, owes_iff, hkey, sendsUnder_congr fun a ha => hu.reg fun hm => ?_]
    simp only [regBlock, aSec, List.mem_map, List.mem_range] at hm
    omega
  obtain ⟨hframe, ⟨htasks, hcore, hrx⟩, hslot, hports⟩ := placeKey_some_spec u n owner key (by rw [hkey]; exact hmute)
  generalize u.placeKey n ((u.key n).holding true owner key) = v at *
  obtain ⟨hregs, hreg⟩ := clearKeyWords_spec v
  generalize v.clearKeyWords = z at hexec hregs hreg
  refine ⟨z, hexec, ?_, fun a => ?_, ⟨?_, fun m => ?_, fun p hp => ?_⟩, fun j => ?_, fun p hp => ?_⟩
  · rw [hregs, hframe, hu.1]
  · rw [hreg, hframe.reg]
    split
    · rfl
    case isFalse ha => exact hu.reg ha
  · rw [hregs]
    exact htasks.trans (by rw [hu.1])
  · rw [hregs]
    exact (hcore m).trans (by rw [hu.1]; rfl)
  · rw [hregs, ← hmacsec]
    exact hrx p hp
  · rw [hregs, ← hkey]
    exact hslot j
  · rw [hregs, ← hmacsec, ← howes]
    exact hports p hp


/-- An INSTALL that is refused with reason m: its words stand in their registers (R918). -/
def InstallRefused (i : Instr) (s : State) (r : Req) (m : Nat) : Prop :=
  ∃ u, RegsOnly s u (regBlock (aSec 0x010) 8) ∧ exec i s = .next (u.nakReg r m (aSec 0x030))

theorem install_clauses {v : W32} (h : TakesWrite s r (aSec 0x030) v) (n : Fin 16) (owner : Bool) (b : List Byte) :
    let i := Instr.install r n owner b
    let w := (b ++ zeros 32).take 32
    (∀ k, r.who = .sess k → (s.keyBusy n.val = true → InstallRefused i s r nkBusy)
      ∧ (s.keyBusy n.val = false → (s.key n.val).mute.Nodup →
          Installs i s n.val owner (List.zipWith (· ^^^ ·) w (wrapPad (s.ses k.val).ks n.val r.seq))))
    ∧ (r.who = .i3c → (s.ownerHeld ∨ owner = false → InstallRefused i s r nkPermission)
      ∧ (¬ s.ownerHeld → owner = true → s.keyBusy n.val = true → InstallRefused i s r nkBusy)
      ∧ (¬ s.ownerHeld → owner = true → s.keyBusy n.val = false → (s.key n.val).mute.Nodup → Installs i s n.val owner w)) := by
  intro i w
  have hexec := exec_install h n owner b
  have hregs := loaded_regsOnly s (b ++ zeros 32)
  generalize s.loaded (b ++ zeros 32) = u at hexec hregs
  have hbusy := keyBusy_regs hregs.1 n.val
  have hheld : u.ownerHeld ↔ s.ownerHeld := by rw [State.ownerHeld, keyMask_regs hregs.1, State.ownerHeld]
  have hrefused : ∀ {m}, u.keyInstall r n.val owner w = .nak u m → InstallRefused i s r m := fun hm => ⟨u, hregs, by rw [hexec, hm]; rfl⟩
  refine ⟨fun k hw => ?_, fun hw => ⟨fun hno => ?_, fun hnone howner hb => ?_, fun hnone howner hb hmute => ?_⟩⟩
  · have hmay : u.mayInstall r owner := fun hi3c => by rw [hw] at hi3c; cases hi3c
    have hinstall := keyInstall_allowed hmay n.val w
    rw [hbusy] at hinstall
    refine ⟨fun hb => hrefused (by rw [hinstall, hb]; rfl), fun hb hmute => installs_of hregs hmute ?_⟩
    rw [hexec, hinstall, hb, hw, hregs.1]
    rfl
  · exact hrefused (keyInstall_denied hw (hno.imp_left hheld.mpr) n.val w)
  · have hinstall := keyInstall_allowed (fun _ => ⟨fun hh => hnone (hheld.mp hh), howner⟩ : u.mayInstall r owner) n.val w
    exact hrefused (by rw [hinstall, hbusy, hb]; rfl)
  · have hinstall := keyInstall_allowed (fun _ => ⟨fun hh => hnone (hheld.mp hh), howner⟩ : u.mayInstall r owner) n.val w
    refine installs_of hregs hmute ?_
    rw [hexec, hinstall, hbusy, hb, hw]
    rfl

end Sys2Proof.Machine
end

section
namespace Sys2Proof.Machine

/-! ## ERASE and ERASE_ALL (R225, R917, R919, R920) -/

variable {s t u : State} {r : Req} {k n : Nat}

/-! ### Queue pairs that go with a key -/

/-- A map of which only some keys are kept. -/
theorem SMap.get_filter {α : Type} (m : SMap α) (d : α) (keep : Nat → Bool) (j : Nat) :
    SMap.get (m.filter fun e => keep e.1) d j = if keep j then SMap.get m d j else d := by
  have hfind : (m.filter fun e => keep e.1).find? (fun e => e.1 == j) = if keep j then m.find? (fun e => e.1 == j) else none := by
    rw [List.find?_filter]
    split
    case isTrue hj => exact List.find?_congr fun e _ => by by_cases he : e.1 = j <;> simp [he, hj]
    case isFalse hj => exact List.find?_eq_none.mpr fun e _ => by by_cases he : e.1 = j <;> simp [he, hj]
  rw [SMap.get, hfind]
  cases keep j <;> rfl

/-- The queue pairs that p does not name stay, and nothing else changes but READ responses that waited. -/
theorem killQps_spec (s : State) (p : Nat → Qp → Bool) :
    s.killQps p = { s with qps := (s.killQps p).qps, port := { s.port with held := (s.killQps p).port.held } }
    ∧ (∀ f ∈ (s.killQps p).port.held, f ∈ s.port.held) ∧ ∀ j, (s.killQps p).qp? j = (s.qp? j).filter fun x => !p j x := by
  refine ⟨rfl, fun f hf => List.mem_of_mem_filter hf, fun j => ?_⟩
  have hget : (s.killQps p).qp? j = if !(match s.qp? j with | some x => p j x | none => false) then s.qp? j else none :=
    SMap.get_filter s.qps none (fun i => !(match s.qp? i with | some x => p i x | none => false)) j
  rw [hget]
  cases hj : s.qp? j with
  | none => rfl
  | some x => by_cases hp : p j x <;> simp [hp, Option.filter]

theorem foldl_dropQps (l : List Nat) (s : State) :
    l.foldl State.dropQps s = { s with qps := (l.foldl State.dropQps s).qps, port := { s.port with held := (l.foldl State.dropQps s).port.held } }
    ∧ (∀ f ∈ (l.foldl State.dropQps s).port.held, f ∈ s.port.held)
    ∧ ∀ j, (l.foldl State.dropQps s).qp? j = (s.qp? j).filter fun x => decide (x.sess ∉ l) := by
  induction l generalizing s with
  | nil => exact ⟨rfl, fun f hf => hf, fun j => by cases h : s.qp? j <;> simp [h, Option.filter]⟩
  | cons i l ih =>
    obtain ⟨hframe, hheld, hqp⟩ := ih (s.dropQps i)
    obtain ⟨hframe1, hheld1, hqp1⟩ := killQps_spec s fun _ x => x.sess == i
    refine ⟨?_, fun f hf => hheld1 f (hheld f hf), fun j => ?_⟩
    · rw [List.foldl_cons, hframe, State.dropQps, hframe1]
    · rw [List.foldl_cons, hqp, State.dropQps, hqp1, Option.filter_filter]
      refine congrArg (fun f => (s.qp? j).filter f) (funext fun x => ?_)
      by_cases hx : x.sess = i <;> simp [hx]

/-- The queue pair belongs to a session slot that binds key n. -/
def State.boundTo (s : State) (n : Nat) (x : Qp) : Prop := x.sess < 8 ∧ s.slotKey x.sess = n

theorem dropKeyQps_spec (s : State) (n : Nat) :
    s.dropKeyQps n = { s with qps := (s.dropKeyQps n).qps, port := { s.port with held := (s.dropKeyQps n).port.held } }
    ∧ (∀ f ∈ (s.dropKeyQps n).port.held, f ∈ s.port.held)
    ∧ ∀ j x, (s.dropKeyQps n).qp? j = some x ↔ s.qp? j = some x ∧ ¬ s.boundTo n x := by
  obtain ⟨hframe, hheld, hqp⟩ := foldl_dropQps ((List.range 8).filter fun k => s.slotKey k == n) s
  refine ⟨hframe, hheld, fun j x => ?_⟩
  rw [State.dropKeyQps, hqp, Option.filter_eq_some_iff]
  simp [State.boundTo, imp_iff_not_or]

/-! ### ERASE -/

/-- SEC_KEY_CMD of an ERASE. -/
def eraseCmd (n : Nat) : W32 := BitVec.ofNat 32 (2 * 2 ^ 30 + n)

theorem eraseCmd_fields : ∀ n : Fin 16, rfld (eraseCmd n.val) 30 2 = 2 ∧ rfld (eraseCmd n.val) 0 4 = n.val := by decide

theorem exec_erase {k : Fin 8} (n : Fin 16) (hw : r.who = .sess k) (h : TakesWrite s r (aSec 0x030) (eraseCmd n.val)) :
    exec (.erase r n) s = .next ((s.keyErase n.val).row r (aSec 0x030)) := by
  obtain ⟨hop, hslot⟩ := eraseCmd_fields n
  have hexec : exec (.erase r n) s = .next (s.regRow r (aSec 0x030) (eraseCmd n.val)) := rfl
  have hwrite : s.writeReg r false false (aSec 0x030) (eraseCmd n.val) = s.wKeyCmd r false (eraseCmd n.val) := rfl
  have hinfo : regInfo (aSec 0x030) ≠ none := Option.some_ne_none _
  rw [hexec, h.regRow_eq hinfo, hwrite]
  simp [State.wKeyCmd, hop, hslot, hw]

/-- Slot n holds the only owner key. -/
def State.lastOwner (s : State) (n : Nat) : Prop := s.keyMask (fun (k : KeySlot) => k.present && k.owner) = 2 ^ n

theorem keyErase_last (h : s.lastOwner n) : s.keyErase n = .nak s nkConflict := if_pos h

theorem keyErase_kept (h : ¬ s.lastOwner n) : s.keyErase n = if s.keyBusy n then .nak s nkBusy
    else .ok ((s.placeKey n ((s.key n).holding false false [])).dropKeyQps n).clearKeyWords := if_neg h

/-- A slot erased: its key, its queue and its queue pairs are gone. -/
theorem runs_erase {k : Fin 8} (n : Fin 16) (hw : r.who = .sess k) (h : TakesWrite s r (aSec 0x030) (eraseCmd n.val))
    (hlast : ¬ s.lastOwner n.val) (hb : s.keyBusy n.val = false) : Runs (.erase r n) s fun t =>
      t = { s with regs := t.regs, keys := t.keys, qps := t.qps, tasks := t.tasks, cores := t.cores,
                   port := { s.port with macsec := t.port.macsec, held := t.port.held } }
      ∧ (∀ q x, t.qp? q = some x → ¬ s.boundTo n.val x) ∧ (∀ q x, s.qp? q = some x → ¬ s.boundTo n.val x → t.qp? q = some x)
      ∧ (∀ f ∈ t.port.held, f ∈ s.port.held) ∧ QueueRestarts s t n.val
      ∧ (∀ a, t.reg a = if a ∈ regBlock (aSec 0x010) 8 then 0 else s.reg a)
      ∧ ∀ k, t.key k = if k = n.val then (s.key k).began false false [] else s.key k := by
  have hexec := exec_erase n hw h
  have herase : s.keyErase n.val
      = .ok ((s.placeKey n.val ((s.key n.val).holding false false [])).dropKeyQps n.val).clearKeyWords := by
    rw [keyErase_kept hlast, hb]
    rfl
  obtain ⟨hframe, ⟨htasks, hcore, hrx⟩, hslot⟩ := placeKey_none_spec s n.val
  generalize s.placeKey n.val ((s.key n.val).holding false false []) = v at *
  have hbound : ∀ x, v.boundTo n.val x ↔ s.boundTo n.val x := fun x => by
    rw [State.boundTo, State.slotKey, rf_of_reg (hframe.reg _)]
    rfl
  have hqps : ∀ q, v.qp? q = s.qp? q := fun q => by rw [hframe]; rfl
  obtain ⟨hdrop, hheld, hqp⟩ := dropKeyQps_spec v n.val
  generalize v.dropKeyQps n.val = w at *
  obtain ⟨hregs, hreg⟩ := clearKeyWords_spec w
  rw [herase] at hexec
  generalize w.clearKeyWords = z at hexec hregs hreg
  refine ⟨_, hexec, ?_⟩
  simp only [WRes.row_ok]
  refine ⟨?_, fun q x hx => ?_, fun q x hx hn => ?_, fun f hf => ?_, ⟨?_, fun m => ?_, fun p hp => ?_⟩, fun a => ?_, fun j => ?_⟩
  · rw [hregs, hdrop, hframe]
  · rw [hregs] at hx
    rw [← hbound]
    exact ((hqp q x).mp hx).2
  · rw [hregs]
    exact (hqp q x).mpr ⟨(hqps q).trans hx, fun hb => hn ((hbound x).mp hb)⟩
  · rw [hregs] at hf
    have hv := hheld f hf
    rwa [hframe] at hv
  · rw [hregs, hdrop]
    exact htasks
  · rw [hregs, hdrop]
    exact hcore m
  · rw [hregs, hdrop]
    exact hrx p hp
  · rw [hreg, hdrop]
    split
    · rfl
    · exact hframe.reg a
  · rw [hregs, hdrop]
    exact hslot j

theorem erase_clauses {k : Fin 8} (n : Fin 16) (hw : r.who = .sess k) (h : TakesWrite s r (aSec 0x030) (eraseCmd n.val)) :
    (s.lastOwner n.val → exec (.erase r n) s = .next (s.nakReg r nkConflict (aSec 0x030)))
    ∧ (¬ s.lastOwner n.val → s.keyBusy n.val = true → exec (.erase r n) s = .next (s.nakReg r nkBusy (aSec 0x030))) := by
  refine ⟨fun hlast => ?_, fun hlast hb => ?_⟩
  · rw [exec_erase n hw h, keyErase_last hlast, WRes.row_nak]
  · rw [exec_erase n hw h, keyErase_kept hlast, hb]
    rfl

end Sys2Proof.Machine
end

section
namespace Sys2Proof.Machine

/-! ## ERASE_ALL (R225, R917, R920) -/

variable {s t u : State} {r : Req} {k n : Nat}

/-! ### Every slot is emptied -/

/-- Slot k is emptied. -/
def State.keyless (s : State) (k : Nat) : State := s.placeKey k ((s.key k).holding false false [])

theorem foldl_keyless (l : List Nat) (s : State) : let t := l.foldl State.keyless s
    (∀ j, t.key j = if j ∈ l then (s.key j).began false false [] else s.key j)
    ∧ t.tasks = s.tasks.filter (fun x => decide (x.key ∉ l) || x.accepted)
    ∧ ∀ m, t.core m = { s.core m with owner := if (s.core m).owner.1 ∈ l then (0, 0) else (s.core m).owner } := by
  induction l generalizing s with
  | nil => exact ⟨fun j => rfl, by simp, fun m => rfl⟩
  | cons k l ih =>
    obtain ⟨hkeys, htasks, hcores⟩ := ih (s.keyless k)
    obtain ⟨-, ⟨htasks1, hcores1, -⟩, hkeys1⟩ := placeKey_none_spec s k
    rw [← State.keyless] at htasks1 hcores1 hkeys1
    refine ⟨fun j => ?_, ?_, fun m => ?_⟩
    · rw [List.foldl_cons, hkeys, hkeys1]
      by_cases hj : j = k
      · subst hj
        by_cases hl : j ∈ l <;> simp [hl, KeySlot.began]
      · simp [hj]
    · rw [List.foldl_cons, htasks, htasks1, List.filter_filter]
      refine List.filter_congr fun x _ => ?_
      by_cases hx : x.key = k <;> simp +contextual [hx]
    · rw [List.foldl_cons, hcores, hcores1]
      by_cases hm : (s.core m).owner.1 = k
      · simp [hm]
      · simp [hm]

/-! ### Sessions close with no task under way -/

/-- With no task under way, no key slot and no core changes, and still none is. -/
def Idles (s t : State) : Prop := s.tasks = [] → t.keys = s.keys ∧ t.cores = s.cores ∧ t.tasks = []

theorem Idles.refl (s : State) : Idles s s := fun h => ⟨rfl, rfl, h⟩

theorem Idles.trans (h : Idles s t) (g : Idles t u) : Idles s u := fun h0 => by
  obtain ⟨hkeys, hcores, htasks⟩ := h h0
  obtain ⟨hkeys', hcores', htasks'⟩ := g htasks
  exact ⟨hkeys'.trans hkeys, hcores'.trans hcores, htasks'⟩

theorem idles_foldl {α : Type} {f : State → α → State} (h : ∀ s x, Idles s (f s x)) (l : List α) (s : State) : Idles s (l.foldl f s) :=
  foldl_keeps .refl .trans h l s

theorem idles_closeSession (s : State) (i : Nat) : Idles s (s.closeSession i) := fun h => ⟨rfl, rfl, by rw [State.closeSession, h]; rfl⟩

theorem idles_failTask (s : State) (key asn status detail : Nat) : Idles s (s.failTask key asn status detail) := fun h => by
  have hnone : s.task? key asn = none := by rw [State.task?, h]; rfl
  rw [State.failTask, hnone]
  exact Idles.refl s h

theorem idles_lostRank (s : State) (q : Nat) : Idles s (s.lostRank q) :=
  (idles_foldl (fun t (x : Exch) => idles_failTask t x.op.key x.op.asn stDataLost 0xFFFB) (s.exch.filter fun x => x.needs q) s).trans
    fun h => ⟨rfl, rfl, h⟩

theorem Idles.discard (h : Idles s t) : Idles s { t with rounds := [], lookups := [] } := h.trans fun h0 => ⟨rfl, rfl, h0⟩

theorem idles_closePeers (s : State) : Idles s s.closePeers := by
  have hrank : ∀ (t : State) (q : Nat), Idles t (if (t.ses (16 + q)).isOpen then (t.closeSession (16 + q)).lostRank q else t) := by
    intro t q
    split
    · exact (idles_closeSession t _).trans (idles_lostRank _ q)
    · exact .refl t
  exact (idles_foldl hrank (List.range 256) s).discard

/-- The eight slots' sessions close. -/
def State.partnersClosed (s : State) : State := (List.range 8).foldl State.closeSession s

/-- Every queue pair goes, the peers reached are counted again and W0-W7 are cleared. -/
def State.qpsCut (s : State) : State := (s.killQps fun _ _ => true).countReached.pfcSync.clearKeyWords

theorem countReached_frame (s : State) : s.countReached = { s with regs := s.countReached.regs } := rfl

theorem pfcSync_frame (s : State) : Idles s s.pfcSync ∧ s.pfcSync.sess = s.sess ∧ s.pfcSync.qps = s.qps := by
  obtain ⟨_, _, hsync, -⟩ := pfcSync_only s
  rw [hsync]
  exact ⟨fun h => ⟨rfl, rfl, h⟩, rfl, rfl⟩

theorem qpsCut_spec (s : State) : Idles s s.qpsCut ∧ s.qpsCut.sess = s.sess ∧ ∀ q, s.qpsCut.qp? q = none := by
  obtain ⟨hkill, -, hqp⟩ := killQps_spec s fun _ _ => true
  rw [State.qpsCut]
  generalize s.killQps (fun _ _ => true) = w at hkill hqp ⊢
  have hcount := countReached_frame w
  generalize w.countReached = x at hcount ⊢
  obtain ⟨hidle, hsess, hqps⟩ := pfcSync_frame x
  generalize x.pfcSync = y at hidle hsess hqps ⊢
  obtain ⟨hclear, -⟩ := clearKeyWords_spec y
  generalize y.clearKeyWords = z at hclear ⊢
  have hw : Idles s w := fun h => by rw [hkill]; exact ⟨rfl, rfl, h⟩
  have hx : Idles w x := fun h => by rw [hcount]; exact ⟨rfl, rfl, h⟩
  have hz : Idles y z := fun h => by rw [hclear]; exact ⟨rfl, rfl, h⟩
  refine ⟨((hw.trans hx).trans hidle).trans hz, ?_, fun q => ?_⟩
  · rw [hclear, hsess, hcount, hkill]
  · have hz : z.qps = w.qps := by rw [hclear, hqps, hcount]
    rw [State.qp?, hz, ← State.qp?, hqp, Option.filter_eq_none_iff]
    simp

/-- Every session closes, and every queue pair goes. -/
def State.cutOff (s : State) : State := s.closePeers.partnersClosed.qpsCut

theorem cutOff_spec (s : State) : Idles s s.cutOff ∧ (∀ i, i < 8 → (s.cutOff.ses i).isOpen = false) ∧ ∀ q, s.cutOff.qp? q = none := by
  have hidle : Idles s s.closePeers.partnersClosed :=
    (idles_closePeers s).trans (idles_foldl idles_closeSession (List.range 8) s.closePeers)
  have hclosed := (foldl_closeSession (List.range 8) s.closePeers).2
  rw [← State.partnersClosed] at hclosed
  rw [State.cutOff]
  generalize s.closePeers.partnersClosed = v at hidle hclosed ⊢
  obtain ⟨hcut, hsess, hqp⟩ := qpsCut_spec v
  refine ⟨hidle.trans hcut, fun i hi => ?_, hqp⟩
  have hi8 := hclosed i
  rw [if_pos (List.mem_range.mpr hi)] at hi8
  rw [State.ses, hsess, ← State.ses, hi8]

/-! ### The command -/

/-- SEC_KEY_CMD of ERASE_ALL. -/
def eraseAllCmd : W32 := BitVec.ofNat 32 (3 * 2 ^ 30)

theorem exec_eraseAll (h : TakesWrite s r (aSec 0x030) eraseAllCmd) :
    exec (.eraseAll r) s = .next ((if r.who == .i3c then s.keyEraseAll else .nak s nkPermission).row r (aSec 0x030)) := by
  have hexec : exec (.eraseAll r) s = .next (s.regRow r (aSec 0x030) eraseAllCmd) := rfl
  have hwrite : s.writeReg r false false (aSec 0x030) eraseAllCmd = s.wKeyCmd r false eraseAllCmd := rfl
  have hinfo : regInfo (aSec 0x030) ≠ none := Option.some_ne_none _
  have hop : rfld eraseAllCmd 30 2 = 3 := by decide
  rw [hexec, h.regRow_eq hinfo, hwrite]
  simp [State.wKeyCmd, hop]

theorem keyEraseAll_tasks (h : ∃ x ∈ s.tasks, x.accepted = true) : s.keyEraseAll = .nak s nkBusy :=
  if_pos (List.any_eq_true.mpr h)

/-- The slots' results are marked as read. -/
def State.resultsCleared (s : State) : State := (List.range 16).foldl (fun t k => t.clearSlots k (t.key k).unreleased) s

theorem keyEraseAll_idle (h : ∀ x ∈ s.tasks, x.accepted = false) :
    s.keyEraseAll = .ok ((List.range 16).foldl State.keyless s.resultsCleared).cutOff := by
  have hnone : ¬ s.tasks.any (·.accepted) = true := fun hany => by
    obtain ⟨x, hx, ha⟩ := List.any_eq_true.mp hany
    rw [h x hx] at ha
    cases ha
  exact if_neg hnone

theorem runs_eraseAll (hw : r.who = .i3c) (h : TakesWrite s r (aSec 0x030) eraseAllCmd)
    (hidle : ∀ x ∈ s.tasks, x.accepted = false ∧ x.key < 16) : Runs (.eraseAll r) s fun t => (∀ i, i < 8 → (t.ses i).isOpen = false)
      ∧ (∀ k, k < 16 → t.key k = (s.key k).began false false []) ∧ (∀ q, t.qp? q = none) ∧ t.tasks = []
      ∧ ∀ m, t.core m = { s.core m with owner := if (s.core m).owner.1 < 16 then (0, 0) else (s.core m).owner } := by
  have hexec := exec_eraseAll h
  rw [hw, keyEraseAll_idle fun x hx => (hidle x hx).1] at hexec
  obtain ⟨rg, dm, bad, m, hcleared⟩ := foldl_dome _ (fun (t : State) k => clearSlots_dome t k (t.key k).unreleased) (List.range 16) s
  rw [← State.resultsCleared] at hcleared
  obtain ⟨hkeys, htasks, hcores⟩ := foldl_keyless (List.range 16) s.resultsCleared
  generalize (List.range 16).foldl State.keyless s.resultsCleared = v at *
  have hempty : v.tasks = [] := by
    rw [htasks, hcleared]
    refine List.filter_eq_nil_iff.mpr fun x hx => ?_
    obtain ⟨ha, hk⟩ := hidle x hx
    simp [ha, hk]
  obtain ⟨hidles, hclosed, hqps⟩ := cutOff_spec v
  obtain ⟨hkeys', hcores', htasks'⟩ := hidles hempty
  refine ⟨v.cutOff, hexec, hclosed, fun k hk => ?_, hqps, htasks', fun j => ?_⟩
  · rw [key_of_keys hkeys', hkeys, if_pos (List.mem_range.mpr hk), hcleared]
    rfl
  · have hcore : v.cutOff.core j = v.core j := by rw [State.core, hcores', State.core]
    rw [hcore, hcores, hcleared]
    simp only [List.mem_range]
    rfl

theorem eraseAll_clauses (h : TakesWrite s r (aSec 0x030) eraseAllCmd) :
    (∀ k, r.who = .sess k → exec (.eraseAll r) s = .next (s.nakReg r nkPermission (aSec 0x030)))
    ∧ (r.who = .i3c → (∃ x ∈ s.tasks, x.accepted = true) → exec (.eraseAll r) s = .next s) := by
  refine ⟨fun k hw => ?_, fun hw htasks => ?_⟩
  · rw [exec_eraseAll h, hw]
    rfl
  · rw [exec_eraseAll h, keyEraseAll_tasks htasks, hw]
    simp [State.nakReg, hw]

end Sys2Proof.Machine
end

section
namespace Sys2Proof.Machine

/-! ## GO of SEC_ATT_CMD and of DET_SIGN_CMD (R855, R856, R912-R915, R930) -/

variable {s t : State} {r : Req} {a c n : Nat} {v : W32}

/-! ### The check of a write -/

/-- A register beside the windows, the regions and the glacier tier's has no part in the check of a write. -/
theorem checkWrite_setReg (s : State) (ha : 0x60000 ≤ a) (hc : c < 16) (v : W32) (x n : Nat) : (s.setReg a v).checkAcc c x n .wr = s.checkAcc c x n .wr := by
  have hreg : ∀ b, b < 0x60000 → (s.setReg a v).reg b = s.reg b := fun b hb => by rw [reg_setReg, if_neg (by omega)]
  have hwin : ∀ w ∈ List.range 64, ∀ off, off < 0x10 → (s.setReg a v).reg (aWin c w + off) = s.reg (aWin c w + off) := fun w hw off ho => by
    rw [List.mem_range] at hw
    exact hreg _ (by simp only [aWin]; omega)
  have hplaces : SamePlaces s (s.setReg a v) := ⟨fun b _ hb => hreg b (by omega), rfl, rfl⟩
  have hcovers : ∀ w ∈ List.range 64, (s.setReg a v).winCovers c w x n = s.winCovers c w x n := fun w hw => by
    have hbase := hwin w hw 0 (by decide)
    rw [Nat.add_zero] at hbase
    simp only [State.winCovers, State.winValid, State.winBase, State.winLen, hbase, hwin w hw 8 (by decide),
      rf_of_reg (hwin w hw 4 (by decide)), rb_of_reg (hwin w hw 12 (by decide))]
  have hcover : ((List.range 64).filter fun w => (s.setReg a v).winCovers c w x n) = (List.range 64).filter fun w => s.winCovers c w x n :=
    List.filter_congr hcovers
  have hgrants : (((List.range 64).filter fun w => s.winCovers c w x n).find? fun w => (s.setReg a v).winGrants c w .wr)
      = ((List.range 64).filter fun w => s.winCovers c w x n).find? fun w => s.winGrants c w .wr :=
    List.find?_congr fun w hw => rb_of_reg (hwin w (List.mem_of_mem_filter hw) 12 (by decide)) _
  have hunbacked : (s.setReg a v).unbackedAt = s.unbackedAt := funext hplaces.unbackedAt
  have hlost : (s.setReg a v).lostAt = s.lostAt := funext hplaces.lostAt
  have haccess : (s.setReg a v).access c x n .wr = s.access c x n .wr := by
    simp only [State.access, hcover, hgrants, hunbacked, hlost]
  have hfirst : (s.setReg a v).firstBad x n false = s.firstBad x n false := by
    simp only [State.firstBad, hlost, Bool.false_eq_true, if_false]
  have hwr : (Perm.wr == Perm.rd) = false := rfl
  simp only [State.checkAcc, haccess, hwr, hfirst]

/-! ### A signature index -/

theorem reserveIndex_none (h : 2 ^ 40 < s.smd.nextResv + 4096 ∨ Config.mramFails s.draws = true) :
    ∃ d, s.reserveIndex = (none, { s with draws := d }) := by
  rw [State.reserveIndex]
  split
  · exact ⟨s.draws, rfl⟩
  case isFalse hlow => exact ⟨s.draws + 1, if_pos (h.resolve_left hlow)⟩

/-- A new block is reserved, and its first index taken. -/
def Smd.reserved (m : Smd) : Smd := { m with nextResv := m.nextResv + 4096, block := some (m.nextResv + 1, m.nextResv + 4096) }

theorem reserveIndex_some (hlow : ¬ 2 ^ 40 < s.smd.nextResv + 4096) (hmram : Config.mramFails s.draws ≠ true) : 
    s.reserveIndex = (some s.smd.nextResv, { s with draws := s.draws + 1, smd := s.smd.reserved }) := by
  rw [State.reserveIndex, if_neg hlow]
  exact if_neg hmram

theorem takeIndex_reserves (h : ∀ n e, s.smd.block = some (n, e) → e ≤ n) : s.takeIndex = s.reserveIndex := by
  rw [State.takeIndex]
  split
  case h_1 n e hblock => exact if_neg (Nat.not_lt.mpr (h n e hblock))
  · rfl

/-- Where no index can be had, none is taken. -/
theorem takeIndex_none (h : s.noIndex) : ∃ d, s.takeIndex = (none, { s with draws := d }) := by
  obtain ⟨hused, hnone⟩ := h
  rw [takeIndex_reserves hused]
  exact reserveIndex_none hnone

/-- Else one is: of the block held, or of a new one. -/
theorem takeIndex_some (h : ¬ s.noIndex) : ∃ i d m, s.takeIndex = (some i, { s with draws := d, smd := m })
    ∧ TakesIndex s { s with draws := d, smd := m } i := by
  by_cases hused : ∀ n e, s.smd.block = some (n, e) → e ≤ n
  · obtain ⟨hlow, hmram⟩ := not_or.mp fun hnone => h ⟨hused, hnone⟩
    refine ⟨_, _, _, (takeIndex_reserves hused).trans (reserveIndex_some hlow hmram),
      fun n e hblock hlt => absurd (hused n e hblock) (Nat.not_le.mpr hlt), fun _ => ⟨rfl, rfl, rfl, Nat.not_lt.mp hlow⟩⟩
  · push Not at hused
    obtain ⟨n, e, hblock, hlt⟩ := hused
    have htake : s.takeIndex = (some n, { s with smd := { s.smd with block := some (n + 1, e) } }) := by
      rw [State.takeIndex, hblock]
      exact if_pos hlt
    refine ⟨n, s.draws, _, htake, fun n' e' hblock' _ => ?_, fun hall => absurd (hall n e hblock) (Nat.not_le.mpr hlt)⟩
    obtain ⟨rfl, rfl⟩ := Prod.mk.inj (Option.some.inj (hblock.symm.trans hblock'))
    exact ⟨rfl, rfl, rfl⟩

/-! ### A signing that begins -/

/-- What both GO commands do once their refusal is known, 0 for none: it stands in the status register st, or an index is taken and the
job of that index begins. -/
def State.startSigning (s : State) (st bad : Nat) (job : Smd → Nat → Smd) : State :=
  if bad ≠ 0 then s.setF st 0 16 bad
  else match s.takeIndex with
    | (none, t) => t.setF st 0 16 nkState
    | (some i, t) => { t with smd := job t.smd i }.setB st 31 true

theorem startSigning_refused {bad : Nat} (hbad : bad ≠ 0) (st : Nat) (job : Smd → Nat → Smd) : s.startSigning st bad job = s.setF st 0 16 bad :=
  if_pos hbad

theorem startSigning_allowed (s : State) (st : Nat) (job : Smd → Nat → Smd) : s.startSigning st 0 job = match s.takeIndex with
    | (none, t) => t.setF st 0 16 nkState
    | (some i, t) => { t with smd := job t.smd i }.setB st 31 true := if_neg fun h => h rfl

theorem startSigning_taken {i : Nat} (h : s.takeIndex = (some i, t)) (st : Nat) (job : Smd → Nat → Smd) :
    s.startSigning st 0 job = { t with smd := job t.smd i }.setB st 31 true := by rw [startSigning_allowed, h]

theorem startSigning_untaken (h : s.takeIndex = (none, t)) (st : Nat) (job : Smd → Nat → Smd) :
    s.startSigning st 0 job = t.setF st 0 16 nkState := by rw [startSigning_allowed, h]

/-- A reason stands in a status register after the command's own register was written. -/
theorem reason_stands (cmd st : Nat) (x : W32) (hn : n < 2 ^ 16) :
    RegsOnly s ((s.setReg cmd x).setF st 0 16 n) [cmd, st] ∧ ((s.setReg cmd x).setF st 0 16 n).rf st 0 16 = n := by
  refine ⟨((RegsOnly.refl s _).setReg (List.mem_cons_self ..) x).setF (by simp) 0 16 n, ?_⟩
  rw [State.rf, State.setF, reg_setReg_self, rfld_rput_same _ _ (by decide), Nat.mod_eq_of_lt hn]

/-- A GO that is refused with reason bad. -/
theorem startSigning_fails {bad : Nat} (hbad : bad ≠ 0) (hlt : bad < 2 ^ 16) (cmd st : Nat) (x : W32) (job : Smd → Nat → Smd) :
    let t := (s.setReg cmd x).startSigning st bad job
    RegsOnly s t [cmd, st] ∧ t.rf st 0 16 = bad := by
  rw [startSigning_refused hbad]
  exact reason_stands cmd st x hlt

/-- A GO that finds no index left. -/
theorem startSigning_noIndex (h : s.noIndex) (cmd st : Nat) (x : W32) (job : Smd → Nat → Smd) :
    let t := (s.setReg cmd x).startSigning st 0 job
    RegsOnly { s with draws := t.draws } t [cmd, st] ∧ t.rf st 0 16 = nkState := by
  obtain ⟨d, htake⟩ := takeIndex_none (s := s.setReg cmd x) h
  rw [startSigning_untaken htake]
  exact reason_stands (s := { s with draws := d }) cmd st x (by decide)

theorem setB_stands (s : State) (st : Nat) : (s.setB st 31 true).rb st 31 = true := by
  rw [State.rb, setB_eq, reg_setReg_self, rbit_rputBit _ _ (by decide), if_pos rfl]

/-- A GO that begins its job under an index. -/
theorem startSigning_starts (h : ¬ s.noIndex) (cmd st : Nat) (x : W32) {job : Smd → Nat → Smd}
    (hjob : ∀ m i, (job m i).block = m.block ∧ (job m i).nextResv = m.nextResv) :
    let t := (s.setReg cmd x).startSigning st 0 job
    t = { s with regs := t.regs, smd := t.smd, draws := t.draws } ∧ t.rb st 31 = true ∧ ∃ i, TakesIndex s t i ∧ ∃ m, t.smd = job m i := by
  obtain ⟨i, d, m, htake, hblock, hresv⟩ := takeIndex_some (s := s.setReg cmd x) h
  obtain ⟨hjblock, hjresv⟩ := hjob m i
  rw [startSigning_taken htake]
  refine ⟨?_, setB_stands _ st, i, ⟨fun n e hn hlt => ?_, fun hall => ?_⟩, m, rfl⟩
  · rw [setB_eq]
    generalize rputBit _ 31 true = y
    rfl
  · obtain ⟨hi, hb, hr⟩ := hblock n e hn hlt
    exact ⟨hi, hjblock.trans hb, hjresv.trans hr⟩
  · obtain ⟨hi, hb, hr, hlow⟩ := hresv hall
    exact ⟨hi, hjblock.trans hb, hjresv.trans hr, hlow⟩

/-- No signing runs. -/
theorem signing_iff : s.signing = false ↔ s.smd.sign = none ∧ s.smd.att = none := by
  rw [State.signing, Bool.or_eq_false_iff, Option.isSome_eq_false_iff, Option.isSome_eq_false_iff, Option.isNone_iff_eq_none, Option.isNone_iff_eq_none]

end Sys2Proof.Machine
end

section
namespace Sys2Proof.Machine

variable {s : State} {r : Req} {v : W32}

/-! ### GO of SEC_ATT_CMD (R930, R931) -/

/-- Why an attestation cannot begin: a NAK reason, or 0. -/
def State.attRefusal (s : State) (c : Nat) : Nat :=
  if s.signing then nkBusy else if (s.checkAcc c s.attDst (0xC0 + sigLen) .wr).isSome then nkPermission else 0

/-- The attestation that begins under index i. -/
def State.attJob (s : State) (i : Nat) : AttJob :=
  { dst := s.attDst, nonce := (List.range 8).flatMap fun w => natLe 4 (s.reg (aSec (0x040 + 4 * w))).toNat, index := i }

/-- The SMD with an attestation under way. -/
def Smd.attesting (m : Smd) (j : AttJob) : Smd := { m with att := some j }

theorem attRefusal_free (h : s.smd.sign = none ∧ s.smd.att = none) (c : Nat) :
    s.attRefusal c = if (s.checkAcc c s.attDst (0xC0 + sigLen) .wr).isSome then nkPermission else 0 := by
  rw [State.attRefusal, signing_iff.mpr h]
  rfl

theorem attGo_eq (s : State) (c : Nat) :
    s.attGo c = s.startSigning (aSec 0x06C) (s.attRefusal c) fun m i => m.attesting (s.attJob i) := by
  rw [State.attGo, State.startSigning, State.attRefusal]
  cases s.signing
  · cases (s.checkAcc c s.attDst (0xC0 + sigLen) .wr).isSome <;> rfl
  · rfl

/-- The command's own register has no part in its checks, nor in the job. -/
theorem attestation_setReg (s : State) {c : Nat} (hc : c < 16) (x : W32) : (s.setReg (aSec 0x068) x).attRefusal c = s.attRefusal c
    ∧ ∀ i, (s.setReg (aSec 0x068) x).attJob i = s.attJob i := by
  have hreg : ∀ off, off ≠ 0x068 → (s.setReg (aSec 0x068) x).reg (aSec off) = s.reg (aSec off) := fun off ho => by
    rw [reg_setReg, if_neg (by simp only [aSec]; omega)]
  have hdst : (s.setReg (aSec 0x068) x).attDst = s.attDst := by
    rw [State.attDst, hreg _ (by decide), rf_of_reg (hreg 0x064 (by decide)), State.attDst]
  have hnonce : ((List.range 8).flatMap fun w => natLe 4 ((s.setReg (aSec 0x068) x).reg (aSec (0x040 + 4 * w))).toNat)
      = (List.range 8).flatMap fun w => natLe 4 (s.reg (aSec (0x040 + 4 * w))).toNat :=
    List.flatMap_congr fun w hw => by
      rw [List.mem_range] at hw
      rw [hreg _ (by omega)]
  refine ⟨?_, fun i => by rw [State.attJob, hdst, hnonce, State.attJob]⟩
  rw [State.attRefusal, hdst, checkWrite_setReg s (by decide) hc, State.attRefusal]
  rfl

theorem exec_attestationGo (hgo : rbit v 31 = true) (h : TakesWrite s r (aSec 0x068) v) : exec (.attestationGo r v) s
    = .next ((s.setReg (aSec 0x068) (v &&& 0xF)).startSigning (aSec 0x06C) (s.attRefusal (rfld v 0 4)) fun m i => m.attesting (s.attJob i)) := by
  have hexec : exec (.attestationGo r v) s = .next (if rbit v 31 then s.regRow r (aSec 0x068) v else s) := rfl
  have hwrite : s.writeReg r false false (aSec 0x068) v
      = .ok (if rbit v 31 then (s.setReg (aSec 0x068) (v &&& 0xF)).attGo (rfld v 0 4) else s.setReg (aSec 0x068) (v &&& 0xF)) := rfl
  have hinfo : regInfo (aSec 0x068) ≠ none := Option.some_ne_none _
  obtain ⟨hrefusal, hjob⟩ := attestation_setReg s (c := rfld v 0 4) (Nat.mod_lt _ (by decide)) (v &&& 0xF)
  rw [hexec, if_pos hgo, h.regRow_eq hinfo, hwrite, if_pos hgo, attGo_eq, hrefusal, WRes.row_ok]
  simp only [hjob]

theorem attestationGo_clauses (hgo : rbit v 31 = true) (h : TakesWrite s r (aSec 0x068) v) :
    let free : Prop := s.smd.sign = none ∧ s.smd.att = none
    let may : Prop := s.checkAcc (rfld v 0 4) s.attDst (0xC0 + 9893) .wr = none
    let fails := fun (n : Nat) => Runs (.attestationGo r v) s fun t => RegsOnly s t [aSec 0x068, aSec 0x06C] ∧ t.rf (aSec 0x06C) 0 16 = n
    (¬ free → fails nkBusy) ∧ (free → ¬ may → fails nkPermission)
    ∧ (free → may → s.noIndex → Runs (.attestationGo r v) s fun t =>
        RegsOnly { s with draws := t.draws } t [aSec 0x068, aSec 0x06C] ∧ t.rf (aSec 0x06C) 0 16 = nkState)
    ∧ (free → may → ¬ s.noIndex → Runs (.attestationGo r v) s fun t => t = { s with regs := t.regs, smd := t.smd, draws := t.draws }
        ∧ t.rb (aSec 0x06C) 31 = true ∧ ∃ i, TakesIndex s t i ∧ t.smd.att = some (s.attJob i)) := by
  intro free may fails
  have hexec := exec_attestationGo hgo h
  have hfails : ∀ {n}, s.attRefusal (rfld v 0 4) = n → n ≠ 0 → n < 2 ^ 16 → fails n := fun hn h0 hlt => by
    rw [hn] at hexec
    exact ⟨_, hexec, startSigning_fails h0 hlt ..⟩
  have hmay : free → may → s.attRefusal (rfld v 0 4) = 0 := fun hfree hacc =>
    (attRefusal_free hfree _).trans (if_neg (Option.not_isSome_iff_eq_none.mpr hacc))
  refine ⟨fun hbusy => hfails ?_ (by decide) (by decide), fun hfree hno => hfails ?_ (by decide) (by decide), fun hfree hacc hnone => ?_,
    fun hfree hacc hsome => ?_⟩
  · rw [State.attRefusal, if_pos (Bool.eq_true_of_not_eq_false fun hs => hbusy (signing_iff.mp hs))]
  · exact (attRefusal_free hfree _).trans (if_pos (Option.isSome_iff_ne_none.mpr hno))
  · rw [hmay hfree hacc] at hexec
    exact ⟨_, hexec, startSigning_noIndex hnone ..⟩
  · rw [hmay hfree hacc] at hexec
    obtain ⟨hframe, hbit, i, htakes, m, hsmd⟩ := startSigning_starts hsome (aSec 0x068) (aSec 0x06C) (v &&& 0xF)
      (job := fun m i => m.attesting (s.attJob i)) fun m i => ⟨rfl, rfl⟩
    exact ⟨_, hexec, hframe, hbit, i, htakes, by rw [hsmd]; rfl⟩

end Sys2Proof.Machine
end

section
namespace Sys2Proof.Machine

variable {s : State} {r : Req} {v : W32} {k asn count : Nat}

/-! ### Why a range of results cannot be signed (R856) -/

/-- No task of the range is under way. -/
def State.rangeEnded (s : State) (k asn count : Nat) : Prop := ∀ n, asn ≤ n → n < asn + count → s.task? k n = none

/-- Every result of the range is held. -/
def State.rangeKept (s : State) (k asn count : Nat) : Prop := ∀ n, asn ≤ n → n < asn + count → n ∈ (s.key k).unreleased

theorem any_range_eq_true {p : Nat → Bool} :
    (((List.range count).map (asn + ·)).any p) = true ↔ ∃ n, (asn ≤ n ∧ n < asn + count) ∧ p n = true := by
  rw [List.any_eq_true]
  refine exists_congr fun n => and_congr_left fun _ => ?_
  rw [List.mem_map]
  constructor
  · rintro ⟨i, hi, rfl⟩
    rw [List.mem_range] at hi
    omega
  · exact fun hn => ⟨n - asn, List.mem_range.mpr (by omega), by omega⟩

theorem rangeEnded_iff : s.rangeEnded k asn count ↔ ¬ (((List.range count).map (asn + ·)).any fun n => (s.task? k n).isSome) = true := by
  simp only [any_range_eq_true, State.rangeEnded, not_exists, not_and, Option.not_isSome_iff_eq_none, and_imp]

theorem rangeKept_iff :
    s.rangeKept k asn count ↔ ¬ (((List.range count).map (asn + ·)).any fun n => !(s.key k).unreleased.contains n) = true := by
  simp only [any_range_eq_true, State.rangeKept, not_exists, not_and, Bool.not_eq_true', Bool.not_eq_false, List.contains_iff_mem, and_imp]

theorem signRefusal_size (h : ¬ (1 ≤ count ∧ count ≤ 65536)) : s.signRefusal k asn count = nkMalformed := if_pos (by omega)

theorem signRefusal_sized (h : 1 ≤ count ∧ count ≤ 65536) : s.signRefusal k asn count
    = if (((List.range count).map (asn + ·)).any fun n => (s.task? k n).isSome) = true then nkNotReady
      else if (((List.range count).map (asn + ·)).any fun n => !(s.key k).unreleased.contains n) = true then nkNoResult else 0 :=
  if_neg (by omega)

theorem signRefusal_running (h : 1 ≤ count ∧ count ≤ 65536) (he : ¬ s.rangeEnded k asn count) : s.signRefusal k asn count = nkNotReady :=
  (signRefusal_sized h).trans (if_pos (not_not.mp fun hn => he (rangeEnded_iff.mpr hn)))

theorem signRefusal_ended (h : 1 ≤ count ∧ count ≤ 65536) (he : s.rangeEnded k asn count) : s.signRefusal k asn count
    = if (((List.range count).map (asn + ·)).any fun n => !(s.key k).unreleased.contains n) = true then nkNoResult else 0 :=
  (signRefusal_sized h).trans (if_neg (rangeEnded_iff.mp he))

theorem signRefusal_released (h : 1 ≤ count ∧ count ≤ 65536) (he : s.rangeEnded k asn count) (hk : ¬ s.rangeKept k asn count) :
    s.signRefusal k asn count = nkNoResult :=
  (signRefusal_ended h he).trans (if_pos (not_not.mp fun hn => hk (rangeKept_iff.mpr hn)))

theorem signRefusal_zero (h : 1 ≤ count ∧ count ≤ 65536) (he : s.rangeEnded k asn count) (hk : s.rangeKept k asn count) :
    s.signRefusal k asn count = 0 := (signRefusal_ended h he).trans (if_neg (rangeKept_iff.mp hk))

/-! ### GO of DET_SIGN_CMD (R855, R856) -/

/-- The first ASN and the count of DET_SIGN's range. -/
def State.signAsn (s : State) : Nat := s.pair (aDet 0x140)
def State.signCount (s : State) : Nat := s.rf (aDet 0x148) 0 17

/-- Why a signing cannot begin: a NAK reason, or 0. -/
def State.detRefusal (s : State) (k c : Nat) : Nat :=
  if s.signing then nkBusy
  else if s.signRefusal k s.signAsn s.signCount ≠ 0 then s.signRefusal k s.signAsn s.signCount
  else if (s.checkAcc c s.signDst (0x40 + sigLen) .wr).isSome then nkPermission else 0

/-- The signing that begins under index i. -/
def State.signJob (s : State) (k c i : Nat) : SignJob :=
  { key := k, ctx := c, asn := s.signAsn, count := s.signCount, dst := s.signDst, index := i }

/-- The SMD with a signing under way. -/
def Smd.signs (m : Smd) (j : SignJob) : Smd := { m with sign := some j }

theorem signGo_eq (s : State) (k c : Nat) :
    s.signGo k c = s.startSigning (aDet 0x158) (s.detRefusal k c) fun m i => m.signs (s.signJob k c i) := by
  rw [State.signGo, State.startSigning, State.detRefusal, State.signAsn, State.signCount]
  cases s.signing
  case true => rfl
  case false =>
    by_cases hbad : s.signRefusal k (s.pair (aDet 0x140)) (s.rf (aDet 0x148) 0 17) = 0
    · simp only [hbad]
      cases (s.checkAcc c s.signDst (0x40 + sigLen) .wr).isSome <;> rfl
    · simp only [Bool.false_eq_true, if_false, ne_eq, hbad, not_false_eq_true, if_true]

/-- The command's own register has no part in its checks, nor in the job. -/
theorem signing_setReg (s : State) (k : Nat) {c : Nat} (hc : c < 16) (x : W32) : (s.setReg (aDet 0x154) x).detRefusal k c = s.detRefusal k c
    ∧ ∀ i, (s.setReg (aDet 0x154) x).signJob k c i = s.signJob k c i := by
  have hreg : ∀ off, off ≠ 0x154 → (s.setReg (aDet 0x154) x).reg (aDet off) = s.reg (aDet off) := fun off ho => by
    rw [reg_setReg, if_neg (by simp only [aDet]; omega)]
  have hdst : (s.setReg (aDet 0x154) x).signDst = s.signDst := by
    rw [State.signDst, hreg _ (by decide), rf_of_reg (hreg 0x150 (by decide)), State.signDst]
  have hasn : (s.setReg (aDet 0x154) x).signAsn = s.signAsn := by
    have hhi : (s.setReg (aDet 0x154) x).reg (aDet 0x140 + 4) = s.reg (aDet 0x140 + 4) := hreg 0x144 (by decide)
    rw [State.signAsn, State.pair, hreg _ (by decide), hhi, State.signAsn, State.pair]
  have hcount : (s.setReg (aDet 0x154) x).signCount = s.signCount := rf_of_reg (hreg 0x148 (by decide)) _ _
  refine ⟨?_, fun i => by rw [State.signJob, hdst, hasn, hcount, State.signJob]⟩
  rw [State.detRefusal, hdst, hasn, hcount, checkWrite_setReg s (by decide) hc, State.detRefusal]
  rfl

theorem exec_detSignGo (hgo : rbit v 31 = true) (h : TakesWrite s r (aDet 0x154) v) : exec (.detSignGo r v) s
    = .next ((s.setReg (aDet 0x154) (v &&& 0xFF)).startSigning (aDet 0x158) (s.detRefusal (rfld v 4 4) (rfld v 0 4))
        fun m i => m.signs (s.signJob (rfld v 4 4) (rfld v 0 4) i)) := by
  have hexec : exec (.detSignGo r v) s = .next (if rbit v 31 then s.regRow r (aDet 0x154) v else s) := rfl
  have hwrite : s.writeReg r false false (aDet 0x154) v = .ok (if rbit v 31 then
      (s.setReg (aDet 0x154) (v &&& 0xFF)).signGo (rfld v 4 4) (rfld v 0 4) else s.setReg (aDet 0x154) (v &&& 0xFF)) := rfl
  have hinfo : regInfo (aDet 0x154) ≠ none := Option.some_ne_none _
  obtain ⟨hrefusal, hjob⟩ := signing_setReg s (rfld v 4 4) (c := rfld v 0 4) (Nat.mod_lt _ (by decide)) (v &&& 0xFF)
  rw [hexec, if_pos hgo, h.regRow_eq hinfo, hwrite, if_pos hgo, signGo_eq, hrefusal, WRes.row_ok]
  simp only [hjob]

theorem detRefusal_free (h : s.smd.sign = none ∧ s.smd.att = none) (k c : Nat) : s.detRefusal k c
    = if s.signRefusal k s.signAsn s.signCount ≠ 0 then s.signRefusal k s.signAsn s.signCount
      else if (s.checkAcc c s.signDst (0x40 + sigLen) .wr).isSome then nkPermission else 0 := by
  rw [State.detRefusal, signing_iff.mpr h]
  rfl

theorem detRefusal_range {bad : Nat} (h : s.smd.sign = none ∧ s.smd.att = none) (hbad : s.signRefusal k s.signAsn s.signCount = bad)
    (h0 : bad ≠ 0) (c : Nat) : s.detRefusal k c = bad := by
  rw [detRefusal_free h, hbad, if_pos h0]

theorem detRefusal_whole (h : s.smd.sign = none ∧ s.smd.att = none) (hwhole : s.signRefusal k s.signAsn s.signCount = 0) (c : Nat) :
    s.detRefusal k c = if (s.checkAcc c s.signDst (0x40 + sigLen) .wr).isSome then nkPermission else 0 := by
  rw [detRefusal_free h, hwhole]
  exact if_neg fun h0 => h0 rfl

theorem detSignGo_clauses (hgo : rbit v 31 = true) (h : TakesWrite s r (aDet 0x154) v) :
    let k := rfld v 4 4
    let free : Prop := s.smd.sign = none ∧ s.smd.att = none
    let sized : Prop := 1 ≤ s.signCount ∧ s.signCount ≤ 65536
    let ended : Prop := s.rangeEnded k s.signAsn s.signCount
    let kept : Prop := s.rangeKept k s.signAsn s.signCount
    let may : Prop := s.checkAcc (rfld v 0 4) s.signDst (0x40 + 9893) .wr = none
    let fails := fun (n : Nat) => Runs (.detSignGo r v) s fun t => RegsOnly s t [aDet 0x154, aDet 0x158] ∧ t.rf (aDet 0x158) 0 16 = n
    (¬ free → fails nkBusy) ∧ (free → ¬ sized → fails nkMalformed) ∧ (free → sized → ¬ ended → fails nkNotReady)
    ∧ (free → sized → ended → ¬ kept → fails nkNoResult) ∧ (free → sized → ended → kept → ¬ may → fails nkPermission)
    ∧ (free → sized → ended → kept → may → s.noIndex → Runs (.detSignGo r v) s fun t =>
        RegsOnly { s with draws := t.draws } t [aDet 0x154, aDet 0x158] ∧ t.rf (aDet 0x158) 0 16 = nkState)
    ∧ (free → sized → ended → kept → may → ¬ s.noIndex → Runs (.detSignGo r v) s fun t =>
        t = { s with regs := t.regs, smd := t.smd, draws := t.draws } ∧ t.rb (aDet 0x158) 31 = true ∧ ∃ i, TakesIndex s t i
        ∧ t.smd.sign = some (s.signJob k (rfld v 0 4) i)) := by
  intro k free sized ended kept may fails
  have hexec := exec_detSignGo hgo h
  have hfails : ∀ {n}, s.detRefusal (rfld v 4 4) (rfld v 0 4) = n → n ≠ 0 → n < 2 ^ 16 → fails n := fun hn h0 hlt => by
    rw [hn] at hexec
    exact ⟨_, hexec, startSigning_fails h0 hlt ..⟩
  have hmay : free → sized → ended → kept → may → s.detRefusal (rfld v 4 4) (rfld v 0 4) = 0 := fun hfree hsized hended hkept hacc =>
    (detRefusal_whole hfree (signRefusal_zero hsized hended hkept) _).trans (if_neg (Option.not_isSome_iff_eq_none.mpr hacc))
  refine ⟨fun hbusy => hfails ?_ (by decide) (by decide), fun hfree hno => hfails ?_ (by decide) (by decide),
    fun hfree hsized hno => hfails ?_ (by decide) (by decide), fun hfree hsized hended hno => hfails ?_ (by decide) (by decide),
    fun hfree hsized hended hkept hno => hfails ?_ (by decide) (by decide), fun hfree hsized hended hkept hacc hnone => ?_,
    fun hfree hsized hended hkept hacc hsome => ?_⟩
  · rw [State.detRefusal, if_pos (Bool.eq_true_of_not_eq_false fun hs => hbusy (signing_iff.mp hs))]
  · exact detRefusal_range hfree (signRefusal_size hno) (by decide) _
  · exact detRefusal_range hfree (signRefusal_running hsized hno) (by decide) _
  · exact detRefusal_range hfree (signRefusal_released hsized hended hno) (by decide) _
  · exact (detRefusal_whole hfree (signRefusal_zero hsized hended hkept) _).trans (if_pos (Option.isSome_iff_ne_none.mpr hno))
  · rw [hmay hfree hsized hended hkept hacc] at hexec
    exact ⟨_, hexec, startSigning_noIndex hnone ..⟩
  · rw [hmay hfree hsized hended hkept hacc] at hexec
    obtain ⟨hframe, hbit, i, htakes, m, hsmd⟩ := startSigning_starts hsome (aDet 0x154) (aDet 0x158) (v &&& 0xFF)
      (job := fun m i => m.signs (s.signJob (rfld v 4 4) (rfld v 0 4) i)) fun m i => ⟨rfl, rfl⟩
    exact ⟨_, hexec, hframe, hbit, i, htakes, by rw [hsmd]; rfl⟩

end Sys2Proof.Machine
end

section
namespace Sys2Proof.Machine

variable {s t : State} {a k asn count : Nat} {b : List Byte}

/-! ## The records of a signing that completes (R855, R856, R931) -/

/-- A record stands at its destination, and its status register is clear. -/
theorem record_stands (h : t.calm) (st a : Nat) (b : List Byte) : let u := (t.writeTier a b).setReg st 0
    WritesMem t u a b ∧ u.smd = t.smd ∧ u.reg st = 0 ∧ u.tasks = t.tasks ∧ u.keys = t.keys := by
  obtain ⟨rg, dm, bad, m, hdome⟩ := writeTier_dome t a b
  have hmem := writesMem_writeTier h a b
  refine ⟨hmem, ?_, reg_setReg_self .., ?_, ?_⟩
  · exact (congrArg State.smd hdome :)
  · exact (congrArg State.tasks hdome :)
  · exact (congrArg State.keys hdome :)

/-! ### Attestation -/

/-- The SMD with no attestation under way. -/
def State.attested (s : State) : State := { s with smd := { s.smd with att := none } }

theorem exec_attestationComplete {j : AttJob} (h : s.smd.att = some j) : exec .attestationComplete s
    = .next ((s.attested.writeTier j.dst (s.attHead j.nonce ++ natLe 4 9893 ++ zeros 12
        ++ idSign s.fuses.id j.index (s.attHead j.nonce))).setReg (aSec 0x06C) 0) := by
  have hexec : exec .attestationComplete s = execAttestationComplete s := rfl
  rw [hexec, execAttestationComplete, h]
  rfl

theorem attestationComplete_clauses (s : State) : (s.smd.att = none → exec .attestationComplete s = .next s)
    ∧ ∀ j, s.smd.att = some j → s.calm → Runs .attestationComplete s fun t =>
      WritesMem s t j.dst (s.attHead j.nonce ++ natLe 4 9893 ++ zeros 12 ++ idSign s.fuses.id j.index (s.attHead j.nonce))
      ∧ t.smd.att = none ∧ t.reg (aSec 0x06C) = 0 ∧ t.tasks = s.tasks ∧ t.keys = s.keys := by
  refine ⟨fun hnone => ?_, fun j hj hc => ?_⟩
  · have hexec : exec .attestationComplete s = execAttestationComplete s := rfl
    rw [hexec, execAttestationComplete, hnone]
  · obtain ⟨hmem, hsmd, hreg, htasks, hkeys⟩ := record_stands (t := s.attested) hc (aSec 0x06C) j.dst
      (s.attHead j.nonce ++ natLe 4 9893 ++ zeros 12 ++ idSign s.fuses.id j.index (s.attHead j.nonce))
    exact ⟨_, exec_attestationComplete hj, hmem, by rw [hsmd]; rfl, hreg, htasks, hkeys⟩

/-! ### A batch root -/

/-- The SMD with no signing of a root under way. -/
def State.signed (s : State) : State := { s with smd := { s.smd with sign := none } }

theorem rslotAt_tended (h : Tended s t) (hk : k < 8) (asn : Nat) : t.rslotAt k asn = s.rslotAt k asn := by
  have hslot : ∀ off, off < 0x1000 → t.reg (aSess k off) = s.reg (aSess k off) := fun off ho => h.regs.reg (.inl (by simp only [aSess]; omega))
  have hring : t.reg (aSessRslot k) = s.reg (aSessRslot k) := h.regs.reg (.inl (by simp only [aSessRslot, aSess]; omega))
  simp only [State.rslotAt, State.rslots, State.rslotSize, hslot 0x010 (by decide), rf_of_reg (hslot 0x014 (by decide)), rf_of_reg hring]

/-- The leaves of a range of results (R855). -/
def State.rootLeaves (s : State) (k asn n : Nat) : List (List Byte) :=
  (List.range n).map fun i => shake256 ((0 : Byte) :: Mem.readN s.mem (s.rslotAt k (asn + i) + 0x20) 32) 32

theorem readLeaves_calm (h : s.calm) (hk : k < 8) (asn : Nat) : ∀ n, Tended s (s.readLeaves k asn n).2
    ∧ (s.readLeaves k asn n).1 = s.rootLeaves k asn n := by
  intro n
  induction n with
  | zero => exact ⟨.refl s, rfl⟩
  | succ n ih =>
    obtain ⟨htend, hleaves⟩ := ih
    obtain ⟨hmem, hcalm⟩ := htend.rest h
    have hlast : Mem.readN s.mem (s.rslotAt k (asn + n) + 0x20) 32
        = ((s.readLeaves k asn n).2.readTier ((s.readLeaves k asn n).2.rslotAt k (asn + n) + 0x20) 32).1 := by
      rw [readTier_calm hcalm, hmem, rslotAt_tended htend hk]
    refine ⟨htend.trans (tended_readTier ..), ?_⟩
    rw [State.rootLeaves, List.range_succ, List.map_append, ← State.rootLeaves, ← hleaves, List.map_singleton, hlast]
    rfl

theorem slotOfKey_lt (h : s.slotOfKey a = some k) : k < 8 := by
  have hmem : k ∈ (List.range 8).filter fun j => s.slotKey j == a := by
    rw [State.slotOfKey] at h
    split at h
    case h_1 hopen => exact Option.some.inj h ▸ List.mem_of_find?_eq_some hopen
    case h_2 =>
      split at h
      case h_1 hon => exact Option.some.inj h ▸ List.mem_of_find?_eq_some hon
      case h_2 => exact List.mem_of_mem_head? h
  exact List.mem_range.mp (List.mem_of_mem_filter hmem)

/-- The first bytes of the record of a signed root. -/
def State.rootHead (s : State) (j : SignJob) (leaves : List (List Byte)) : List Byte :=
  natLe 8 j.asn ++ natLe 4 j.count ++ natLe 1 j.key ++ zeros 3 ++ natLe 8 s.tick ++ treeRoot 17 leaves ++ natLe 4 9893 ++ zeros 4

theorem exec_batchRoot_refused {j : SignJob} (hj : s.smd.sign = some j) (hk : s.slotOfKey j.key = some k)
    (hbad : s.signRefusal j.key j.asn j.count ≠ 0) :
    exec .batchRootSignComplete s = .next (s.signed.setReg (aDet 0x158) (BitVec.ofNat 32 (s.signRefusal j.key j.asn j.count))) := by
  have hexec : exec .batchRootSignComplete s = execBatchRootSignComplete s := rfl
  rw [hexec, execBatchRootSignComplete, hj]
  simp only [hk, if_pos hbad]
  rfl

theorem exec_batchRoot {j : SignJob} (hj : s.smd.sign = some j) (hk : s.slotOfKey j.key = some k)
    (hbad : s.signRefusal j.key j.asn j.count = 0) : exec .batchRootSignComplete s =
      let h := s.rootHead j (s.signed.readLeaves k j.asn j.count).1
      .next (((s.signed.readLeaves k j.asn j.count).2.writeTier j.dst (h ++ idSign s.fuses.id j.index h)).setReg (aDet 0x158) 0) := by
  have hexec : exec .batchRootSignComplete s = execBatchRootSignComplete s := rfl
  rw [hexec, execBatchRootSignComplete, hj]
  simp only [hk, hbad, ne_eq, not_true_eq_false, if_false]
  rfl

theorem batchRoot_clauses {j : SignJob} (hj : s.smd.sign = some j) (hk : s.slotOfKey j.key = some k) (hc : s.calm) :
    (s.signRefusal j.key j.asn j.count ≠ 0 → Runs .batchRootSignComplete s fun t => t.mem = s.mem ∧ t.smd.sign = none
      ∧ t.reg (aDet 0x158) = BitVec.ofNat 32 (s.signRefusal j.key j.asn j.count))
    ∧ (s.signRefusal j.key j.asn j.count = 0 →
      let h := s.rootHead j (s.rootLeaves k j.asn j.count)
      Runs .batchRootSignComplete s fun t => WritesMem s t j.dst (h ++ idSign s.fuses.id j.index h) ∧ t.smd.sign = none
        ∧ t.reg (aDet 0x158) = 0 ∧ t.tasks = s.tasks ∧ t.keys = s.keys) := by
  refine ⟨fun hbad => ⟨_, exec_batchRoot_refused hj hk hbad, rfl, rfl, reg_setReg_self ..⟩, fun hok => ?_⟩
  have hexec := exec_batchRoot hj hk hok
  obtain ⟨htend, hleaves⟩ := readLeaves_calm (s := s.signed) hc (slotOfKey_lt hk) j.asn j.count
  have hsigned : s.signed.rootLeaves k j.asn j.count = s.rootLeaves k j.asn j.count := rfl
  rw [hleaves, hsigned] at hexec
  obtain ⟨hmem, hcalm⟩ := htend.rest hc
  obtain ⟨htasks, hkeys⟩ := htend.store
  have hsmd : (s.signed.readLeaves k j.asn j.count).2.smd.sign = none := by
    obtain ⟨_, _, _, _, hdome⟩ := htend.dome
    rw [hdome]
    rfl
  generalize (s.signed.readLeaves k j.asn j.count).2 = w at hexec hmem hcalm htasks hkeys hsmd
  intro h
  obtain ⟨hwrites, hsmd', hreg, htasks', hkeys'⟩ := record_stands hcalm (aDet 0x158) j.dst (h ++ idSign s.fuses.id j.index h)
  refine ⟨_, hexec, ?_, by rw [hsmd', hsmd], hreg, htasks'.trans htasks, hkeys'.trans hkeys⟩
  rw [WritesMem, hmem] at hwrites
  exact hwrites

theorem batchRoot_idle (h : s.smd.sign = none) : exec .batchRootSignComplete s = .next s := by
  have hexec : exec .batchRootSignComplete s = execBatchRootSignComplete s := rfl
  rw [hexec, execBatchRootSignComplete, h]

end Sys2Proof.Machine
end

section
namespace Sys2Proof.Machine

/-! ## Keys and signing (R225, R855, R856, R912-R920, R930, R931) -/

/-- Settles O47, from what placing a key leaves of its slot, its queue and its partners, and from what the two GO commands share. -/
theorem keysAndSigning : Obligations.KeysAndSigning := by
  unfold Obligations.KeysAndSigning
  intro s r
  refine ⟨fun n owner b h => install_clauses h n owner b, fun n k hw h => ?_, fun h => ?_, fun v hgo h => attestationGo_clauses hgo h,
    attestationComplete_clauses s, fun v hgo h => detSignGo_clauses hgo h, batchRoot_idle, fun j k hj hk hc => batchRoot_clauses hj hk hc⟩
  · obtain ⟨hlast, hbusy⟩ := erase_clauses n hw h
    exact ⟨hlast, hbusy, runs_erase n hw h⟩
  · obtain ⟨hsess, hbusy⟩ := eraseAll_clauses h
    exact ⟨hsess, fun hw => ⟨hbusy hw, runs_eraseAll hw h⟩⟩

end Sys2Proof.Machine
end

section
namespace Sys2Proof.Machine

/-! ## What a fault leaves of the tasks that it does not stop (R871, R872, R883-R887) -/

variable {s t u : State}

/-! ### Stopping a task keeps the books -/

/-- The key slots, the journal and the error log stand. -/
def SameBooks (s t : State) : Prop := t.keys = s.keys ∧ t.journal = s.journal ∧ t.errs = s.errs

theorem SameBooks.keys (h : SameBooks s t) : t.keys = s.keys := h.1
theorem SameBooks.journal (h : SameBooks s t) : t.journal = s.journal := h.2.1
theorem SameBooks.errs (h : SameBooks s t) : t.errs = s.errs := h.2.2

theorem SameBooks.refl (s : State) : SameBooks s s := ⟨rfl, rfl, rfl⟩

theorem SameBooks.ite {c : Prop} {_ : Decidable c} (ht : SameBooks s t) (hu : SameBooks s u) : SameBooks s (if c then t else u) := by
  split <;> assumption

theorem SameBooks.foldl {α : Type} {f : State → α → State} {l : List α} (h : SameBooks s t)
    (hf : ∀ v x, SameBooks s v → SameBooks s (f v x)) : SameBooks s (l.foldl f t) := by
  induction l generalizing t with
  | nil => exact h
  | cons x l ih => exact ih (hf t x h)

theorem SameBooks.setReg {a : Nat} {v : W32} (h : SameBooks s t) : SameBooks s (t.setReg a v) := h
theorem SameBooks.setCore {j : Nat} {c : Core} (h : SameBooks s t) : SameBooks s (t.setCore j c) := h
theorem SameBooks.setCtr {q v : Nat} (h : SameBooks s t) : SameBooks s (t.setCtr q v) := h

theorem SameBooks.writeTier {a : Nat} {b : List Byte} (h : SameBooks s t) : SameBooks s (t.writeTier a b) := by
  obtain ⟨_, _, _, _, hdome⟩ := writeTier_dome t a b
  rw [hdome]
  exact h

theorem SameBooks.pfcSync (h : SameBooks s t) : SameBooks s t.pfcSync := by
  obtain ⟨_, _, hpfc, -⟩ := pfcSync_only t
  rw [hpfc]
  exact h

theorem SameBooks.dtrace {reason asn item frag sp core ctx key prio : Nat} (h : SameBooks s t) :
    SameBooks s (t.dtrace reason asn item frag sp core ctx key prio) :=
  h.ite (h.ite (h.setReg.writeTier.ite (h.setReg.ite h).setReg))

/-! Waits and counters -/

theorem SameBooks.noteT7 {key asn vc q : Nat} (h : SameBooks s t) : SameBooks s (t.noteT7 key asn vc q) := h
theorem SameBooks.unhold {j : Nat} (h : SameBooks s t) : SameBooks s (t.unhold j) := h
theorem SameBooks.passWait {w : Waiter} (h : SameBooks s t) : SameBooks s (t.passWait w) := (h.noteT7.setCtr.ite h).setCore

theorem SameBooks.register {w : Waiter} (h : SameBooks s t) (hu : t.register w = some u) : SameBooks s u := by
  simp only [State.register] at hu
  split at hu
  · cases hu; exact h
  · split at hu
    · cases hu; exact h
    · cases hu

theorem SameBooks.admitHeld {w : Waiter} (h : SameBooks s t) : SameBooks s (t.admitHeld w) := by
  unfold State.admitHeld
  split
  · exact h.unhold.passWait
  · split
    · exact h
    · next v hv => exact (h.register hv).unhold

theorem SameBooks.dropWaiter {j : Nat} (h : SameBooks s t) : SameBooks s (t.dropWaiter j) :=
  SameBooks.foldl (t := ({ t with waiters := t.waiters.filter fun w => w.core != j } : State).unhold j) h fun _ _ hv => hv.admitHeld

theorem SameBooks.switchClear {c : Nat} (h : SameBooks s t) : SameBooks s (t.switchClear c) := h.ite (h.foldl fun _ _ hv => hv.setCtr)
theorem SameBooks.setClrDue {n : Nat} (h : SameBooks s t) : SameBooks s { t with clrDue := n } := h
theorem SameBooks.dueClears (h : SameBooks s t) : SameBooks s t.dueClears := h.foldl fun _ _ hv => hv.switchClear.setClrDue.ite hv

/-! The dispatcher -/

theorem SameBooks.setSpireState {sp v : Nat} (h : SameBooks s t) : SameBooks s (t.setSpireState sp v) := h.setReg.dtrace

theorem SameBooks.checkDrained (h : SameBooks s t) : SameBooks s t.checkDrained := h.foldl fun _ _ hv => hv.setSpireState.ite hv

theorem SameBooks.countSpawns (h : SameBooks s t) : SameBooks s t.countSpawns := h.ite (h.foldl fun _ _ hv => hv.setReg.setCore)

theorem SameBooks.updateBp (h : SameBooks s t) : SameBooks s t.updateBp :=
  h.countSpawns.setReg.setReg.setReg.setReg.dtrace.pfcSync.ite
    (h.countSpawns.setReg.setReg.setReg.dtrace.pfcSync.ite h.countSpawns.setReg.setReg.setReg)

theorem SameBooks.stopNext {key asn j : Nat} (h : SameBooks s t) : SameBooks s (t.stopNext key asn j) := by
  unfold State.stopNext
  split
  · exact h.dtrace.setCore.ite h
  · exact h

theorem SameBooks.stopRun {key asn j : Nat} (h : SameBooks s t) : SameBooks s (t.stopRun key asn j) := by
  unfold State.stopRun
  split
  · exact h.setCore.dropWaiter.ite h
  · exact h

theorem SameBooks.stopItems {key asn : Nat} (h : SameBooks s t) : SameBooks s (t.stopItems key asn) := by
  have hlisted : SameBooks s ((t.ready.filter fun e => e.key == key && e.asn == asn).foldl (fun v e => v.traceEnt 0x07 e (traceFrag e.frag)) t) :=
    h.foldl fun _ _ hv => hv.dtrace
  unfold State.stopItems
  extract_lets mine s1 s2 s3
  have hready : SameBooks s s2 := hlisted
  exact SameBooks.updateBp (hready.foldl fun v j hv => by rw [stopCore_eq]; exact hv.stopNext.stopRun)

theorem SameBooks.stopStreams {key asn : Nat} (h : SameBooks s t) : SameBooks s (t.stopStreams key asn) := by
  have hidle : ∀ l : List Nat, SameBooks s (l.foldl State.idleStrm t) := fun l => h.foldl fun _ _ hv => hv
  exact hidle _

theorem SameBooks.closeParked {key asn : Nat} (h : SameBooks s t) : SameBooks s (t.closeParked key asn) := h.foldl fun _ _ hv => hv

theorem SameBooks.stopTask {key asn : Nat} (h : SameBooks s t) : SameBooks s (t.stopTask key asn) :=
  SameBooks.checkDrained (SameBooks.dueClears (t := (((t.stopItems key asn).stopStreams key asn).closeBatches key asn))
    h.stopItems.stopStreams)

end Sys2Proof.Machine
end

section
namespace Sys2Proof.Machine

/-! ## What a task's fate is, and which operations spare it (R866-R872, R883-R886) -/

variable {s t u : State} {key asn : Nat}

/-! ### The fate of a task -/

/-- What decides whether a fault still stops a task, and how the task ends (R495, R867, R871, R872). -/
structure Fate where
  accepted : Bool
  status : Option (Nat × Nat)
  ended : Bool
  retryDue : Bool
  retries : Nat

/-- A task's fate. -/
def Task.fate (x : Task) : Fate :=
  { accepted := x.accepted, status := x.status, ended := x.ended, retryDue := x.retryDue, retries := x.retries }

/-- The fate of the task of a key and ASN, where there is one. -/
def State.fate? (s : State) (key asn : Nat) : Option Fate := (s.task? key asn).map Task.fate

theorem task?_names {x : Task} (hx : s.task? key asn = some x) : x.key = key ∧ x.asn = asn := by
  simpa using List.find?_some hx

theorem fate?_of_task? {x : Task} (hx : s.task? key asn = some x) : s.fate? key asn = some x.fate := by rw [State.fate?, hx, Option.map_some]

theorem task?_of_fate? {f : Fate} (hf : s.fate? key asn = some f) : ∃ x, s.task? key asn = some x ∧ x.fate = f := Option.map_eq_some_iff.mp hf

/-- A change of tasks that keeps every name, and the fate of the task of this name. -/
theorem fate?_map {g : Task → Task} (hg : ∀ y, (g y).key = y.key ∧ (g y).asn = y.asn)
    (hf : ∀ y, y.key = key → y.asn = asn → (g y).fate = y.fate) (ht : t.tasks = s.tasks.map g) : t.fate? key asn = s.fate? key asn := by
  rw [State.fate?, State.task?, ht, find?_map_task _ _ _ _ hg, ← State.task?, Option.map_map, State.fate?]
  refine Option.map_congr fun x hx => ?_
  obtain ⟨hkey, hasn⟩ := task?_names hx
  exact hf x hkey hasn

theorem fate?_of_tasks (ht : t.tasks = s.tasks) : t.fate? key asn = s.fate? key asn := by rw [State.fate?, State.task?, ht, State.fate?, State.task?]

theorem Winds.fate? (h : Winds s t) : t.fate? key asn = s.fate? key asn := by
  obtain ⟨g, hg⟩ := h.tasks
  exact fate?_map (g := fun x => { x with t7 := g x }) (fun _ => ⟨rfl, rfl⟩) (fun _ _ _ => rfl) hg

theorem fate?_modTask {k a : Nat} {f : Task → Task} (hn : ∀ y, (f y).key = y.key ∧ (f y).asn = y.asn)
    (hf : ¬ (k = key ∧ a = asn) ∨ ∀ y, (f y).fate = y.fate) : (s.modTask k a f).fate? key asn = s.fate? key asn := by
  refine fate?_map (g := fun y => if y.key == k && y.asn == a then f y else y) (fun y => ?_) (fun y hkey hasn => ?_) rfl
  · split
    · exact hn y
    · exact ⟨rfl, rfl⟩
  · split
    case isTrue hy =>
      refine hf.elim (fun hne => absurd ?_ hne) fun hsame => hsame y
      rw [Bool.and_eq_true, beq_iff_eq, beq_iff_eq] at hy
      exact ⟨hy.1.symm.trans hkey, hy.2.symm.trans hasn⟩
    · rfl

/-! ### Tasks that a fault can stop -/

theorem stoppable_iff : s.stoppable key asn = true ↔ s.canFail key asn := by
  unfold State.stoppable State.canFail
  cases s.task? key asn with
  | none => simp
  | some x => simp [and_assoc]

theorem stoppable_eq_false_iff : s.stoppable key asn = false ↔ ¬ s.canFail key asn := by rw [← stoppable_iff, Bool.not_eq_true]

/-- Whether a fault can stop a task follows from its fate and from what MRAM records of its key. -/
theorem stoppable_eq (s : State) (key asn : Nat) : s.stoppable key asn = (s.fate? key asn).any fun f =>
    !decide (asn ≤ (s.key key).lastCommitted) && !f.ended && !f.retryDue && f.status.isNone := by
  unfold State.stoppable State.fate?
  cases hx : s.task? key asn with
  | none => rfl
  | some x =>
    obtain ⟨rfl, rfl⟩ := task?_names hx
    rfl

/-- The guard of every stop (R495, R871, R872). -/
theorem stopGuard_eq {x : Task} (hx : s.task? key asn = some x) :
    (s.recorded x || x.ended || x.retryDue || x.status.isSome) = !s.stoppable key asn := by
  simp [State.stoppable, hx, Bool.not_and]

theorem failTask_eq (s : State) (k a st d : Nat) : s.failTask k a st d
    = if s.stoppable k a then ((s.modTask k a fun y => { y with status := some (st, d) }).stopTask k a).endTask k a else s := by
  unfold State.failTask
  split
  case h_1 hx => simp [State.stoppable, hx]
  case h_2 x hx => rw [stopGuard_eq hx]; cases s.stoppable k a <;> rfl

/-- The state in which a task's third stop is reported (R867). -/
def State.exhausted (s : State) (x : Task) (k a origin : Nat) : State :=
  ((s.bump (aErr 0x10C)).lifeAdd 0x7 6 1).report
    { cls := clsRetryExhausted, origin := origin, reporter := origin, ctx := x.ctx, key := k, asn := a, status := stRetryExh, detail := origin }

/-- The state in which a task is due to be retried (R866, R867). -/
def State.retrying (s : State) (k a origin : Nat) : State :=
  (s.lifeAdd 0x5 origin 1).modTask k a fun y => { y with retryDue := true, retries := y.retries + 1 }

theorem retryTask_unstoppable {k a : Nat} (h : s.stoppable k a = false) (origin : Nat) : s.retryTask k a origin = s := by
  unfold State.retryTask
  split
  · rfl
  case h_2 x hx => rw [stopGuard_eq hx, h]; rfl

theorem retryTask_stoppable {k a : Nat} {x : Task} (hx : s.task? k a = some x) (h : s.stoppable k a = true) (origin : Nat) :
    s.retryTask k a origin = if 2 ≤ x.retries then (s.exhausted x k a origin).failTask k a stRetryExh origin
      else (s.retrying k a origin).stopTask k a := by
  rw [State.retryTask, hx]
  dsimp only
  rw [stopGuard_eq hx, h]
  rfl

/-! ### Operations that spare a task -/

/-- The key slots, the journal, and the fate of the task are as they were. -/
def Spares (key asn : Nat) (s t : State) : Prop := t.keys = s.keys ∧ t.journal = s.journal ∧ t.fate? key asn = s.fate? key asn

theorem Spares.refl (s : State) : Spares key asn s s := ⟨rfl, rfl, rfl⟩

theorem Spares.keys (h : Spares key asn s t) : t.keys = s.keys := h.1
theorem Spares.journal (h : Spares key asn s t) : t.journal = s.journal := h.2.1
theorem Spares.fate? (h : Spares key asn s t) : t.fate? key asn = s.fate? key asn := h.2.2

theorem Spares.trans (h : Spares key asn s t) (g : Spares key asn t u) : Spares key asn s u :=
  ⟨g.keys.trans h.keys, g.journal.trans h.journal, g.fate?.trans h.fate?⟩

theorem Spares.stoppable (h : Spares key asn s t) : t.stoppable key asn = s.stoppable key asn := by
  rw [stoppable_eq, stoppable_eq, h.fate?, State.key, State.key, h.keys]

theorem journalStays_congr {n : Nat} (h : t.journal = s.journal) : t.journalStays n ↔ s.journalStays n := by
  rw [State.journalStays, State.journalStays, h]

theorem Spares.journalStays {n : Nat} (h : Spares key asn s t) (hj : s.journalStays n) : t.journalStays n := (journalStays_congr h.journal).mpr hj

theorem Spares.ite {c : Prop} {_ : Decidable c} (ht : Spares key asn s t) (hu : Spares key asn s u) : Spares key asn s (if c then t else u) := by
  split <;> assumption

theorem Spares.foldl {α : Type} {f : State → α → State} {l : List α} (h : Spares key asn s t)
    (hf : ∀ v x, Spares key asn s v → Spares key asn s (f v x)) : Spares key asn s (l.foldl f t) := by
  induction l generalizing t with
  | nil => exact h
  | cons x l ih => exact ih (hf t x h)

theorem Spares.winds (h : Spares key asn s t) (hw : Winds t u) (hb : SameBooks t u) : Spares key asn s u :=
  h.trans ⟨hb.keys, hb.journal, hw.fate?⟩

theorem Spares.counts (h : Spares key asn s t) (hc : Counts t u) : Spares key asn s u := by
  obtain ⟨⟨_, _, _, _, _, _, hframe⟩, hw⟩ := hc
  exact h.trans ⟨by rw [hframe], by rw [hframe], hw.fate?⟩

theorem Spares.report {r : ErrReport} (h : Spares key asn s t) : Spares key asn s (t.report r) := h.counts (counts_report ..)

theorem Spares.increment {o : Op} (h : Spares key asn s t) : Spares key asn s (t.increment o) := h.counts (addCtr_spec ..).1

theorem Spares.dtrace {reason a item frag sp core ctx k prio : Nat} (h : Spares key asn s t) :
    Spares key asn s (t.dtrace reason a item frag sp core ctx k prio) := h.winds (winds_dtrace ..) (SameBooks.refl t).dtrace

theorem Spares.setSpireState {sp v : Nat} (h : Spares key asn s t) : Spares key asn s (t.setSpireState sp v) :=
  h.winds (winds_setSpireState ..) (SameBooks.refl t).setSpireState

theorem Spares.updateBp (h : Spares key asn s t) : Spares key asn s t.updateBp := h.winds (winds_updateBp _) (SameBooks.refl t).updateBp

theorem Spares.dueClears (h : Spares key asn s t) : Spares key asn s t.dueClears := h.winds (winds_dueClears _) (SameBooks.refl t).dueClears

theorem Spares.checkDrained (h : Spares key asn s t) : Spares key asn s t.checkDrained :=
  h.winds (winds_checkDrained _) (SameBooks.refl t).checkDrained

theorem Spares.stopTask {k a : Nat} (h : Spares key asn s t) : Spares key asn s (t.stopTask k a) :=
  h.winds (winds_stopTask ..) (SameBooks.refl t).stopTask

/-- A change of anything but the key slots, the journal and the tasks. -/
theorem Spares.same (h : Spares key asn s t) (hk : u.keys = t.keys) (hj : u.journal = t.journal) (ht : u.tasks = t.tasks) : Spares key asn s u :=
  h.trans ⟨hk, hj, fate?_of_tasks ht⟩

theorem Spares.setReg {a : Nat} {v : W32} (h : Spares key asn s t) : Spares key asn s (t.setReg a v) := h.same rfl rfl rfl
theorem Spares.setCore {j : Nat} {c : Core} (h : Spares key asn s t) : Spares key asn s (t.setCore j c) := h.same rfl rfl rfl
theorem Spares.setStrm {p : Nat} {x : Strm} (h : Spares key asn s t) : Spares key asn s (t.setStrm p x) := h.same rfl rfl rfl
theorem Spares.lifeAdd {set i n : Nat} (h : Spares key asn s t) : Spares key asn s (t.lifeAdd set i n) := h.same rfl rfl rfl

theorem Spares.modTask {k a : Nat} {f : Task → Task} (h : Spares key asn s t) (hn : ∀ y, (f y).key = y.key ∧ (f y).asn = y.asn)
    (hf : ¬ (k = key ∧ a = asn) ∨ ∀ y, (f y).fate = y.fate) : Spares key asn s (t.modTask k a f) :=
  h.trans ⟨rfl, rfl, fate?_modTask hn hf⟩

theorem Spares.residueCheck {x : Task} (h : Spares key asn s t) : Spares key asn s (t.residueCheck x) := h.ite (h.setReg.ite h.setReg.setReg.report)

theorem Spares.closeParked {k a : Nat} (h : Spares key asn s t) : Spares key asn s (t.closeParked k a) :=
  h.winds (winds_closeParked ..) (SameBooks.refl t).closeParked

theorem Spares.closeBatches {k a : Nat} (h : Spares key asn s t) : Spares key asn s (t.closeBatches k a) := h.same rfl rfl rfl

theorem Spares.endTask {k a : Nat} (h : Spares key asn s t) (hne : ¬ (k = key ∧ a = asn)) : Spares key asn s (t.endTask k a) := by
  unfold State.endTask
  split
  · exact h
  · exact h.ite (h.residueCheck.closeParked.closeBatches.modTask (f := fun y => { y with ended := true })
      (fun _ => ⟨rfl, rfl⟩) (.inl hne)).dueClears.checkDrained

/-- A task that a fault stops is another than one that is spared. -/
theorem Spares.ne_of_stoppable {k a : Nat} (h : Spares key asn s t) (hs : s.stoppable key asn = false ∨ ¬ (k = key ∧ a = asn))
    (hstop : t.stoppable k a = true) : ¬ (k = key ∧ a = asn) := by
  rintro ⟨rfl, rfl⟩
  rw [h.stoppable] at hstop
  exact hs.elim (fun hno => absurd (hstop.symm.trans hno) (by decide)) fun hne => hne ⟨rfl, rfl⟩

/-- A fault that ends a task spares every other task, and a task that no fault stops any more (R495, R871, R872). -/
theorem Spares.failTask {k a st d : Nat} (h : Spares key asn s t) (hs : s.stoppable key asn = false ∨ ¬ (k = key ∧ a = asn)) :
    Spares key asn s (t.failTask k a st d) := by
  rw [failTask_eq]
  split
  case isFalse => exact h
  case isTrue hstop =>
    have hne := h.ne_of_stoppable hs hstop
    exact (h.modTask (f := fun y => { y with status := some (st, d) }) (fun _ => ⟨rfl, rfl⟩) (.inl hne)).stopTask.endTask hne

/-- So does one that a retry may cure. -/
theorem Spares.retryTask {k a origin : Nat} (h : Spares key asn s t) (hs : s.stoppable key asn = false ∨ ¬ (k = key ∧ a = asn)) :
    Spares key asn s (t.retryTask k a origin) := by
  cases hstop : t.stoppable k a with
  | false => rw [retryTask_unstoppable hstop]; exact h
  | true =>
    obtain ⟨x, hx, -⟩ := stoppable_iff.mp hstop
    have hne := h.ne_of_stoppable hs hstop
    rw [retryTask_stoppable hx hstop]
    exact (h.setReg.lifeAdd.report.failTask (.inr hne)).ite
      (h.lifeAdd.modTask (f := fun y => { y with retryDue := true, retries := y.retries + 1 }) (fun _ => ⟨rfl, rfl⟩) (.inl hne)).stopTask

end Sys2Proof.Machine
end

section
namespace Sys2Proof.Machine

/-! ## Units that leave service, and the tasks that no fault stops any more (R883-R886, R204, R205, R969) -/

variable {s t : State} {key asn : Nat}

/-! ### A Spire's items and streams -/

theorem Spares.setReady {l : List Entry} (h : Spares key asn s t) : Spares key asn s { t with ready := l } := h.same rfl rfl rfl
theorem Spares.idleStrm {p : Nat} (h : Spares key asn s t) : Spares key asn s (t.idleStrm p) := h.same rfl rfl rfl
theorem Spares.dropOp {id : Nat} (h : Spares key asn s t) : Spares key asn s (t.dropOp id) := h.same rfl rfl rfl
theorem Spares.dropExch {id : Nat} (h : Spares key asn s t) : Spares key asn s (t.dropExch id) := h.same rfl rfl rfl
theorem Spares.complete {o : Op} (h : Spares key asn s t) : Spares key asn s (t.complete o) := h.dropOp.increment

theorem Spares.withdraw {j : Nat} (h : Spares key asn s t) : Spares key asn s (t.withdraw j) := by
  unfold State.withdraw
  dsimp only
  split
  · exact h
  · exact h.setCore.dtrace.setReg.setReady.ite h.setCore.dtrace.setReg.setReady

theorem Spares.withdrawSpire {sp : Nat} (h : Spares key asn s t) : Spares key asn s (t.withdrawSpire sp) :=
  (h.foldl fun _ _ hv => hv.withdraw).updateBp

theorem Spares.orphanAdvs {x : Strm} (h : Spares key asn s t) (hs : s.stoppable key asn = false) : Spares key asn s (t.orphanAdvs x) := by
  unfold State.orphanAdvs
  split
  · exact h
  · exact (h.foldl fun _ _ hv => hv.dropOp).report.failTask (.inl hs)

theorem Spares.strmIdle {p : Nat} {x : Strm} (h : Spares key asn s t) (hs : s.stoppable key asn = false) :
    Spares key asn s (t.strmIdle p x) := by
  unfold State.strmIdle
  refine (Spares.orphanAdvs ?_ hs).checkDrained
  split
  · exact h.idleStrm.complete
  · exact h.idleStrm

theorem Spares.passEnd {p : Nat} (h : Spares key asn s t) (hs : s.stoppable key asn = false) : Spares key asn s (t.passEnd p) := by
  unfold State.passEnd
  split
  · exact h
  case h_2 x hx =>
    extract_lets s0 s1 x1
    have hsegments : Spares key asn s s0 := (h.setReg.ite h).dropExch
    have hdone : Spares key asn s s1 := hsegments.ite (hsegments.dropOp.ite hsegments.complete)
    split
    · exact hdone.setStrm.ite hdone.setStrm
    · exact hdone.setStrm.ite ((hdone.strmIdle hs).ite hdone.setStrm)

theorem Spares.checkPass {p : Nat} (h : Spares key asn s t) (hs : s.stoppable key asn = false) : Spares key asn s (t.checkPass p) := by
  unfold State.checkPass
  split
  · exact (h.passEnd hs).ite h
  · exact h

theorem Spares.runAdv {p : Nat} {o : Op} (h : Spares key asn s t) : Spares key asn s (t.runAdv p o) := by
  unfold State.runAdv
  split
  · exact h
  · exact (h.setStrm.complete.ite h).ite (h.setStrm.complete.ite h)

theorem Spares.runAdvs {p : Nat} (h : Spares key asn s t) (hs : s.stoppable key asn = false) : Spares key asn s (t.runAdvs p) := by
  unfold State.runAdvs
  split
  · exact (h.foldl fun _ _ hv => hv.runAdv).checkPass hs
  · exact h

/-! ### A Spire leaves service -/

theorem Spares.loseSpireMem {sp : Nat} (h : Spares key asn s t) : Spares key asn s (t.loseSpireMem sp) := by
  have hdisowned : ∀ l : List Nat, Spares key asn s (l.foldl State.disown t) := fun l => h.foldl fun _ _ hv => hv.setCore
  exact (hdisowned _).same rfl rfl rfl

theorem Spares.setCtxHeld {n : Nat} (h : Spares key asn s t) : Spares key asn s { t with ctxHeld := n } := h.same rfl rfl rfl
theorem Spares.setCtrs {m : SMap Nat} (h : Spares key asn s t) : Spares key asn s { t with ctrs := m } := h.same rfl rfl rfl
theorem Spares.setStreams {m : SMap Strm} (h : Spares key asn s t) : Spares key asn s { t with streams := m } := h.same rfl rfl rfl

theorem Spares.loseCounters {sp : Nat} (h : Spares key asn s t) : Spares key asn s (t.loseCounters sp) :=
  h.setCtrs.foldl fun _ _ hv => (hv.setCtxHeld.ite hv).setReg.setReg

theorem Spares.removeSpire {sp origin : Nat} (h : Spares key asn s t) (hs : s.stoppable key asn = false) :
    Spares key asn s (t.removeSpire sp origin) := by
  unfold State.removeSpire
  split
  · exact h
  · extract_lets n s1 s2 s3 s4 s5 mine
    have hout : Spares key asn s s2 := h.setSpireState.withdrawSpire.lifeAdd.report
    have hretried : Spares key asn s s3 := hout.foldl fun _ _ hv => hv.retryTask (.inl hs)
    have hlost : Spares key asn s s5 := hretried.loseSpireMem.loseCounters.ite hretried.loseSpireMem
    exact hlost.setStreams.foldl fun _ _ hv => hv.runAdvs hs

/-! ### A stack or a channel leaves service -/

theorem Spares.draw (h : Spares key asn s t) : Spares key asn s t.draw.2 := h.same rfl rfl rfl

theorem Spares.recopy {ch : Nat} {x : Shadow} (h : Spares key asn s t) : Spares key asn s (t.recopy ch x).2 := by
  unfold State.recopy
  split
  · exact h
  · dsimp only
    split
    · exact h
    · exact h.draw

theorem Spares.recopyAll {ch : Nat} {l : List Shadow} (h : Spares key asn s t) : Spares key asn s (State.recopyAll ch l t).2 := by
  induction l generalizing t with
  | nil => exact h
  | cons x l ih => exact ih h.recopy

theorem Spares.loseCopies {ch : Nat} (h : Spares key asn s t) : Spares key asn s (t.loseCopies ch) :=
  h.foldl fun v x hv => (hv.recopyAll (ch := ch) (l := x.shadows)).modTask
    (f := fun y => { y with shadows := (State.recopyAll ch x.shadows v).1 }) (fun _ => ⟨rfl, rfl⟩) (.inr fun _ => rfl)

theorem Spares.loseRecords {ch : Nat} (h : Spares key asn s t) : Spares key asn s (t.loseRecords ch) := h.same rfl rfl rfl

theorem Spares.retryUnit {n origin : Nat} (h : Spares key asn s t) (hs : s.stoppable key asn = false) :
    Spares key asn s (t.retryUnit n origin) := h.foldl fun _ _ hv => hv.retryTask (.inl hs)

theorem Spares.setOut {n : Nat} (h : Spares key asn s t) : Spares key asn s { t with outOfService := n } := h.same rfl rfl rfl

/-- The bit that stands for a stack or channel in MEM_FAIL. -/
def failBit (n : Nat) : Nat := if n < 8 then 16 + n else n - 8

/-- The failure of a stack or channel is noted and reported (R884). -/
def State.memOut (s : State) (n : Nat) : State :=
  let s1 : State := { s with outOfService := nsetBit s.outOfService (failBit n) true }
  (((s1.setB aMemFail (failBit n) true).setB (aRe n 4) 30 true).lifeAdd 0x6 (0x560 + n) 1).report
    { cls := clsUnitOut, origin := 0x560 + n, reporter := 0x560 + n }

theorem removeMem_eq (s : State) (n : Nat) : s.removeMem n =
    if s.outOfService.testBit (failBit n) then s
    else if n < 8 then (s.memOut n).retryUnit n (0x560 + n)
    else ((((s.memOut n).retryUnit n (0x560 + n)).loseCopies (n - 8)).loseRecords (n - 8)).journalFail (n - 8) := rfl

theorem Spares.memOut {n : Nat} (h : Spares key asn s t) : Spares key asn s (t.memOut n) := h.setOut.setReg.setReg.lifeAdd.report

/-- The failure of a stack or channel spares a task that no fault stops any more, until it comes to the journal. -/
theorem Spares.removeMem (h : Spares key asn s t) (hs : s.stoppable key asn = false) (n : Nat) :
    ∃ v, Spares key asn s v ∧ (t.removeMem n = v ∨ 8 ≤ n ∧ t.removeMem n = v.journalFail (n - 8)) := by
  rw [removeMem_eq]
  split
  · exact ⟨_, h, .inl rfl⟩
  · split
    · exact ⟨_, h.memOut.retryUnit hs, .inl rfl⟩
    case isFalse hn => exact ⟨_, (h.memOut.retryUnit hs).loseCopies.loseRecords, .inr ⟨Nat.le_of_not_lt hn, rfl⟩⟩

/-- A unit's fault spares a task that no fault stops any more, until it comes to the journal in the channel of that number. -/
theorem Spares.noteFault (h : Spares key asn s t) (hs : s.stoppable key asn = false) (n : Nat) :
    ∃ v, Spares key asn s v ∧ (t.noteFault n = v ∨ ∃ ch, n = 0x568 + ch ∧ t.noteFault n = v.journalFail ch) := by
  unfold State.noteFault
  extract_lets v
  have hv : Spares key asn s v := h.same rfl rfl rfl
  split
  · exact ⟨v, hv, .inl rfl⟩
  · split
    · exact ⟨_, hv.removeSpire hs, .inl rfl⟩
    · split
      · obtain ⟨w, hw, hend⟩ := hv.removeMem hs (n - 0x560)
        refine ⟨w, hw, hend.imp id fun ⟨hn, he⟩ => ⟨n - 0x568, by omega, ?_⟩⟩
        rw [he, Nat.sub_sub]
      · exact ⟨v, hv, .inl rfl⟩

/-! ### The journal -/

theorem tasks_journalSingle (s : State) (ch : Nat) : (s.journalSingle ch).tasks = s.tasks :=
  (setReg_tasks ..).trans ((setReg_tasks ..).trans (setReg_tasks ..))

theorem fate?_journalMove (s : State) (failed survivor : Nat) (isA : Bool) :
    (s.journalMove failed survivor isA).fate? key asn = s.fate? key asn := by
  unfold State.journalMove
  split
  · exact fate?_of_tasks rfl
  · exact fate?_of_tasks (tasks_journalSingle ..)

/-- A channel's failure that leaves a copy of the journal, or finds none, changes no task (R204, R205). -/
theorem fate?_journalFail {ch : Nat} (hj : s.journalStays (0x568 + ch)) : (s.journalFail ch).fate? key asn = s.fate? key asn := by
  unfold State.journalFail
  dsimp only
  split
  · rfl
  case isFalse hfail =>
    simp only [Bool.or_eq_true, Bool.and_eq_true, bne_iff_ne, not_or, not_and, Bool.not_eq_true] at hfail
    obtain ⟨hlost, hholds⟩ := hfail
    have hboth : s.journal.single = false ∧ s.journal.mirroring = false := by
      rcases hj with hj | hj | ⟨ha, hb⟩
      · exact absurd (hj.symm.trans hlost) (by decide)
      · exact hj
      · exact absurd (not_not.mp (hholds (by omega))) (by omega)
    rw [hboth.1, hboth.2]
    simp only [Bool.false_eq_true, if_false]
    split <;> exact fate?_journalMove ..

/-- A fault of a unit that leaves the journal changes nothing of a task that no fault stops any more. -/
theorem fate?_noteFault {n : Nat} (hs : s.stoppable key asn = false) (hj : s.journalStays n) : (s.noteFault n).fate? key asn = s.fate? key asn := by
  obtain ⟨v, hv, he | ⟨ch, rfl, he⟩⟩ := (Spares.refl s).noteFault hs n
  · rw [he, hv.fate?]
  · rw [he, fate?_journalFail (hv.journalStays hj), hv.fate?]

end Sys2Proof.Machine
end

section
namespace Sys2Proof.Machine

/-! ## What a fault makes of the task that it stops (R866-R873, R879, R969) -/

variable {s t : State} {key asn : Nat}

/-! ### The two ends of a stop, read from the fate -/

theorem willRetry_iff : s.willRetry key asn ↔ ∃ f, s.fate? key asn = some f ∧ f.retryDue = true := by
  constructor
  · rintro ⟨x, hx, hdue⟩
    exact ⟨_, fate?_of_task? hx, hdue⟩
  · rintro ⟨f, hf, hdue⟩
    obtain ⟨x, hx, rfl⟩ := task?_of_fate? hf
    exact ⟨x, hx, hdue⟩

theorem endedWith_iff {st d : Nat} : s.endedWith key asn st d ↔ ∃ f, s.fate? key asn = some f ∧ f.status = some (st, d) ∧ f.ended = true := by
  constructor
  · rintro ⟨x, hx, hend⟩
    exact ⟨_, fate?_of_task? hx, hend⟩
  · rintro ⟨f, hf, hend⟩
    obtain ⟨x, hx, rfl⟩ := task?_of_fate? hf
    exact ⟨x, hx, hend⟩

theorem willRetry_congr (h : t.fate? key asn = s.fate? key asn) : t.willRetry key asn ↔ s.willRetry key asn := by
  rw [willRetry_iff, willRetry_iff, h]

theorem endedWith_congr {st d : Nat} (h : t.fate? key asn = s.fate? key asn) : t.endedWith key asn st d ↔ s.endedWith key asn st d := by
  rw [endedWith_iff, endedWith_iff, h]

theorem not_stoppable_of_willRetry (h : s.willRetry key asn) : s.stoppable key asn = false := by
  obtain ⟨x, hx, hdue⟩ := h
  simp [State.stoppable, hx, hdue]

theorem not_stoppable_of_endedWith {st d : Nat} (h : s.endedWith key asn st d) : s.stoppable key asn = false := by
  obtain ⟨x, hx, -, hend⟩ := h
  simp [State.stoppable, hx, hend]

/-! ### The stop itself -/

/-- A task that has been retried less than twice is due to be retried, and nothing is reported of it (R866, R867). -/
theorem retryTask_retries {x : Task} (hx : s.task? key asn = some x) (hc : s.stoppable key asn = true) (hr : x.retries < 2) (origin : Nat) :
    (s.retryTask key asn origin).willRetry key asn ∧ SameBooks s (s.retryTask key asn origin) := by
  rw [retryTask_stoppable hx hc, if_neg (by omega)]
  have hdue : (s.retrying key asn origin).task? key asn = some { x with retryDue := true, retries := x.retries + 1 } :=
    task?_modTask (s := s.lifeAdd 0x5 origin 1) hx fun _ => ⟨rfl, rfl⟩
  have hbooks : SameBooks s (s.retrying key asn origin) := ⟨rfl, rfl, rfl⟩
  generalize s.retrying key asn origin = v at hdue hbooks ⊢
  obtain ⟨l, hl⟩ := (winds_stopTask v key asn).task? hdue
  exact ⟨⟨_, hl, rfl⟩, hbooks.stopTask⟩

/-- What failTask and loseTask do to a task once its status stands: it stops, and ends. -/
theorem stopTask_endTask_spec {y : Task} (hy : s.task? key asn = some y) :
    ∃ l, ((s.stopTask key asn).endTask key asn).task? key asn = some { y with t7 := l, ended := true } := by
  obtain ⟨_, hstop⟩ := (winds_stopTask s key asn).task? hy
  obtain ⟨-, l, hend⟩ := endTask_spec hstop 0
  exact ⟨l, hend⟩

/-- A task that a fault can stop ends with the status that the fault gives it (R495). -/
theorem failTask_endedWith (hc : s.stoppable key asn = true) (st d : Nat) : (s.failTask key asn st d).endedWith key asn st d := by
  obtain ⟨x, hx, -⟩ := stoppable_iff.mp hc
  rw [failTask_eq, if_pos hc]
  obtain ⟨l, hl⟩ := stopTask_endTask_spec (task?_modTask hx (f := fun y => { y with status := some (st, d) }) fun _ => ⟨rfl, rfl⟩)
  exact ⟨_, hl, rfl, rfl⟩

/-- The journal stands, whichever task a fault ends: a task of another key is spared. -/
theorem journal_failTask (s : State) (k a st d : Nat) : (s.failTask k a st d).journal = s.journal := by
  have hnext : Spares (k + 1) a s (s.failTask k a st d) := (Spares.refl s).failTask (.inr (by omega))
  exact hnext.journal

/-! ### The stop, and the count against the unit at fault (R883) -/

theorem noteFault_willRetry {n : Nat} (h : s.willRetry key asn) (hj : s.journalStays n) : (s.noteFault n).willRetry key asn :=
  (willRetry_congr (fate?_noteFault (not_stoppable_of_willRetry h) hj)).mpr h

theorem noteFault_endedWith {n st d : Nat} (h : s.endedWith key asn st d) (hj : s.journalStays n) : (s.noteFault n).endedWith key asn st d :=
  (endedWith_congr (fate?_noteFault (not_stoppable_of_endedWith h) hj)).mpr h

/-- A fault is noted against its unit. -/
def State.faultNoted (s : State) (n : Nat) : State :=
  { s with stops := (s.stops.filter fun e => decide (s.tick ≤ e.1 + 1000000000)) ++ [(s.tick, failKey n)] }

/-- A unit that never leaves service has its fault noted, and no more. -/
theorem noteFault_of_stays {n : Nat} (h : stays n) (s : State) : s.noteFault n = s.faultNoted n := by
  obtain ⟨hspire, hmem⟩ := h
  unfold State.noteFault
  dsimp only
  rw [hspire]
  dsimp only
  rw [if_neg (by omega : ¬ (0x560 ≤ n ∧ n < 0x578)), ite_self]
  rfl

/-- So has one below the limit. -/
theorem noteFault_of_below {n : Nat} (h : (s.faultNoted n).failCount n < (s.faultNoted n).failLimit) : s.noteFault n = s.faultNoted n := if_pos h

/-- A fault that a retry may cure (R866, R867, R883). -/
theorem retryTask_noteFault_willRetry {x : Task} {n : Nat} (hx : s.task? key asn = some x) (hc : s.stoppable key asn = true)
    (hr : x.retries < 2) (hj : s.journalStays n) : ((s.retryTask key asn n).noteFault n).willRetry key asn := by
  obtain ⟨hdue, hbooks⟩ := retryTask_retries hx hc hr n
  exact noteFault_willRetry hdue ((journalStays_congr hbooks.journal).mpr hj)

/-- A fault that ends a task (R879, R883). -/
theorem failTask_noteFault_endedWith {n : Nat} (hc : s.stoppable key asn = true) (hj : s.journalStays n) (st d : Nat) :
    ((s.failTask key asn st d).noteFault n).endedWith key asn st d :=
  noteFault_endedWith (failTask_endedWith hc st d) ((journalStays_congr (journal_failTask ..)).mpr hj)

/-- The third stop of a task ends it (R867). -/
theorem retryTask_noteFault_endedWith {x : Task} {n : Nat} (hx : s.task? key asn = some x) (hc : s.stoppable key asn = true)
    (hr : 2 ≤ x.retries) (hj : s.journalStays n) : ((s.retryTask key asn n).noteFault n).endedWith key asn stRetryExh n := by
  have hreport : Spares key asn s (s.exhausted x key asn n) := (Spares.refl s).setReg.lifeAdd.report
  rw [retryTask_stoppable hx hc, if_pos hr]
  exact failTask_noteFault_endedWith (hreport.stoppable.trans hc) (hreport.journalStays hj) ..

/-! ### Loss with the journal (R882, R969) -/

/-- The task has been accepted, and has ended with FAILED_DATA_LOST and no DETAIL; no retry of it is due. -/
def State.lostWith (s : State) (key asn : Nat) : Prop :=
  ∃ x, s.task? key asn = some x ∧ x.accepted = true ∧ x.status = some (stDataLost, 0xFFFF) ∧ x.ended = true ∧ x.retryDue = false

theorem State.lostWith.endedWith (h : s.lostWith key asn) : s.endedWith key asn stDataLost 0xFFFF := by
  obtain ⟨x, hx, -, hstatus, hend, -⟩ := h
  exact ⟨x, hx, hstatus, hend⟩

theorem State.lostWith.congr (h : s.lostWith key asn) (he : t.fate? key asn = s.fate? key asn) : t.lostWith key asn := by
  obtain ⟨x, hx, hlost⟩ := h
  obtain ⟨y, hy, hfate⟩ := task?_of_fate? (he.trans (fate?_of_task? hx))
  obtain ⟨hacc, hstatus, hend, hdue, -⟩ := Fate.mk.inj hfate
  exact ⟨y, hy, by rwa [hacc, hstatus, hend, hdue]⟩

/-- An accepted task that MRAM does not record is lost with the journal, whatever it has reached (R969). -/
theorem loseTask_lostWith {x : Task} (hx : s.task? key asn = some x) (hr : s.recorded x = false) (ha : x.accepted = true) :
    (s.loseTask key asn).lostWith key asn := by
  rw [State.loseTask, hx]
  dsimp only
  rw [hr, if_neg Bool.false_ne_true]
  obtain ⟨l, hl⟩ := stopTask_endTask_spec
    (task?_modTask hx (f := fun y => { y with status := some (stDataLost, 0xFFFF), retryDue := false }) fun _ => ⟨rfl, rfl⟩)
  exact ⟨_, hl, ha, rfl, rfl, rfl⟩

/-- A task that is lost stays lost when tasks are lost again. -/
theorem State.lostWith.loseTask (h : s.lostWith key asn) (k a : Nat) : (s.loseTask k a).lostWith key asn := by
  by_cases hsame : k = key ∧ a = asn
  · obtain ⟨rfl, rfl⟩ := hsame
    obtain ⟨x, hx, hacc, -⟩ := id h
    cases hr : s.recorded x with
    | false => exact loseTask_lostWith hx hr hacc
    | true =>
      rw [State.loseTask, hx]
      dsimp only
      rwa [hr, if_pos rfl]
  · unfold State.loseTask
    split
    · exact h
    · split
      · exact h
      · have hmark : Spares key asn s (s.modTask k a fun y => { y with status := some (stDataLost, 0xFFFF), retryDue := false }) :=
          (Spares.refl s).modTask (fun _ => ⟨rfl, rfl⟩) (.inl hsame)
        exact h.congr (hmark.stopTask.endTask hsame).fate?

theorem tasks_unadmit (s : State) : s.unadmit.tasks = s.tasks.filter (·.accepted) := by
  have hkeys : ∀ (f : State → Task → KeySlot) (l : List Task) (v : State),
      (l.foldl (fun u x => u.setKey x.key (f u x)) v).tasks = v.tasks := by
    intro f l
    induction l with
    | nil => exact fun _ => rfl
    | cons x l ih => exact fun v => ih _
  exact congrArg (List.filter (·.accepted)) (hkeys _ _ _)

/-- An accepted task is not taken back (R205, R969). -/
theorem State.lostWith.unadmit (h : s.lostWith key asn) : s.unadmit.lostWith key asn := by
  obtain ⟨x, hx, hacc, hlost⟩ := h
  refine ⟨x, ?_, hacc, hlost⟩
  rw [State.task?, List.find?_eq_some_iff_append] at hx
  rw [State.task?, tasks_unadmit, List.find?_eq_some_iff_append]
  obtain ⟨hname, as, bs, hl, has⟩ := hx
  refine ⟨hname, as.filter (·.accepted), bs.filter (·.accepted), ?_, fun y hy => has y (List.mem_of_mem_filter hy)⟩
  rw [hl, List.filter_append, List.filter_cons_of_pos hacc]

/-- No copy of the journal remains. -/
def State.journalLost (s : State) : State := { s with journal := { s.journal with lost := true } }

theorem tasks_journalLost (s : State) : s.journalLost.tasks = s.tasks := rfl

/-- The registers and the journal show that no copy of it remains (R969). -/
def State.journalOut (s : State) (ch : Nat) : State := ((s.journalSingle ch).setB aMemGlacier 29 true).journalLost

theorem journalGone_eq (s : State) (ch : Nat) : s.journalGone ch
    = (s.journalOut ch).unadmit.tasks.foldl (fun t x => t.loseTask x.key x.asn) (s.journalOut ch).unadmit := rfl

theorem tasks_journalOut (s : State) (ch : Nat) : (s.journalOut ch).tasks = s.tasks :=
  (tasks_journalLost _).trans ((setReg_tasks ..).trans (tasks_journalSingle ..))

theorem State.lostWith.journalGone (h : s.lostWith key asn) (ch : Nat) : (s.journalGone ch).lostWith key asn := by
  have hfold : ∀ (l : List Task) (v : State), v.lostWith key asn → (l.foldl (fun u x => u.loseTask x.key x.asn) v).lostWith key asn := by
    intro l
    induction l with
    | nil => exact fun _ hv => hv
    | cons x l ih => exact fun v hv => ih _ (hv.loseTask ..)
  rw [journalGone_eq]
  exact hfold _ _ (h.congr (fate?_of_tasks (tasks_journalOut ..))).unadmit

theorem State.lostWith.journalFail (h : s.lostWith key asn) (ch : Nat) : (s.journalFail ch).lostWith key asn := by
  have hmove : ∀ a b c, (s.journalMove a b c).lostWith key asn := fun a b c => h.congr (fate?_journalMove ..)
  unfold State.journalFail
  dsimp only
  split
  · exact h
  · split
    · exact h.journalGone ch
    · split
      · split
        · exact hmove ..
        · exact h.journalGone ch
      · split <;> exact hmove ..

theorem State.lostWith.noteFault (h : s.lostWith key asn) (n : Nat) : (s.noteFault n).lostWith key asn := by
  obtain ⟨v, hv, he | ⟨ch, -, he⟩⟩ := (Spares.refl s).noteFault (not_stoppable_of_endedWith h.endedWith) n
  · rw [he]; exact h.congr hv.fate?
  · rw [he]; exact (h.congr hv.fate?).journalFail ch

end Sys2Proof.Machine
end

section
namespace Sys2Proof.Machine

/-! ## Counts and reports of errors (R861-R866, R878-R882) -/

variable {s t u : State} {key asn : Nat}

/-- The registers that a report moves (R893): the count of records, the count of records read, and the count of records lost. -/
def reportRegs : List Nat := [aErr 0x00C, aErr 0x010, aErr 0x118]

theorem reg_report {a : Nat} (h : a ∉ reportRegs) (s : State) (r : ErrReport) : (s.report r).reg a = s.reg a := by
  simp only [reportRegs, List.mem_cons, List.not_mem_nil, or_false, not_or] at h
  obtain ⟨hseq, hread, hlost⟩ := h
  unfold State.report
  dsimp only [State.draw]
  split
  · rfl
  · have hring : ∀ (v : State) (w x : W32) (b : Bool), v.reg a = s.reg a →
        (if b then ((v.setReg (aErr 0x00C) w).setReg (aErr 0x010) x).bump (aErr 0x118) else v.setReg (aErr 0x00C) w).reg a = s.reg a := by
      intro v w x b hv
      split
      · rw [State.bump, reg_setReg, if_neg hlost, reg_setReg, if_neg hread, reg_setReg, if_neg hseq, hv]
      · rw [reg_setReg, if_neg hseq, hv]
    exact hring _ _ _ _ rfl

theorem Counted.report {a : Nat} (h : Counted s t a) (ha : a ∉ reportRegs) (r : ErrReport) : Counted s (t.report r) a := by
  rwa [Counted, reg_report ha]

/-- Nothing changed but registers, the count of draws, the lifetime counts and the error log. -/
def LogsOnly (s t : State) : Prop := t = { s with draws := t.draws, regs := t.regs, smd := t.smd, errs := t.errs }

theorem LogsOnly.report {r : ErrReport} (h : LogsOnly s t) : LogsOnly s (t.report r) := by
  rw [LogsOnly] at h ⊢
  rw [(report_spec t r).2]
  exact congrArg (fun (v : State) => { v with
    draws := t.draws + 1, regs := (t.report r).regs, smd := t.smd, errs := (t.report r).errs }) h

/-- A corrected error is counted and reported, and changes nothing else (R864, R865, R878). -/
theorem corrected_spec (s : State) (n a : Nat) : Counted s (s.corrected n a) (aErr 0x110) ∧ Reported (s.corrected n a) clsMemCe n
    ∧ LogsOnly s (s.corrected n a) := by
  have hcount : Counted s ((s.draw.2.bump (aErr 0x110)).lifeAdd 0x3 n 1) (aErr 0x110) := counted_bump s.draw.2 (aErr 0x110) 1
  have hlogs : LogsOnly s ((s.draw.2.bump (aErr 0x110)).lifeAdd 0x3 n 1) := rfl
  exact ⟨hcount.report (by decide) _, (report_spec ..).1, hlogs.report⟩

/-- The state in which an uncorrectable error has been counted. -/
def State.ueCounted (s : State) : State := (s.draw.2.bump (aErr 0x114)).lifeAdd 0x7 5 1

/-- So is an uncorrectable error that no task has read (R275, R881). -/
theorem ueFound_spec (s : State) (n a : Nat) : Counted s (s.ueFound n a) (aErr 0x114) ∧ Reported (s.ueFound n a) clsMemUe n
    ∧ LogsOnly s (s.ueFound n a) ∧ ∀ b, b ∉ aErr 0x114 :: reportRegs → (s.ueFound n a).reg b = s.reg b := by
  have hcount : Counted s s.ueCounted (aErr 0x114) := counted_bump s.draw.2 (aErr 0x114) 1
  have hlogs : LogsOnly s s.ueCounted := rfl
  refine ⟨hcount.report (by decide) _, (report_spec ..).1, hlogs.report, fun b hb => ?_⟩
  obtain ⟨hne, hb⟩ := not_or.mp (mt List.mem_cons.mpr hb)
  have hbump : s.ueCounted.reg b = s.reg b := (reg_setReg s.draw.2 _ _ _).trans (if_neg hne)
  exact (reg_report hb _ _).trans hbump

/-! ### Links (R861-R863) -/

theorem exec_transferParityError (link receiver : Nat) (n : Fin 9) (owners : List (Nat × Nat)) (waiters : List Nat) :
    exec (.transferParityError link receiver n owners waiters) s = execTransferParityError link receiver n owners waiters s := rfl

/-- The unit numbers of links (R859, R863). -/
theorem isLink_iff {l : Nat} : isLink l = true ↔ (0x560 ≤ l ∧ l < 0x578) ∨ (0x520 ≤ l ∧ l < 0x530) ∨ l ∈ [0x592, 0x593, 0x596] := by
  simp only [isLink, Bool.or_eq_true, Bool.and_eq_true, decide_eq_true_iff, List.contains_iff_mem, or_assoc]

/-- The guard of the command: a link, and units at its ends. -/
theorem linkGuard_iff {link receiver : Nat} {waiters : List Nat} : (!isLink link || !isUnit receiver || !waiters.all isUnit) = false
    ↔ ((0x560 ≤ link ∧ link < 0x578) ∨ (0x520 ≤ link ∧ link < 0x530) ∨ link ∈ [0x592, 0x593, 0x596])
      ∧ isUnit receiver = true ∧ ∀ w ∈ waiters, isUnit w = true := by
  simp only [Bool.or_eq_false_iff, Bool.not_eq_false', List.all_eq_true, and_assoc, isLink_iff]

theorem transfer_idle {link receiver : Nat} {n : Fin 9} {owners : List (Nat × Nat)} {waiters : List Nat}
    (hg : (!isLink link || !isUnit receiver || !waiters.all isUnit) = true) :
    exec (.transferParityError link receiver n owners waiters) s = .next s := if_pos hg

/-- A transfer that is replayed (R861, R862). -/
theorem runs_replay {link receiver : Nat} {n : Fin 9} {owners : List (Nat × Nat)} {waiters : List Nat}
    (hg : (!isLink link || !isUnit receiver || !waiters.all isUnit) = false) (hn : n.val < 8) :
    Runs (.transferParityError link receiver n owners waiters) s fun t => Counted s t (aErr 0x100) ∧ Reported t 0x01 link ∧ t.mem = s.mem
      ∧ t.tasks = s.tasks ∧ t.cores = s.cores := by
  have hcount : Counted s ((s.bump (aErr 0x100)).lifeAdd 0x4 receiver 1) (aErr 0x100) := counted_bump s (aErr 0x100) 1
  have hlogs : LogsOnly s ((s.bump (aErr 0x100)).lifeAdd 0x4 receiver 1) := rfl
  refine ⟨_, by rw [exec_transferParityError, execTransferParityError, hg, if_neg Bool.false_ne_true, if_pos hn],
    hcount.report (by decide) _, (report_spec ..).1, ?_⟩
  rw [hlogs.report]
  exact ⟨rfl, rfl, rfl⟩

/-- The tasks that own transfers on a lost link stop (R863). -/
def State.ownersStopped (s : State) (link : Nat) (owners : List (Nat × Nat)) : State :=
  owners.foldl (fun t x => t.retryTask x.1 x.2 link) s

/-- Everyone who waited for a lost transfer reports (R863). -/
def State.reportLost (s : State) (link tick : Nat) (who : List Nat) : State :=
  who.foldl (fun t w => t.report { cls := clsLinkExhausted, origin := link, reporter := w, found := some tick }) s

/-- A lost transfer, before its unit leaves service. -/
def State.linkReported (s : State) (link receiver : Nat) (owners : List (Nat × Nat)) (waiters : List Nat) : State :=
  let v := (s.bump (aErr 0x104)).ownersStopped link owners
  State.reportLost { v with stops := v.stops ++ [(v.tick, link)] } link s.tick (if waiters.isEmpty then [receiver] else waiters)

theorem linkLost_eq (s : State) (link receiver : Nat) (owners : List (Nat × Nat)) (waiters : List Nat) :
    s.linkLost link receiver owners waiters = if 0x560 ≤ link ∧ link < 0x578 then
      (s.linkReported link receiver owners waiters).removeMem (link - 0x560) else s.linkReported link receiver owners waiters := by
  have hstep : (fun (t : State) (x : Nat × Nat) => if t.stoppable x.1 x.2 then t.retryTask x.1 x.2 link else t)
      = fun t x => t.retryTask x.1 x.2 link := by
    funext t x
    cases h : t.stoppable x.1 x.2 with
    | false => rw [retryTask_unstoppable h, ite_self]
    | true => rfl
  unfold State.linkLost
  rw [hstep]
  rfl

/-- Each owner that a fault can stop, and that has been retried less than twice, is due to be retried. -/
theorem ownersStopped_willRetry {link : Nat} {owners : List (Nat × Nat)} {x : Task} (hx : s.fate? key asn = some x.fate)
    (hc : s.stoppable key asn = true) (hr : x.retries < 2) (hin : (key, asn) ∈ owners) :
    (s.ownersStopped link owners).willRetry key asn ∧ (s.ownersStopped link owners).journal = s.journal := by
  unfold State.ownersStopped
  induction owners generalizing s with
  | nil => cases hin
  | cons o owners ih =>
    rw [List.foldl_cons]
    by_cases ho : o.1 = key ∧ o.2 = asn
    · obtain ⟨rfl, rfl⟩ := ho
      obtain ⟨y, hy, hfate⟩ := task?_of_fate? hx
      obtain ⟨-, -, -, -, hretries⟩ := Fate.mk.inj hfate
      obtain ⟨hdue, hbooks⟩ := retryTask_retries hy hc (by omega) link
      generalize s.retryTask o.1 o.2 link = v at hdue hbooks ⊢
      have hrest : Spares o.1 o.2 v (owners.foldl (fun t x => t.retryTask x.1 x.2 link) v) :=
        (Spares.refl v).foldl fun _ _ hw => hw.retryTask (.inl (not_stoppable_of_willRetry hdue))
      exact ⟨(willRetry_congr hrest.fate?).mpr hdue, hrest.journal.trans hbooks.journal⟩
    · have hspare : Spares key asn s (s.retryTask o.1 o.2 link) := (Spares.refl s).retryTask (.inr ho)
      have hrest : (key, asn) ∈ owners := (List.mem_cons.mp hin).resolve_left fun he => ho (he ▸ ⟨rfl, rfl⟩)
      obtain ⟨hdue, hjournal⟩ := ih (hspare.fate?.trans hx) (hspare.stoppable.trans hc) hrest
      exact ⟨hdue, hjournal.trans hspare.journal⟩

theorem Spares.setStops {l : List (Nat × Nat)} (h : Spares key asn s t) : Spares key asn s { t with stops := l } := h.same rfl rfl rfl

theorem Spares.reportLost {link tick : Nat} {who : List Nat} (h : Spares key asn s t) : Spares key asn s (t.reportLost link tick who) :=
  h.foldl fun _ _ hv => hv.report

/-- A lost transfer's owners are retried, also where the link's unit leaves service (R863). -/
theorem linkLost_willRetry {link receiver : Nat} {owners : List (Nat × Nat)} {waiters : List Nat} {x : Task} (hj : s.journalStays link)
    (hin : (key, asn) ∈ owners) (hx : s.task? key asn = some x) (hc : s.stoppable key asn = true) (hr : x.retries < 2) :
    (s.linkLost link receiver owners waiters).willRetry key asn := by
  have hbump : Spares key asn s (s.bump (aErr 0x104)) := (Spares.refl s).setReg
  have hreported : (s.linkReported link receiver owners waiters).willRetry key asn
      ∧ (s.linkReported link receiver owners waiters).journalStays link := by
    obtain ⟨hdue, hjournal⟩ := ownersStopped_willRetry (link := link) (hbump.fate?.trans (fate?_of_task? hx)) (hbump.stoppable.trans hc) hr hin
    unfold State.linkReported
    dsimp only
    generalize (s.bump (aErr 0x104)).ownersStopped link owners = v at hdue hjournal ⊢
    have hsay : Spares key asn v (State.reportLost { v with stops := v.stops ++ [(v.tick, link)] } link s.tick
        (if waiters.isEmpty then [receiver] else waiters)) := (Spares.refl v).setStops.reportLost
    exact ⟨(willRetry_congr hsay.fate?).mpr hdue, hsay.journalStays ((journalStays_congr hjournal).mpr hj)⟩
  rw [linkLost_eq]
  generalize s.linkReported link receiver owners waiters = v at hreported
  obtain ⟨hdue, hj⟩ := hreported
  split
  case isFalse => exact hdue
  case isTrue hlink =>
    obtain ⟨w, hw, he | ⟨hn, he⟩⟩ := (Spares.refl v).removeMem (not_stoppable_of_willRetry hdue) (link - 0x560)
    · rw [he]; exact (willRetry_congr hw.fate?).mpr hdue
    · have hchan : link = 0x568 + (link - 0x560 - 8) := by omega
      have hfate : (w.journalFail (link - 0x560 - 8)).fate? key asn = w.fate? key asn := fate?_journalFail (hchan ▸ hw.journalStays hj)
      rw [he]
      exact (willRetry_congr (hfate.trans hw.fate?)).mpr hdue

/-- Reports of a lost transfer, of which there is one at least. -/
theorem reportLost_spec {a : Nat} (ha : a ∉ reportRegs) (s : State) (link tick : Nat) {who : List Nat} (hwho : who ≠ []) :
    Reported (s.reportLost link tick who) clsLinkExhausted link ∧ (s.reportLost link tick who).reg a = s.reg a
      ∧ LogsOnly s (s.reportLost link tick who) := by
  have hall : ∀ (l : List Nat) (v : State), v.reg a = s.reg a → LogsOnly s v →
      (v.reportLost link tick l).reg a = s.reg a ∧ LogsOnly s (v.reportLost link tick l) := by
    intro l
    induction l with
    | nil => exact fun v hreg hlogs => ⟨hreg, hlogs⟩
    | cons w l ih => exact fun v hreg hlogs => ih _ ((reg_report ha ..).trans hreg) hlogs.report
  refine ⟨?_, hall who s rfl rfl⟩
  obtain ⟨init, w, rfl⟩ := (List.eq_nil_or_concat who).resolve_left hwho
  rw [State.reportLost, List.concat_eq_append, List.foldl_append]
  exact (report_spec ..).1

/-- A lost transfer that no task owns, on a link that stays (R863). -/
theorem linkLost_unowned {link : Nat} (hs : stays link) (s : State) (receiver : Nat) (waiters : List Nat) :
    let t := s.linkLost link receiver [] waiters
    Counted s t (aErr 0x104) ∧ Reported t clsLinkExhausted link ∧ t.mem = s.mem ∧ t.tasks = s.tasks := by
  obtain ⟨-, hmem⟩ := hs
  have hwho : (if waiters.isEmpty then [receiver] else waiters) ≠ [] := by
    cases waiters <;> simp
  dsimp only
  rw [linkLost_eq, if_neg (by omega)]
  have hbump := counted_bump s (aErr 0x104) 1
  obtain ⟨hrep, hreg, hlogs⟩ := reportLost_spec (a := aErr 0x104) (by decide)
    { s.bump (aErr 0x104) with stops := s.stops ++ [(s.tick, link)] } link s.tick hwho
  have hsame : s.linkReported link receiver [] waiters
    = State.reportLost { s.bump (aErr 0x104) with stops := s.stops ++ [(s.tick, link)] } link s.tick (if waiters.isEmpty then [receiver] else waiters) := rfl
  rw [hsame]
  refine ⟨?_, hrep, ?_⟩
  · rw [Counted, hreg]
    exact hbump
  · rw [hlogs]
    exact ⟨rfl, rfl⟩

theorem runs_linkLost {link receiver : Nat} {n : Fin 9} {owners : List (Nat × Nat)} {waiters : List Nat}
    (hg : (!isLink link || !isUnit receiver || !waiters.all isUnit) = false) (hn : n.val = 8) :
    Runs (.transferParityError link receiver n owners waiters) s fun t =>
      (s.journalStays link → ∀ key asn y, (key, asn) ∈ owners → s.task? key asn = some y → s.canFail key asn → y.retries < 2 →
        t.willRetry key asn)
      ∧ (owners = [] → stays link → Counted s t (aErr 0x104) ∧ Reported t 0x02 link ∧ t.mem = s.mem ∧ t.tasks = s.tasks) := by
  refine ⟨s.linkLost link receiver owners waiters,
    by rw [exec_transferParityError, execTransferParityError, hg, if_neg Bool.false_ne_true, if_neg (by omega)],
    fun hj key asn y hin hy hc hr => linkLost_willRetry hj hin hy (stoppable_iff.mpr hc) hr, fun ho hs => ?_⟩
  rw [ho]
  exact linkLost_unowned hs s receiver waiters

end Sys2Proof.Machine
end

section
namespace Sys2Proof.Machine

/-! ## Stored state, memory errors, patrol scrub and the closing of records (R271-R275, R864-R866, R878-R882, R891) -/

variable {s t : State} {key asn u a : Nat}

/-! ### Stored state (R866) -/

theorem exec_stateParityError (u key asn : Nat) : exec (.stateParityError u key asn) s = execStateParityError u key asn s := rfl

theorem stateParity_idle (h : s.task? key asn = none ∨ isUnit u = false) : exec (.stateParityError u key asn) s = .next s := by
  rw [exec_stateParityError, execStateParityError]
  cases hx : s.task? key asn with
  | none => rfl
  | some x =>
    have hu : isUnit u = false := h.resolve_left (by rw [hx]; exact Option.some_ne_none x)
    simp [hu]

theorem stateParity_reports {x : Task} (hx : s.task? key asn = some x) (hu : isUnit u = true) : ∃ r : ErrReport, r.cls = clsStateParity
    ∧ r.origin = u ∧ exec (.stateParityError u key asn) s = .next ((s.report r).faultStop u (key, asn)) := by
  rw [exec_stateParityError, execStateParityError, hx]
  dsimp only
  rw [hu, Bool.not_true, if_neg Bool.false_ne_true]
  exact ⟨_, rfl, rfl, rfl⟩

theorem logs_report (s : State) (r : ErrReport) : LogsOnly s (s.report r) := LogsOnly.report rfl

theorem stateParity_clauses {x : Task} (hx : s.task? key asn = some x) (hu : isUnit u = true) :
    (¬ s.canFail key asn → Runs (.stateParityError u key asn) s fun t => Reported t 0x03 u ∧ t.tasks = s.tasks ∧ t.mem = s.mem
      ∧ t.cores = s.cores)
    ∧ (s.canFail key asn → s.journalStays u →
      (x.retries < 2 → Runs (.stateParityError u key asn) s fun t => t.willRetry key asn ∧ (stays u → Reported t 0x03 u))
      ∧ (2 ≤ x.retries → Runs (.stateParityError u key asn) s fun t => t.endedWith key asn 0x0101 u)) := by
  obtain ⟨r, hcls, horigin, hexec⟩ := stateParity_reports hx hu
  obtain ⟨hrep, -⟩ := report_spec s r
  rw [hcls, horigin] at hrep
  have hlogs := logs_report s r
  have hspare : Spares key asn s (s.report r) := (Spares.refl s).report
  have hstop := hspare.stoppable
  have hvx : (s.report r).task? key asn = some x := by rw [State.task?, hlogs]; exact hx
  rw [State.faultStop] at hexec
  dsimp only at hexec
  rw [hstop] at hexec
  refine ⟨fun hno => ?_, fun hc hj => ?_⟩
  · rw [stoppable_eq_false_iff.mpr hno, if_neg Bool.false_ne_true] at hexec
    refine ⟨_, hexec, hrep, ?_⟩
    rw [hlogs]
    exact ⟨rfl, rfl, rfl⟩
  · have hcan := stoppable_iff.mpr hc
    have hvc := hstop.trans hcan
    have hvj := hspare.journalStays hj
    rw [if_pos hcan] at hexec
    refine ⟨fun hr => ⟨_, hexec, retryTask_noteFault_willRetry hvx hvc hr hvj, fun hs => ?_⟩,
      fun hr => ⟨_, hexec, retryTask_noteFault_endedWith hvx hvc hr hvj⟩⟩
    obtain ⟨-, hbooks⟩ := retryTask_retries hvx hvc hr u
    obtain ⟨e, he, hrec⟩ := hrep
    rw [noteFault_of_stays hs]
    exact ⟨e, hbooks.errs ▸ he, hrec⟩

/-! ### Corrected errors (R864, R865, R878) -/

theorem exec_correctedError (o : Option Nat) (a : Nat) : exec (.correctedError o a) s = execCorrectedError o a s := rfl

theorem corrected_clauses (s : State) (u a : Nat) : Counted s (s.corrected u a) (aErr 0x110) ∧ Reported (s.corrected u a) 0x04 u
    ∧ (s.corrected u a).mem = s.mem ∧ (s.corrected u a).tasks = s.tasks ∧ (s.corrected u a).cores = s.cores
    ∧ (s.corrected u a).badBytes = s.badBytes := by
  obtain ⟨hcount, hrep, hlogs⟩ := corrected_spec s u a
  refine ⟨hcount, hrep, ?_⟩
  rw [hlogs]
  exact ⟨rfl, rfl, rfl, rfl⟩

theorem correctedUnit_clauses (s : State) (u a : Nat) : (isUnit u = false → exec (.correctedError (some u) a) s = .next s)
    ∧ (isUnit u = true → Runs (.correctedError (some u) a) s fun t => Counted s t (aErr 0x110) ∧ Reported t 0x04 u ∧ t.mem = s.mem
      ∧ t.tasks = s.tasks ∧ t.cores = s.cores) := by
  rw [Runs, exec_correctedError, execCorrectedError]
  refine ⟨fun hu => by rw [hu, if_neg Bool.false_ne_true], fun hu => ?_⟩
  obtain ⟨hcount, hrep, hmem, htasks, hcores, -⟩ := corrected_clauses s u a
  rw [hu, if_pos rfl]
  exact ⟨_, rfl, hcount, hrep, hmem, htasks, hcores⟩

theorem correctedMemory_clauses (s : State) (a : Nat) : (s.tierAt a = false → exec (.correctedError none a) s = .next s)
    ∧ (s.tierAt a = true → Runs (.correctedError none a) s fun t => Counted s t (aErr 0x110) ∧ Reported t 0x04 (s.place a).unit
      ∧ t.mem = s.mem ∧ t.tasks = s.tasks) := by
  rw [Runs, exec_correctedError, execCorrectedError]
  refine ⟨fun hu => by rw [hu, if_neg Bool.false_ne_true], fun hu => ?_⟩
  obtain ⟨hcount, hrep, hmem, htasks, -⟩ := corrected_clauses s (s.place a).unit a
  rw [hu, if_pos rfl]
  exact ⟨_, rfl, hcount, hrep, hmem, htasks⟩

/-! ### Uncorrectable errors that a task reads (R879, R880) -/

theorem exec_uncorrectableError (e : UeSite) : exec (.uncorrectableError e) s = execUncorrectableError e s := rfl

/-- An error in data that a task reads is counted and reported before the task stops. -/
theorem dataError_eq {x : Task} (hx : s.task? key asn = some x) (hl : s.lostAt a = false) : ∃ v : State, v.tasks = s.tasks ∧ Spares key asn s v
    ∧ s.dataError key asn a = (if x.owns a then v.retryTask key asn (s.place a).unit else v.failTask key asn stDataLost (x.bufOf a)).noteFault
        (s.place a).unit := by
  have hcounted : LogsOnly s s.ueCounted := rfl
  have hspare : Spares key asn s s.ueCounted := (Spares.refl s).draw.setReg.lifeAdd
  unfold State.dataError
  rw [hx]
  dsimp only
  rw [hl, Bool.not_false, Bool.and_true, if_neg Bool.false_ne_true]
  generalize hr : ErrReport.mk clsMemUe _ _ _ _ _ _ _ _ _ _ _ = r
  refine ⟨s.ueCounted.report r, ?_, hspare.report, rfl⟩
  rw [hcounted.report]

theorem ueRead_idle (h : s.tierAt a = false ∨ s.heldGood (a / 128) = true ∨ s.task? key asn = none) :
    exec (.uncorrectableError (.read a key asn)) s = .next s := by
  have hguard : (s.tierAt a && !s.heldGood (a / 128) && (s.task? key asn).isSome) = false := by
    rcases h with h | h | h <;> simp [h]
  rw [exec_uncorrectableError, execUncorrectableError, hguard, if_neg Bool.false_ne_true]

theorem ueRead_clauses {x : Task} (ht : s.tierAt a = true) (hg : s.heldGood (a / 128) = false) (hx : s.task? key asn = some x)
    (hc : s.canFail key asn) (hj : s.journalStays (s.place a).unit) :
    (x.owns a = true → x.retries < 2 → Runs (.uncorrectableError (.read a key asn)) s fun t => t.willRetry key asn)
    ∧ (x.owns a = false → Runs (.uncorrectableError (.read a key asn)) s fun t => t.endedWith key asn 0x0100 (x.bufOf a)) := by
  have hserves : s.lostAt a = false := by
    simp only [State.tierAt, Bool.and_eq_true, Bool.not_eq_true'] at ht
    exact ht.2
  have hexec : exec (.uncorrectableError (.read a key asn)) s = .next ((s.spoil a).dataError key asn a) := by
    rw [exec_uncorrectableError, execUncorrectableError, ht, hg, hx]
    rfl
  have hspoil : Spares key asn s (s.spoil a) := (Spares.refl s).same rfl rfl rfl
  obtain ⟨v, htasks, hv, herr⟩ := dataError_eq (s := s.spoil a) (a := a) hx hserves
  replace hv := hspoil.trans hv
  have hvx : v.task? key asn = some x := by rw [State.task?, htasks]; exact hx
  have hvc := hv.stoppable.trans (stoppable_iff.mpr hc)
  have hvj := hv.journalStays hj
  have hplace : (s.spoil a).place a = s.place a := rfl
  rw [herr, hplace] at hexec
  refine ⟨fun ho hr => ⟨_, hexec, ?_⟩, fun ho => ⟨_, hexec, ?_⟩⟩
  · rw [ho, if_pos rfl]
    exact retryTask_noteFault_willRetry hvx hvc hr hvj
  · rw [ho, if_neg Bool.false_ne_true]
    exact failTask_noteFault_endedWith hvc hvj ..

/-! ### Uncorrectable errors in a dirty line (R881) -/

theorem failKey_of_stays (h : stays u) : failKey u = u := by
  obtain ⟨hspire, -⟩ := h
  rw [failKey, hspire]

theorem stays_slice (l : Nat) : stays (0x500 + lineSlice l) := by
  have hslice : lineSlice l < 32 := foldSlice_lt 9 l
  refine ⟨?_, Or.inl (by omega)⟩
  rw [unitSpire, if_neg (by omega), if_neg (by omega)]

theorem counted_writeBack {k : Nat} {e : Line} (he : SMap.find s.dome.lines k = some e) (hd : e.dirty = true) :
    Counted s (s.writeBack k) (aDomeCnt 2) := by
  rw [State.writeBack, he]
  dsimp only
  rw [hd, if_pos rfl]
  exact counted_bump ..

/-- The state in which a lost dirty line's error stands in the tier and in its way (R881). -/
def State.lineLost (s : State) (a w : Nat) (e : Line) : State :=
  ((s.writeBack (wayKey (a / 128) w)).spoil a).putLine (wayKey (a / 128) w) { e with dirty := false, bad := 2 ^ 128 - 1 }

theorem tierBad_spoil (s : State) (a : Nat) : (s.spoil a).tierBad (a / 128) = 2 ^ 128 - 1 := by
  rw [State.tierBad, State.spoil, State.setTierBad, SMap.get_set, if_pos rfl]

theorem lineLost_spec {w : Nat} {e : Line} (he : SMap.find s.dome.lines (wayKey (a / 128) w) = some e) (hd : e.dirty = true) :
    let v := s.lineLost a w e
    v.tierBad (a / 128) = 2 ^ 128 - 1 ∧ (∀ b, b ≠ aDomeCnt 2 → v.reg b = s.reg b) ∧ Counted s v (aDomeCnt 2) ∧ v.mem = s.mem ∧ v.tasks = s.tasks
      ∧ v.tick = s.tick ∧ v.holdsAt (wayKey (a / 128) w) { e with dirty := false, bad := 2 ^ 128 - 1 } := by
  obtain ⟨hregs, hmem, -⟩ := writeBack_spec s (wayKey (a / 128) w)
  have hcount := counted_writeBack he hd
  obtain ⟨_, _, _, _, hdome⟩ := writeBack_dome s (wayKey (a / 128) w)
  have htasks : (s.writeBack (wayKey (a / 128) w)).tasks = s.tasks := by rw [hdome]
  have htick : (s.writeBack (wayKey (a / 128) w)).tick = s.tick := by rw [hdome]
  exact ⟨tierBad_spoil .., hregs, hcount, hmem, htasks, htick, (find_put ..).trans (if_pos rfl)⟩

theorem ueDirty_eq {w : Nat} {e : Line} (hw : s.findWay (a / 128) = some w) (he : s.holdsAt (wayKey (a / 128) w) e) :
    exec (.uncorrectableError (.dirty a)) s = .next (if e.dirty then
      ((s.lineLost a w e).noteFault (0x500 + lineSlice (a / 128))).ueFound (0x500 + lineSlice (a / 128)) (a / 128 * 128) else s) := by
  rw [State.holdsAt] at he
  rw [exec_uncorrectableError, execUncorrectableError, hw]
  dsimp only
  rw [he]
  rfl

theorem ueDirty_absent (h : s.findWay (a / 128) = none) : exec (.uncorrectableError (.dirty a)) s = .next s := by
  rw [exec_uncorrectableError, execUncorrectableError, h]

theorem runs_ueDirty {w : Nat} {e : Line} (hw : s.findWay (a / 128) = some w) (he : s.holdsAt (wayKey (a / 128) w) e) (hd : e.dirty = true) :
    Runs (.uncorrectableError (.dirty a)) s fun t => t.tierBad (a / 128) = 2 ^ 128 - 1
      ∧ Reported t 0x05 (0x500 + lineSlice (a / 128)) ∧ Counted s t (aErr 0x114) ∧ Counted s t (aDomeCnt 2) ∧ t.mem = s.mem
      ∧ t.tasks = s.tasks ∧ t.holdsAt (wayKey (a / 128) w) { e with dirty := false, bad := 2 ^ 128 - 1 }
      ∧ (s.tick, 0x500 + lineSlice (a / 128)) ∈ t.stops := by
  obtain ⟨hbad, hregs, hdome, hmem, htasks, htick, hline⟩ := lineLost_spec he hd
  have hexec := ueDirty_eq hw he
  rw [hd, if_pos rfl, noteFault_of_stays (stays_slice _)] at hexec
  generalize s.lineLost a w e = v at hbad hregs hdome hmem htasks htick hline hexec
  obtain ⟨hcount, hrep, hlogs, hkept⟩ := ueFound_spec (v.faultNoted (0x500 + lineSlice (a / 128))) (0x500 + lineSlice (a / 128)) (a / 128 * 128)
  have hue : v.reg (aErr 0x114) = s.reg (aErr 0x114) := hregs _ (by decide)
  have hwb := hkept (aDomeCnt 2) (by decide)
  refine ⟨_, hexec, ?_, hrep, ?_, ?_, ?_⟩
  · rw [hlogs]; exact hbad
  · rw [Counted, ← hue]; exact hcount
  · rw [Counted, hwb]; exact hdome
  · rw [hlogs]
    refine ⟨hmem, htasks, hline, List.mem_append_right _ ?_⟩
    rw [htick, failKey_of_stays (stays_slice _)]
    exact List.mem_singleton_self _

/-! ### Uncorrectable errors in the journal (R882) -/

theorem ueJournal_idle (h : ∀ x, s.task? key asn = some x → s.recorded x = true ∨ x.accepted = false) :
    exec (.uncorrectableError (.journal key asn)) s = .next s := by
  rw [exec_uncorrectableError, execUncorrectableError]
  dsimp only
  cases hx : s.task? key asn with
  | none => rfl
  | some x =>
    have hguard : (s.recorded x || !x.accepted) = true := by
      rcases h x hx with h | h <;> simp [h]
    dsimp only
    rw [hguard, if_pos rfl]

theorem runs_ueJournal {x : Task} (hx : s.task? key asn = some x) (hr : s.recorded x = false) (ha : x.accepted = true) :
    Runs (.uncorrectableError (.journal key asn)) s fun t => t.endedWith key asn 0x0100 0xFFFF := by
  obtain ⟨-, -, hlogs, -⟩ := ueFound_spec s (0x568 + s.journal.a) 0
  have hvx : (s.ueFound (0x568 + s.journal.a) 0).task? key asn = some x := by rw [State.task?, hlogs]; exact hx
  have hvr : (s.ueFound (0x568 + s.journal.a) 0).recorded x = false := by rw [State.recorded, State.key, hlogs]; exact hr
  have hlost := loseTask_lostWith hvx hvr ha
  have hexec : exec (.uncorrectableError (.journal key asn)) s = .next (if s.stoppable key asn then
      ((s.ueFound (0x568 + s.journal.a) 0).loseTask key asn).noteFault (0x568 + s.journal.a)
        else (s.ueFound (0x568 + s.journal.a) 0).loseTask key asn) := by
    rw [exec_uncorrectableError, execUncorrectableError, hx]
    dsimp only
    rw [hr, ha, Bool.not_true, Bool.or_false, if_neg Bool.false_ne_true]
  refine ⟨_, hexec, ?_⟩
  split
  · exact (hlost.noteFault _).endedWith
  · exact hlost.endedWith

/-! ### Patrol scrub (R271, R274, R275) -/

/-- The tier that holds an address is in self-refresh (R271, R273). -/
def State.scrubIdle (s : State) (a : Nat) : Bool := if a < glacierBase then s.pins.nearSelfRefresh else s.pins.glacierSelfRefresh

theorem scrub_idle (r : ScrubResult) (h : s.tierAt a = false ∨ s.scrubIdle a = true) : exec (.patrolScrub a r) s = .next s := by
  have hguard : (!s.tierAt a || s.scrubIdle a) = true := by
    rcases h with h | h <;> simp [h]
  exact if_pos hguard

theorem scrub_eq (r : ScrubResult) (ht : s.tierAt a = true) (hi : s.scrubIdle a = false) : exec (.patrolScrub a r) s
    = if s.tierBad (a / 128) ≠ 0 ∨ r = .uncorrectable then
        .next (((if s.tierBad (a / 128) = 0 then s.spoil a else s).ueFound (s.place a).unit a).noteFault (s.place a).unit)
      else if r == .corrected then .next (s.corrected (s.place a).unit a)
      else .next s := by
  have hguard : ¬ (!s.tierAt a || s.scrubIdle a) = true := by simp [ht, hi]
  exact if_neg hguard

/-- The first fault of a unit stays below a limit above one (R883). -/
theorem failCount_first (h : ∀ e ∈ s.stops, e.2 ≠ failKey u) : (s.faultNoted u).failCount u = 1 := by
  have hnone : (s.stops.filter fun e => decide (s.tick ≤ e.1 + 1000000000)).filter
      (fun e => e.2 == failKey u && decide (s.tick ≤ e.1 + 1000000000)) = [] := by
    refine List.filter_eq_nil_iff.mpr fun e he => ?_
    simp [h e (List.mem_of_mem_filter he)]
  unfold State.failCount State.faultNoted
  dsimp only
  rw [List.filter_append, hnone]
  simp

theorem runs_scrubBad {r : ScrubResult} (ht : s.tierAt a = true) (hi : s.scrubIdle a = false)
    (hbad : s.tierBad (a / 128) ≠ 0 ∨ r = .uncorrectable) (hnew : ∀ e ∈ s.stops, e.2 ≠ failKey (s.place a).unit) (hlimit : 1 < s.failLimit) :
    Runs (.patrolScrub a r) s fun t => t.tierBad (a / 128) = (if s.tierBad (a / 128) = 0 then 2 ^ 128 - 1 else s.tierBad (a / 128))
      ∧ Reported t 0x05 (s.place a).unit ∧ Counted s t (aErr 0x114) ∧ t.mem = s.mem ∧ t.tasks = s.tasks
      ∧ (s.tick, failKey (s.place a).unit) ∈ t.stops := by
  have hexec := scrub_eq r ht hi
  rw [if_pos hbad] at hexec
  have hspoilt : ∃ v : State, v = (if s.tierBad (a / 128) = 0 then s.spoil a else s) ∧ v = { s with badBytes := v.badBytes }
      ∧ v.tierBad (a / 128) = if s.tierBad (a / 128) = 0 then 2 ^ 128 - 1 else s.tierBad (a / 128) := by
    refine ⟨_, rfl, ?_⟩
    split
    · exact ⟨rfl, tierBad_spoil ..⟩
    · exact ⟨rfl, rfl⟩
  obtain ⟨v, hv, hframe, hline⟩ := hspoilt
  rw [← hv] at hexec
  obtain ⟨hcount, hrep, hlogs, hkept⟩ := ueFound_spec v (s.place a).unit a
  generalize v.ueFound (s.place a).unit a = w at hexec hcount hrep hlogs hkept
  have hreg : ∀ b, v.reg b = s.reg b := fun b => by rw [hframe]; rfl
  have hstops : w.stops = s.stops := by rw [hlogs, hframe]
  have htick : w.tick = s.tick := by rw [hlogs, hframe]
  have hlim : (w.faultNoted (s.place a).unit).failLimit = s.failLimit := by
    have hreg4 : w.reg (aErr 0x004) = s.reg (aErr 0x004) := (hkept _ (by decide)).trans (hreg _)
    exact congrArg (rfld · 0 4) hreg4
  have hbelow : (w.faultNoted (s.place a).unit).failCount (s.place a).unit < (w.faultNoted (s.place a).unit).failLimit := by
    rw [failCount_first (hstops ▸ hnew), hlim]
    exact hlimit
  rw [noteFault_of_below hbelow] at hexec
  have hbytes : w.badBytes = v.badBytes := by rw [hlogs]
  have hmem : w.mem = s.mem := by rw [hlogs, hframe]
  have htasks : w.tasks = s.tasks := by rw [hlogs, hframe]
  refine ⟨_, hexec, ?_, hrep, ?_, hmem, htasks, List.mem_append_right _ ?_⟩
  · rw [← hline, State.tierBad, State.tierBad, ← hbytes]
    rfl
  · rw [Counted, ← hreg]
    exact hcount
  · rw [htick]
    exact List.mem_singleton_self _

theorem scrub_clauses (ht : s.tierAt a = true) (hi : s.scrubIdle a = false) :
    (s.tierBad (a / 128) = 0 → exec (.patrolScrub a .clean) s = .next s)
    ∧ (s.tierBad (a / 128) = 0 → Runs (.patrolScrub a .corrected) s fun t => Counted s t (aErr 0x110) ∧ Reported t 0x04 (s.place a).unit
        ∧ t.mem = s.mem ∧ t.tasks = s.tasks ∧ t.badBytes = s.badBytes) := by
  refine ⟨fun hbad => ?_, fun hbad => ?_⟩
  · rw [scrub_eq _ ht hi, if_neg (by simp [hbad])]
    rfl
  · obtain ⟨hcount, hrep, hmem, htasks, -, hbytes⟩ := corrected_clauses s (s.place a).unit a
    exact ⟨_, by rw [scrub_eq _ ht hi, if_neg (by simp [hbad])]; rfl, hcount, hrep, hmem, htasks, hbytes⟩

/-! ### Records close (R891) -/

theorem exec_recordClose (n : Nat) : exec (.recordClose n) s = execRecordClose n s := rfl

/-- What the root of a cluster does not move, no change of root moves. -/
theorem map_followRoot {α : Type} {g : ErrRec → α} (hg : ∀ r q b, g { r with rootSeq := q, root := b } = g r) (rs : List ErrRec) (cl : Nat) :
    (followRoot rs cl).map g = rs.map g := by
  unfold followRoot
  split
  · rfl
  · rw [List.map_map]
    refine List.map_congr_left fun r _ => ?_
    rw [Function.comp_apply]
    split
    · exact hg ..
    · rfl

/-- The record of that number alone closes, and no record's number changes. -/
theorem closeRec_spec (rs : List ErrRec) (e : ErrRec) :
    (closeRec rs e).map (fun x => x.isOpen) = rs.map (fun x => x.isOpen && x.seq != e.seq)
    ∧ (closeRec rs e).map (fun x => x.seq) = rs.map (fun x => x.seq) := by
  rw [closeRec, map_followRoot fun _ _ _ => rfl, map_followRoot fun _ _ _ => rfl, List.map_map, List.map_map]
  refine ⟨List.map_congr_left fun x _ => ?_, List.map_congr_left fun x _ => ?_⟩
  · rw [Function.comp_apply]
    split
    case isTrue hseq => simp [hseq]
    case isFalse hseq => split <;> simp [hseq]
  · rw [Function.comp_apply]
    split
    · rfl
    · split <;> rfl

theorem recordClose_none (n : Nat) (h : (s.errs.find? fun (e : ErrRec) => e.isOpen) = none) : exec (.recordClose n) s = .next s := by
  rw [exec_recordClose, execRecordClose, h]

theorem recordClose_clauses {n : Nat} {e : ErrRec} (h : (s.errs.find? fun (e : ErrRec) => e.isOpen) = some e) :
    (e.seq ≠ n → exec (.recordClose n) s = .next s)
    ∧ (e.seq = n → Runs (.recordClose n) s fun t =>
        t = { s with tick := min (max s.tick (e.first + 1000000)) (2 ^ 64 - 1), errs := t.errs }
        ∧ t.errs.map (fun (x : ErrRec) => x.isOpen) = s.errs.map (fun (x : ErrRec) => x.isOpen && x.seq != n)
        ∧ t.errs.map (fun (x : ErrRec) => x.seq) = s.errs.map (fun (x : ErrRec) => x.seq)) := by
  rw [Runs, exec_recordClose, execRecordClose, h]
  refine ⟨fun hn => if_pos hn, fun hn => ?_⟩
  subst hn
  exact ⟨_, if_neg (not_not_intro rfl), rfl, closeRec_spec s.errs e⟩

end Sys2Proof.Machine
end

section
namespace Sys2Proof.Machine

/-! ## Errors, their reports and the tasks they stop (R271-R275, R859-R866, R878-R882, R891) -/

/-- Settles O58, from what a unit's fault leaves of a task that no fault stops any more, and from what each report counts. -/
theorem faultReports : Obligations.FaultReports := by
  unfold Obligations.FaultReports
  intro s
  refine ⟨fun link receiver n owners waiters => ?_, fun u key asn => ⟨stateParity_idle, fun x hx hu => stateParity_clauses hx hu⟩,
    correctedUnit_clauses s, correctedMemory_clauses s,
    fun a key asn => ⟨ueRead_idle, fun x ht hg hx hc hj => ueRead_clauses ht hg hx hc hj⟩,
    fun a => ⟨ueDirty_absent, fun w e hw he => ⟨fun hd => ?_, runs_ueDirty hw he⟩⟩,
    fun key asn => ⟨fun h => ueJournal_idle (by simp [h]), fun x hx => ⟨fun h => ueJournal_idle (by simpa [hx] using h), runs_ueJournal hx⟩⟩,
    fun a => ⟨fun r => scrub_idle r, fun ht hi => ?_⟩, fun n => ⟨recordClose_none n, fun e he => recordClose_clauses he⟩⟩
  · intro x isLink_ named
    have hguard : (!isLink link || !isUnit receiver || !waiters.all isUnit) = false ↔ isLink_ ∧ named := linkGuard_iff
    refine ⟨fun h => transfer_idle (Bool.eq_true_of_not_eq_false fun hg => ?_), fun hl hn => runs_replay (hguard.mpr ⟨hl, hn⟩),
      fun hl hn => runs_linkLost (hguard.mpr ⟨hl, hn⟩)⟩
    obtain ⟨hl, hn⟩ := hguard.mp hg
    exact h.elim (fun h => h hl) fun h => h hn
  · rw [ueDirty_eq hw he, hd, if_neg Bool.false_ne_true]
  · obtain ⟨hclean, hcorrected⟩ := scrub_clauses ht hi
    exact ⟨hclean, hcorrected, fun r => runs_scrubBad ht hi⟩

end Sys2Proof.Machine
end
